-- ==== Sys2Proof/Word.lean ====
section
/-! DEFINITION. The plainest words of the module: bytes, 64-bit words, and the sparse tables in which
the state keeps everything the module holds many of. -/

namespace Sys2Proof

/-- One byte (R10). -/
abbrev Byte := BitVec 8

/-- A 64-bit word: an address or a register of a Hearth core. -/
abbrev Word := BitVec 64

/-- A sparse table: pairs of key and entry, keys rising. An entry not listed is at the default of
its kind. -/
abbrev Tab (α : Type) := List (Nat × α)

end Sys2Proof
end

