-- ==== Sys2Proof/Syntax.lean ====
section
/-! DEFINITION. The commands the module takes, one constructor for each row of the table of
operations and events, and the operands they carry. -/

namespace Sys2Proof

/-- Bytes in ascending address order. -/
abbrev Bytes := List Byte
/-- A list of numbers, an operand of several events. -/
abbrev NatList := List Nat
/-- A list of levels, an operand of the boundary scan. -/
abbrev BoolList := List Bool
/-- An operand that may be absent. -/
abbrev OptNat := Option Nat

/-- A path by which a command frame reaches Ember (R54, R245). The path fixes the partition. -/
inductive Path where
  /-- Mailbox page of partition `p`. -/
  | page (p : Nat)
  /-- Vendor-defined MCTP messages in PCIe, from the upstream port of partition `p`. -/
  | vdm (p : Nat)
  /-- The sideband, always partition 0. -/
  | sideband
  /-- Mailbox page of Hearth cluster `c`. -/
  | hearth (c : Nat)
  /-- A relay from manager module `m`. -/
  | relay (m : Nat)
  deriving DecidableEq, Repr, Inhabited

/-- A command frame after its OPCODE (R66): FLAGS, TAG, LENGTH, TARGET, the 19 reserved bytes and
the payload. -/
structure Req where
  /-- FLAGS, 16 bits. -/
  flags : Nat := 0
  /-- TAG. -/
  tag : BitVec 32 := 0
  /-- LENGTH. -/
  length : Nat := 0
  /-- TARGET. -/
  target : Nat := 0
  /-- The 19 reserved bytes from 0x0D. -/
  rsvd : BitVec 152 := 0
  /-- Payload bytes, from frame offset 0x20; bytes past the end read 0. -/
  payload : Bytes := []
  deriving DecidableEq, Repr, Inhabited

/-- The register spaces a write without a row of its own can reach (R17, R449, R336, R394). -/
inductive RegSpace where
  /-- BAR0 of partition `p`'s management function. -/
  | bar0 (p : Nat)
  /-- BAR2 of partition `p`'s management function. -/
  | bar2 (p : Nat)
  /-- Expansion ROM of partition `p`. -/
  | rom (p : Nat)
  /-- BAR0 of vNIC function `f`. -/
  | vnic (f : Nat)
  /-- Control block of Hearth cluster `c`. -/
  | cluster (c : Nat)
  deriving DecidableEq, Repr, Inhabited

/-- Kinds of PCIe memory request (R133, R282, R94). -/
inductive MemKind where
  /-- Memory read. -/
  | read
  /-- Posted memory write. -/
  | write
  /-- FetchAdd AtomicOp. -/
  | fetchAdd
  /-- Swap AtomicOp. -/
  | swap
  /-- Compare and swap AtomicOp. -/
  | cas
  /-- Translation Request. -/
  | translation
  deriving DecidableEq, Repr, Inhabited

/-- A memory request as it arrives at a PCIe port. -/
structure MemReq where
  /-- What is requested. -/
  kind : MemKind := .read
  /-- Address of the first byte. -/
  addr : Word := 0
  /-- Length in bytes. -/
  len : Nat := 4
  /-- Data of a write; operands of an AtomicOp. -/
  data : Bytes := []
  /-- Requester ID. -/
  rid : Nat := 0
  /-- Tag, up to 14 bits. -/
  tag : Nat := 0
  /-- PASID, when present. -/
  pasid : Option Nat := none
  /-- AT field. -/
  atField : Nat := 0
  /-- ATTR: [2] IDO, [1] RO, [0] No Snoop. -/
  attr : Nat := 0
  /-- EP. -/
  ep : Bool := false
  /-- PCIe traffic class. -/
  ptc : Nat := 0
  /-- First DW byte enables. -/
  fbe : Nat := 15
  /-- Last DW byte enables. -/
  lbe : Nat := 15
  deriving DecidableEq, Repr, Inhabited

/-- What Ember reads of a device at enumeration (R115, R32, R96, R99, R145). -/
structure DevInfo where
  /-- TotalVFs of the SR-IOV capability; 0 without one. -/
  totalVfs : Nat := 0
  /-- The PF has the ACS capability. -/
  acs : Bool := false
  /-- Its BARs can be placed. -/
  placeable : Bool := true
  /-- 10-bit tag completer. -/
  tag10 : Bool := true
  /-- Max Payload Size of the link, bytes. -/
  mps : Nat := 512
  /-- Max Read Request Size of the port, bytes. -/
  mrrs : Nat := 512
  deriving DecidableEq, Repr, Inhabited

/-- A completion as it arrives at a PCIe port (R96). -/
structure Cpl where
  /-- Tag on the link. -/
  tag : Nat := 0
  /-- Completer ID. -/
  cid : Nat := 0
  /-- Requester ID. -/
  rid : Nat := 0
  /-- Completion status: 0 Successful, 1 Unsupported Request, 2 Request Retry Status, 4 Completer Abort. -/
  status : Nat := 0
  /-- Byte count. -/
  bcount : Nat := 0
  /-- Lower address. -/
  laddr : Nat := 0
  /-- EP. -/
  ep : Bool := false
  /-- Data. -/
  data : Bytes := []
  /-- What enumeration finds, when this completion begins it. -/
  dev : DevInfo := {}
  deriving DecidableEq, Repr, Inhabited

/-- A PCIe message from a device (R111, R119). -/
structure PcieMsg where
  /-- Message code. -/
  code : Nat := 0
  /-- Data. -/
  data : Bytes := []
  deriving DecidableEq, Repr, Inhabited

/-- A configuration request (R108). -/
structure CfgReq where
  /-- Type 0: the request is for the device on the upstream link itself; else type 1, routed by its bus. -/
  type0 : Bool := true
  /-- Bus number. -/
  bus : Nat := 0
  /-- Device number. -/
  dev : Nat := 0
  /-- Function number. -/
  fn : Nat := 0
  /-- A write, else a read. -/
  write : Bool := false
  /-- Register byte offset, a multiple of 4. -/
  reg : Nat := 0
  /-- Byte enables. -/
  be : BitVec 4 := 15
  /-- Data of a write. -/
  value : BitVec 32 := 0
  /-- Requester ID. -/
  rid : Nat := 0
  /-- Tag. -/
  tag : Nat := 0
  deriving DecidableEq, Repr, Inhabited

/-- What TARGET_LOST names (R112). -/
inductive LostTarget where
  /-- The device of a physical port. -/
  | port (n : Nat)
  /-- A remote module. -/
  | module (m : Nat)
  deriving DecidableEq, Repr, Inhabited

/-- A packet in the core: the header fields of R154 that all its cells share, the transaction
descriptor of R158 and the data. -/
structure Pkt where
  /-- EPOCH. -/
  epoch : Nat := 0
  /-- PSEQ. -/
  pseq : Nat := 0
  /-- PART. -/
  part : Nat := 0
  /-- SMOD. -/
  smod : Nat := 0
  /-- SRC, source core port. -/
  src : Nat := 0
  /-- Source core port on module SMOD, which the link packet header carries (R201). -/
  sport : Nat := 0
  /-- DST, destination core port. -/
  dst : Nat := 0
  /-- Destination module. -/
  dmod : Nat := 0
  /-- TC. -/
  tc : Nat := 0
  /-- COLOUR: 0 green, 1 yellow, 2 red. -/
  colour : Nat := 0
  /-- RO. -/
  ro : Bool := false
  /-- ABORT: the packet ends and is bad. -/
  abort : Bool := false
  /-- Cause byte of the abort trailer (R203). -/
  abortCause : Nat := 0
  /-- SPILLED. -/
  spilled : Bool := false
  /-- TRK. -/
  trk : Nat := 0
  /-- TRKV. -/
  trkv : Bool := false
  /-- PTYPE. -/
  ptype : Nat := 0
  /-- ACTION. -/
  action : Nat := 0
  /-- ACT_ARG. -/
  actArg : Nat := 0
  /-- TSTAMP. -/
  tstamp : BitVec 64 := 0
  /-- FHASH. -/
  fhash : Nat := 0
  /-- HOPS on the last fabric link (R201). -/
  hops : Nat := 0
  /-- NUNITS 0: the length is not known at the head (R202). -/
  openLen : Bool := false
  /-- The model's own: order of lookup on this module (R265). -/
  order : Nat := 0
  /-- The model's own: priority under which a received frame waits for the core (R349). -/
  prio : Nat := 0
  /-- The model's own: the lookup resolved it through its partition's expansion ROM window, so that it completes under that result
  whatever becomes of the window (R28, R45, R59). -/
  rom : Bool := false
  /-- The model's own: later cells of the packet have still to arrive at this module (R178, R220). -/
  more : Bool := false
  /-- The model's own: number of the packet on the fabric link it arrives by (R211). -/
  rxId : Nat := 0
  /-- Transaction descriptor. -/
  desc : BitVec 256 := 0
  /-- Data after the descriptor. -/
  data : Bytes := []
  deriving DecidableEq, Repr, Inhabited

/-- A link flit (R197). -/
structure Flit where
  /-- SEQ. -/
  seq : BitVec 16 := 0
  /-- ACK. -/
  ack : BitVec 16 := 0
  /-- XOFF map. -/
  xoff : BitVec 8 := 0
  /-- FTYPE. -/
  ftype : Nat := 0
  /-- VC. -/
  vc : Nat := 0
  /-- ACKV. -/
  ackv : Bool := false
  /-- UNITS. -/
  units : Nat := 0
  /-- FIRST; 15 none. -/
  first : Nat := 15
  /-- END; 15 none. -/
  last : Nat := 15
  /-- Payload units; units past the end are zero. -/
  payload : List (BitVec 128) := []
  deriving DecidableEq, Repr, Inhabited

/-- A TRAIN record (R217). -/
structure TrainRec where
  /-- MODULE. -/
  module : Nat := 0
  /-- LINK. -/
  link : Nat := 0
  /-- MAX_WIDTH. -/
  maxWidth : Nat := 4
  /-- REQ_WIDTH. -/
  reqWidth : Nat := 4
  /-- REQ_RATE. -/
  reqRate : Nat := 2
  /-- LANES_OK. -/
  lanesOk : BitVec 4 := 0
  /-- FLAGS[0] STREAM_RESET. -/
  streamReset : Bool := false
  /-- FLAGS[1] ECHO_REQ. -/
  echoReq : Bool := false
  /-- FLAGS[2] ECHO_RSP. -/
  echoRsp : Bool := false
  /-- FLAGS[3] RX_LAST_V. -/
  rxLastV : Bool := false
  /-- CAUSE. -/
  cause : Nat := 0
  /-- RX_LAST. -/
  rxLast : BitVec 16 := 0
  /-- TURN_NS. -/
  turnNs : Nat := 0
  /-- A framing error was the cause of STREAM_RESET (fault source 13, R225). -/
  framing : Bool := false
  deriving DecidableEq, Repr, Inhabited

/-- One codeword pair received on a lane (R195, R196). -/
structure PairRx where
  /-- Position in the symbol stream at which the marker's 40 bits were taken. -/
  pos : Nat := 0
  /-- Those 40 bits. -/
  marker : BitVec 40 := 0
  /-- Both codewords decoded. -/
  decoded : Bool := true
  deriving DecidableEq, Repr, Inhabited

/-- What a receive lane has seen while a link aligns (R196). -/
structure LaneRx where
  /-- Its latest pairs, oldest first. -/
  pairs : List PairRx := []
  /-- Time in ps by which its pairs arrive behind those of the earliest lane. -/
  skewPs : Nat := 0
  deriving DecidableEq, Repr, Inhabited

/-- What the receive lanes of link `l` have seen when it aligns, from lane 0 (R196). -/
structure LinkAlign where
  /-- The link. -/
  l : Nat := 0
  /-- Its four receive lanes. -/
  rx : List LaneRx := []
  deriving DecidableEq, Repr, Inhabited

/-- The pairs at which a receive lane has lost its lock, oldest first (R196). -/
structure LaneRun where
  /-- The receive lane. -/
  lane : Nat := 0
  /-- Its latest pairs. -/
  pairs : List PairRx := []
  deriving DecidableEq, Repr, Inhabited

/-- PERST_N of an upstream port is driven low for `ns` before it is released (R116, R117). -/
structure PerstPulse where
  /-- The port. -/
  port : Nat := 0
  /-- Width of the pulse. -/
  ns : Nat := 0
  deriving DecidableEq, Repr, Inhabited

/-- How an SPDM authentication of a peer goes on (R242, R243). -/
inductive SpdmResult where
  /-- A response that is not the last. -/
  | progress
  /-- The last: identity digest, firmware version and security version verified. -/
  | success (digest : BitVec 384) (fw : BitVec 32) (svn : Nat)
  /-- The attempt failed. -/
  | failed
  deriving DecidableEq, Repr, Inhabited

/-- What error correction finds when memory is read (R274, R275). -/
inductive Ecc where
  /-- No error. -/
  | ok
  /-- Corrected; the rank and device of the error (R276). -/
  | corrected (dev : Nat)
  /-- Uncorrectable. -/
  | bad
  deriving DecidableEq, Repr, Inhabited

/-- What error correction finds in each 64-byte line of a read, from its first; nothing in those beyond the list. -/
abbrev Eccs := List Ecc

/-- Operations a pool port executes (R270, R282, R283). -/
inductive PoolOp where
  /-- Read of `len` bytes. -/
  | read (len : Nat)
  /-- Write of `data`, poisoned when `ep`. -/
  | write (data : Bytes) (ep : Bool)
  /-- FetchAdd of `size` bytes. -/
  | fetchAdd (size : Nat) (v : Word)
  /-- Swap of `size` bytes. -/
  | swap (size : Nat) (v : Word)
  /-- Compare and swap with operands of `size` bytes in all. -/
  | cas (size : Nat) (cmp new : Word)
  /-- Read of a 256-byte granule with reservation. -/
  | reserve
  /-- Conditional write within the reserved granule. -/
  | conditional (data : Bytes)
  deriving DecidableEq, Repr, Inhabited

/-- An agent that reaches a pool port other than by a packet of this module's own lookup (R270). -/
inductive PoolAgent where
  /-- Ember. -/
  | ember
  /-- Retort engine 0 to 3. -/
  | retort (e : Nat)
  /-- The spill engine. -/
  | spill
  /-- The counter gatherer, for partition `p`'s sweep region. -/
  | gatherer (p : Nat)
  /-- Partition `p` through its ROM window. -/
  | rom (p : Nat)
  /-- Partition `p` through its BAR2. -/
  | bar2 (p : Nat)
  /-- A Hearth cluster. -/
  | hearth (c : Nat)
  deriving DecidableEq, Repr, Inhabited

/-- An access at a pool port (R270): the oldest packet delivered to the port, or an access of an
agent that has no packet in this model. -/
inductive PoolAcc where
  /-- The oldest packet the core has released to the port. -/
  | queued
  /-- An access of `agent` to byte `off` of sod `sod`. -/
  | direct (agent : PoolAgent) (sod off : Nat) (op : PoolOp)
  deriving DecidableEq, Repr, Inhabited

/-- A PTYPE 5 packet between engines (R309). -/
structure EngPkt where
  /-- GROUP. -/
  group : Nat := 0
  /-- CHUNK. -/
  chunk : Nat := 0
  /-- PKIND: 0 partial, 1 result, 2 forwarded contribution, 3 failure notice. -/
  pkind : Nat := 0
  /-- FIRST_ELEM, or the byte within the chunk. -/
  first : Nat := 0
  /-- NELEM, or the slot in its bits [12:5]. -/
  nelem : Nat := 0
  /-- FMT. -/
  fmt : Nat := 0
  /-- OP. -/
  op : Nat := 0
  /-- FLAGS POISON. -/
  poison : Bool := false
  /-- FLAGS OVF. -/
  ovf : Bool := false
  /-- FLAGS NAN. -/
  nan : Bool := false
  /-- FLAGS LAST. -/
  last : Bool := false
  /-- GEN. -/
  gen : Nat := 0
  /-- CAUSE. -/
  cause : Nat := 0
  /-- Module it comes from. -/
  smod : Nat := 0
  /-- Data. -/
  data : Bytes := []
  deriving DecidableEq, Repr, Inhabited

/-- A transmit descriptor with the bytes of its buffer (R337). -/
structure TxDesc where
  /-- BUF_ADDR. -/
  addr : Word := 0
  /-- BUF_LEN. -/
  len : Nat := 0
  /-- FLAGS. -/
  flags : BitVec 16 := 0
  /-- TCI. -/
  tci : Nat := 0
  /-- MSS. -/
  mss : Nat := 0
  /-- L2LEN. -/
  l2len : Nat := 14
  /-- L4LEN. -/
  l4len : Nat := 20
  /-- L3LEN. -/
  l3len : Nat := 20
  /-- The bytes read from the buffer. -/
  data : Bytes := []
  deriving DecidableEq, Repr, Inhabited

/-- What one step of a descriptor fetch has read of host memory: the 32 bytes of a transmit descriptor and the bytes of its
buffer (R11, R337). -/
structure TxRaw where
  /-- The descriptor, byte at the lowest offset first. -/
  desc : Bytes := []
  /-- The bytes read from the buffer. -/
  data : Bytes := []
  deriving DecidableEq, Repr, Inhabited

/-- The descriptors a fetch has read, in ring order. -/
abbrev TxRaws := List TxRaw

/-- AMO operations of the A extension (R410). -/
inductive AmoOp where
  /-- amoswap -/
  | swap
  /-- amoadd -/
  | add
  /-- amoxor -/
  | xor
  /-- amoand -/
  | and
  /-- amoor -/
  | or
  /-- amomin -/
  | min
  /-- amomax -/
  | max
  /-- amominu -/
  | minu
  /-- amomaxu -/
  | maxu
  deriving DecidableEq, Repr, Inhabited

/-- A debugger's abstract command on one core (R415). -/
inductive DbgCmd where
  /-- Read integer register `r`. -/
  | readX (r : Nat)
  /-- Write integer register `r`. -/
  | writeX (r : Nat) (v : Word)
  /-- Read floating-point register `r`. -/
  | readF (r : Nat)
  /-- Write floating-point register `r`. -/
  | writeF (r : Nat) (v : Word)
  /-- Read CSR `n`. -/
  | readCsr (n : Nat)
  /-- Write CSR `n`. -/
  | writeCsr (n : Nat) (v : Word)
  /-- Read `size` bytes of memory at a physical address. -/
  | readMem (addr : Word) (size : Nat)
  /-- Write `size` bytes of memory at a physical address. -/
  | writeMem (addr : Word) (size : Nat) (v : Word)
  deriving DecidableEq, Repr, Inhabited

/-- What Kindling and Ember find in the world at a start (R258, R277, R534, R535): the RDIMMs of each
channel, channels that fail training, blocks with a macro newly repaired, and blocks that fail boot BIST. -/
structure BootEnv where
  /-- For each channel C00 to C15: number of RDIMMs, capacity in GiB, part organisation. -/
  dimms : List (Nat × Nat × Nat) := []
  /-- Channels that fail training. -/
  badChannels : List Nat := []
  /-- Blocks that fail boot BIST, when an option record enables it. -/
  bistFails : List Nat := []
  /-- Blocks in which the fast march of step 3 finds a new repair, one entry for each. -/
  newRepairs : List Nat := []
  /-- Channels whose canary no longer reads back as written (R280). -/
  lostCanaries : List Nat := []
  deriving DecidableEq, Repr, Inhabited

/-- One telemetry sample (R501). -/
structure TeleSample where
  /-- VIN, 10 mV. -/
  vin : Nat := 0
  /-- VHOLD, 10 mV. -/
  vhold : Nat := 0
  /-- Input current, mA. -/
  iin : Nat := 0
  /-- Input power, 0.1 W. -/
  pin : Nat := 0
  /-- 12 V bus, 10 mV. -/
  bus12v : Nat := 0
  /-- 12 V bus current, 10 mA. -/
  bus12i : Nat := 0
  /-- VDD_CORE, mV. -/
  vddCore : Nat := 0
  /-- VDD_CORE current, 0.1 A. -/
  coreI : Nat := 0
  /-- Sensors 9 to 14, mV. -/
  rails : List Nat := []
  /-- Junction temperature, 0.5 degrees C. -/
  tj : Nat := 0
  /-- Input stage temperature, degrees C. -/
  tInput : Nat := 0
  deriving DecidableEq, Repr, Inhabited

/-- What Ember measures during one margin plan (R537, R539, R545). -/
structure PlanMeas where
  /-- CORE_K in 1/10,000, at the start and after each rail step. -/
  coreK : List Nat := []
  /-- A Hearth loop projects an issue handshake above 0.50 ns. -/
  hearthSlow : Bool := false
  /-- Margins of lanes after re-adaptation, by lane. -/
  readapted : List (Nat × Nat) := []
  /-- Mean junction temperature of the last hour, degrees C. -/
  tjHour : Nat := 90
  /-- Highest hourly mean of the last 30 days, degrees C. -/
  tjMax30 : Nat := 90
  /-- Mean of the last 30 days, degrees C. -/
  tjMean30 : Nat := 90
  /-- Powered hours since the last plan. -/
  hours : Nat := 1
  deriving DecidableEq, Repr, Inhabited

/-- A clocked domain held in reset for lack of its reference clock (R460, R562). -/
inductive ClkDom where
  /-- Fabric SerDes. -/
  | fabric
  /-- Ethernet SerDes. -/
  | ethernet
  /-- Station `n`. -/
  | station (n : Nat)
  deriving DecidableEq, Repr, Inhabited

/-- The commands the module takes: one constructor for each row of the table, in its order. -/
inductive Instr where
  /-- GO (R62). -/
  | go (pg : Nat) (ack : Bool)
  /-- ACK (R62). -/
  | ack (pg : Nat)
  /-- COMMAND_TAKEN (R62). -/
  | commandTaken (part : Nat)
  /-- REGISTER_WRITE (R17). -/
  | registerWrite (sp : RegSpace) (off : Nat) (size : Nat) (value : Word)
  /-- MCTP_COMMAND_MESSAGE (R78). -/
  | mctpCommandMessage (c : Path) (msgTag : Nat) (whole : Bool) (body : Bytes)
  /-- SET_ENDPOINT_ID (R75). -/
  | setEndpointId (c : Path) (op : Nat) (eid : Nat)
  /-- GET_ENDPOINT_ID (R75). -/
  | getEndpointId (c : Path)
  /-- GET_MCTP_VERSION_SUPPORT (R75). -/
  | getMctpVersionSupport (c : Path) (msgType : Nat)
  /-- GET_MESSAGE_TYPE_SUPPORT (R75). -/
  | getMessageTypeSupport (c : Path)
  /-- GET_VENDOR_DEFINED_MESSAGE_SUPPORT (R75). -/
  | getVendorDefinedMessageSupport (c : Path) (selector : Nat)
  /-- DYNAMIC_ADDRESS_ASSIGNMENT (R555). -/
  | dynamicAddressAssignment (addr : Nat)
  /-- GET_TID (R501). -/
  | getTid
  /-- GET_PLDM_VERSION (R501). -/
  | getPldmVersion (type : Nat)
  /-- GET_PLDM_TYPES (R501). -/
  | getPldmTypes
  /-- GET_PLDM_COMMANDS (R501). -/
  | getPldmCommands (type : Nat)
  /-- GET_PDR_REPOSITORY_INFO (R501). -/
  | getPdrRepositoryInfo
  /-- GET_PDR (R501). -/
  | getPdr (record : Nat)
  /-- GET_SENSOR_READING (R501). -/
  | getSensorReading (sensor : Nat)
  /-- NOP (R66). -/
  | nop (c : Path) (q : Req)
  /-- DEVICE_INFO (R3). -/
  | deviceInfo (c : Path) (q : Req)
  /-- GET_OP_STATUS (R70). -/
  | getOpStatus (c : Path) (q : Req)
  /-- WARM_RESET (R80). -/
  | warmReset (c : Path) (q : Req)
  /-- WARM_RESET_DELAY_EXPIRY (R80). -/
  | warmResetDelayExpiry
  /-- CORE_GET_STATUS (R161). -/
  | coreGetStatus (c : Path) (q : Req)
  /-- CORE_SET_CONFIG (R192). -/
  | coreSetConfig (c : Path) (q : Req)
  /-- HEARTH_CTL (R416). -/
  | hearthCtl (c : Path) (q : Req)
  /-- FW_GET_STATUS (R81). -/
  | fwGetStatus (c : Path) (q : Req)
  /-- FW_BEGIN (R84). -/
  | fwBegin (c : Path) (q : Req)
  /-- FW_ERASE_COMPLETE (R84). -/
  | fwEraseComplete (ok : Bool)
  /-- FW_WRITE (R575). -/
  | fwWrite (c : Path) (q : Req)
  /-- FW_FINISH (R576). -/
  | fwFinish (c : Path) (q : Req)
  /-- FW_VERIFY_COMPLETE (R83). -/
  | fwVerifyComplete (ok : Bool)
  /-- FW_ACTIVATE (R85). -/
  | fwActivate (c : Path) (q : Req)
  /-- HOST_MEMORY_REQUEST (R135). -/
  | hostMemoryRequest (port : Nat) (r : MemReq)
  /-- DEVICE_MEMORY_REQUEST (R143). -/
  | deviceMemoryRequest (port : Nat) (r : MemReq)
  /-- ADMISSION_RETRY (R166). -/
  | admissionRetry (i : Nat)
  /-- NP_SLOT_RESERVED (R97). -/
  | npSlotReserved (port : Nat) (i : Nat)
  /-- EGRESS_TLP_ISSUE (R123). -/
  | egressTlpIssue (port : Nat)
  /-- PCIE_ACK_RECEIVED (R139). -/
  | pcieAckReceived (port : Nat)
  /-- COMPLETION_RECEIVED (R96). -/
  | completionReceived (port : Nat) (cpl : Cpl)
  /-- PCIE_MESSAGE_RECEIVED (R119). -/
  | pcieMessageReceived (port : Nat) (rid : Nat) (msg : PcieMsg)
  /-- COMPLETION_TIMEOUT (R103). -/
  | completionTimeout (port : Nat) (tag : Nat)
  /-- TAG_QUARANTINE_END (R103). -/
  | tagQuarantineEnd (port : Nat) (tag : Nat)
  /-- PCIE_LINK_DOWN (R104). -/
  | pcieLinkDown (port : Nat)
  /-- CONFIGURATION_REQUEST (R108). -/
  | configurationRequest (p : Nat) (r : CfgReq)
  /-- BAR_WRITE (R109). -/
  | barWrite (p : Nat) (k : Nat) (fn : Nat) (bar : Nat) (value : Word)
  /-- MEMORY_SPACE_ENABLE_WRITE (R109). -/
  | memorySpaceEnableWrite (p : Nat) (k : Nat) (fn : Nat) (en : Bool)
  /-- POWER_CONTROLLER_CONTROL_WRITE (R112). -/
  | powerControllerControlWrite (p : Nat) (k : Nat) (off : Bool)
  /-- DPC_TRIGGER_STATUS_CLEAR (R112). -/
  | dpcTriggerStatusClear (p : Nat) (k : Nat)
  /-- DPC_SOFTWARE_TRIGGER (R121). -/
  | dpcSoftwareTrigger (p : Nat) (k : Nat)
  /-- SECONDARY_BUS_RESET (R116). -/
  | secondaryBusReset (p : Nat) (k : Nat)
  /-- FUNCTION_FLR (R116). -/
  | functionFlr (p : Nat) (k : Nat) (fn : Nat)
  /-- MGMT_FUNCTION_FLR (R86). -/
  | mgmtFunctionFlr (p : Nat)
  /-- UNPLUG_TIMER_EXPIRY (R112). -/
  | unplugTimerExpiry (p : Nat) (k : Nat)
  /-- TARGET_LOST (R112). -/
  | targetLost (t : LostTarget)
  /-- VDSP_DRAIN_END (R112). -/
  | vdspDrainEnd (p : Nat) (k : Nat)
  /-- PRESENCE_CHANGE (R115). -/
  | presenceChange (port : Nat) (present : Bool)
  /-- PERST_HOLD_EXPIRY (R115). -/
  | perstHoldExpiry (port : Nat)
  /-- DATA_LINK_ACTIVE (R115). -/
  | dataLinkActive (port : Nat) (width : Nat) (rate : Nat) (flit : Bool)
  /-- LINK_DETECT_TIMEOUT (R115). -/
  | linkDetectTimeout (port : Nat)
  /-- CONFIG_WAIT_EXPIRY (R115). -/
  | configWaitExpiry (port : Nat)
  /-- DEVICE_NOT_READY_TIMEOUT (R115). -/
  | deviceNotReadyTimeout (port : Nat)
  /-- UPSTREAM_PERST_N_ASSERT (R116). -/
  | upstreamPerstNAssert (a : PerstPulse)
  /-- UPSTREAM_PERST_N_RELEASE (R117). -/
  | upstreamPerstNRelease (port : Nat)
  /-- HOT_RESET (R116). -/
  | hotReset (port : Nat)
  /-- PORT_GET_STATUS (R124). -/
  | portGetStatus (c : Path) (q : Req)
  /-- PORT_SET_CONFIG (R124). -/
  | portSetConfig (c : Path) (q : Req)
  /-- PORT_RESET (R118). -/
  | portReset (c : Path) (q : Req)
  /-- PORT_RESET_COMPLETE (R118). -/
  | portResetComplete (port : Nat) (linkUp : Bool)
  /-- VDSP_BIND (R125). -/
  | vdspBind (c : Path) (q : Req)
  /-- VDSP_UNBIND (R112). -/
  | vdspUnbind (c : Path) (q : Req)
  /-- VDSP_GET (R124). -/
  | vdspGet (c : Path) (q : Req)
  /-- FENCE_TIME_EXPIRY (R151). -/
  | fenceTimeExpiry (port : Nat) (fn : Nat)
  /-- WIN_STAGE (R136). -/
  | winStage (c : Path) (q : Req)
  /-- WIN_COMMIT (R137). -/
  | winCommit (c : Path) (q : Req)
  /-- COMMIT_DRAIN_WAIT_EXPIRY (R140). -/
  | commitDrainWaitExpiry (part : Nat)
  /-- DRAIN_COMPLETE (R140). -/
  | drainComplete (tracker : Nat)
  /-- WIN_DISCARD (R138). -/
  | winDiscard (c : Path) (q : Req)
  /-- WIN_READ (R153). -/
  | winRead (c : Path) (q : Req)
  /-- DEV_SHARE (R145). -/
  | devShare (c : Path) (q : Req)
  /-- DEV_SHARE_COMPLETE (R145). -/
  | devShareComplete (port : Nat) (ok : Bool)
  /-- MIGRATE_FENCE (R152). -/
  | migrateFence (c : Path) (q : Req)
  /-- PLANE_CELL_TIME (R171). -/
  | planeCellTime (plane : Nat)
  /-- ITERATION_MEASUREMENT (R176). -/
  | iterationMeasurement (ps : NatList)
  /-- ITERATION_FAST_LOWER (R176). -/
  | iterationFastLower (plane : Nat)
  /-- SPILL_READBACK (R185). -/
  | spillReadback (i : Nat) (o : Nat) (tc : Nat) (ue : Bool)
  /-- FLIT_TIME (R204). -/
  | flitTime (l : Nat)
  /-- FLIT_RECEIVED (R205). -/
  | flitReceived (l : Nat) (head : Bytes) (rest : Bytes) (decoded : Bool) (corrected : Nat)
  /-- NAK_TIMEOUT (R206). -/
  | nakTimeout (l : Nat)
  /-- REPLAY_TIMEOUT (R207). -/
  | replayTimeout (l : Nat)
  /-- LRESET_EXPIRY (R217). -/
  | lresetExpiry (l : Nat)
  /-- ELECTRICAL_IDLE_EXPIRY (R219). -/
  | electricalIdleExpiry (l : Nat)
  /-- BEACON_RECEIVED (R217). -/
  | beaconReceived (l : Nat) (rec : TrainRec)
  /-- DETECT_TIMEOUT (R217). -/
  | detectTimeout (l : Nat)
  /-- EQUALIZATION_COMPLETE (R218). -/
  | equalizationComplete (l : Nat) (lanes : Nat)
  /-- EQUALIZE_TIMEOUT (R217). -/
  | equalizeTimeout (l : Nat)
  /-- ALIGN_COMPLETE (R196). -/
  | alignComplete (a : LinkAlign)
  /-- ALIGN_TIMEOUT (R217). -/
  | alignTimeout (l : Nat)
  /-- TRAINING_RETRY_WAIT_EXPIRY (R217). -/
  | trainingRetryWaitExpiry (l : Nat)
  /-- TRAIN_RECORD_RECEIVED (R218). -/
  | trainRecordReceived (l : Nat) (rec : TrainRec) (interval : Nat)
  /-- LANE_LOCK_LOST (R196). -/
  | laneLockLost (l : Nat) (a : LaneRun)
  /-- SIGNAL_LOST (R220). -/
  | signalLost (l : Nat) (lane : Nat)
  /-- FREFCLK_LOSS (R562). -/
  | frefclkLoss
  /-- LINK_GET_STATUS (R226). -/
  | linkGetStatus (c : Path) (q : Req)
  /-- LINK_SET (R227). -/
  | linkSet (c : Path) (q : Req)
  /-- LINK_RESET (R223). -/
  | linkReset (c : Path) (q : Req)
  /-- LINK_HANDLE_TIMEOUT (R227). -/
  | linkHandleTimeout (l : Nat)
  /-- FABRIC_PACKET_RECEIVED (R231). -/
  | fabricPacketReceived (l : Nat) (pkt : Pkt)
  /-- DONE_REPORT (R238). -/
  | doneReport (m : Nat) (tc : Nat) (value : Nat)
  /-- WRITE_ACK_RECEIVED (R405). -/
  | writeAckReceived (id : Nat) (delivered : Bool)
  /-- RELAYED_COMMAND (R245). -/
  | relayedCommand (m : Nat) (fromZero : Bool) (num : Nat) (frame : Bytes)
  /-- EXTRACTING_ANNOUNCEMENT (R243). -/
  | extractingAnnouncement (m : Nat) (ended : Bool)
  /-- GET_VERSION (R242). -/
  | getVersion (l : Nat)
  /-- GET_CAPABILITIES (R242). -/
  | getCapabilities (l : Nat)
  /-- NEGOTIATE_ALGORITHMS (R242). -/
  | negotiateAlgorithms (l : Nat)
  /-- GET_DIGESTS (R242). -/
  | getDigests (l : Nat)
  /-- GET_CERTIFICATE (R242). -/
  | getCertificate (l : Nat) (offset : Nat) (len : Nat)
  /-- CHALLENGE (R242). -/
  | challenge (l : Nat) (nonce : Nat)
  /-- GET_MEASUREMENTS (R242). -/
  | getMeasurements (l : Nat)
  /-- SPDM_RESPONSE_RECEIVED (R243). -/
  | spdmResponseReceived (l : Nat) (r : SpdmResult)
  /-- SPDM_RETRY_TIMER (R242). -/
  | spdmRetryTimer (l : Nat)
  /-- FAILOVER_TIMER (R246). -/
  | failoverTimer (l : Nat)
  /-- REVERT_TIMER (R248). -/
  | revertTimer (d : Nat) (j : Nat)
  /-- FLOW_MOVE_COMPLETE (R224). -/
  | flowMoveComplete (d : Nat) (b : Nat)
  /-- EXTRACT_REQ (R249). -/
  | extractReq
  /-- EXTRACT_FILTER_EXPIRY (R249). -/
  | extractFilterExpiry
  /-- NEIGHBOUR_REROUTE_REPORT (R249). -/
  | neighbourRerouteReport (m : Nat)
  /-- EXTRACT_DRAIN_COMPLETE (R249). -/
  | extractDrainComplete
  /-- EXTRACT_TIMEOUT (R250). -/
  | extractTimeout
  /-- ROUTE_SET (R257). -/
  | routeSet (c : Path) (q : Req)
  /-- ROUTE_READ (R232). -/
  | routeRead (c : Path) (q : Req)
  /-- FAB_GET_MODULE (R255). -/
  | fabGetModule (c : Path) (q : Req)
  /-- FAB_ADMIT (R244). -/
  | fabAdmit (c : Path) (q : Req)
  /-- FAB_WITHDRAW (R252). -/
  | fabWithdraw (c : Path) (q : Req)
  /-- FAB_RELAY (R245). -/
  | fabRelay (c : Path) (q : Req)
  /-- RELAY_RESPONSE (R245). -/
  | relayResponse (num : Nat) (frame : Bytes)
  /-- RELAY_TIMEOUT (R65). -/
  | relayTimeout (part : Nat)
  /-- FAB_SET_CONFIG (R256). -/
  | fabSetConfig (c : Path) (q : Req)
  /-- PEER_IMAGE_REQUEST (R470). -/
  | peerImageRequest (m : Nat)
  /-- POOL_ACCESS (R270). -/
  | poolAccess (m : Nat) (a : PoolAcc) (ecc : Eccs)
  /-- ZEROING_COMPLETE (R269). -/
  | zeroingComplete (sod : Nat)
  /-- SCRUB_COMPLETE (R269). -/
  | scrubComplete (sod : Nat) (ue : Bool)
  /-- POOL_FENCE_COMPLETE (R271). -/
  | poolFenceComplete (id : Nat)
  /-- PATROL_SCRUB_READ (R276). -/
  | patrolScrubRead (sod : Nat) (line : Nat) (ecc : Ecc)
  /-- CHANNEL_LOST (R277). -/
  | channelLost (ch : Nat)
  /-- POOL_GET_STATUS (R284). -/
  | poolGetStatus (c : Path) (q : Req)
  /-- POOL_CONFIG (R286). -/
  | poolConfig (c : Path) (q : Req)
  /-- SOD_ASSIGN (R287). -/
  | sodAssign (c : Path) (q : Req)
  /-- SOD_RELEASE (R271). -/
  | sodRelease (c : Path) (q : Req)
  /-- SOD_QUERY (R285). -/
  | sodQuery (c : Path) (q : Req)
  /-- SOD_SET (R288). -/
  | sodSet (c : Path) (q : Req)
  /-- CONTRIBUTION (R300). -/
  | contribution (g : Nat) (slot : Nat) (chunkSlot : Nat) (byte : Nat) (data : Bytes) (ep : Bool)
  /-- ENGINE_PACKET (R310). -/
  | enginePacket (k : EngPkt)
  /-- PULL_READ_COMPLETE (R303). -/
  | pullReadComplete (g : Nat) (chunk : Nat) (slot : Nat) (ecc : Eccs)
  /-- FLUSH_READ_COMPLETE (R307). -/
  | flushReadComplete (g : Nat) (slot : Nat) (ok : Bool)
  /-- CHUNK_TIMEOUT (R312). -/
  | chunkTimeout (g : Nat) (chunk : Nat)
  /-- GROUP_MOVE_COMPLETE (R317). -/
  | groupMoveComplete (g : Nat)
  /-- GROUP_DESTROY_COMPLETE (R291). -/
  | groupDestroyComplete (g : Nat)
  /-- RT_GET_STATUS (R322). -/
  | rtGetStatus (c : Path) (q : Req)
  /-- RT_PART_SET (R321). -/
  | rtPartSet (c : Path) (q : Req)
  /-- RT_GROUP_CREATE (R323). -/
  | rtGroupCreate (c : Path) (q : Req)
  /-- RT_GROUP_DESTROY (R315). -/
  | rtGroupDestroy (c : Path) (q : Req)
  /-- RT_GROUP_READ (R322). -/
  | rtGroupRead (c : Path) (q : Req)
  /-- RT_GROUP_RESET (R324). -/
  | rtGroupReset (c : Path) (q : Req)
  /-- RT_GROUP_MOVE (R316). -/
  | rtGroupMove (c : Path) (q : Req)
  /-- FRAME_RECEIVED (R328). -/
  | frameReceived (lport : Nat) (bytes : Bytes) (fcsOk : Bool)
  /-- PFC_FRAME_RECEIVED (R351). -/
  | pfcFrameReceived (lport : Nat) (mask : Nat) (times : NatList)
  /-- PFC_REFRESH (R349). -/
  | pfcRefresh (lport : Nat) (prio : Nat)
  /-- PFC_PAUSE_EXPIRY (R351). -/
  | pfcPauseExpiry (lport : Nat) (prio : Nat)
  /-- PAUSE_WATCH_EXPIRY (R351). -/
  | pauseWatchExpiry (lport : Nat) (tc : Nat)
  /-- QP_TX_TAIL_WRITE (R337). -/
  | qpTxTailWrite (f : Nat) (qp : Nat) (value : Nat)
  /-- QP_RX_TAIL_WRITE (R337). -/
  | qpRxTailWrite (f : Nat) (qp : Nat) (value : Nat)
  /-- TRANSMIT_SCHEDULE (R364). -/
  | transmitSchedule (lport : Nat)
  /-- DESCRIPTOR_FETCH_COMPLETE (R338). -/
  | descriptorFetchComplete (f : Nat) (qp : Nat) (descs : TxRaws) (ok : Bool)
  /-- EGRESS_FRAME_START (R369). -/
  | egressFrameStart (lport : Nat)
  /-- VNIC_RECEIVE (R340). -/
  | vnicReceive (f : Nat) (qp : Nat) (bufs : NatList)
  /-- RX_WAIT_TIMEOUT (R347). -/
  | rxWaitTimeout (f : Nat) (qp : Nat)
  /-- ITR_EXPIRY (R336). -/
  | itrExpiry (f : Nat) (qp : Nat)
  /-- LOGICAL_PORT_LINK_CHANGE (R336). -/
  | logicalPortLinkChange (lport : Nat) (up : Bool)
  /-- VNIC_FUNCTION_RESET (R354). -/
  | vnicFunctionReset (f : Nat)
  /-- QP_DISABLE_COMPLETE (R359). -/
  | qpDisableComplete (f : Nat) (qp : Nat)
  /-- NET_PORT_TRAINING_END (R358). -/
  | netPortTrainingEnd (lport : Nat) (up : Bool)
  /-- NET_GET_STATUS (R357). -/
  | netGetStatus (c : Path) (q : Req)
  /-- NET_PORT_SET (R358). -/
  | netPortSet (c : Path) (q : Req)
  /-- VNIC_CREATE (R335). -/
  | vnicCreate (c : Path) (q : Req)
  /-- VNIC_DESTROY (R355). -/
  | vnicDestroy (c : Path) (q : Req)
  /-- VNIC_SET (R344). -/
  | vnicSet (c : Path) (q : Req)
  /-- VNIC_QP_SET (R359). -/
  | vnicQpSet (c : Path) (q : Req)
  /-- NET_EM_SET (R332). -/
  | netEmSet (c : Path) (q : Req)
  /-- NET_ACL_SET (R334). -/
  | netAclSet (c : Path) (q : Req)
  /-- NET_PTP_CLOCK (R383). -/
  | netPtpClock (c : Path) (q : Req)
  /-- GATE_ENTRY_TRANSITION (R377). -/
  | gateEntryTransition (lport : Nat)
  /-- GATE_CHANGE_TIME (R379). -/
  | gateChangeTime (lport : Nat)
  /-- PTP_OUTPUT_EDGE (R387). -/
  | ptpOutputEdge (k : Nat)
  /-- PTP_INPUT_EDGE (R388). -/
  | ptpInputEdge (k : Nat) (falling : Bool)
  /-- PTP_CLOCK_LOSS (R560). -/
  | ptpClockLoss
  /-- PTP_CLOCK_RELOCK (R560). -/
  | ptpClockRelock
  /-- TM_SHAPER_SET (R366). -/
  | tmShaperSet (c : Path) (q : Req)
  /-- TM_SCHED_SET (R367). -/
  | tmSchedSet (c : Path) (q : Req)
  /-- TM_METER_SET (R373). -/
  | tmMeterSet (c : Path) (q : Req)
  /-- TM_WRED_SET (R376). -/
  | tmWredSet (c : Path) (q : Req)
  /-- TM_GATE_SET (R379). -/
  | tmGateSet (c : Path) (q : Req)
  /-- TM_GATE_GET (R377). -/
  | tmGateGet (c : Path) (q : Req)
  /-- PTP_OUT_SET (R387). -/
  | ptpOutSet (c : Path) (q : Req)
  /-- PTP_IN_SET (R388). -/
  | ptpInSet (c : Path) (q : Req)
  /-- PTP_IN_READ (R388). -/
  | ptpInRead (c : Path) (q : Req)
  /-- LOAD (R398). -/
  | load (cl : Nat) (k : Nat) (rd : Nat) (addr : Word) (size : Nat) (signed : Bool) (ecc : Eccs)
  /-- STORE (R401). -/
  | store (cl : Nat) (k : Nat) (addr : Word) (size : Nat) (value : Word)
  /-- INSTRUCTION_FETCH (R399). -/
  | instructionFetch (cl : Nat) (k : Nat) (addr : Word) (size : Nat) (ecc : Eccs)
  /-- LR (R410). -/
  | lr (cl : Nat) (k : Nat) (rd : Nat) (addr : Word) (size : Nat) (ecc : Eccs)
  /-- SC (R410). -/
  | sc (cl : Nat) (k : Nat) (rd : Nat) (addr : Word) (size : Nat) (value : Word) (spurious : Bool)
  /-- AMO (R410). -/
  | amo (cl : Nat) (k : Nat) (op : AmoOp) (rd : Nat) (addr : Word) (size : Nat) (value : Word) (ecc : Eccs)
  /-- FENCE (R403). -/
  | fence (cl : Nat) (k : Nat) (pred : Nat) (succ : Nat)
  /-- FENCE_I (R403). -/
  | fenceI (cl : Nat) (k : Nat)
  /-- KFENCE (R402). -/
  | kfence (cl : Nat) (k : Nat) (word : Nat)
  /-- FENCE_RETIRE (R407). -/
  | fenceRetire (cl : Nat) (k : Nat)
  /-- MPU_CSR_WRITE (R400). -/
  | mpuCsrWrite (cl : Nat) (k : Nat) (n : Nat) (cfg : Bool) (value : Word)
  /-- KATTR_CSR_WRITE (R406). -/
  | kattrCsrWrite (cl : Nat) (k : Nat) (csr : Nat) (value : Word)
  /-- KSTERR_WRITE (R408). -/
  | ksterrWrite (cl : Nat) (k : Nat) (value : Word)
  /-- FENCE_WATCH_EXPIRY (R409). -/
  | fenceWatchExpiry (cl : Nat) (k : Nat)
  /-- ALARM_REQUEST (R414). -/
  | alarmRequest (cl : Nat)
  /-- ALARM_RELEASE (R414). -/
  | alarmRelease (cl : Nat)
  /-- ALARM_FIRE (R414). -/
  | alarmFire (cl : Nat)
  /-- MACHINE_TIMER_INTERRUPT (R394). -/
  | machineTimerInterrupt (cl : Nat) (k : Nat)
  /-- MSIP_WRITE (R394). -/
  | msipWrite (cl : Nat) (k : Nat) (value : Nat)
  /-- ABSTRACT_COMMAND (R415). -/
  | abstractCommand (cl : Nat) (k : Nat) (a : DbgCmd)
  /-- SYSTEM_BUS_ACCESS (R415). -/
  | systemBusAccess (cl : Nat) (write : Bool) (addr : Word) (size : Nat) (value : Word)
  /-- CLUSTER_STOP_COMPLETE (R417). -/
  | clusterStopComplete (cl : Nat)
  /-- PART_GET (R429). -/
  | partGet (c : Path) (q : Req)
  /-- PART_SET (R429). -/
  | partSet (c : Path) (q : Req)
  /-- ISO_GET_STATUS (R419). -/
  | isoGetStatus (c : Path) (q : Req)
  /-- STRICT_SET (R427). -/
  | strictSet (c : Path) (q : Req)
  /-- FAULT_DETECTED (R434). -/
  | faultDetected (src : Nat) (attr : OptNat) (port : OptNat) (addr : Word)
  /-- BLOCK_READY (R437). -/
  | blockReady (b : Nat)
  /-- REACTION_SHADOW_END (R440). -/
  | reactionShadowEnd (b : Nat)
  /-- LEDGER_FLASH_COPY (R446). -/
  | ledgerFlashCopy
  /-- FLT_GET_SUMMARY (R452). -/
  | fltGetSummary (c : Path) (q : Req)
  /-- FLT_READ (R452). -/
  | fltRead (c : Path) (q : Req)
  /-- FLT_CLEAR (R431). -/
  | fltClear (c : Path) (q : Req)
  /-- FLT_SET_REACTION (R436). -/
  | fltSetReaction (c : Path) (q : Req)
  /-- FLT_GET_REACTION (R452). -/
  | fltGetReaction (c : Path) (q : Req)
  /-- FLT_LEDGER_READ (R445). -/
  | fltLedgerRead (c : Path) (q : Req)
  /-- FLT_LEDGER_CLEAR (R445). -/
  | fltLedgerClear (c : Path) (q : Req)
  /-- LEDGER_FLASH_CLEAR_COMPLETE (R445). -/
  | ledgerFlashClearComplete (ok : Bool)
  /-- FLT_INJECT (R451). -/
  | fltInject (c : Path) (q : Req)
  /-- FLT_AER_READ (R119). -/
  | fltAerRead (c : Path) (q : Req)
  /-- EV_POP (R450). -/
  | evPop (c : Path) (q : Req)
  /-- POWER_ON (R453). -/
  | powerOn
  /-- AUX_RAIL_LOST (R476). -/
  | auxRailLost
  /-- MODULE_RESET (R455). -/
  | moduleReset (lowNs : Nat)
  /-- WATCHDOG_EXPIRY (R456). -/
  | watchdogExpiry
  /-- RESET_PULSE_END (R455). -/
  | resetPulseEnd
  /-- SUPERVISOR_RELEASE (R460). -/
  | supervisorRelease (env : BootEnv)
  /-- START_TIMER_EXPIRY (R471). -/
  | startTimerExpiry
  /-- STABLE_INTERVAL_EXPIRY (R471). -/
  | stableIntervalExpiry
  /-- HOST_DOWNLOAD_GO (R469). -/
  | hostDownloadGo
  /-- HOST_DOWNLOAD_COMPLETE (R469). -/
  | hostDownloadComplete (image : Bytes) (ok : Bool)
  /-- PEER_IMAGE_RECEIVED (R470). -/
  | peerImageReceived (m : Nat) (image : Bytes)
  /-- POWER_EN_ASSERTED (R487). -/
  | powerEnAsserted
  /-- POWER_EN_DEASSERTED (R490). -/
  | powerEnDeasserted
  /-- SOFT_START_COMPLETE (R485). -/
  | softStartComplete (choldUf : Nat)
  /-- RAILS_GOOD (R465). -/
  | railsGood
  /-- RESET_THRESHOLD (R493). -/
  | resetThreshold
  /-- OVER_VOLTAGE_LOCKOUT (R493). -/
  | overVoltageLockout
  /-- OVER_VOLTAGE_RELEASE (R492). -/
  | overVoltageRelease
  /-- RESET_RELEASE_LEVEL (R492). -/
  | resetReleaseLevel
  /-- BROWNOUT_HOLDOFF_EXPIRY (R493). -/
  | brownoutHoldoffExpiry
  /-- THERMAL_TRIP (R493). -/
  | thermalTrip
  /-- THERMAL_TRIP_CLEAR (R493). -/
  | thermalTripClear
  /-- SAG_WARNING (R494). -/
  | sagWarning (vhold : Nat)
  /-- WARNING_CLEAR (R494). -/
  | warningClear (vhold : Nat)
  /-- EFUSE_FAULT_TIMER (R484). -/
  | efuseFaultTimer
  /-- EFUSE_SHORT_CIRCUIT (R484). -/
  | efuseShortCircuit
  /-- EFUSE_RETRY (R484). -/
  | efuseRetry
  /-- RAIL_OUT_OF_TOLERANCE (R502). -/
  | railOutOfTolerance (sensor : Nat) (ten : Bool)
  /-- THERMAL_WARNING (R502). -/
  | thermalWarning (tj : Nat)
  /-- TELEMETRY_SAMPLE (R501). -/
  | telemetrySample (t : TeleSample)
  /-- PWR_GET_STATUS (R505). -/
  | pwrGetStatus (c : Path) (q : Req)
  /-- PWR_SET_CONFIG (R506). -/
  | pwrSetConfig (c : Path) (q : Req)
  /-- SWEEP (R514). -/
  | sweep (span : Nat)
  /-- SWEEP_SLOT_WRITE (R516). -/
  | sweepSlotWrite (p : Nat)
  /-- CNT_READ (R519). -/
  | cntRead (c : Path) (q : Req)
  /-- CNT_SET (R524). -/
  | cntSet (c : Path) (q : Req)
  /-- CNT_SWEEP_SET (R515). -/
  | cntSweepSet (c : Path) (q : Req)
  /-- CNT_SWEEP_GET (R518). -/
  | cntSweepGet (c : Path) (q : Req)
  /-- CHAR_SAMPLE (R536). -/
  | charSample (kind : Nat) (idx : Nat) (margin : Nat) (base : Nat) (bad : Bool)
  /-- MARGIN_REPLAN (R539). -/
  | marginReplan (m : PlanMeas)
  /-- BIST_COMPLETE (R532). -/
  | bistComplete (block : Nat) (mMisr : Nat) (lMisr : Nat) (repairs : Nat) (spare : Bool) (ms : Nat)
  /-- NONCE_EXPIRY (R527). -/
  | nonceExpiry
  /-- BIST_RUN (R531). -/
  | bistRun (c : Path) (q : Req)
  /-- BIST_GET (R530). -/
  | bistGet (c : Path) (q : Req)
  /-- LC_ADVANCE (R526). -/
  | lcAdvance (c : Path) (q : Req)
  /-- RMA_CHALLENGE (R529). -/
  | rmaChallenge (c : Path) (q : Req)
  /-- RMA_UNLOCK (R527). -/
  | rmaUnlock (c : Path) (q : Req)
  /-- AGE_GET_STATUS (R545). -/
  | ageGetStatus (c : Path) (q : Req)
  /-- AGE_SET_CONFIG (R549). -/
  | ageSetConfig (c : Path) (q : Req)
  /-- BYPASS (R556). -/
  | bypass (bit : Bool)
  /-- IDCODE (R556). -/
  | idcode
  /-- SAMPLE_PRELOAD (R556). -/
  | samplePreload (cells : BoolList)
  /-- EXTEST (R556). -/
  | extest
  /-- INTEST (R556). -/
  | intest
  /-- CLAMP (R556). -/
  | clamp
  /-- HIGHZ (R556). -/
  | highz
  /-- EFUSE_CURRENT_LIMIT (R484). -/
  | efuseCurrentLimit
  /-- EFUSE_ON_INTERVAL (R484). -/
  | efuseOnInterval
  /-- PROPAGATED_RESET_COMPLETE (R117). -/
  | propagatedResetComplete (p : Nat)
  /-- CLOCK_DOMAIN_RELEASE (R460). -/
  | clockDomainRelease (d : ClkDom)
  deriving DecidableEq, Repr, Inhabited

end Sys2Proof
end

