-- ==== Sys2Proof/Config.lean ====
section
/-! DEFINITION. Values the specification leaves open, as constants without a body: a statement that
holds in this model holds for every value of them. -/

namespace Sys2Proof

/-- A fresh number, drawn at the counter of free values (log 16). -/
opaque Config.freeNat : Nat → Nat
/-- A fresh bit, drawn at the counter of free values (log 16). -/
opaque Config.freeBit : Nat → Bool
/-- Byte `i` of a fresh random string, drawn at the counter of free values (R344, R529). -/
opaque Config.freeByte : Nat → Nat → BitVec 8

/-- Vendor ID of the module's functions (R55, R3): the specification assigns no number. -/
opaque Config.vendorId : BitVec 16
/-- SERIAL of DEVICE_INFO, 16 bytes (R3). -/
opaque Config.serial : BitVec 128
/-- The Avaumer manufacturer identity of IDCODE (R556). -/
opaque Config.jtagMaker : BitVec 11
/-- The ECDSA P-384 signature of an image verifies (R83). -/
opaque Config.imageSigned : Bytes → Bool
/-- The format of an image is recognised (R83). -/
opaque Config.imageKnown : Bytes → Bool
/-- Version an image carries (R83). -/
opaque Config.imageVersion : Bytes → BitVec 32
/-- Security version an image carries (R83). -/
opaque Config.imageSvn : Bytes → Nat
/-- The signature of an RMA token verifies, from its first 64 bytes and its signature (R527). -/
opaque Config.rmaSigned : Bytes → Bytes → Bool
/-- Content of the SPDM response to request `name` with arguments `a` and `b` (R242). -/
opaque Config.spdmContent : Nat → Nat → Nat → Bytes
/-- SHA-384 digest of the module identity certificate (R242). -/
opaque Config.identityDigest : BitVec 384
/-- PLDM response data of command `cmd` for argument `arg`, where the cited PLDM specification and
not this one lays them out (R501). -/
opaque Config.pldmData : Nat → Nat → Bytes
/-- Expected MISR signature of a block kind and test (R530). -/
opaque Config.misrExpected : Nat → Nat → BitVec 32
/-- Spares of block `b` before any repair (R534). -/
opaque Config.spares : Nat → Nat
/-- Whether a MODULE_RESET_N pulse of `ns`, between 100 ns and 1 us, is taken (R455). -/
opaque Config.pulseTaken : Nat → Bool
/-- Placement group of loop sensor `i`, modulo 15: 0 to 3 the planes, 4 to 7 the Hearth clusters, 8 to 11 the Retort engines, 12 the
cell buffer and lookup, 13 Ember, 14 the attachments (R536; the numbers of the sensors are not stated, log 91). -/
opaque Config.loopGroup : Nat → Nat
/-- Ratio, in 1/10,000, of loop sensor `i`'s period to its baseline, measured at core rail `v` and corrected to rail `v1` and
temperature `t`: the slopes of the correction are fused for the part (R537). -/
opaque Config.loopRatio : (i period base v v1 t : Nat) → Nat
/-- UEFI machine type `i` that the firmware supports, 0 for none: part of the image (R59). -/
opaque Config.romMachine : Nat → Nat
/-- AF(T) of R545 at `t` degrees C, in 1/10,000: a real exponential the specification rounds nowhere. -/
opaque Config.ageFactor : Nat → Nat
/-- Bus number of vDSP `k` of partition `p` before the host assigns one (R106, R129). -/
opaque Config.virtualBus : Nat → Nat → Nat
/-- The 32-bit number by which Ember names its `n`-th operation handle (R69, log 6). -/
opaque Config.handleNumber : Nat → Nat
/-- Log2 of the size of BAR `bar` of function `fn` of the device on a port, 0 for a BAR the function
does not have: a property of the device (R109). -/
opaque Config.barLog : Nat → Nat → Nat → Nat
/-- Address at which Ember places BAR `bar` of function `fn` of the device on a port (R32): the
specification bounds it below 2^48 and gives no rule for it. -/
opaque Config.barAddr : Nat → Nat → Nat → Nat
/-- Routing ID of function `fn` (0 the PF, else a VF number) of the device on a port: a property of the
device and of the bus number Ember gives it (R95, R145). -/
opaque Config.functionRid : Nat → Nat → Nat
/-- Routing ID Ember assigns to a physical port on its device's link (R95). -/
opaque Config.portRid : Nat → Nat
/-- Function (0 the PF, else a VF number) whose BAR holds the 4 KiB page of a port's secondary address
space (R32, R148). -/
opaque Config.barFunction : Nat → Nat → Nat
/-- Extended capability structures of function `fn` (0 the PF, else a VF number) of the device on a port, as offset, ID and
length in the order of their chain: a property of the device (R94, R107). A port number from 64 up names a remote function. -/
opaque Config.extCaps : Nat → Nat → List (Nat × Nat × Nat)
/-- Offset of the PCI Express capability of function `fn` of the device on a port (R146). -/
opaque Config.pcieCapAt : Nat → Nat → Nat
/-- PF's Vendor ID and VF Device ID of the device on a port: the first register of each of its VFs as a host sees it (R107). -/
opaque Config.vfIdentity : Nat → BitVec 32
/-- Table and PBA of the Retort function's MSI-X vector, in units of 8 bytes (R321). -/
opaque Config.retortTable : Nat
/-- PBA of the Retort function. -/
opaque Config.retortPba : Nat
/-- Cells that the egress attachment of a core port can stage beyond one packet (R167, log 79). -/
opaque Config.egressCells : Nat → Nat
/-- Packets that the ingress attachment of a core port can stage beyond one (R165, R166, log 80). -/
opaque Config.staging : Nat → Nat
/-- Bytes of completion data that a station can stage beyond one read (R166, log 80). -/
opaque Config.cplStaging : Nat → Nat
/-- Address (as 0) and data (as 1) of the Retort function's vector, which partition `p`'s host wrote where the specification does
not place the table (R321). -/
opaque Config.retortMsi : Nat → Nat → Word
/-- Descriptor bits of a PTYPE 4 packet, drawn at the outbox position: Ember's own (R158). -/
opaque Config.ctlDesc : Nat → BitVec 256
/-- Data of a PTYPE 4 packet, drawn at the outbox position: Ember's own (R158). -/
opaque Config.ctlData : Nat → Bytes
/-- Non-posted requests the ingress queue of a PCIe port holds beyond the first (R97, log 74). -/
opaque Config.npQueue : Nat
/-- Digest of the pool layout: partitioned channels, RDIMMs, wide and spill sods (R475). -/
opaque Config.layoutDigest : List Nat → BitVec 480
/-- PROGRESS of GET_OP_STATUS for a running handle (R70). -/
opaque Config.progress : Nat → Nat
/-- Byte `i` of the expansion ROM image, part of the signed firmware image (R59). -/
opaque Config.romByte : Nat → BitVec 8
/-- Core traffic class of a packet Hearth sends (R401, R405): the specification states none; the model takes it modulo 7, since
TC7 carries control packets only (R156). -/
opaque Config.hearthTc : Nat
/-- A base-architecture CSR whose content the RISC-V specifications and the implementation give (R390). -/
opaque Config.csrFixed : Nat → BitVec 64
/-- Byte of the fuse shadow (R415). -/
opaque Config.fuseByte : Nat → BitVec 8
/-- Flow steering and other estimates Ember reports without a stated rule, drawn at a counter. -/
opaque Config.estimate : Nat → Nat

end Sys2Proof
end

