-- ==== Sys2Proof/Machine/State.lean ====
section
/-! DEFINITION. The state of the module as plain data: every register, buffer, table, counter, mode
and land the specification names, with the reset value of each field as its default. -/

namespace Sys2Proof.Machine

open Sys2Proof

/-- Why the module stops. The specification gives every command and event of the table an effect,
so no meaning raises a fault; the type is empty of reasons but one. -/
inductive Fault where
  /-- Raised by no meaning: kept so that the type is inhabited. Safe: a run that never stops here
  loses nothing. -/
  | unreachable
  deriving DecidableEq, Repr

/-- Why the model gives no step. -/
inductive Refusal where
  /-- The command has no meaning in this model yet. Raised by the dispatcher alone; safe, since
  nothing is claimed of a command refused. -/
  | notModelled (mnemonic : String)
  deriving DecidableEq, Repr

/-- Phases of the module between a reset and service (R453, R460, R465). -/
inductive Phase where
  /-- The auxiliary rail is out of regulation: nothing runs (R453 source 1). -/
  | off
  /-- The always-on domain runs and the main rails are off. -/
  | railsOff
  /-- Step 1: VHOLD soft-start, then rails ramp. -/
  | ramp
  /-- A module reset of source 3 or 4 is asserted. -/
  | held
  /-- Step 2: supervisor hold. -/
  | hold
  /-- Step 5 waits for a host download (R469). -/
  | hostDownload
  /-- Step 5 waits for an image from a fabric peer (R470). -/
  | peerDownload
  /-- The start stopped short of FW_READY: boot BIST failed a block it cannot do without (R535). -/
  | stuck
  /-- FW_READY reads 1. -/
  | ready
  /-- An orderly stop has halted Ember (R496). -/
  | halted
  deriving DecidableEq, Repr, Inhabited

/-- State of an image slot (FW_GET_STATUS). -/
inductive SlotSt where
  /-- No startable image. -/
  | invalid
  /-- A verified image. -/
  | valid
  /-- A transfer is open on it. -/
  | opened
  deriving DecidableEq, Repr, Inhabited

/-- STATE of MB_STATUS (R61). -/
inductive PageSt where
  /-- 0 IDLE -/
  | idle
  /-- 1 QUEUED -/
  | queued
  /-- 2 BUSY -/
  | busy
  /-- 3 DONE -/
  | done
  /-- 4 RESETTING -/
  | resetting
  deriving DecidableEq, Repr, Inhabited

/-- A response frame (R66). -/
structure Rsp where
  /-- OPCODE echoed. -/
  opcode : Nat := 0
  /-- STATUS. -/
  status : Nat := 0
  /-- TAG echoed. -/
  tag : BitVec 32 := 0
  /-- DETAIL. -/
  detail : Nat := 0
  /-- HANDLE. -/
  handle : Nat := 0
  /-- Payload of LENGTH bytes. -/
  payload : Bytes := []
  deriving DecidableEq, Repr, Inhabited

/-- What a committed command waits for outside Ember (R65, R140). -/
inductive RunWait where
  /-- The response of relay number `n`. -/
  | relay (n : Nat)
  /-- The drain of tracker `t`. -/
  | drain (t : Nat)
  deriving DecidableEq, Repr, Inhabited

/-- What ends a handle, where its record must say so (R69). -/
inductive Work where
  /-- The event that ends it names it. -/
  | other
  /-- The fence times of these functions (R152). -/
  | fences (fs : List (Nat × Nat))
  /-- Every named sod has left its sequence (R271, R288, R286). -/
  | sods (ss : List Nat)
  /-- The drain of a commit (R140). -/
  | drain
  deriving DecidableEq, Repr, Inhabited

/-- What runs under a handle for the open transfer (R82). -/
inductive XferOp where
  /-- Nothing. -/
  | none
  /-- The erase of FW_BEGIN. -/
  | erase
  /-- The verification of FW_FINISH. -/
  | verify
  deriving DecidableEq, Repr, Inhabited

/-- Role of a PCIe port (R92). -/
inductive Role where
  /-- Absent. -/
  | absent
  /-- Upstream. -/
  | upstream
  /-- Downstream. -/
  | downstream
  deriving DecidableEq, Repr, Inhabited

/-- Sharing mode of a downstream port (R145). -/
inductive PortMode where
  /-- UNASSIGNED. -/
  | unassigned
  /-- EXCLUSIVE. -/
  | exclusive
  /-- SHARED, with PF_OWNER, NUM_VFS and WIN_QUOTA. -/
  | shared (owner vfs quota : Nat)
  deriving DecidableEq, Repr, Inhabited

/-- State of a vDSP (R112). -/
inductive VdspSt where
  /-- EMPTY -/
  | empty
  /-- PRESENT -/
  | present
  /-- UNPLUG_REQUESTED -/
  | unplug
  /-- POWERED_OFF -/
  | poweredOff
  /-- REMOVING -/
  | removing
  /-- CONTAINED -/
  | contained
  deriving DecidableEq, Repr, Inhabited

/-- Where the cells of an admitted packet are charged (R162, R183, R184). -/
inductive Place where
  /-- The input's reserve. -/
  | reserve
  /-- The shared region. -/
  | shared
  /-- SRAM, charged to the hold quota of a held output. -/
  | held
  /-- The spill region. -/
  | spilled
  deriving DecidableEq, Repr, Inhabited

/-- Why a packet waits at its ingress (R162, R186, R188, R238). -/
inductive WaitWhy where
  /-- Room in the buffer. -/
  | room
  /-- Spill space or SRAM above the hold quota. -/
  | spill
  /-- A flow move (R224). -/
  | move
  /-- Spray accounting (R238). -/
  | spray
  deriving DecidableEq, Repr, Inhabited

/-- State of a fabric link (R217). -/
inductive LinkSt where
  /-- 0 DISABLED -/
  | disabled
  /-- 1 LRESET, LRESET flits sent -/
  | lreset
  /-- 1 LRESET, transmitters electrically idle -/
  | idle
  /-- 2 DETECT -/
  | detect
  /-- 3 EQUALIZE -/
  | equalize
  /-- 4 ALIGN -/
  | align
  /-- 5 NEGOTIATE -/
  | negotiate
  /-- 6 UP -/
  | up
  /-- Waiting after a failed training attempt; reads as the state that failed -/
  | retry
  deriving DecidableEq, Repr, Inhabited

/-- State of an admission record (R243). -/
inductive AdmSt where
  /-- 0 UNKNOWN -/
  | unknown
  /-- 1 QUARANTINED -/
  | quarantined
  /-- 2 AUTHENTICATED -/
  | authenticated
  /-- 3 ADMITTED -/
  | admitted
  /-- 4 EXTRACTING -/
  | extracting
  /-- 5 WITHDRAWN -/
  | withdrawn
  deriving DecidableEq, Repr, Inhabited

/-- State of a sod (R269, R285). -/
inductive SodSt where
  /-- 0 absent -/
  | absent
  /-- 1 UNTESTED -/
  | untested
  /-- 2 ZEROING -/
  | zeroing
  /-- 3 SCRUBBING -/
  | scrubbing
  /-- 4 FREE -/
  | free
  /-- 5 ASSIGNED -/
  | assigned
  /-- 6 SPILL -/
  | spill
  /-- 7 RESERVE -/
  | reserve
  /-- 8 RETIRED -/
  | retired
  deriving DecidableEq, Repr, Inhabited

/-- State of a chunk in flight (R305). EMIT is passed within one event. -/
inductive ChunkSt where
  /-- IDLE -/
  | idle
  /-- OPEN -/
  | opened
  /-- AWAIT -/
  | await
  /-- DONE -/
  | done
  deriving DecidableEq, Repr, Inhabited

/-- STATE of a group instance (R292). -/
inductive RtSt where
  /-- 0 DEFINING -/
  | defining
  /-- 1 ACTIVE -/
  | active
  /-- 2 FAILED -/
  | failed
  /-- 3 MOVING -/
  | moving
  deriving DecidableEq, Repr, Inhabited

/-- Privilege mode of a Hearth core. -/
inductive HMode where
  /-- U -/
  | u
  /-- S -/
  | s
  /-- M -/
  | m
  deriving DecidableEq, Repr, Inhabited

/-- STATE of a Hearth cluster (HEARTH_CTL). -/
inductive ClSt where
  /-- 0 STOPPED -/
  | stopped
  /-- 1 RUNNING -/
  | running
  /-- 2 STOPPING -/
  | stopping
  deriving DecidableEq, Repr, Inhabited

/-- What a core's oldest instruction waits for (R403, R407, R409). -/
inductive HWait where
  /-- A system-scope fence with its predecessor set. -/
  | fence (pred : Nat)
  /-- A load from the fabric aperture into `rd` (32: a fetch) of `size` bytes; bytes already read, the tag of the
  read in flight of `n` bytes at virtual address `va`, and the pieces still to read. -/
  | load (rd size : Nat) (sgn : Bool) (got : List (BitVec 8)) (tag : Nat) (va : Word) (n : Nat) (rest : List (Nat × Nat × Nat))
  deriving DecidableEq, Repr, Inhabited

/-- JTAG instructions (R556). -/
inductive JtagInst where
  /-- BYPASS -/
  | bypass
  /-- IDCODE -/
  | idcode
  /-- SAMPLE/PRELOAD -/
  | sample
  /-- EXTEST -/
  | extest
  /-- INTEST -/
  | intest
  /-- CLAMP -/
  | clamp
  /-- HIGHZ -/
  | highz
  deriving DecidableEq, Repr, Inhabited

/-- Control messages between modules in PTYPE 4 packets (R156, R238, R242, R243, R245, R405). -/
inductive Ctl where
  /-- A DONE report of class `tc`. -/
  | doneCount (tc value : Nat)
  /-- Acknowledgement of write `id`. -/
  | writeAck (id : Nat) (delivered : Bool)
  /-- EXTRACTING announcement. -/
  | extracting (ended : Bool)
  /-- A relayed command frame. -/
  | relay (num : Nat) (fromZero : Bool) (frame : Bytes)
  /-- Response to a relayed command. -/
  | relayRsp (num : Nat) (frame : Bytes)
  /-- An SPDM request, by name. -/
  | spdmReq (name : Nat)
  /-- An SPDM response, by name, with its content. -/
  | spdmRsp (name : Nat) (content : Bytes)
  /-- Report that no route names a link to the module (R249). -/
  | rerouted
  /-- Request for the running image. -/
  | imageReq
  /-- The running image. -/
  | image (content : Bytes)
  deriving DecidableEq, Repr, Inhabited

/-- A reaction the collector has started and the current step still has to perform (R434, R437). -/
inductive Due where
  /-- DPC triggers on a physical port, or on the partition's vDSPs bound to it. -/
  | dpc (port : Nat) (attr : Option Nat)
  /-- Every vDSP of a partition enters CONTAINED. -/
  | quiesce (p : Nat)
  /-- Block reset. -/
  | block (b : Nat)
  /-- Warm module reset, with its sub-cause. -/
  | warm (sub : Nat)
  /-- Function reset of partition `p`'s Retort function (R314). -/
  | retortReset (p : Nat)
  /-- Function reset of vNIC function `f` (R354). -/
  | vnicReset (f : Nat)
  deriving DecidableEq, Repr, Inhabited

/-- What the module sends to the world (model's own outbox). -/
inductive Output where
  /-- MSI-X message of vector `vec` of partition `p`'s management function. -/
  | msix (p vec : Nat)
  /-- MSI-X message of vector `vec` of vNIC function `f`. -/
  | vnicMsix (f vec : Nat)
  /-- MSI-X message of partition `p`'s Retort function. -/
  | retortMsix (p : Nat)
  /-- A response message on a message path. -/
  | response (c : Path) (msgTag : Nat) (body : Bytes)
  /-- An MCTP control or PLDM response: completion code and data. -/
  | mctp (c : Path) (cmd cc : Nat) (data : Bytes)
  /-- A TLP sent on port `port` with link tag `tag`. -/
  | tlp (port : Nat) (tag : Option Nat) (p : Pkt)
  /-- A completion sent at `port` for the request `(rid, tag)`. -/
  | completion (port rid tag status : Nat) (ep : Bool) (data : Bytes)
  /-- Completion of a configuration request of partition `p`. -/
  | cfgCompletion (p rid tag status : Nat) (value : BitVec 32)
  /-- A configuration request forwarded to function `fn` behind `port`. -/
  | cfgForward (port fn : Nat) (r : CfgReq)
  /-- A message sent to the host of partition `p` by vDSP `k`. -/
  | hostMessage (p k code : Nat)
  /-- A hot-plug interrupt of vDSP `k`. -/
  | hotPlug (p k : Nat)
  /-- A flit of link `l`, byte 0 first. -/
  | flit (l : Nat) (raw : Bytes)
  /-- A codeword pair on a lane of link `l`, as PAM4 levels. -/
  | lanePair (l lane : Nat) (levels : List Nat)
  /-- A beacon of link `l`. -/
  | beacon (l : Nat) (r : TrainRec)
  /-- A control message to module `m`. -/
  | control (m : Nat) (c : Ctl)
  /-- A frame on logical port `lp`; `stomped` when its FCS is inverted. -/
  | frame (lp : Nat) (bytes : Bytes) (stomped : Bool)
  /-- A PFC frame. -/
  | pfc (lp mask time : Nat)
  /-- A DMA read of `len` bytes at host address `addr` of partition `p` by vNIC function `f`. -/
  | dmaRead (p f : Nat) (addr : Word) (len : Nat)
  /-- A write to partition `p`'s host by its management function. -/
  | hostWrite (p : Nat) (addr : Word) (data : Bytes)
  /-- The download read of R469. -/
  | downloadRead (addr : Word) (len : Nat)
  /-- A function-level reset sent to function `fn` behind `port`. -/
  | flr (port fn : Nat)
  /-- A function-level reset sent to the function with routing ID `rid` behind `port` of module `m`. -/
  | remoteFlr (m port rid : Nat)
  /-- A hot reset sent on `port`. -/
  | hotReset (port : Nat)
  /-- A read of a Retort engine: of a PULL slot, or a zero-length flush read. -/
  | engineRead (e : Nat) (addr : Word) (len : Nat)
  deriving DecidableEq, Repr, Inhabited

/-- Time kept by the always-on domain and the PTP time domain (R572, R352, R386). -/
structure TimeSt where
  /-- counter, units of 40 ns; 15_reset_boot.md R572. -/
  ticks : Nat := 0
  /-- 1; 15_reset_boot.md R572. -/
  counting : Bool := false
  /-- ns counter; 11_traffic_management.md R386. -/
  frcNs : Nat := 0
  /-- 1e-9 ns; 11_traffic_management.md R386. -/
  frcFrac : Nat := 0
  /-- 48; 10_network.md R352. -/
  ptpSec : Nat := 0
  /-- 32; 10_network.md R352. -/
  ptpNs : Nat := 0
  /-- fractional accumulator, 1e-9 ns; 10_network.md R352. -/
  ptpFrac : Nat := 0
  /-- signed 32; 10_network.md R352 (NET_PTP_CLOCK). -/
  ppb : Int := 0
  /-- 1: PTP_CLK_IN selected by option record; 19_pins_electrical.md R560. -/
  ptpExternal : Bool := false
  /-- 1: domain locked to PTP_CLK_IN; 19_pins_electrical.md R560. -/
  ptpLocked : Bool := false
  deriving DecidableEq, Repr, Inhabited

/-- Strap lands as sampled at the supervisor release edge (R462). -/
structure Straps where
  /-- 2; 15_reset_boot.md R462. -/
  bootSrc : Nat := 0
  /-- 2; 15_reset_boot.md R462. -/
  clkMode : Nat := 0
  /-- 1; 15_reset_boot.md R462, R464. -/
  testMode : Bool := false
  /-- 6; 15_reset_boot.md R462, 07_fabric_mode.md R228. -/
  slotId : Nat := 0
  deriving DecidableEq, Repr, Inhabited

/-- One GPIO land (R477, R554). -/
structure Gpio where
  /-- direction; 15_reset_boot.md R477. -/
  out : Bool := false
  /-- level; 15_reset_boot.md R477. -/
  level : Bool := true
  deriving DecidableEq, Repr, Inhabited

/-- Option record fields of one fabric link (R226). -/
structure LinkOpt where
  /-- 1; 06_ndofin_links.md R226. -/
  enable : Bool := false
  /-- 3; 06_ndofin_links.md R226. -/
  maxWidth : Nat := 4
  /-- 2; 06_ndofin_links.md R226. -/
  maxRate : Nat := 2
  /-- 24; 06_ndofin_links.md R226. -/
  vcMap : BitVec 32 := 0x00FAC688#32
  /-- 9; 06_ndofin_links.md R226. -/
  shCap : Nat := 128
  deriving DecidableEq, Repr, Inhabited

/-- Option record fields of one PCIe port (R92). -/
structure PortOpt where
  /-- 2; 03_pcie_stations.md R92. -/
  role : Role := .absent
  /-- 5; 03_pcie_stations.md R92. -/
  part : Nat := 0
  /-- 5; 03_pcie_stations.md R88. -/
  width : Nat := 1
  /-- 1 lanes statically reversed; 03_pcie_stations.md R88. -/
  reversed : Bool := false
  /-- GPIO of the slot power enable; 03_pcie_stations.md R114. -/
  power : Option Nat := none
  deriving DecidableEq, Repr, Inhabited

/-- Option record fields of one partition (R57, R106, R429). -/
structure PartOpt where
  /-- 6 VDSP_COUNT; 03_pcie_stations.md R106. -/
  vdsps : Nat := 0
  /-- 64; 02_ember_mailboxes.md R57. -/
  bar0 : BitVec 64 := 0
  /-- 64; 02_ember_mailboxes.md R57. -/
  bar2 : BitVec 64 := 0
  /-- 64; 02_ember_mailboxes.md R57. -/
  rom : BitVec 64 := 0
  /-- 1; 13_isolation.md R429. -/
  fabricAdmin : Bool := false
  /-- 1; 13_isolation.md R429. -/
  perfUser : Bool := false
  /-- 5; 13_isolation.md R429. -/
  strictSlots : Nat := 0
  deriving DecidableEq, Repr, Inhabited

/-- An option record set; the defaults are the ROM defaults of R467 (R459, R467). -/
structure OptionSet where
  /-- 40; 03_pcie_stations.md R92. -/
  ports : Tab PortOpt := [(0, {role := .upstream})]
  /-- station configuration: 0 1×16, 1 2×8, 2 4×4, 3 1×8 + 2×4; 01_architecture.md R25. -/
  stations : Tab Nat := []
  /-- lane map of each SerDes group; 01_architecture.md R39. -/
  laneMaps : Tab NatList := []
  /-- trims; 01_architecture.md R39. -/
  trims : Tab Nat := []
  /-- 32; 15_reset_boot.md R467. -/
  parts : Tab PartOpt := [(0, {bar0 := 0xF8000000#64, bar2 := 0xF8100000#64, rom := 0xF8200000#64})]
  /-- 16; 06_ndofin_links.md R226. -/
  links : Tab LinkOpt := []
  /-- logical ports enabled; 10_network.md NET_PORT_SET. -/
  lports : Tab Bool := []
  /-- group modes; 10_network.md R325. -/
  modes : Tab Nat := []
  /-- override; 15_reset_boot.md R463. -/
  bootSrc : Option Nat := none
  /-- overrides by station; 15_reset_boot.md R463, 03_pcie_stations.md R89. -/
  clkMode : Tab Nat := []
  /-- override; 07_fabric_mode.md R228. -/
  moduleId : Option Nat := none
  /-- at most two manager modules; 07_fabric_mode.md R245. -/
  managers : List Nat := []
  /-- 3; 15_reset_boot.md R467. -/
  failedLimit : Nat := 3
  /-- 1; 15_reset_boot.md R467. -/
  pinHold : Bool := false
  /-- 1; 18_test_ageing.md R535. -/
  bootBist : Bool := false
  /-- expected signatures the records hold, by 2 × kind + test; 18_test_ageing.md R530. -/
  misr : Tab Nat := []
  /-- 16; 08_memory_pool.md R285. -/
  wideSods : Option Nat := none
  /-- 16; 08_memory_pool.md R285. -/
  spillSods : Option Nat := none
  /-- reaction bytes other than the defaults; 14_faults.md R435. -/
  react : Tab Nat := []
  /-- 1; 13_isolation.md R429. -/
  strict : Bool := false
  /-- 1; 16_power_insertion.md R505. -/
  sagAction : Option Nat := none
  /-- 16; 16_power_insertion.md R505. -/
  vWarn : Option Nat := none
  /-- 4; 16_power_insertion.md R505. -/
  alertMask : Option (BitVec 4) := none
  /-- 8; 16_power_insertion.md R505. -/
  thermWarn : Option Nat := none
  /-- PTP_CLK_IN selected; 19_pins_electrical.md R560. -/
  ptpExternal : Bool := false
  /-- sweep period; 17_counters.md R523. -/
  periodUs : Option Nat := none
  /-- 10; 07_fabric_mode.md R256. -/
  failoverMs : Option Nat := none
  /-- 16; 07_fabric_mode.md R256. -/
  revertMs : Option Nat := none
  /-- 10; 07_fabric_mode.md R256. -/
  extractS : Option Nat := none
  /-- other settings, as the opcode and payload of the command that makes them (log 58); 05_switch_core.md R193, 10_network.md R357, 11_traffic_management.md R389, 17_counters.md R523. -/
  settings : List (Nat × Bytes) := []
  /-- configured lands; 15_reset_boot.md R477. -/
  gpio : Tab Gpio := []
  deriving DecidableEq, Repr, Inhabited

/-- Levels the world puts on the lands and those the module drives. -/
structure Lands where
  /-- strap levels now; 15_reset_boot.md R462. -/
  straps : Straps := {}
  /-- 4; 19_pins_electrical.md R554. -/
  sbAddrIn : Nat := 0
  /-- 4, as read at always-on release; 19_pins_electrical.md R555. -/
  sbAddr : Nat := 0
  /-- 7; 19_pins_electrical.md R555. -/
  dynAddr : Option Nat := none
  /-- 1, after its filter; 16_power_insertion.md R487. -/
  powerEn : Bool := false
  /-- 1: EXTRACT_REQ_N asserted; 07_fabric_mode.md R249. -/
  extractReq : Bool := false
  /-- 40 input levels of upstream PERST_N, true = low; 15_reset_boot.md R477. -/
  perstLow : Tab Bool := []
  /-- 1: READY_REMOVE_N asserted; 07_fabric_mode.md R249. -/
  readyRemove : Bool := false
  /-- 1; 15_reset_boot.md R466. -/
  cfgReady : Bool := false
  /-- 1: THERM_TRIP_N held low; 16_power_insertion.md R493. -/
  thermTrip : Bool := false
  /-- 32 lands; 15_reset_boot.md R477. -/
  gpio : Tab Gpio := []
  /-- hold cells; 15_reset_boot.md R478. -/
  gpioHeld : Option (List (Nat × Gpio)) := none
  /-- hold cell of ALERT_N; 15_reset_boot.md R478. -/
  alertHeld : Option Bool := none
  /-- FREFCLK present; 19_pins_electrical.md R562. -/
  frefOk : Bool := true
  /-- EREFCLK present; 19_pins_electrical.md R562. -/
  erefOk : Bool := true
  /-- stations whose Sn_REFCLK is absent; 19_pins_electrical.md R562. -/
  srefLost : List Nat := []
  /-- PTP_CLK_IN running; 19_pins_electrical.md R560. -/
  ptpClkOk : Bool := true
  deriving DecidableEq, Repr, Inhabited

/-- Reset and start sequence (R453 to R474). -/
structure Boot where
  /-- start phase; 15_reset_boot.md R460, R465. -/
  phase : Phase := .railsOff
  /-- straps in force; 15_reset_boot.md R462, R463. -/
  straps : Straps := {}
  /-- 4; 15_reset_boot.md R454. -/
  cause : Nat := 1
  /-- 4; 15_reset_boot.md R454. -/
  subCause : Nat := 0
  /-- source 4 asserted now; 15_reset_boot.md R455. -/
  srcPulse : Bool := false
  /-- running; 15_reset_boot.md R471. -/
  startTimer : Bool := false
  /-- step 7 running; 15_reset_boot.md R465. -/
  stableWait : Bool := false
  /-- armed; 15_reset_boot.md R456. -/
  watchdog : Bool := false
  /-- sub-cause of a scheduled warm reset; 02_ember_mailboxes.md R80, R85, 18_test_ageing.md R526. -/
  pendingReset : Option Nat := none
  /-- DELAY_MS of a WARM_RESET whose event 0x801 is due once its response has been returned; 02_ember_mailboxes.md R80. -/
  announce : Option Nat := none
  /-- lifecycle to take at the next warm reset; 18_test_ageing.md R526. -/
  nextLifecycle : Option Nat := none
  /-- 6; 07_fabric_mode.md R228. -/
  moduleId : Nat := 0
  /-- 8 (FW_SOURCE); 02_ember_mailboxes.md DEVICE_INFO. -/
  fwSource : Nat := 0
  /-- 32; 02_ember_mailboxes.md DEVICE_INFO. -/
  fwVersion : BitVec 32 := 0
  /-- 16; 07_fabric_mode.md R242. -/
  fwSvn : Nat := 0
  /-- 4 x 16; 02_ember_mailboxes.md R59. -/
  romMachines : List Nat := []
  /-- 64 IMAGE_ADDR; 15_reset_boot.md R469. -/
  dlAddr : BitVec 64 := 0
  /-- 32 IMAGE_SIZE; 15_reset_boot.md R469. -/
  dlSize : BitVec 32 := 0
  /-- 16; 15_reset_boot.md R469. -/
  dlStatus : Nat := 0
  /-- image taken over by a download; 15_reset_boot.md R469, R470. -/
  dlImage : Bytes := []
  /-- download read running; 15_reset_boot.md R469. -/
  dlBusy : Bool := false
  /-- an image request is unanswered; 15_reset_boot.md R470. -/
  peerWait : Bool := false
  /-- peers asked for their image in this start; 15_reset_boot.md R470. -/
  asked : List Nat := []
  /-- MODEL'S OWN: what the start under way finds in the world; 15_reset_boot.md R465. -/
  env : BootEnv := {}
  /-- fabric SerDes domain held in reset; 19_pins_electrical.md R562. -/
  fabricHeld : Bool := false
  /-- Ethernet SerDes domain held in reset; 19_pins_electrical.md R562. -/
  etherHeld : Bool := false
  /-- station domains held in reset; 19_pins_electrical.md R562. -/
  stationHeld : List Nat := []
  /-- option settings in force; 15_reset_boot.md R459, R467. -/
  opt : OptionSet := {}
  /-- an option record set is in force; 15_reset_boot.md R467. -/
  usedOptions : Bool := false
  deriving DecidableEq, Repr, Inhabited

/-- PWR_SET_CONFIG settings, reset letter K (R505). -/
structure PowerCfg where
  /-- 1; 16_power_insertion.md R495. -/
  sagAction : Nat := 0
  /-- 16, mV; 16_power_insertion.md R492. -/
  vWarn : Nat := 38000
  /-- 4; 16_power_insertion.md R503. -/
  alertMask : BitVec 4 := 15
  /-- 8, degrees C; 16_power_insertion.md R502. -/
  thermWarn : Nat := 100
  deriving DecidableEq, Repr, Inhabited

/-- Retained state of the always-on domain, reset letter K (R475). -/
structure Retained where
  /-- 32; 15_reset_boot.md R475. -/
  bkp0 : BitVec 32 := 0x18010000#32
  /-- 32; 15_reset_boot.md R475. -/
  bkp1 : BitVec 32 := 0
  /-- 14 x 32 (BKP2 to BKP15); 15_reset_boot.md R475. -/
  bkpRest : Tab (BitVec 32) := []
  /-- 512 x 16; 15_reset_boot.md R475, 14_faults.md R446. -/
  ledgerShadow : Tab Nat := []
  /-- 32 retention nonce; 08_memory_pool.md R279. -/
  nonce : Option (BitVec 32) := none
  /-- 60 B pool layout digest, beside the nonce in 0x0400 to 0x043F; 15_reset_boot.md R475. -/
  layout : Option (BitVec 480) := none
  /-- retained SRAM 0x0440 to 0xFFFF; 15_reset_boot.md R475. -/
  emberRam : List (Nat × BitVec 8) := []
  /-- upstream port of each partition as recorded with the sod map; 13_isolation.md R421. -/
  upOf : Option (List (Nat × Nat)) := none
  /-- PWR_SET_CONFIG settings; 16_power_insertion.md R505. -/
  power : PowerCfg := {}
  /-- fault sources of block 0x36 latched through a brownout; 16_power_insertion.md R504. -/
  latched : List Nat := []
  /-- 16; 16_power_insertion.md PWR_GET_STATUS. -/
  sags : Nat := 0
  /-- 16; 16_power_insertion.md PWR_GET_STATUS. -/
  stops : Nat := 0
  deriving DecidableEq, Repr, Inhabited

/-- One flash image slot (R83). -/
structure Slot where
  /-- 8; 02_ember_mailboxes.md FW_GET_STATUS. -/
  st : SlotSt := .invalid
  /-- 32; 02_ember_mailboxes.md FW_BEGIN. -/
  size : Nat := 0
  /-- up to 48 MiB; a byte not listed reads 0xFF, as erased flash; 02_ember_mailboxes.md R84. -/
  data : List (Nat × BitVec 8) := []
  /-- the signature verifies and the format is recognised; 02_ember_mailboxes.md R83. -/
  good : Bool := false
  /-- 32 version of the image; 02_ember_mailboxes.md FW_GET_STATUS. -/
  version : BitVec 32 := 0
  /-- 16 security version of the image; 02_ember_mailboxes.md R83. -/
  svn : Nat := 0
  deriving DecidableEq, Repr, Inhabited

/-- The margin record in flash (R540). -/
structure MarginRec where
  /-- mV; 18_test_ageing.md R540. -/
  vdd : Nat := 750
  /-- t_eff, 1/10,000 h; 18_test_ageing.md R540. -/
  tEff : Nat := 0
  /-- 4; 18_test_ageing.md R540. -/
  stepEn : BitVec 4 := 15
  /-- 8; 18_test_ageing.md R540. -/
  tjPlanMin : Nat := 90
  deriving DecidableEq, Repr, Inhabited

/-- Flash and fuses: kept without power (R22, R85, R445, R525). -/
structure Nv where
  /-- image slot A; 02_ember_mailboxes.md R83. -/
  slotA : Slot := {}
  /-- image slot B; 02_ember_mailboxes.md R83. -/
  slotB : Slot := {}
  /-- activation record; 02_ember_mailboxes.md R85. -/
  activation : Option Nat := none
  /-- verified option record set of flash A; 15_reset_boot.md R467. -/
  optA : Option OptionSet := none
  /-- verified option record set of flash B; 15_reset_boot.md R467. -/
  optB : Option OptionSet := none
  /-- ledger record; none: CRC fails; 14_faults.md R446. -/
  ledger : Option (List (Nat × Nat)) := some []
  /-- kept POOL_CONFIG value; 08_memory_pool.md R285. -/
  wideSods : Option Nat := none
  /-- kept POOL_CONFIG value; 08_memory_pool.md R285. -/
  spillSods : Option Nat := none
  /-- retired list; 08_memory_pool.md R279, R285. -/
  retired : List Nat := []
  /-- margin record; none: CRC fails; 18_test_ageing.md R540. -/
  margin : Option MarginRec := some {}
  /-- three fuse copies; 18_test_ageing.md R525. -/
  lifeCopies : List Nat := [1, 1, 1]
  /-- 16; 02_ember_mailboxes.md FW_GET_STATUS. -/
  svnFuse : Nat := 0
  /-- 16; 02_ember_mailboxes.md FW_GET_STATUS. -/
  lastOp : Nat := 0
  /-- 16; 02_ember_mailboxes.md FW_GET_STATUS. -/
  lastStatus : Nat := 0
  /-- soft repairs logged per block; 18_test_ageing.md R534. -/
  repairs : Tab Nat := []
  /-- 0 KV9660-PC, 1 KV9660-PE; 00_scope.md R5. -/
  ordering : Nat := 0
  deriving DecidableEq, Repr, Inhabited

/-- Configuration state of one management function (R55, R57). -/
structure MgmtFn where
  /-- 1 Memory Space Enable; 02_ember_mailboxes.md R57. -/
  memEn : Bool := false
  /-- 1 Bus Master Enable; 15_reset_boot.md R469. -/
  busMaster : Bool := false
  /-- 1; 02_ember_mailboxes.md R55. -/
  msixEn : Bool := false
  /-- 1 Function Mask; 02_ember_mailboxes.md R55. -/
  msixMask : Bool := false
  /-- power state D3hot; 02_ember_mailboxes.md R55. -/
  d3 : Bool := false
  /-- other read-write configuration registers; 02_ember_mailboxes.md R55. -/
  cfg : Tab (BitVec 32) := []
  /-- 64 x 16 B, by dword; 02_ember_mailboxes.md R57. -/
  msixTable : Tab (BitVec 32) := []
  /-- 64; 02_ember_mailboxes.md R57. -/
  pba : BitVec 64 := 0
  deriving DecidableEq, Repr, Inhabited

/-- One mailbox page: registers and buffers (R61, R63). -/
structure Page where
  /-- 3; 02_ember_mailboxes.md R61. -/
  st : PageSt := .idle
  /-- 8; 02_ember_mailboxes.md R61. -/
  doneSeq : BitVec 8 := 0
  /-- 1; 02_ember_mailboxes.md R61. -/
  orphan : Bool := false
  /-- 1; 02_ember_mailboxes.md R61. -/
  dbErr : Bool := false
  /-- 1; 02_ember_mailboxes.md R61. -/
  doneInt : Bool := false
  /-- 1; 02_ember_mailboxes.md R61. -/
  intEn : Bool := false
  /-- 32; 02_ember_mailboxes.md R61. -/
  orphanTag : BitVec 32 := 0
  /-- 16; 02_ember_mailboxes.md R61. -/
  orphanOp : BitVec 16 := 0
  /-- 16; 02_ember_mailboxes.md R61. -/
  orphanStatus : BitVec 16 := 0
  /-- 4 KiB; 02_ember_mailboxes.md mailbox page layout. -/
  cmdBuf : List (Nat × BitVec 8) := []
  /-- MODEL'S OWN: the command buffer as Ember will see it, while QUEUED; 02_ember_mailboxes.md R64. -/
  cmdSeen : List (Nat × BitVec 8) := []
  /-- 4 KiB; 02_ember_mailboxes.md R63. -/
  rspBuf : List (Nat × BitVec 8) := []
  deriving DecidableEq, Repr, Inhabited

/-- A command waiting in a queue position of a message path (R72). -/
structure QCmd where
  /-- 16; 02_ember_mailboxes.md R66. -/
  opcode : Nat := 0
  /-- frame; 02_ember_mailboxes.md R66. -/
  req : Req := {}
  /-- 3; 02_ember_mailboxes.md R78. -/
  msgTag : Nat := 0
  deriving DecidableEq, Repr, Inhabited

/-- A committed command whose response waits for something outside Ember (R62, R65, R140). -/
structure RunCmd where
  /-- queue position; 02_ember_mailboxes.md R72. -/
  pos : Nat := 0
  /-- command path; 02_ember_mailboxes.md R54. -/
  path : Path := .sideband
  /-- 16; 02_ember_mailboxes.md R66. -/
  opcode : Nat := 0
  /-- 32; 02_ember_mailboxes.md R66. -/
  tag : BitVec 32 := 0
  /-- 1; 02_ember_mailboxes.md R66. -/
  noInt : Bool := false
  /-- 3; 02_ember_mailboxes.md R78. -/
  msgTag : Nat := 0
  /-- what it waits for; 02_ember_mailboxes.md R65, 04_windows_sharing.md R140. -/
  wait : RunWait := .relay 0
  deriving DecidableEq, Repr, Inhabited

/-- An operation handle (R69, R70). -/
structure Handle where
  /-- 5; 02_ember_mailboxes.md R70. -/
  part : Nat := 0
  /-- 32; 02_ember_mailboxes.md R69. -/
  id : Nat := 0
  /-- 16; 02_ember_mailboxes.md GET_OP_STATUS. -/
  opcode : Nat := 0
  /-- 1; 02_ember_mailboxes.md GET_OP_STATUS. -/
  running : Bool := true
  /-- 16; 02_ember_mailboxes.md GET_OP_STATUS. -/
  final : Nat := 1
  /-- 32; 02_ember_mailboxes.md GET_OP_STATUS. -/
  detail : Nat := 0
  /-- the operation it names; 02_ember_mailboxes.md R69. -/
  work : Work := .other
  deriving DecidableEq, Repr, Inhabited

/-- The open firmware transfer (R81). -/
structure Xfer where
  /-- 0 A, 1 B; 02_ember_mailboxes.md R81. -/
  slot : Nat := 0
  /-- 32 IMAGE_SIZE; 02_ember_mailboxes.md FW_BEGIN. -/
  size : Nat := 0
  /-- 32 WRITE_PTR; 02_ember_mailboxes.md R84. -/
  ptr : Nat := 0
  /-- partition; 02_ember_mailboxes.md R81. -/
  owner : Nat := 0
  /-- path; 02_ember_mailboxes.md R81. -/
  path : Path := .sideband
  /-- the erase ended with OK; 02_ember_mailboxes.md R84. -/
  erased : Bool := false
  /-- operation running under a handle; 02_ember_mailboxes.md R82, R84. -/
  op : XferOp := .none
  /-- its handle; 02_ember_mailboxes.md R82. -/
  handle : Nat := 0
  /-- a P reset of the owner arrived; 02_ember_mailboxes.md R82. -/
  closeDue : Bool := false
  deriving DecidableEq, Repr, Inhabited

/-- Ember: mailbox service, command paths, handles (R53 to R87). -/
structure Ember where
  /-- 1 FW_READY; 02_ember_mailboxes.md R61. -/
  fwReady : Bool := false
  /-- 1 SMOULDER; 02_ember_mailboxes.md R61. -/
  smoulder : Bool := false
  /-- 36 pages (32 partitions, 4 clusters); 02_ember_mailboxes.md R61, 12_hearth.md R394. -/
  pages : Tab Page := []
  /-- queue positions of the message paths; 02_ember_mailboxes.md R72. -/
  msgQ : Tab QCmd := []
  /-- positions in order of arrival; 02_ember_mailboxes.md R72. -/
  arrivals : List Nat := []
  /-- by partition; 02_ember_mailboxes.md R72. -/
  running : Tab RunCmd := []
  /-- newest first; 02_ember_mailboxes.md R69, R70. -/
  handles : List Handle := []
  /-- 32; 02_ember_mailboxes.md R69. -/
  nextHandle : Nat := 1
  /-- 8; 02_ember_mailboxes.md R77. -/
  sbEid : Nat := 0
  /-- 8 per partition; 02_ember_mailboxes.md R77. -/
  vdmEid : Tab Nat := []
  /-- open transfer; 02_ember_mailboxes.md R81. -/
  xfer : Option Xfer := none
  /-- the expansion ROM copy exists; 02_ember_mailboxes.md R59, R60. -/
  romCopy : Bool := false
  /-- 256; 18_test_ageing.md R527. -/
  rmaNonce : Option Nat := none
  /-- rejected tokens; 18_test_ageing.md R529. -/
  rmaRejects : Nat := 0
  /-- MODEL'S OWN: the last response frame formed; 02_ember_mailboxes.md R66. -/
  lastRsp : Rsp := {}
  /-- percent of the patrol cycle; 08_memory_pool.md POOL_GET_STATUS. -/
  sincePatrol : Nat := 0
  deriving DecidableEq, Repr, Inhabited

/-- What Ember learns of a device's functions at enumeration (R115, R145). -/
structure DevFn where
  /-- 16; 04_windows_sharing.md DEV_SHARE. -/
  totalVfs : Nat := 0
  /-- 1; 13_isolation.md R419. -/
  acs : Bool := false
  /-- BARs fit below 2^48; 01_architecture.md R32. -/
  placeable : Bool := true
  /-- 10-bit tag completer; 03_pcie_stations.md R96. -/
  tag10 : Bool := true
  /-- bytes; 03_pcie_stations.md R99. -/
  mps : Nat := 1024
  /-- bytes; 03_pcie_stations.md R99. -/
  mrrs : Nat := 512
  deriving DecidableEq, Repr, Inhabited

/-- The record of one outstanding non-posted request (R96). -/
structure TagRec where
  /-- 10; 03_pcie_stations.md R96. -/
  tag : Nat := 0
  /-- 16 original requester; 03_pcie_stations.md R96. -/
  rid : Nat := 0
  /-- 14; 03_pcie_stations.md R96. -/
  origTag : Nat := 0
  /-- 5; 03_pcie_stations.md R96. -/
  part : Nat := 0
  /-- 7 return port; 03_pcie_stations.md R96. -/
  retPort : Nat := 0
  /-- 7 core port it entered by; 03_pcie_stations.md R97. -/
  src : Nat := 0
  /-- 6 return module; 03_pcie_stations.md R96. -/
  smod : Nat := 0
  /-- 3; 03_pcie_stations.md R100. -/
  tc : Nat := 0
  /-- bytes outstanding; 03_pcie_stations.md R96. -/
  len : Nat := 0
  /-- 12, ms; 03_pcie_stations.md R102. -/
  cto : Nat := 50
  /-- routing ID of the function a configuration request goes to; 03_pcie_stations.md R108, R118. -/
  cfgRid : Option Nat := none
  /-- function of the device the request goes to; 04_windows_sharing.md R151. -/
  tfn : Nat := 0
  /-- port at which a redirected completion arrived; 03_pcie_stations.md R122. -/
  redirAt : Nat := 0
  /-- port and function of every bound function the request concerns, once answered; 04_windows_sharing.md R151. -/
  fns : List (Nat × Nat) := []
  /-- partition reset since issue; 03_pcie_stations.md R105. -/
  stale : Bool := false
  deriving DecidableEq, Repr, Inhabited

/-- AER registers of a physical downstream port (FLT_AER_READ). -/
structure Aer where
  /-- 32; 14_faults.md FLT_AER_READ. -/
  uncStatus : BitVec 32 := 0
  /-- 32; 14_faults.md FLT_AER_READ. -/
  uncMask : BitVec 32 := 0x00400000#32
  /-- 32; 14_faults.md FLT_AER_READ. -/
  uncSev : BitVec 32 := 0x00462030#32
  /-- 32; 14_faults.md FLT_AER_READ. -/
  corStatus : BitVec 32 := 0
  /-- 32; 14_faults.md FLT_AER_READ. -/
  corMask : BitVec 32 := 0x0000E000#32
  /-- 32; 14_faults.md FLT_AER_READ. -/
  capCtl : BitVec 32 := 0
  /-- 128; 14_faults.md FLT_AER_READ. -/
  hdrLog : BitVec 128 := 0
  deriving DecidableEq, Repr, Inhabited

/-- One PCIe port (core ports 0 to 39). -/
structure Port where
  /-- 2; 03_pcie_stations.md R92. -/
  role : Role := .absent
  /-- owner of an upstream port; 03_pcie_stations.md R92. -/
  part : Nat := 0
  /-- 5; 03_pcie_stations.md PORT_GET_STATUS. -/
  maxWidth : Nat := 0
  /-- lanes statically reversed; 03_pcie_stations.md R88. -/
  reversed : Bool := false
  /-- 4; 03_pcie_stations.md PORT_GET_STATUS. -/
  ltssm : Nat := 0
  /-- 1; 03_pcie_stations.md PORT_GET_STATUS. -/
  dlActive : Bool := false
  /-- 1; 03_pcie_stations.md PORT_GET_STATUS. -/
  flit : Bool := false
  /-- 5; 03_pcie_stations.md PORT_GET_STATUS. -/
  width : Nat := 0
  /-- 3; 03_pcie_stations.md PORT_GET_STATUS. -/
  rate : Nat := 0
  /-- 3; 03_pcie_stations.md PORT_SET_CONFIG. -/
  targetRate : Nat := 6
  /-- 12; 03_pcie_stations.md R102. -/
  ctoMs : Nat := 50
  /-- 32; 03_pcie_stations.md PORT_GET_STATUS. -/
  lateCpl : Nat := 0
  /-- 1; 03_pcie_stations.md R93. -/
  aspm : Nat := 0
  /-- 24; 03_pcie_stations.md R100. -/
  tcMap : BitVec 32 := 0x00DAC688#32
  /-- receiver detection; 03_pcie_stations.md R114. -/
  present : Bool := false
  /-- slot power; 03_pcie_stations.md R114. -/
  powerOn : Bool := true
  /-- DPC triggered; 03_pcie_stations.md R120. -/
  dpc : Bool := false
  /-- BARs cannot be placed; 01_architecture.md R32. -/
  unbound : Bool := false
  /-- device not ready; 03_pcie_stations.md R115. -/
  notReady : Bool := false
  /-- step 5 of bring-up done; 03_pcie_stations.md R115. -/
  enumerated : Bool := false
  /-- bring-up step 0 idle, 1 to 5; 03_pcie_stations.md R115. -/
  step : Nat := 0
  /-- link disabled by PORT_RESET; 03_pcie_stations.md PORT_RESET. -/
  disabled : Bool := false
  /-- downstream PERST_N driven low; 15_reset_boot.md R477. -/
  perst : Bool := true
  /-- device as enumerated; 03_pcie_stations.md R115. -/
  dev : DevFn := {}
  /-- sharing mode; 04_windows_sharing.md R145. -/
  mode : PortMode := .unassigned
  /-- DEV_SHARE running; 04_windows_sharing.md R145. -/
  sharePending : Bool := false
  /-- handle of a running PORT_RESET; 03_pcie_stations.md PORT_RESET. -/
  reset : Option Nat := none
  /-- up to 768; 03_pcie_stations.md R96. -/
  tags : List TagRec := []
  /-- quarantined tags with their time in ms; 03_pcie_stations.md R103. -/
  quar : List (Nat × Nat) := []
  /-- answered records kept until a fence time; 04_windows_sharing.md R151. -/
  kept : List TagRec := []
  /-- non-posted requests waiting in the ingress station; 03_pcie_stations.md R97. -/
  npWait : List Pkt := []
  /-- TLPs stored for egress; 03_pcie_stations.md R123. -/
  egress : List Pkt := []
  /-- TLPs sent and not acknowledged; 04_windows_sharing.md R139. -/
  unacked : List Pkt := []
  /-- MODEL'S OWN: completions sent to the root complex under P2P Completion Redirect, by requester and tag; 03_pcie_stations.md R122. -/
  redir : List TagRec := []
  /-- MODEL'S OWN: routing IDs of the functions whose FLR is in progress; 03_pcie_stations.md R118. -/
  flrs : List Nat := []
  /-- AER; 03_pcie_stations.md R119. -/
  aer : Aer := {}
  /-- CLKREQ_N driven low; 03_pcie_stations.md R91. -/
  clkreq : Bool := false
  deriving DecidableEq, Repr, Inhabited

/-- One virtual downstream port (R106, R112). -/
structure Vdsp where
  /-- 3; 03_pcie_stations.md R112. -/
  st : VdspSt := .empty
  /-- 3; 03_pcie_stations.md VDSP_BIND. -/
  kind : Nat := 0
  /-- 8; 03_pcie_stations.md VDSP_BIND. -/
  port : Nat := 0
  /-- 6; 03_pcie_stations.md VDSP_BIND. -/
  module : Nat := 0
  /-- 16; 03_pcie_stations.md VDSP_BIND. -/
  first : Nat := 0
  /-- 16; 03_pcie_stations.md VDSP_BIND. -/
  count : Nat := 0
  /-- 1 Data Link Layer Link Active; 03_pcie_stations.md R112. -/
  linkActive : Bool := false
  /-- 1 Data Link Layer State Changed; 03_pcie_stations.md R112. -/
  linkChanged : Bool := false
  /-- 1 Presence Detect State; 03_pcie_stations.md R112. -/
  presence : Bool := false
  /-- 1; 03_pcie_stations.md R112. -/
  presenceChanged : Bool := false
  /-- 1 Attention Button Pressed; 03_pcie_stations.md R112. -/
  attention : Bool := false
  /-- 1 Power Controller Control; 03_pcie_stations.md R112. -/
  powerOff : Bool := false
  /-- 1 DPC Trigger Status; 03_pcie_stations.md R112. -/
  dpcStatus : Bool := false
  /-- 1 host has enabled DPC; 03_pcie_stations.md R120. -/
  dpcEnable : Bool := false
  /-- 1 ERR_NONFATAL trigger enabled; 03_pcie_stations.md R121. -/
  dpcNonfatal : Bool := false
  /-- 1 hot-plug interrupt enabled; 03_pcie_stations.md R112. -/
  hpInt : Bool := false
  /-- 1 ACS P2P Request Redirect; 03_pcie_stations.md R111. -/
  redirect : Bool := false
  /-- 1 ACS P2P Completion Redirect; 03_pcie_stations.md R122. -/
  cplRedirect : Bool := false
  /-- 1 ACS Source Validation; 03_pcie_stations.md R122. -/
  srcVal : Bool := false
  /-- handle of the running VDSP_UNBIND; 03_pcie_stations.md R112. -/
  unbind : Option Nat := none
  /-- unplug timer running; 03_pcie_stations.md R112. -/
  timer : Bool := false
  /-- target reset in progress; 03_pcie_stations.md R112, R118. -/
  resetPending : Bool := false
  /-- Uncorrectable Error Status of the vDSP; 03_pcie_stations.md R119. -/
  aerUnc : BitVec 32 := 0
  /-- 6; 03_pcie_stations.md R110. -/
  barUnmapped : BitVec 6 := 0
  /-- Memory Space Enable by function; 03_pcie_stations.md R109. -/
  memEn : Tab Bool := []
  /-- emulated BARs by function * 6 + BAR; 03_pcie_stations.md R109. -/
  bars : Tab (BitVec 64) := []
  /-- other emulated read-write registers; 03_pcie_stations.md R108. -/
  cfg : Tab (BitVec 32) := []
  deriving DecidableEq, Repr, Inhabited

/-- What the configuration engine does to the answer to one forwarded read (R94, R107). -/
structure CfgFix where
  /-- 16 requester; 03_pcie_stations.md R108. -/
  rid : Nat := 0
  /-- 14; 03_pcie_stations.md R108. -/
  tag : Nat := 0
  /-- bits kept; 03_pcie_stations.md R94, R107. -/
  keep : BitVec 32 := 0xFFFFFFFF#32
  /-- bits put in their place; 03_pcie_stations.md R94, R107. -/
  put : BitVec 32 := 0
  deriving DecidableEq, Repr, Inhabited

/-- The virtual switch of one partition (R106). -/
structure VSwitch where
  /-- its upstream core port; 03_pcie_stations.md R92. -/
  up : Option Nat := none
  /-- PERST_N or hot reset held; 03_pcie_stations.md R116. -/
  inReset : Bool := false
  /-- answers Request Retry Status; 03_pcie_stations.md R117, 02_ember_mailboxes.md R56. -/
  rrs : Bool := false
  /-- upstream bridge read-write registers; 03_pcie_stations.md R106. -/
  bridge : Tab (BitVec 32) := []
  /-- 8 bus number of the upstream link, captured from configuration writes; 03_pcie_stations.md R106. -/
  bus : Nat := 0
  /-- MODEL'S OWN: changes due to the answers of forwarded reads; 03_pcie_stations.md R94, R107. -/
  cfgOut : List CfgFix := []
  /-- management function; 02_ember_mailboxes.md R55. -/
  mgmt : MgmtFn := {}
  /-- 6 VDSP_COUNT; 03_pcie_stations.md R106. -/
  vdspCount : Nat := 0
  /-- 64 Enhanced Allocation base; 02_ember_mailboxes.md R57. -/
  bar0 : BitVec 64 := 0
  /-- 64; 02_ember_mailboxes.md R57. -/
  bar2 : BitVec 64 := 0
  /-- 64; 02_ember_mailboxes.md R57. -/
  rom : BitVec 64 := 0
  deriving DecidableEq, Repr, Inhabited

/-- The fence time of one migrated function (R151). -/
structure Fence where
  /-- 6; 04_windows_sharing.md R151. -/
  port : Nat := 0
  /-- VF number; 0 PF; 0xFFFF whole device; 04_windows_sharing.md R151. -/
  fn : Nat := 0
  /-- 12, ms from the end of the FLR to the fence time; 04_windows_sharing.md R151. -/
  ms : Nat := 50
  deriving DecidableEq, Repr, Inhabited

/-- One staged table operation (R136). -/
structure StagedOp where
  /-- 8; 04_windows_sharing.md WIN_STAGE. -/
  table : Nat := 1
  /-- OP 1; 04_windows_sharing.md WIN_STAGE. -/
  inval : Bool := false
  /-- 8; 04_windows_sharing.md WIN_STAGE. -/
  scope : Nat := 0
  /-- 16; 04_windows_sharing.md WIN_STAGE. -/
  index : Nat := 0
  /-- 256; 04_windows_sharing.md WIN_STAGE. -/
  entry : BitVec 256 := 0
  /-- commits of this entry seen when staged; 04_windows_sharing.md R138. -/
  stamp : Nat := 0
  /-- staged by partition 0; 13_isolation.md R419 bit 2. -/
  byZero : Bool := false
  deriving DecidableEq, Repr, Inhabited

/-- One drain tracker (R140). -/
structure Tracker where
  /-- not in use; 04_windows_sharing.md R140. -/
  free : Bool := true
  /-- the tracker new lookups count in; 04_windows_sharing.md R140. -/
  isOpen : Bool := false
  /-- one counter per partition; 04_windows_sharing.md R140. -/
  counts : Tab Nat := []
  /-- orders of opening it counts: its own and those of trackers merged into it; 04_windows_sharing.md R140, R190. -/
  names : List Nat := []
  /-- latest order of opening it counts; 04_windows_sharing.md R140. -/
  age : Nat := 0
  deriving DecidableEq, Repr, Inhabited

/-- A drain some handle or waiting command follows (R140). -/
structure Drain where
  /-- order of opening of the tracker its commit closed; 04_windows_sharing.md R140. -/
  tracker : Nat := 0
  /-- partitions owning an entry the commit wrote; 04_windows_sharing.md R140. -/
  parts : List Nat := []
  /-- its handle; 0 while the command still waits; 04_windows_sharing.md R140. -/
  handle : Nat := 0
  /-- 16 the commit's epoch; 04_windows_sharing.md WIN_COMMIT. -/
  epoch : BitVec 16 := 0
  /-- operations applied; 04_windows_sharing.md WIN_COMMIT. -/
  applied : Nat := 0
  /-- entries invalidated; 04_windows_sharing.md WIN_COMMIT. -/
  inval : Nat := 0
  /-- issuing partition; 04_windows_sharing.md R140. -/
  part : Nat := 0
  deriving DecidableEq, Repr, Inhabited

/-- Translation tables, staging, epochs and drains (R126 to R153). -/
structure Win where
  /-- 65,536 x 256; 04_windows_sharing.md R127. -/
  bank0 : Tab (BitVec 256) := []
  /-- 65,536 x 256; 04_windows_sharing.md R127. -/
  bank1 : Tab (BitVec 256) := []
  /-- active-bank pointer; 04_windows_sharing.md R127. -/
  active : Bool := false
  /-- 16; 04_windows_sharing.md R137. -/
  epoch : BitVec 16 := 0
  /-- entries last written from an operation partition 0 staged; 13_isolation.md R419 bit 2. -/
  byZero : List Nat := []
  /-- MODEL'S OWN: commits that wrote each entry; 04_windows_sharing.md R138. -/
  stamps : Tab Nat := []
  /-- 32 sets of up to 1,024; 04_windows_sharing.md R136. -/
  staging : Tab (List StagedOp) := []
  /-- 8; 04_windows_sharing.md R140. -/
  trackers : Tab Tracker := [(0, { free := false, isOpen := true, names := [0] })]
  /-- MODEL'S OWN: order of opening; 04_windows_sharing.md R140. -/
  trackSeq : Nat := 1
  /-- drains being followed; 04_windows_sharing.md R140. -/
  drains : List Drain := []
  /-- fence times not yet passed; 04_windows_sharing.md R151. -/
  fences : List Fence := []
  deriving DecidableEq, Repr, Inhabited

/-- CORE_SET_CONFIG settings (R192, R193). -/
structure CoreCfg where
  /-- 8; 05_switch_core.md R193. -/
  lossyMask : BitVec 8 := 0
  /-- 24; 05_switch_core.md R193. -/
  alpha : BitVec 32 := 0x00924924#32
  /-- 7 x 8; 05_switch_core.md R193. -/
  weight : List Nat := [1, 1, 1, 1, 1, 1, 1, 0]
  /-- 7 x 8; 05_switch_core.md R193. -/
  drop : List Nat := [255, 255, 255, 255, 255, 255, 255, 255]
  /-- 8; 05_switch_core.md R193. -/
  holdQuota : Nat := 16
  /-- 8; 05_switch_core.md R193. -/
  holdTotal : Nat := 32
  deriving DecidableEq, Repr, Inhabited

/-- One plane (R168 to R177). -/
structure PlaneSt where
  /-- 1; 05_switch_core.md R170. -/
  inService : Bool := true
  /-- stage 1 or 2 of leaving service; 05_switch_core.md R170. -/
  leaving : Bool := false
  /-- 0 none, 1 block reset, 2 BIST; 05_switch_core.md R170. -/
  leaveFor : Nat := 0
  /-- cell time number; 13_isolation.md R424. -/
  cellNo : Nat := 0
  /-- calendar of the shared core ports in force on this plane; 13_isolation.md R424, R427. -/
  cal : Option (List Nat) := none
  /-- mean cell time, ps; 05_switch_core.md R176. -/
  meanPs : Nat := 4000
  /-- iteration count in force on this plane; 05_switch_core.md R175, R177. -/
  n : Nat := 4
  /-- grant pointers [o][c]; 05_switch_core.md R171. -/
  gptr : Tab Nat := []
  /-- accept pointers [i]; 05_switch_core.md R171. -/
  aptr : Tab Nat := []
  /-- TC pointers [o]; 05_switch_core.md R171. -/
  tcptr : Tab Nat := []
  /-- credits [o][tc]; 05_switch_core.md R171. -/
  credit : Tab Nat := []
  deriving DecidableEq, Repr, Inhabited

/-- A packet admitted to the core, with its cells (R160, R168, R169). -/
structure QPkt where
  /-- header, descriptor, data; 05_switch_core.md R154, R158. -/
  pkt : Pkt := {}
  /-- cells charged; 05_switch_core.md R157. -/
  n : Nat := 1
  /-- reserve, shared, held or spilled; 05_switch_core.md R162, R183, R184. -/
  place : Place := .shared
  /-- plane of each cell, plus 4 once it has crossed; 05_switch_core.md R168. -/
  planes : List Nat := []
  /-- cuts through; 05_switch_core.md R178. -/
  cut : Bool := false
  /-- MODEL'S OWN: per cell, what its stored HCRC differs by from the right one; 05_switch_core.md R155. -/
  flips : Tab (BitVec 16) := []
  /-- MODEL'S OWN: order in which its egress has been given it; 05_switch_core.md R178, R200. -/
  out : Option Nat := none
  /-- its egress has begun to send it; 05_switch_core.md R178, R181. -/
  begun : Bool := false
  /-- virtual channel it is being sent on; 06_ndofin_links.md R200. -/
  vc : Nat := 0
  /-- its units packed into flits; 06_ndofin_links.md R200, R209. -/
  sent : Nat := 0
  deriving DecidableEq, Repr, Inhabited

/-- A packet waiting at its ingress (R162, R166, R186, R188, R238). -/
structure WPkt where
  /-- packet; 05_switch_core.md R166. -/
  pkt : Pkt := {}
  /-- what it waits for; 05_switch_core.md R162, R186, R188. -/
  why : WaitWhy := .room
  /-- cells it is to be admitted for; 05_switch_core.md R162. -/
  n : Nat := 1
  /-- could cut through; 05_switch_core.md R178. -/
  cut : Bool := false
  deriving DecidableEq, Repr, Inhabited

/-- Switch core (R154 to R193). -/
structure CoreSt where
  /-- CORE_SET_CONFIG settings; 05_switch_core.md R193. -/
  cfg : CoreCfg := {}
  /-- iteration count N; 05_switch_core.md R175. -/
  n : Nat := 4
  /-- 16; 05_switch_core.md CORE_GET_STATUS. -/
  iterChanges : Nat := 0
  /-- 4; 05_switch_core.md R168. -/
  planes : Tab PlaneSt := []
  /-- cell buffer and spill region, in order of admission; 05_switch_core.md R160, R184. -/
  q : List QPkt := []
  /-- packets waiting at their ingress; 05_switch_core.md R166. -/
  waiting : List WPkt := []
  /-- packets admitted per VOQ; 05_switch_core.md R160. -/
  pseq : Tab Nat := []
  /-- plane rotation per input; 05_switch_core.md R168. -/
  rot : Tab Nat := []
  /-- spilled cells that have not crossed to their pool port, as plane + 4 × pool port (log 90); 17_counters.md R513. -/
  spillOut : NatList := []
  /-- 32; 05_switch_core.md CORE_GET_STATUS. -/
  aborts : Nat := 0
  /-- 32; 05_switch_core.md CORE_GET_STATUS. -/
  heldDrops : Nat := 0
  /-- 32; 05_switch_core.md CORE_GET_STATUS. -/
  withdrawn : Nat := 0
  /-- MODEL'S OWN: packets given to an egress so far; 05_switch_core.md R178. -/
  outs : Nat := 0
  /-- MODEL'S OWN: packets that have entered from a lookup; 08_memory_pool.md R265. -/
  lookups : Nat := 0
  /-- MODEL'S OWN: packets that attachments have formed in the current step; 05_switch_core.md R154. -/
  formed : List Pkt := []
  /-- packets that a stalled attachment has still to issue, by core port; 05_switch_core.md R165. -/
  issue : Tab (List Pkt) := []
  /-- packets released to Ember (72), pool ports and Retort engines, not yet executed; 05_switch_core.md R169. -/
  delivered : Tab (List Pkt) := []
  deriving DecidableEq, Repr, Inhabited

/-- A receive buffer slot holding an accepted flit (R211, R212). -/
structure RxSlot where
  /-- a shared slot, else a private one; 06_ndofin_links.md R212. -/
  shared : Bool := false
  /-- the flit; 06_ndofin_links.md R211. -/
  flit : Flit := {}
  /-- MODEL'S OWN: numbers of the packets with units in it; 06_ndofin_links.md R211. -/
  ids : List Nat := []
  deriving DecidableEq, Repr, Inhabited

/-- Receive stream of one virtual channel (R200, R211). -/
structure RxVc where
  /-- accepted flits whose units are not all in cells; 06_ndofin_links.md R211. -/
  slots : List RxSlot := []
  /-- units of the packet in progress; 06_ndofin_links.md R200. -/
  units : List (BitVec 128) := []
  /-- MODEL'S OWN: number of the packet in progress; 06_ndofin_links.md R211. -/
  id : Nat := 0
  /-- the head of the packet in progress has been given to the core; 05_switch_core.md R178. -/
  entered : Bool := false
  deriving DecidableEq, Repr, Inhabited

/-- One replay slot with its side records (R208, R209). -/
structure ReplaySlot where
  /-- 256 B flit; 06_ndofin_links.md R208. -/
  flit : Flit := {}
  /-- packets whose last unit this flit carries; 06_ndofin_links.md R209. -/
  pkts : List Pkt := []
  /-- packet with units in this flit that goes on after it; 06_ndofin_links.md R209. -/
  cuts : List Pkt := []
  deriving DecidableEq, Repr, Inhabited

/-- One Ndofin link, core port 40 + k, block 0x0A + k (R194 to R227). -/
structure Link where
  /-- 3 STATE; 06_ndofin_links.md R217. -/
  st : LinkSt := .disabled
  /-- 1 ENABLE; 06_ndofin_links.md R217. -/
  enabled : Bool := false
  /-- 3; 06_ndofin_links.md R226. -/
  maxWidth : Nat := 4
  /-- 2; 06_ndofin_links.md R226. -/
  maxRate : Nat := 2
  /-- 24; 06_ndofin_links.md R200, R226. -/
  vcMap : BitVec 32 := 0x00FAC688#32
  /-- map applied to flits since UP; 06_ndofin_links.md R227. -/
  vcMapUp : BitVec 32 := 0x00FAC688#32
  /-- 9; 06_ndofin_links.md R212. -/
  shCap : Nat := 128
  /-- 3; 06_ndofin_links.md LINK_GET_STATUS. -/
  width : Nat := 0
  /-- 2; 06_ndofin_links.md LINK_GET_STATUS. -/
  rate : Nat := 0
  /-- 4 lanes passing equalization here; 06_ndofin_links.md R218. -/
  lanesOk : BitVec 4 := 0
  /-- 4; 06_ndofin_links.md R218. -/
  lanesUse : BitVec 4 := 0
  /-- ALIGN reached with the selected lanes; 06_ndofin_links.md R196. -/
  aligned : Bool := false
  /-- STREAM_RESET to be sent; 06_ndofin_links.md R222. -/
  streamReset : Bool := true
  /-- the cause of STREAM_RESET was a framing error; 06_ndofin_links.md R222. -/
  framing : Bool := false
  /-- 1; 06_ndofin_links.md R218. -/
  leader : Bool := false
  /-- 1; 07_fabric_mode.md R241. -/
  quarantined : Bool := false
  /-- 8; 06_ndofin_links.md LINK_GET_STATUS. -/
  peerModule : Nat := 255
  /-- 8; 06_ndofin_links.md LINK_GET_STATUS. -/
  peerLink : Nat := 255
  /-- last TRAIN record; 06_ndofin_links.md R218. -/
  peerRec : Option TrainRec := none
  /-- record of the training that led to UP, for the answer still owed; 06_ndofin_links.md R218. -/
  upRec : TrainRec := {}
  /-- width requested in training; 06_ndofin_links.md R221. -/
  reqWidth : Nat := 4
  /-- rate requested in training; 06_ndofin_links.md R221. -/
  reqRate : Nat := 2
  /-- 16; 06_ndofin_links.md R213. -/
  rttNs : Nat := 0
  /-- 8; 06_ndofin_links.md R213. -/
  h : Nat := 0
  /-- private slots per VC; 06_ndofin_links.md R211, R216. -/
  p : Nat := 48
  /-- 9; 06_ndofin_links.md R211, R216. -/
  sharedSlots : Nat := 256
  /-- 8 LAST_CAUSE; 06_ndofin_links.md R220. -/
  lastCause : Nat := 0
  /-- 8 CAUSE of the reset in progress; 06_ndofin_links.md R220. -/
  cause : Nat := 0
  /-- 16 EXP; 06_ndofin_links.md R205. -/
  exp : BitVec 16 := 0
  /-- ACKV: a sequenced flit was accepted; 06_ndofin_links.md R206. -/
  accepted : Bool := false
  /-- RX_LAST_V to send; 06_ndofin_links.md R220. -/
  rxLastV : Bool := false
  /-- 16 RX_LAST to send; 06_ndofin_links.md R220. -/
  rxLast : BitVec 16 := 0
  /-- a NAK was sent and NAK_TO has not passed; 06_ndofin_links.md R206. -/
  nakOut : Bool := false
  /-- a NAK is due; 06_ndofin_links.md R206. -/
  nakDue : Bool := false
  /-- a TRAIN flit is due; 06_ndofin_links.md R204. -/
  trainDue : Bool := false
  /-- 16 next SEQ; 06_ndofin_links.md R199. -/
  seq : BitVec 16 := 0
  /-- 256 x 256 B, in SEQ order; 06_ndofin_links.md R208. -/
  replay : List ReplaySlot := []
  /-- index of the next flit owed to replay; 06_ndofin_links.md R207. -/
  replayAt : Option Nat := none
  /-- consecutive replays of the oldest flit; 06_ndofin_links.md R207. -/
  replayRuns : Nat := 0
  /-- 8 XOFF map acted on; 06_ndofin_links.md R215. -/
  xoffRx : BitVec 8 := 255
  /-- 8 XOFF map last received; 06_ndofin_links.md LINK_GET_STATUS. -/
  xoffSeen : BitVec 8 := 0
  /-- 8 XOFF map being sent; 06_ndofin_links.md R214. -/
  xoffTx : BitVec 8 := 0
  /-- MODEL'S OWN: packets whose first unit has arrived; 06_ndofin_links.md R211. -/
  rxCount : Nat := 0
  /-- flits of the codeword pairs being filled; 06_ndofin_links.md R195. -/
  txPair : List Bytes := []
  /-- 14 PAIR of those pairs; 06_ndofin_links.md R195. -/
  pair : Nat := 0
  /-- transmit lane of each receive lane; 06_ndofin_links.md R196. -/
  laneOrder : List Nat := []
  /-- tick at which the ECHO_REQ to be answered arrived; 06_ndofin_links.md R217. -/
  echoTick : Nat := 0
  /-- round-robin VC pointer; 06_ndofin_links.md R204. -/
  rr : Nat := 0
  /-- receive streams, 8; 06_ndofin_links.md R211. -/
  rx : Tab RxVc := []
  /-- 32; 06_ndofin_links.md LINK_GET_STATUS. -/
  crcErrs : Nat := 0
  /-- 32; 06_ndofin_links.md LINK_GET_STATUS. -/
  fecCorr : Nat := 0
  /-- 32; 06_ndofin_links.md LINK_GET_STATUS. -/
  fecUncorr : Nat := 0
  /-- 32; 06_ndofin_links.md LINK_GET_STATUS. -/
  replays : Nat := 0
  /-- 32 LINK_RESETS; 06_ndofin_links.md LINK_GET_STATUS. -/
  resets : Nat := 0
  /-- 32; 06_ndofin_links.md R223. -/
  lost : Nat := 0
  /-- 32; 06_ndofin_links.md R212. -/
  overruns : Nat := 0
  /-- tick at which UP was entered; 06_ndofin_links.md LINK_GET_STATUS. -/
  upTick : Nat := 0
  /-- handle of a running LINK_SET or LINK_RESET; 06_ndofin_links.md R227. -/
  handle : Option Nat := none
  /-- failed SPDM attempts since UP; 07_fabric_mode.md R242. -/
  spdmTries : Nat := 0
  /-- SPDM succeeded since UP; 07_fabric_mode.md R241. -/
  spdmOk : Bool := false
  /-- an SPDM attempt is running; 07_fabric_mode.md R242. -/
  spdmRun : Bool := false
  /-- index of the SPDM request last sent; 07_fabric_mode.md R242. -/
  spdmStep : Nat := 0
  /-- has been UP since the last module reset; 06_ndofin_links.md R182, R220. -/
  wasUp : Bool := false
  /-- made failed since it was last UP; 06_ndofin_links.md R222. -/
  failed : Bool := false
  /-- an uncorrectable error has been found in its buffers since the last block reset; 06_ndofin_links.md R222. -/
  bufLost : Bool := false
  deriving DecidableEq, Repr, Inhabited

/-- One route entry with its operational map (R232, R234). -/
structure Route where
  /-- 64; 07_fabric_mode.md R232. -/
  entry : BitVec 64 := 0
  /-- 32 OPER_BUCKETS; 07_fabric_mode.md R234. -/
  oper : BitVec 32 := 0
  /-- paths failed under failover; 07_fabric_mode.md R246. -/
  failed : BitVec 4 := 0
  /-- sprayptr; 07_fabric_mode.md R236. -/
  spray : Nat := 3
  deriving DecidableEq, Repr, Inhabited

/-- Spray accounting toward one module in one class (R238). -/
structure Spray where
  /-- 32 SENT; 07_fabric_mode.md R238. -/
  sent : BitVec 32 := 0
  /-- 32 DONE reported; 07_fabric_mode.md R238. -/
  done_ : BitVec 32 := 0
  /-- 32 LOST; 07_fabric_mode.md R238. -/
  lost : BitVec 32 := 0
  /-- SPRAYED; 07_fabric_mode.md R238. -/
  sprayed : Bool := false
  /-- DONE[s][c] counted here for source s; 07_fabric_mode.md R238. -/
  doneHere : BitVec 32 := 0
  deriving DecidableEq, Repr, Inhabited

/-- One admission record (R243). -/
structure Admission where
  /-- 8; 07_fabric_mode.md R243. -/
  st : AdmSt := .unknown
  /-- 32; 07_fabric_mode.md FAB_GET_MODULE. -/
  fwVersion : BitVec 32 := 0
  /-- 16; 07_fabric_mode.md FAB_GET_MODULE. -/
  svn : Nat := 0
  /-- 384, recorded by SPDM; 07_fabric_mode.md R243. -/
  digest : Option (BitVec 384) := none
  /-- digest admitted; 07_fabric_mode.md R244. -/
  admitted : Option (BitVec 384) := none
  /-- admitted with FORCE 1; 07_fabric_mode.md FAB_GET_MODULE. -/
  force : Bool := false
  /-- identity verified on a local link; 07_fabric_mode.md FAB_GET_MODULE. -/
  verified : Bool := false
  /-- 8; 07_fabric_mode.md FAB_GET_MODULE. -/
  authFails : Nat := 0
  deriving DecidableEq, Repr, Inhabited

/-- One bucket move in progress (R224, R247, R248, R257). -/
structure Move where
  /-- destination module; 07_fabric_mode.md R247. -/
  dmod : Nat := 0
  /-- 4; 07_fabric_mode.md R247. -/
  bucket : Nat := 0
  /-- new path index; 07_fabric_mode.md R247. -/
  dest : Nat := 0
  /-- link the flow leaves; 06_ndofin_links.md R224. -/
  fromLink : Nat := 0
  /-- handle of the ROUTE_SET that began it, 0 none; 07_fabric_mode.md R257. -/
  handle : Nat := 0
  deriving DecidableEq, Repr, Inhabited

/-- Orderly extraction (R249, R250). -/
structure Extract where
  /-- EXTRACT_REQ_N filter running; 07_fabric_mode.md R249. -/
  filter : Bool := false
  /-- 0 none, 3 steps 3 and 4, 5 drain, 6 links, 7 ready; 07_fabric_mode.md R249. -/
  step : Nat := 0
  /-- neighbours that have reported; 07_fabric_mode.md R249. -/
  rerouted : List Nat := []
  deriving DecidableEq, Repr, Inhabited

/-- A FAB_RELAY sent and not answered (R245). -/
structure RelayWait where
  /-- 6; 07_fabric_mode.md FAB_RELAY. -/
  target : Nat := 0
  /-- waiting partition; 07_fabric_mode.md FAB_RELAY. -/
  part : Nat := 0
  deriving DecidableEq, Repr, Inhabited

/-- Fabric mode (R228 to R257). -/
structure Fabric where
  /-- 64; 07_fabric_mode.md R232. -/
  routes : Tab Route := []
  /-- by module * 8 + TC; 07_fabric_mode.md R238. -/
  spray : Tab Spray := []
  /-- 63 other modules; 07_fabric_mode.md R243. -/
  adm : Tab Admission := []
  /-- bucket moves in progress; 07_fabric_mode.md R247. -/
  moves : List Move := []
  /-- 10; 07_fabric_mode.md R246. -/
  failoverMs : Nat := 10
  /-- 16; 07_fabric_mode.md R248. -/
  revertMs : Nat := 1000
  /-- 10; 07_fabric_mode.md R249. -/
  extractS : Nat := 60
  /-- extraction; 07_fabric_mode.md R249. -/
  extract : Extract := {}
  /-- relays sent, by number; 07_fabric_mode.md FAB_RELAY. -/
  relays : Tab RelayWait := []
  /-- MODEL'S OWN: number of the next relay; 07_fabric_mode.md FAB_RELAY. -/
  relaySeq : Nat := 1
  /-- some module was admitted with FORCE 1; 07_fabric_mode.md R255. -/
  forced : Bool := false
  deriving DecidableEq, Repr, Inhabited

/-- One sod (R262, R266, R269). -/
structure Sod where
  /-- 8; 08_memory_pool.md R269. -/
  st : SodSt := .absent
  /-- 2; 08_memory_pool.md R266. -/
  kind : Nat := 0
  /-- 8; 08_memory_pool.md R266. -/
  target : Nat := 0
  /-- 1 POISON; 08_memory_pool.md R275. -/
  poison : Bool := false
  /-- 1 CHLOST; 08_memory_pool.md R277. -/
  chlost : Bool := false
  /-- 1 EXPORTED; 08_memory_pool.md R273. -/
  exported : Bool := false
  /-- to become RESERVE once zeroed and scrubbed; 08_memory_pool.md R269, R52. -/
  reserve : Bool := false
  /-- to become SPILL once zeroed and scrubbed; 08_memory_pool.md R269, R48. -/
  spill : Bool := false
  /-- scrub pass over; 08_memory_pool.md R271. -/
  scrubbed : Bool := false
  /-- a pool fence still runs for it; 08_memory_pool.md R271. -/
  fenced : Bool := false
  /-- handle that waits for it, 0 none; 08_memory_pool.md R271, R288. -/
  handle : Nat := 0
  /-- reached FREE before assignment; 13_isolation.md R419 bit 4. -/
  freed : Bool := false
  deriving DecidableEq, Repr, Inhabited

/-- A pool fence in progress (R271, R273, R315, R317). -/
structure PFence where
  /-- number; 08_memory_pool.md R271. -/
  id : Nat := 0
  /-- sods it guards; 08_memory_pool.md R271. -/
  sods : List Nat := []
  /-- handle it ends, 0 none; 08_memory_pool.md R273. -/
  handle : Nat := 0
  /-- Retort group whose release or move it ends; 09_retort.md R317. -/
  group : Option Nat := none
  /-- order of lookup up to which packets stand before its markers; 08_memory_pool.md R271. -/
  mark : Nat := 0
  /-- pool ports that receive its markers; 08_memory_pool.md R271. -/
  ports : List Nat := []
  /-- cluster and core, and how many stores of its buffer issue before the core's markers; 08_memory_pool.md R271. -/
  stores : List (Nat × Nat × Nat) := []
  deriving DecidableEq, Repr, Inhabited

/-- A reservation of a privileged agent at a pool port (R283). -/
structure Reservation where
  /-- 72 Ember, 68 to 71 Retort engines; 08_memory_pool.md R283. -/
  agent : Nat := 0
  /-- pool port 0 to 3; 08_memory_pool.md R283. -/
  port : Nat := 0
  /-- byte address in the pool, divided by 256; 08_memory_pool.md R283. -/
  granule : Nat := 0
  /-- nothing has broken it; 08_memory_pool.md R283. -/
  valid : Bool := true
  deriving DecidableEq, Repr, Inhabited

/-- Memory pool (R258 to R288). -/
structure PoolSt where
  /-- 1; 08_memory_pool.md R259. -/
  present : Bool := false
  /-- 2; 08_memory_pool.md R259. -/
  dpc : Nat := 0
  /-- 16; 08_memory_pool.md R258. -/
  dimmGib : Nat := 0
  /-- T; 08_memory_pool.md R260. -/
  total : Nat := 0
  /-- W; 08_memory_pool.md R262. -/
  wide : Nat := 0
  /-- SPILL; 08_memory_pool.md R262. -/
  spillSods : Nat := 16
  /-- sod number of the Ember reserve; 08_memory_pool.md R262. -/
  reserve : Nat := 16
  /-- 16; 08_memory_pool.md R277. -/
  chLost : BitVec 16 := 0
  /-- 8; 08_memory_pool.md R280. -/
  retention : Nat := 0
  /-- 8,192; 08_memory_pool.md R269. -/
  sods : Tab Sod := []
  /-- pool contents by sod x 2^30 + byte; 08_memory_pool.md R263. -/
  mem : List (Nat × BitVec 8) := []
  /-- poisoned lines, by address / 64; 08_memory_pool.md R275. -/
  poisoned : List Nat := []
  /-- 32; 08_memory_pool.md POOL_GET_STATUS. -/
  ce : Nat := 0
  /-- 32; 08_memory_pool.md POOL_GET_STATUS. -/
  ue : Nat := 0
  /-- ticks at which a device position produced its corrected errors of the last 24 h, by channel x 1024 + rank and device; 08_memory_pool.md R276. -/
  devErr : Tab (List Nat) := []
  /-- up to 16 per agent and port, newest first; 08_memory_pool.md R283. -/
  resv : List Reservation := []
  /-- fences in progress; 08_memory_pool.md R271. -/
  fences : List PFence := []
  /-- MODEL'S OWN: number of the next fence; 08_memory_pool.md R271. -/
  fenceSeq : Nat := 1
  /-- MODEL'S OWN: the reserve sod holds the expansion ROM image; 02_ember_mailboxes.md R59. -/
  rom : Bool := false
  /-- DIMMs held in self-refresh; 15_reset_boot.md R458. -/
  selfRefresh : Bool := false
  /-- MODEL'S OWN: unused results of Ember's and the engines' own accesses; 08_memory_pool.md R282, R283. -/
  results : List Rsp := []
  deriving DecidableEq, Repr, Inhabited

/-- One participant entry of a group instance (R292). -/
structure RtPart where
  /-- 128; 09_retort.md participant entry. -/
  entry : BitVec 128 := 0
  /-- slot defined; 09_retort.md R323. -/
  defined : Bool := false
  deriving DecidableEq, Repr, Inhabited

/-- One accumulator element (R297, R299). -/
structure AccEl where
  /-- two's complement, units of the LSB weight; 09_retort.md R297. -/
  sum : Int := 0
  /-- 1; 09_retort.md R297. -/
  nan : Bool := false
  /-- 1; 09_retort.md R297. -/
  pinf : Bool := false
  /-- 1; 09_retort.md R297. -/
  ninf : Bool := false
  /-- 1; 09_retort.md R297. -/
  allNegZ : Bool := true
  /-- OP 1, 2: extreme so far; 09_retort.md R299. -/
  best : Option (BitVec 32) := none
  deriving DecidableEq, Repr, Inhabited

/-- One chunk in flight (R305). -/
structure Chunk where
  /-- 2; 09_retort.md R305. -/
  st : ChunkSt := .idle
  /-- bytes by slot; 09_retort.md R300. -/
  recv : Tab Nat := []
  /-- accumulator by element; 09_retort.md R297. -/
  acc : Tab AccEl := []
  /-- leaves whose partial is complete; 09_retort.md R305. -/
  leaves : List Nat := []
  /-- elements received of each leaf's partial; 09_retort.md R311. -/
  leafEls : Tab Nat := []
  /-- 1; 09_retort.md R300. -/
  poison : Bool := false
  /-- 1; 09_retort.md R298. -/
  nan : Bool := false
  /-- 1; 09_retort.md R298. -/
  ovf : Bool := false
  /-- result elements received by a LEAF; 09_retort.md R305. -/
  result : Tab (BitVec 32) := []
  /-- result elements received; 09_retort.md R305. -/
  resEls : Nat := 0
  /-- running; 09_retort.md R312. -/
  timer : Bool := false
  deriving DecidableEq, Repr, Inhabited

/-- A doorbell withheld until result writes are visible (R307). -/
structure Flush where
  /-- participant slot; 09_retort.md R307. -/
  slot : Nat := 0
  /-- doorbell value; 09_retort.md doorbell value. -/
  value : BitVec 64 := 0
  deriving DecidableEq, Repr, Inhabited

/-- One instance of a reduction group (R289 to R318). -/
structure RtInst where
  /-- 256 group descriptor as staged; 09_retort.md group descriptor. -/
  desc : BitVec 256 := 0
  /-- 3; 09_retort.md R295. -/
  st : RtSt := .defining
  /-- 2; 09_retort.md group descriptor. -/
  engine : Nat := 0
  /-- 8; 09_retort.md group descriptor. -/
  gen : Nat := 0
  /-- 24; 09_retort.md group descriptor. -/
  opseq : Nat := 0
  /-- 32; 09_retort.md R307. -/
  cdone : Nat := 0
  /-- MODEL'S OWN: place of chunk CDONE in its operation; 09_retort.md R296, R306. -/
  opPos : Nat := 0
  /-- NLOCAL participant entries; 09_retort.md participant entry. -/
  parts : Tab RtPart := []
  /-- chunks in flight by chunk number; 09_retort.md R305. -/
  chunks : Tab Chunk := []
  /-- 8; 09_retort.md R295. -/
  failCause : Nat := 0
  /-- 32; 09_retort.md RT_GROUP_READ. -/
  failChunk : Nat := 0
  /-- slots missing from the failing chunk; 09_retort.md R313. -/
  missing : List Nat := []
  /-- 64; 09_retort.md R313. -/
  missingLeaves : BitVec 64 := 0
  /-- GR_STATUS [4]; 09_retort.md R295. -/
  stPoison : Bool := false
  /-- GR_STATUS [3]; 09_retort.md R295. -/
  stNan : Bool := false
  /-- GR_STATUS [2]; 09_retort.md R295. -/
  stOvf : Bool := false
  /-- GR_STATUS [1]; 09_retort.md R295. -/
  stTimeout : Bool := false
  /-- GR_STATUS [0]; 09_retort.md R295. -/
  stErr : Bool := false
  /-- a chunk since the last doorbell was POISON; 09_retort.md doorbell value. -/
  dbPoison : Bool := false
  /-- a chunk since the last doorbell produced NaN; 09_retort.md doorbell value. -/
  dbNan : Bool := false
  /-- a chunk since the last doorbell overflowed; 09_retort.md doorbell value. -/
  dbOvf : Bool := false
  /-- 32; 09_retort.md RT_GROUP_READ. -/
  discards : Nat := 0
  /-- doorbells withheld; 09_retort.md R307. -/
  flushes : List Flush := []
  /-- old engine while a move runs; 09_retort.md R316. -/
  moveFrom : Option Nat := none
  /-- chunk K; 09_retort.md R316. -/
  cutover : Nat := 0
  /-- old engine reported CDONE equal to K; 09_retort.md R317. -/
  oldDone : Bool := false
  /-- handle of a running move or destroy; 09_retort.md R317. -/
  handle : Nat := 0
  /-- RT_GROUP_DESTROY runs; 09_retort.md R291. -/
  destroying : Bool := false
  deriving DecidableEq, Repr, Inhabited

/-- One Retort engine (RT_GET_STATUS). -/
structure RtEngine where
  /-- 32; 09_retort.md RT_GET_STATUS. -/
  failures : Nat := 0
  /-- 32; 09_retort.md RT_GET_STATUS. -/
  discards : Nat := 0
  deriving DecidableEq, Repr, Inhabited

/-- Group block of one partition, with its Retort function's vector (R321). -/
structure RtBlock where
  /-- 16 GBASE; 09_retort.md R321. -/
  gbase : Nat := 0
  /-- 16 GCOUNT; 09_retort.md R321. -/
  gcount : Nat := 0
  deriving DecidableEq, Repr, Inhabited

/-- Retort engines (R289 to R324). -/
structure Retort where
  /-- up to 512, by group; 09_retort.md R291. -/
  inst : Tab RtInst := []
  /-- 4; 09_retort.md RT_GET_STATUS. -/
  engines : Tab RtEngine := []
  /-- by partition; 09_retort.md R321. -/
  blocks : Tab RtBlock := []
  /-- coarse timer holds a comparator; 09_retort.md R312. -/
  timer : Bool := false
  deriving DecidableEq, Repr, Inhabited

/-- One logical port (R325 to R353). -/
structure LPort where
  /-- 1 ENABLE; 10_network.md NET_PORT_SET. -/
  enabled : Bool := false
  /-- 1; 10_network.md NET_GET_STATUS. -/
  linkUp : Bool := false
  /-- 2; 10_network.md NET_PORT_SET. -/
  phy : Nat := 0
  /-- 16; 10_network.md R327. -/
  maxFrame : Nat := 1518
  /-- 24; 10_network.md R330. -/
  ctcMap : BitVec 32 := 0x00DAC688#32
  /-- 24; 10_network.md R330. -/
  ptcMap : BitVec 32 := 0x00FAC688#32
  /-- 3; 10_network.md NET_PORT_SET. -/
  defPrio : Nat := 0
  /-- 8; 10_network.md R349. -/
  pfcEn : BitVec 8 := 0
  /-- 16; 10_network.md R350. -/
  cableNs : Nat := 0
  /-- 16; 10_network.md R350. -/
  peerNs : Nat := 1000
  /-- 17 DEFAULT; 10_network.md NET_PORT_SET. -/
  dflt : BitVec 32 := 2#32
  /-- 1; 10_network.md R353. -/
  tsEn : Bool := false
  /-- priorities paused by the partner; 10_network.md R351. -/
  paused : Tab Bool := []
  /-- 8 priorities in XOFF; 10_network.md R349. -/
  xoff : BitVec 8 := 0
  /-- handle of a running NET_PORT_SET; 10_network.md R358. -/
  training : Option Nat := none
  /-- 64; 10_network.md NET_GET_STATUS. -/
  rxFrames : Nat := 0
  /-- 64; 10_network.md NET_GET_STATUS. -/
  rxBytes : Nat := 0
  /-- 64; 10_network.md NET_GET_STATUS. -/
  txFrames : Nat := 0
  /-- 64; 10_network.md NET_GET_STATUS. -/
  txBytes : Nat := 0
  /-- 64; 10_network.md NET_GET_STATUS. -/
  rxFcsErr : Nat := 0
  /-- 64; 10_network.md NET_GET_STATUS. -/
  rxOverflow : Nat := 0
  /-- 64; 10_network.md NET_GET_STATUS. -/
  rxMissDrop : Nat := 0
  /-- 64; 10_network.md NET_GET_STATUS. -/
  aclDrop : Nat := 0
  /-- 64; 10_network.md NET_GET_STATUS. -/
  wredDrop : Nat := 0
  /-- 64; 10_network.md NET_GET_STATUS. -/
  stomped : Nat := 0
  /-- 64; 10_network.md NET_GET_STATUS. -/
  nodescDrop : Nat := 0
  /-- 64; 10_network.md NET_GET_STATUS. -/
  pfcRx : Nat := 0
  /-- egress staging, in order; 11_traffic_management.md R368. -/
  egress : List Pkt := []
  /-- frame in transmission in cut-through, not all of whose cells have crossed; 05_switch_core.md R179. -/
  sending : Option Pkt := none
  /-- 8; 11_traffic_management.md R367. -/
  strict : BitVec 8 := 0
  /-- 8 x 12; 11_traffic_management.md R367. -/
  quantum : List Nat := [160, 160, 160, 160, 160, 160, 160, 160]
  /-- 8; 11_traffic_management.md R369. -/
  deficit : Tab Nat := []
  /-- ptr; 11_traffic_management.md R369. -/
  dwrrPtr : Nat := 0
  /-- the current TC was entered on this visit; 11_traffic_management.md R369. -/
  dwrrIn : Bool := false
  /-- round-robin pointer over functions, committed round; 11_traffic_management.md R364. -/
  txPtr : Nat := 0
  /-- round-robin pointer over functions, excess round; 11_traffic_management.md R364. -/
  txPtrX : Nat := 0
  deriving DecidableEq, Repr, Inhabited

/-- One transmit packet that waits for its write-back (R339). -/
structure Wb where
  /-- 16 ring index of its EOP descriptor; 10_network.md R339. -/
  idx : Nat := 0
  /-- 16 DESCS; 10_network.md R338. -/
  descs : Nat := 1
  /-- 8 ERR_CODE; 10_network.md R338. -/
  err : Nat := 0
  /-- timestamp requested; 10_network.md R353. -/
  ts : Bool := false
  /-- timestamp taken; 10_network.md R353. -/
  stamp : Option (BitVec 64) := none
  deriving DecidableEq, Repr, Inhabited

/-- One queue pair (R336, R337, R359). -/
structure Qp where
  /-- 1; 10_network.md R359. -/
  enabled : Bool := false
  /-- 1; 10_network.md R355. -/
  error : Bool := false
  /-- 15 QP_TX_TAIL; 10_network.md R336. -/
  txTail : Nat := 0
  /-- 15 QP_RX_TAIL; 10_network.md R336. -/
  rxTail : Nat := 0
  /-- 16; 10_network.md R336. -/
  txHead : Nat := 0
  /-- 16; 10_network.md R336. -/
  rxHead : Nat := 0
  /-- 16; 10_network.md R336. -/
  itr : Nat := 0
  /-- 1; 10_network.md R336. -/
  intEn : Bool := false
  /-- 4; 10_network.md VNIC_QP_SET. -/
  txLog2 : Nat := 6
  /-- 4; 10_network.md VNIC_QP_SET. -/
  rxLog2 : Nat := 6
  /-- 5; 10_network.md VNIC_QP_SET. -/
  rxBufKib : Nat := 2
  /-- 1; 10_network.md VNIC_QP_SET. -/
  rxRo : Bool := false
  /-- 3; 10_network.md VNIC_QP_SET. -/
  defPrio : Nat := 0
  /-- 64; 10_network.md VNIC_QP_SET. -/
  txRing : BitVec 64 := 0
  /-- 64; 10_network.md VNIC_QP_SET. -/
  rxRing : BitVec 64 := 0
  /-- 16; 10_network.md R347. -/
  rxWaitUs : Nat := 100
  /-- handle of VNIC_QP_SET OP 0; 10_network.md R359. -/
  disabling : Option Nat := none
  /-- a descriptor fetch is outstanding; 10_network.md R338. -/
  fetching : Bool := false
  /-- index after the last descriptor being fetched; 10_network.md R338. -/
  fetchTo : Nat := 0
  /-- the least interval of ITR runs; 10_network.md R336. -/
  itrWait : Bool := false
  /-- a message waits for the interval; 10_network.md R336. -/
  itrPend : Bool := false
  /-- round in which the fetch was scheduled: 0 committed, 1 excess, 2 without limit; 11_traffic_management.md R364. -/
  round : Nat := 0
  /-- TSO segments of the packet in progress still to be sent; 11_traffic_management.md R364. -/
  tso : List (List (BitVec 8)) := []
  /-- its EOP index; 11_traffic_management.md R364. -/
  tsoIdx : Nat := 0
  /-- its first frame has been sent; 10_network.md R353. -/
  tsSent : Bool := false
  /-- transmit packets not yet written back, in ring order; 10_network.md R339. -/
  wb : List Wb := []
  deriving DecidableEq, Repr, Inhabited

/-- One vNIC function (R335 to R346). -/
structure Vnic where
  /-- 5; 10_network.md R335. -/
  part : Nat := 0
  /-- 5; 10_network.md R335. -/
  lport : Nat := 0
  /-- 7; 10_network.md R335. -/
  nqp : Nat := 1
  /-- 48; 10_network.md R335. -/
  mac : BitVec 48 := 0
  /-- 1; 10_network.md R346. -/
  spoofChk : Bool := false
  /-- 1; 10_network.md R346. -/
  vlanForce : Bool := false
  /-- 12; 10_network.md R346. -/
  pvid : Nat := 0
  /-- 1; 10_network.md R343. -/
  rxStrip : Bool := false
  /-- 8; 10_network.md R344. -/
  rssTypes : BitVec 8 := 0
  /-- 6; 10_network.md R344. -/
  rssDef : Nat := 0
  /-- 40 x 8; 10_network.md R344. -/
  rssKey : List (BitVec 8) := []
  /-- 40 x 8, the key Ember filled at creation; 10_network.md R354. -/
  rssKey0 : List (BitVec 8) := []
  /-- 128 x 6; 10_network.md R344. -/
  rssInd : List Nat := []
  /-- 1 FN_STATUS.LINK as last seen; 10_network.md R336. -/
  link : Bool := false
  /-- 1 FN_EVENT.QP_ERR; 10_network.md R336. -/
  qpErrEv : Bool := false
  /-- 1 FN_EVENT.LINK_CHG; 10_network.md R336. -/
  linkChg : Bool := false
  /-- 65 x 16 B, by dword; 10_network.md R335. -/
  msixTable : Tab (BitVec 32) := []
  /-- 65; 10_network.md R335. -/
  pba : Tab Bool := []
  /-- 1; 10_network.md R335. -/
  memEn : Bool := false
  /-- 1; 10_network.md R335. -/
  msixEn : Bool := false
  /-- 1; 10_network.md R335. -/
  msixMask : Bool := false
  /-- D3hot; 10_network.md R335. -/
  d3 : Bool := false
  /-- NQP queue pairs; 10_network.md R335. -/
  qps : Tab Qp := []
  /-- round-robin pointer over queue pairs; 11_traffic_management.md R364. -/
  qpRr : Nat := 0
  /-- function reset steps 1 and 2; 10_network.md R354. -/
  resetting : Bool := false
  /-- handle of VNIC_DESTROY; 10_network.md R355. -/
  destroying : Option Nat := none
  deriving DecidableEq, Repr, Inhabited

/-- One ACL entry (R334). -/
structure AclEnt where
  /-- 192; 10_network.md R334. -/
  key : BitVec 192 := 0
  /-- 192; 10_network.md R334. -/
  mask : BitVec 192 := 0
  /-- 64; 10_network.md R334. -/
  action : BitVec 64 := 0
  /-- 1; 10_network.md NET_ACL_SET. -/
  valid : Bool := false
  deriving DecidableEq, Repr, Inhabited

/-- Network groups, ports and vNIC functions (R325 to R359). -/
structure Net where
  /-- mode of each of 8 groups; 10_network.md R325. -/
  modes : Tab Nat := []
  /-- 32; 10_network.md R325. -/
  lports : Tab LPort := []
  /-- exact-match records by key; 10_network.md R332. -/
  em : Tab (BitVec 128) := []
  /-- 4,096; 10_network.md R334. -/
  acl : Tab AclEnt := []
  /-- up to 1,024, by function; 10_network.md R335. -/
  vnics : List (Nat × Vnic) := []
  /-- frames at egress waiting for a receive descriptor; 10_network.md R347. -/
  rxWait : List Pkt := []
  deriving DecidableEq, Repr, Inhabited

/-- The transmit shaper of one function (R362, R366). -/
structure Shaper where
  /-- 1; 11_traffic_management.md R366. -/
  enabled : Bool := false
  /-- Mb/s; 11_traffic_management.md R362. -/
  cir : Nat := 0
  /-- Mb/s; 11_traffic_management.md R362. -/
  pir : Nat := 0
  /-- bytes; 11_traffic_management.md R362. -/
  cbs : Nat := 0
  /-- bytes; 11_traffic_management.md R362. -/
  pbs : Nat := 0
  /-- CT, units of 1/200 byte; 11_traffic_management.md R363. -/
  ct : Int := 0
  /-- PT, units of 1/200 byte; 11_traffic_management.md R363. -/
  pt : Int := 0
  deriving DecidableEq, Repr, Inhabited

/-- One two-rate three-colour meter (R370). -/
structure Meter where
  /-- 1; 11_traffic_management.md R373. -/
  enabled : Bool := false
  /-- 1; 11_traffic_management.md R370. -/
  aware : Bool := false
  /-- Mb/s; 11_traffic_management.md R370. -/
  cir : Nat := 0
  /-- Mb/s; 11_traffic_management.md R370. -/
  pir : Nat := 0
  /-- bytes; 11_traffic_management.md R370. -/
  cbs : Nat := 0
  /-- bytes; 11_traffic_management.md R370. -/
  pbs : Nat := 0
  /-- Tc, units of 1/200 byte; 11_traffic_management.md R370. -/
  tc : Nat := 0
  /-- Tp, units of 1/200 byte; 11_traffic_management.md R370. -/
  tp : Nat := 0
  /-- action record; 11_traffic_management.md R372. -/
  green : BitVec 32 := 0
  /-- action record; 11_traffic_management.md R372. -/
  yellow : BitVec 32 := 0
  /-- action record; 11_traffic_management.md R372. -/
  red : BitVec 32 := 0
  /-- 64; 11_traffic_management.md TM_METER_SET. -/
  greenPkts : Nat := 0
  /-- 64; 11_traffic_management.md TM_METER_SET. -/
  yellowPkts : Nat := 0
  /-- 64; 11_traffic_management.md TM_METER_SET. -/
  redPkts : Nat := 0
  /-- 64; 11_traffic_management.md TM_METER_SET. -/
  dropped : Nat := 0
  deriving DecidableEq, Repr, Inhabited

/-- One colour of a WRED profile (R374, R376). -/
structure WredCol where
  /-- 32; 11_traffic_management.md R376. -/
  minTh : Nat := 262144
  /-- 32; 11_traffic_management.md R376. -/
  maxTh : Nat := 524288
  /-- 8; 11_traffic_management.md R376. -/
  maxP : Nat := 0
  /-- 8; 11_traffic_management.md R376. -/
  weight : Nat := 9
  /-- 1; 11_traffic_management.md R376. -/
  ecn : Bool := false
  deriving DecidableEq, Repr, Inhabited

/-- One WRED profile (R374). -/
structure Wred where
  /-- green, yellow, red; 11_traffic_management.md R374. -/
  cols : List WredCol := [{}, {}, {}]
  /-- 64; 11_traffic_management.md TM_WRED_SET. -/
  drops : Nat := 0
  /-- 64; 11_traffic_management.md TM_WRED_SET. -/
  marks : Nat := 0
  deriving DecidableEq, Repr, Inhabited

/-- One gate list (R377). -/
structure GateList where
  /-- 32; 11_traffic_management.md R377. -/
  cycleNs : Nat := 0
  /-- 48; 11_traffic_management.md R377. -/
  baseSec : Nat := 0
  /-- 32; 11_traffic_management.md R377. -/
  baseNs : Nat := 0
  /-- gates and interval in 8 ns, 1 to 256 entries; 11_traffic_management.md R377. -/
  entries : List (Nat × Nat) := []
  deriving DecidableEq, Repr, Inhabited

/-- The gate engine of one logical port (R377 to R384). -/
structure Gate where
  /-- operational list; 11_traffic_management.md R377. -/
  oper : Option GateList := none
  /-- pending list; 11_traffic_management.md R379. -/
  pend : Option GateList := none
  /-- change time; 11_traffic_management.md R379. -/
  changeSec : Nat := 0
  /-- change time; 11_traffic_management.md R379. -/
  changeNs : Nat := 0
  /-- ADJUSTED; 11_traffic_management.md R379. -/
  adjusted : Bool := false
  /-- entry in force; 11_traffic_management.md R377. -/
  pos : Nat := 0
  /-- 32 GATE_DROPS; 11_traffic_management.md R381. -/
  drops : Nat := 0
  /-- held by strict partition mode; 13_isolation.md R425. -/
  byStrict : Bool := false
  deriving DecidableEq, Repr, Inhabited

/-- One PTP output (R387). -/
structure PtpOut where
  /-- 1; 11_traffic_management.md R387. -/
  enabled : Bool := false
  /-- 48; 11_traffic_management.md PTP_OUT_SET. -/
  startSec : Nat := 0
  /-- 32; 11_traffic_management.md PTP_OUT_SET. -/
  startNs : Nat := 0
  /-- 32; 11_traffic_management.md PTP_OUT_SET. -/
  periodNs : Nat := 0
  /-- 32; 11_traffic_management.md PTP_OUT_SET. -/
  widthNs : Nat := 0
  /-- PTP time of the first instant used; 11_traffic_management.md R387. -/
  firstNs : Nat := 0
  /-- land level; 11_traffic_management.md R387. -/
  high : Bool := false
  deriving DecidableEq, Repr, Inhabited

/-- One PTP input (R388). -/
structure PtpIn where
  /-- 1; 11_traffic_management.md R388. -/
  enabled : Bool := false
  /-- 2; 11_traffic_management.md PTP_IN_SET. -/
  edge : Nat := 0
  /-- 1; 11_traffic_management.md PTP_IN_SET. -/
  event : Bool := false
  /-- 64 timestamps: seconds, ns, edge; oldest first; 11_traffic_management.md R388. -/
  queue : List (Nat × Nat × Nat) := []
  /-- 16; 11_traffic_management.md R388. -/
  lost : Nat := 0
  /-- tick of the last event 0x811; 11_traffic_management.md R388. -/
  lastEv : Option Nat := none
  deriving DecidableEq, Repr, Inhabited

/-- Traffic management (R360 to R389). -/
structure Traffic where
  /-- by function; 11_traffic_management.md R362. -/
  shapers : Tab Shaper := []
  /-- 4,096; 11_traffic_management.md R370. -/
  meters : Tab Meter := []
  /-- 16; 11_traffic_management.md R376. -/
  wred : Tab Wred := []
  /-- averages A[o][c][k], 12 fractional bits; 11_traffic_management.md R374. -/
  avg : Tab Nat := []
  /-- tick at which queue (o, c) was last found empty; 11_traffic_management.md R374. -/
  emptyAt : Tab Nat := []
  /-- 32 logical ports, then 16 fabric links; 11_traffic_management.md R377. -/
  gates : Tab Gate := []
  /-- comparator holders, 4: code of HOLDERS; 11_traffic_management.md R385. -/
  comps : Tab Nat := []
  /-- change time of the gate lists that hold each comparator, PTP ns; 11_traffic_management.md R385. -/
  compAt : Tab Nat := []
  /-- GPIO28, GPIO29, GPIO30; 11_traffic_management.md R387. -/
  outs : Tab PtpOut := []
  /-- GPIO27, GPIO29, GPIO30; 11_traffic_management.md R388. -/
  ins : Tab PtpIn := []
  /-- GPIO lands assigned as slot power enables; 03_pcie_stations.md R114. -/
  slotPower : List Nat := []
  deriving DecidableEq, Repr, Inhabited

/-- One store buffer entry or write awaiting acknowledgement (R401, R405). -/
structure SbEnt where
  /-- 56 physical address; 12_hearth.md R401. -/
  addr : Nat := 0
  /-- up to 8 bytes; 12_hearth.md R401. -/
  data : List (BitVec 8) := []
  /-- counts as O; 12_hearth.md R405. -/
  device : Bool := false
  /-- early acknowledgement forbidden; 12_hearth.md R405. -/
  noEack : Bool := false
  /-- number by which its acknowledgement names it; 12_hearth.md R405. -/
  id : Nat := 0
  deriving DecidableEq, Repr, Inhabited

/-- One MPU region (R396). -/
structure Mpu where
  /-- 64 MPUADDRn; 12_hearth.md R396. -/
  addr : BitVec 64 := 0
  /-- 64 MPUCFGn; 12_hearth.md R396. -/
  cfg : BitVec 64 := 0
  deriving DecidableEq, Repr, Inhabited

/-- One attribute entry (R405, R406). -/
structure Attr where
  /-- 64 KATTRADDR; 12_hearth.md R406. -/
  addr : BitVec 64 := 0
  /-- 64 KATTRCFG; 12_hearth.md R406. -/
  cfg : BitVec 64 := 0
  deriving DecidableEq, Repr, Inhabited

/-- One Hearth core (R390 to R411). -/
structure HCore where
  /-- 1; 12_hearth.md R392. -/
  running : Bool := false
  /-- 2 privilege mode; 12_hearth.md R416. -/
  mode : HMode := .m
  /-- 64; 12_hearth.md R416. -/
  pc : BitVec 64 := 0
  /-- 32 x 64, x0 reads 0; 12_hearth.md R390. -/
  x : Tab (BitVec 64) := []
  /-- 32 x 64; 12_hearth.md R390. -/
  f : Tab (BitVec 64) := []
  /-- base-architecture CSRs by number; 12_hearth.md R390. -/
  csr : Tab (BitVec 64) := []
  /-- 16 regions as written; 12_hearth.md R396. -/
  mpu : Tab Mpu := []
  /-- regions in force since the last KFENCE; 12_hearth.md R400. -/
  mpuEff : Tab Mpu := []
  /-- 5 KATTRSEL; 12_hearth.md R406. -/
  attrSel : Nat := 0
  /-- 32 entries as written; 12_hearth.md R405. -/
  attr : Tab Attr := []
  /-- entries in force; 12_hearth.md R406. -/
  attrEff : Tab Attr := []
  /-- KSTERR [63]; 12_hearth.md R408. -/
  ksterrV : Bool := false
  /-- KSTERR [62:56]; 12_hearth.md R408. -/
  ksterrCount : Nat := 0
  /-- KSTERR [55:0]; 12_hearth.md R408. -/
  ksterrAddr : Nat := 0
  /-- 16 KFWATCH; 12_hearth.md R409. -/
  kfwatch : Nat := 100
  /-- fence-watch interrupt pending; 12_hearth.md R409. -/
  sip16 : Bool := false
  /-- 64-byte granule; 12_hearth.md R410. -/
  reservation : Option Nat := none
  /-- 32-entry store buffer, oldest first; 12_hearth.md R401. -/
  sb : List SbEnt := []
  /-- writes not yet acknowledged; 12_hearth.md R405. -/
  unacked : List SbEnt := []
  /-- fence or load that waits; 12_hearth.md R407, R409. -/
  wait : Option HWait := none
  /-- issue slots its instructions have filled in handshakes not yet counted; 17_counters.md R512. -/
  slots : Nat := 0
  deriving DecidableEq, Repr, Inhabited

/-- One Hearth cluster (R392 to R417). -/
structure Cluster where
  /-- 2; 12_hearth.md R392. -/
  st : ClSt := .stopped
  /-- 8; 12_hearth.md R416. -/
  part : Nat := 255
  /-- 64; 12_hearth.md HEARTH_CTL. -/
  resetPc : BitVec 64 := 0
  /-- 8; 12_hearth.md R392. -/
  cores : Tab HCore := []
  /-- handle of OP 2; 12_hearth.md R417. -/
  stopHandle : Option Nat := none
  /-- the stop under way is a block reset; 12_hearth.md R413. -/
  blockReset : Bool := false
  /-- HC_ALARM_CTL.COMP; 12_hearth.md R414. -/
  alarmComp : Option Nat := none
  /-- 16 HC_ALARM_CTL.STATUS; 12_hearth.md R414. -/
  alarmStatus : Nat := 0
  /-- HC_ALARM_CTL.FIRED; 12_hearth.md R414. -/
  alarmFired : Bool := false
  /-- 64 HC_ALARM_CMP; 12_hearth.md R414. -/
  alarmCmp : BitVec 64 := 0xFFFFFFFFFFFFFFFF#64
  /-- 8 x 64, all ones when not written; 12_hearth.md R394. -/
  mtimecmp : Tab (BitVec 64) := []
  /-- 8 x 1 MSIP; 12_hearth.md R394. -/
  msip : BitVec 8 := 0
  /-- fabric addresses of cache lines with an uncorrectable error; 12_hearth.md R413. -/
  badLines : List (BitVec 64) := []
  deriving DecidableEq, Repr, Inhabited

/-- Hearth cores and the debug module (R390 to R417). -/
structure Hearth where
  /-- 4; 12_hearth.md R392. -/
  clusters : Tab Cluster := []
  /-- MODEL'S OWN: number of the next fabric write; 12_hearth.md R405. -/
  writeSeq : Nat := 1
  /-- 3; 12_hearth.md R415. -/
  cmderr : Nat := 0
  /-- 3; 12_hearth.md R415. -/
  sberror : Nat := 0
  /-- 64 data register; 12_hearth.md R415. -/
  dbgData : BitVec 64 := 0
  /-- tag of a debugger's read through the fabric aperture; 12_hearth.md R415. -/
  dbgTag : Option Nat := none
  /-- it is an abstract command's; 12_hearth.md R415. -/
  dbgAbs : Bool := false
  deriving DecidableEq, Repr, Inhabited

/-- PART_SET settings of one partition (R429). -/
structure PartCfg where
  /-- 1; 13_isolation.md R429. -/
  fabricAdmin : Bool := false
  /-- 1; 13_isolation.md R429. -/
  perfUser : Bool := false
  /-- 5; 13_isolation.md R429. -/
  strictSlots : Nat := 0
  deriving DecidableEq, Repr, Inhabited

/-- Partition isolation and strict mode (R418 to R429). -/
structure Iso where
  /-- 32; 13_isolation.md R429. -/
  parts : Tab PartCfg := []
  /-- 1; 13_isolation.md R429. -/
  strict : Bool := false
  /-- 32 STRICT_GATE_NS; 13_isolation.md STRICT_SET. -/
  gateNs : Nat := 10000
  /-- gate lists await their change time; 13_isolation.md R427. -/
  strictPend : Bool := false
  /-- running handles of STRICT_SET; 13_isolation.md R429. -/
  handles : List Nat := []
  /-- a debugger wrote configuration since the last cold reset; 13_isolation.md R419 bit 1. -/
  debugWritten : Bool := false
  deriving DecidableEq, Repr, Inhabited

/-- One event record, 32 bytes (R448). -/
structure EvRec where
  /-- 12; 14_faults.md R448. -/
  id : Nat := 0
  /-- 4; 14_faults.md R448. -/
  cls : Nat := 15
  /-- 8; 14_faults.md R448. -/
  flags : Nat := 0
  /-- 8; 14_faults.md R448. -/
  part : Nat := 255
  /-- 32 SEQ; 14_faults.md R448. -/
  seq : Nat := 0
  /-- 64 TIME; 14_faults.md R448. -/
  time : Nat := 0
  /-- 64 DETAIL0; 14_faults.md R448. -/
  d0 : BitVec 64 := 0
  /-- 64 DETAIL1; 14_faults.md R448. -/
  d1 : BitVec 64 := 0
  deriving DecidableEq, Repr, Inhabited

/-- Event ring and event registers of one partition (R448, R449). -/
structure EvRing where
  /-- 4,096 records by index; 14_faults.md R448. -/
  ring : Tab EvRec := []
  /-- 16 PROD; 14_faults.md R449. -/
  prod : Nat := 0
  /-- 16 CONS; 14_faults.md R449. -/
  cons : Nat := 0
  /-- 6 RING_VEC; 14_faults.md R449. -/
  vec : Nat := 0
  /-- 1 RING_INT; 14_faults.md R449. -/
  ringInt : Bool := false
  /-- 1 RING_EN; 14_faults.md R449. -/
  ringEn : Bool := true
  /-- 16 LOST; 14_faults.md R449. -/
  lost : Nat := 0
  /-- 1 OVERFLOW; 14_faults.md R449. -/
  overflow : Bool := false
  /-- 32 records written since the last P reset; 14_faults.md R448. -/
  seq : Nat := 0
  /-- 4,096 x 8 EV_VECTOR; 14_faults.md R449. -/
  vector : Tab Nat := []
  deriving DecidableEq, Repr, Inhabited

/-- An event in handling or a reaction shadow (R438 to R440). -/
structure Handling where
  /-- 6; 14_faults.md R439. -/
  block : Nat := 0
  /-- 2; 14_faults.md R439. -/
  cls : Nat := 0
  /-- block reset not yet ready; 14_faults.md R437. -/
  resetting : Bool := true
  deriving DecidableEq, Repr, Inhabited

/-- Fault collector, ledger and event delivery (R430 to R452). -/
structure FaultSt where
  /-- 64 x 32 S bits, module map; 14_faults.md R431. -/
  s : Tab (BitVec 32) := []
  /-- 64 x 32 M bits, module map; 14_faults.md R431. -/
  m : Tab (BitVec 32) := []
  /-- S bits of the partition maps, by partition * 64 + block; 14_faults.md R432. -/
  ps : Tab (BitVec 32) := []
  /-- M bits of the partition maps, by partition * 64 + block; 14_faults.md R432. -/
  pm : Tab (BitVec 32) := []
  /-- 256 reaction bytes that differ from the defaults; 14_faults.md R434, R435. -/
  react : Tab Nat := []
  /-- 512 x 16; 14_faults.md R445. -/
  ledger : Tab Nat := []
  /-- 8 SOURCE; 14_faults.md FLT_LEDGER_READ. -/
  ledgerSrc : Nat := 0
  /-- ticks since the last flash copy; 14_faults.md FLT_LEDGER_READ. -/
  flashAge : Nat := 0
  /-- running handles of FLT_LEDGER_CLEAR, oldest first; 14_faults.md FLT_LEDGER_CLEAR. -/
  flashWait : List Nat := []
  /-- 32 partitions; 14_faults.md R448. -/
  rings : Tab EvRing := []
  /-- sideband queue of 256 records, oldest first; 14_faults.md R450. -/
  sb : List EvRec := []
  /-- 16; 14_faults.md R450. -/
  sbLost : Nat := 0
  /-- 1 SB_ALERT; 14_faults.md R452. -/
  sbAlert : Bool := false
  /-- error pair armed; 14_faults.md R443. -/
  armed : Bool := false
  /-- block resets and their reaction shadows; 14_faults.md R440. -/
  handling : List Handling := []
  /-- block and class of the events of the current command whose INT, DPC or QUIESCE is under way; 14_faults.md R438, R439. -/
  fresh : List (Nat × Nat) := []
  /-- MODEL'S OWN: reactions begun in the current step, oldest first; 14_faults.md R437. -/
  due : List Due := []
  /-- injected corruptions: source, mode, attribution; 14_faults.md R451. -/
  corrupt : List (Nat × Nat × Nat) := []
  deriving DecidableEq, Repr, Inhabited

/-- Telemetry readings last sampled (R501). -/
structure Tele where
  /-- 16, 10 mV; 16_power_insertion.md R501. -/
  vin : Nat := 0
  /-- 16, 10 mV; 16_power_insertion.md R501. -/
  vhold : Nat := 0
  /-- 16, mA; 16_power_insertion.md R501. -/
  iin : Nat := 0
  /-- 16, 0.1 W; 16_power_insertion.md R501. -/
  pin : Nat := 0
  /-- 16, 10 mV; 16_power_insertion.md R501. -/
  bus12v : Nat := 0
  /-- 16, 10 mA; 16_power_insertion.md R501. -/
  bus12i : Nat := 0
  /-- 16, mV; 16_power_insertion.md R501. -/
  vddCore : Nat := 0
  /-- 16, 0.1 A; 16_power_insertion.md R501. -/
  coreI : Nat := 0
  /-- sensors 9 to 14, mV; 16_power_insertion.md R501. -/
  rails : List Nat := [0, 0, 0, 0, 0, 0]
  /-- 16, 0.5 degrees C; 16_power_insertion.md R501. -/
  tj : Nat := 0
  /-- degrees C; 16_power_insertion.md R501. -/
  tInput : Nat := 0
  deriving DecidableEq, Repr, Inhabited

/-- Input stage and power supervisor (R481 to R506). -/
structure Power where
  /-- eFuse conducting; 16_power_insertion.md R484. -/
  efuseOn : Bool := false
  /-- ticks POWER_EN has stayed deasserted, up to 10 ms; 16_power_insertion.md R484. -/
  enLow : Nat := 0
  /-- consecutive failures; 16_power_insertion.md R484. -/
  efuseFails : Nat := 0
  /-- retry of 1 s pending; 16_power_insertion.md R484. -/
  efuseRetry : Bool := false
  /-- in current limit; 16_power_insertion.md R484. -/
  efuseLimit : Bool := false
  /-- soft-start running; 16_power_insertion.md R485. -/
  softStart : Bool := false
  /-- main rails ramping; 16_power_insertion.md R489. -/
  railRamp : Bool := false
  /-- main rails up; 16_power_insertion.md R489. -/
  railsUp : Bool := false
  /-- 16 CHOLD_UF; 16_power_insertion.md R485. -/
  choldUf : Nat := 0
  /-- warning armed; 16_power_insertion.md R494. -/
  warnArmed : Bool := false
  /-- warning active; 16_power_insertion.md R494. -/
  warnActive : Bool := false
  /-- orderly stop committed; 16_power_insertion.md R495. -/
  stopping : Bool := false
  /-- the stop is for POWER_EN deasserted; 16_power_insertion.md R490. -/
  stopPowerEn : Bool := false
  /-- SAG_ACTION set to 1 under R499; 16_power_insertion.md R499. -/
  sagForced : Bool := false
  /-- over-voltage lockout; 16_power_insertion.md R493. -/
  ovLock : Bool := false
  /-- VIN below the reset release or the start-up lockout; 16_power_insertion.md R492, R493. -/
  belowReset : Bool := true
  /-- 100 ms brownout hold-off running; 16_power_insertion.md R493. -/
  holdoff : Bool := false
  /-- restart waits for the warning clear level; 16_power_insertion.md R493. -/
  needClear : Bool := false
  /-- a main rail outside 5 %; 16_power_insertion.md R503. -/
  railBand : Bool := false
  /-- thermal warning active; 16_power_insertion.md R502. -/
  thermWarn : Bool := false
  /-- SerDes transmitters idled by load shed; 16_power_insertion.md R496. -/
  transmitIdle : Bool := false
  /-- telemetry; 16_power_insertion.md R501. -/
  tele : Tele := {}
  deriving DecidableEq, Repr, Inhabited

/-- One counter (R507). -/
structure Ctr where
  /-- 43 configuration; 17_counters.md R507. -/
  cfg : BitVec 64 := 0
  /-- 48; 17_counters.md R507. -/
  value : Nat := 0
  /-- 1 OVF; 17_counters.md R509. -/
  ovf : Bool := false
  /-- 1 WRCOLL; 17_counters.md R510. -/
  wrcoll : Bool := false
  /-- remainder below one increment; 17_counters.md R508. -/
  rem : Nat := 0
  deriving DecidableEq, Repr, Inhabited

/-- A sweep as latched (R511, R514). -/
structure SwRec where
  /-- 32; 17_counters.md R514. -/
  seq : Nat := 0
  /-- 64; 17_counters.md R515. -/
  time : Nat := 0
  /-- 48; 17_counters.md R515. -/
  ptpSec : Nat := 0
  /-- 32; 17_counters.md R515. -/
  ptpNs : Nat := 0
  /-- 16 SPAN_NS; 17_counters.md R514. -/
  span : Nat := 0
  /-- owner of each Hearth cluster's counters at the latch; 17_counters.md R519. -/
  owners : List Nat := [0, 0, 0, 0]
  /-- 512 counters latched; 17_counters.md R511. -/
  ctrs : Tab Ctr := []
  deriving DecidableEq, Repr, Inhabited

/-- One sweep stream (R515 to R518). -/
structure Stream where
  /-- 1 ENABLE; 17_counters.md R515. -/
  enabled : Bool := false
  /-- 2 DEST; 17_counters.md R515. -/
  dest : Nat := 0
  /-- 5; 17_counters.md R515. -/
  slotsLog2 : Nat := 0
  /-- 64; 17_counters.md R515. -/
  addr : BitVec 64 := 0
  /-- 16; 17_counters.md R515. -/
  divider : Nat := 1
  /-- 8 CAUSE; 17_counters.md R518. -/
  cause : Nat := 0
  /-- 32; 17_counters.md R515. -/
  wcount : Nat := 0
  /-- 32 since enabled; 17_counters.md R517. -/
  skipped : Nat := 0
  /-- 16 since the previous slot; 17_counters.md R517. -/
  skipSlot : Nat := 0
  /-- sweeps latched since enabled; 17_counters.md R515. -/
  since : Nat := 0
  /-- newest latched sweep due and not written; 17_counters.md R517. -/
  due : Option SwRec := none
  deriving DecidableEq, Repr, Inhabited

/-- Performance counters and sweeps (R507 to R524). -/
structure Counters where
  /-- 512; 17_counters.md R507. -/
  ctrs : Tab Ctr := []
  /-- 20 PERIOD_US; 17_counters.md R514. -/
  periodUs : Nat := 1000
  /-- 32; 17_counters.md R514. -/
  seq : Nat := 0
  /-- 32; 17_counters.md R515. -/
  streams : Tab Stream := []
  deriving DecidableEq, Repr, Inhabited

/-- Test state of one block (BIST_GET). -/
structure Bist where
  /-- 8: 0 in service, 1 OFFLINE, 2 OFFLINE_FAILED; 18_test_ageing.md BIST_GET. -/
  st : Nat := 0
  /-- 8 LAST_KIND; 18_test_ageing.md BIST_GET. -/
  kind : Nat := 0
  /-- 8 RESULT; 18_test_ageing.md BIST_GET. -/
  result : Nat := 0
  /-- 32; 18_test_ageing.md BIST_GET. -/
  mMisr : BitVec 32 := 0
  /-- 32; 18_test_ageing.md BIST_GET. -/
  lMisr : BitVec 32 := 0
  /-- 32; 18_test_ageing.md BIST_GET. -/
  lastMs : Nat := 0
  /-- 16, since cold start; 18_test_ageing.md BIST_GET. -/
  runs : Nat := 0
  /-- 16, since cold start; 18_test_ageing.md BIST_GET. -/
  fails : Nat := 0
  /-- repairs that the fast march of this start found; 18_test_ageing.md R534. -/
  soft : Nat := 0
  /-- left offline by boot BIST; 18_test_ageing.md R535. -/
  boot : Bool := false
  /-- handle of the running BIST_RUN; 18_test_ageing.md BIST_RUN. -/
  handle : Nat := 0
  deriving DecidableEq, Repr, Inhabited

/-- Last margin sample of one SerDes lane or DDR channel (R536). -/
structure Lane where
  /-- mV or ps; 18_test_ageing.md R536. -/
  margin : Nat := 0
  /-- fused baseline; 18_test_ageing.md R536. -/
  base : Nat := 0
  /-- baseline unreadable; 18_test_ageing.md R538. -/
  bad : Bool := false
  deriving DecidableEq, Repr, Inhabited

/-- Char monitor and margin planning (R536 to R549). -/
structure Ageing where
  /-- 128 handshake-loop sensors: period and baseline, ps; 18_test_ageing.md R536. -/
  loops : Tab Lane := []
  /-- 256 SerDes lanes; 18_test_ageing.md R536. -/
  lanes : Tab Lane := []
  /-- 16 channels; 18_test_ageing.md R536. -/
  ddr : Tab Lane := []
  /-- 16, units of 1/10,000; 18_test_ageing.md R537. -/
  coreK : Nat := 10000
  /-- 16, units of 1/10,000; 18_test_ageing.md R537. -/
  ageK : Nat := 10000
  /-- mV; 18_test_ageing.md R540. -/
  vddSet : Nat := 750
  /-- 3 THROTTLE; 18_test_ageing.md R541. -/
  throttle : Nat := 0
  /-- 4; 18_test_ageing.md R540. -/
  stepEn : BitVec 4 := 15
  /-- 8; 18_test_ageing.md R540. -/
  tjPlanMin : Nat := 90
  /-- 8; 18_test_ageing.md R537. -/
  tjPlan : Nat := 90
  /-- margin record lost; 18_test_ageing.md R540. -/
  lost : Bool := false
  /-- a plan is running; 18_test_ageing.md R543. -/
  planning : Bool := false
  /-- handle of AGE_SET_CONFIG with REPLAN; 18_test_ageing.md R549. -/
  planHandle : Nat := 0
  /-- tick at which the last plan ended; 18_test_ageing.md AGE_GET_STATUS. -/
  lastPlan : Nat := 0
  /-- t_eff, 1/10,000 h; T_EFF_H is its whole hours; 18_test_ageing.md R545. -/
  tEff : Nat := 0
  /-- budget at which event 0x810 was last posted; 18_test_ageing.md R546. -/
  warned : Nat := 100
  /-- core, SerDes, DDR, %; 18_test_ageing.md R545. -/
  budgets : List Nat := [100, 100, 100]
  /-- 16 YEARS; 18_test_ageing.md R545. -/
  years : Nat := 65535
  deriving DecidableEq, Repr, Inhabited

/-- JTAG test access port (R556). -/
structure Jtag where
  /-- instruction in force; 19_pins_electrical.md R556. -/
  inst : JtagInst := .idcode
  /-- 32, data register shifted out by BYPASS or IDCODE; 19_pins_electrical.md R556. -/
  dr : BitVec 32 := 0
  /-- boundary-scan cells; 19_pins_electrical.md R556. -/
  boundary : Tab Bool := []
  /-- the boundary register drives the lands; 19_pins_electrical.md R556. -/
  driving : Bool := false
  /-- HIGHZ in force; 19_pins_electrical.md R556. -/
  highz : Bool := false
  deriving DecidableEq, Repr, Inhabited

/-- The machine: every piece of state the specification gives the module. -/
structure State where
  /-- always-on time and PTP clock; 15_reset_boot.md R572. -/
  time : TimeSt := {}
  /-- lands; 19_pins_electrical.md R554. -/
  lands : Lands := {}
  /-- reset and start sequence; 15_reset_boot.md R465. -/
  boot : Boot := {}
  /-- retained state; 15_reset_boot.md R475. -/
  kept : Retained := {}
  /-- flash and fuses; 00_scope.md R22. -/
  nv : Nv := {}
  /-- Ember; 02_ember_mailboxes.md R53. -/
  ember : Ember := {}
  /-- 40 PCIe ports; 03_pcie_stations.md R88. -/
  ports : Tab Port := []
  /-- 32 virtual switches; 03_pcie_stations.md R106. -/
  vsw : Tab VSwitch := []
  /-- by partition * 64 + index; 03_pcie_stations.md R106. -/
  vdsps : Tab Vdsp := []
  /-- tables and staging; 04_windows_sharing.md R127. -/
  win : Win := {}
  /-- switch core; 05_switch_core.md R154. -/
  core : CoreSt := {}
  /-- 16 fabric links; 06_ndofin_links.md R194. -/
  links : Tab Link := []
  /-- fabric mode; 07_fabric_mode.md R228. -/
  fab : Fabric := {}
  /-- memory pool; 08_memory_pool.md R258. -/
  pool : PoolSt := {}
  /-- Retort engines; 09_retort.md R289. -/
  rt : Retort := {}
  /-- network; 10_network.md R325. -/
  net : Net := {}
  /-- traffic management; 11_traffic_management.md R360. -/
  tm : Traffic := {}
  /-- Hearth; 12_hearth.md R390. -/
  hearth : Hearth := {}
  /-- isolation and strict mode; 13_isolation.md R429. -/
  iso : Iso := {}
  /-- fault collector; 14_faults.md R430. -/
  flt : FaultSt := {}
  /-- power; 16_power_insertion.md R481. -/
  pwr : Power := {}
  /-- counters; 17_counters.md R507. -/
  cnt : Counters := {}
  /-- 64 blocks; 18_test_ageing.md R530. -/
  bist : Tab Bist := []
  /-- ageing; 18_test_ageing.md R536. -/
  age : Ageing := {}
  /-- JTAG; 19_pins_electrical.md R556. -/
  jtag : Jtag := {}
  /-- MODEL'S OWN: counter of the free values drawn; -. -/
  free : Nat := 0
  /-- MODEL'S OWN: what the module has sent, in order; -. -/
  out : List Output := []
  /-- MODEL'S OWN: commands waiting; -. -/
  pending : List Instr := []
  deriving DecidableEq, Repr, Inhabited

/-- The machine right after a cold reset has restored every field: the always-on domain runs, the
main rails are off, the lands are at rest and no command waits (R453). Flash slot A holds the
shipped image (log 4). -/
def State.reset : State :=
  { nv := { slotA := { st := .valid, size := 4, good := true, version := 0x03020000#32 } } }

end Sys2Proof.Machine
end

