-- ==== Sys2Proof/Machine/Ops.lean ====
section
/-! DEFINITION. The named operations over the sparse tables and over memory. Every read and write of
the state's tables and buffers goes through these. -/

namespace Sys2Proof.Machine

open Sys2Proof

section Tables
variable {α : Type}

/-- Entry `i` of a table, `d` when it is not listed. -/
def tget (d : α) : Tab α → Nat → α
  | [], _ => d
  | (k, v) :: r, i => if k = i then v else tget d r i

/-- Entry `i` of a table in which existing matters. -/
def tlook : Tab α → Nat → Option α
  | [], _ => none
  | (k, v) :: r, i => if k = i then some v else tlook r i

/-- The table with entry `i` set to `v`. -/
def tset : Tab α → Nat → α → Tab α
  | [], i, v => [(i, v)]
  | (k, w) :: r, i, v =>
    if k = i then (i, v) :: r
    else if i < k then (i, v) :: (k, w) :: r
    else (k, w) :: tset r i v

/-- The table without entry `i`. -/
def tdel (t : Tab α) (i : Nat) : Tab α := t.filter (fun e => e.1 != i)

/-- The table with entry `i` changed by `f`. -/
def tmod (d : α) (t : Tab α) (i : Nat) (f : α → α) : Tab α := tset t i (f (tget d t i))

/-- Every listed entry changed by `f`. -/
def tmap (t : Tab α) (f : Nat → α → α) : Tab α := t.map (fun e => (e.1, f e.1 e.2))

/-- The keys `lo` to `lo + n - 1` set one after another by `f`. -/
def tfill (t : Tab α) (lo n : Nat) (f : Nat → α) : Tab α :=
  (List.range n).foldl (fun a k => tset a (lo + k) (f (lo + k))) t

/-- Element `i` of a list, `d` past its end. -/
def lget (d : α) (l : List α) (i : Nat) : α := l.getD i d

/-- The list with element `i` replaced, unchanged past its end. -/
def lset (l : List α) (i : Nat) (v : α) : List α := l.set i v

/-- The first element meeting `p` with its index, and the list without it. -/
def takeFirst (p : α → Bool) : List α → Option (α × List α)
  | [] => none
  | x :: r =>
    if p x then some (x, r)
    else match takeFirst p r with
      | none => none
      | some (y, t) => some (y, x :: t)

/-- The list without its element `i`. -/
def dropAt : List α → Nat → List α
  | [], _ => []
  | _ :: r, 0 => r
  | x :: r, i + 1 => x :: dropAt r i

end Tables

/-! ## Memory

A memory or buffer is a list of cells in one canonical form: addresses strictly rising, and no cell
holding what an unlisted address reads as. -/

/-- The byte at address `a`, where an unlisted address reads `d`. -/
def mget (d : Byte) : List (Nat × Byte) → Nat → Byte
  | [], _ => d
  | (k, v) :: r, a => if k = a then v else mget d r a

/-- Insert a cell in rising order. -/
def minsert (a : Nat) (v : Byte) : List (Nat × Byte) → List (Nat × Byte)
  | [] => [(a, v)]
  | (k, w) :: r => if a < k then (a, v) :: (k, w) :: r else (k, w) :: minsert a v r

/-- The memory with byte `v` at address `a`. -/
def mset (d : Byte) (m : List (Nat × Byte)) (a : Nat) (v : Byte) : List (Nat × Byte) :=
  let m' := m.filter (fun e => e.1 != a)
  if v = d then m' else minsert a v m'

/-- The memory with `bytes` stored from address `a` upward. -/
def mwrite (d : Byte) : List (Nat × Byte) → Nat → Bytes → List (Nat × Byte)
  | m, _, [] => m
  | m, a, b :: r => mwrite d (mset d m a b) (a + 1) r

/-- `n` bytes from address `a` upward. -/
def mread (d : Byte) (m : List (Nat × Byte)) (a n : Nat) : Bytes :=
  (List.range n).map (fun k => mget d m (a + k))

/-- The memory with every byte of `[a, a + n)` back at what an unlisted address reads as. -/
def mclear (m : List (Nat × Byte)) (a n : Nat) : List (Nat × Byte) :=
  m.filter (fun e => !(a ≤ e.1 && e.1 < a + n))

/-- The canonical form: addresses strictly rising from at least `lo`, no cell at the default. -/
def Memory.wfFrom (d : Byte) : Nat → List (Nat × Byte) → Bool
  | _, [] => true
  | lo, (k, v) :: r => lo ≤ k && v != d && Memory.wfFrom d (k + 1) r

/-- A memory in canonical form. -/
def Memory.wf (d : Byte) (m : List (Nat × Byte)) : Bool := Memory.wfFrom d 0 m

/-! ## Small arithmetic of the specification -/

/-- Add `n` to a counter that saturates at `cap`. -/
def sat (cap v n : Nat) : Nat := Nat.min cap (v + n)

/-- Division rounded up. -/
def ceilDiv (a b : Nat) : Nat := (a + b - 1) / b

/-- Whether `n` is a power of two. -/
def isPow2 (n : Nat) : Bool := n != 0 && Nat.land n (n - 1) == 0

/-- Append to the outbox. -/
def State.emit (s : State) (o : Output) : State := { s with out := s.out ++ [o] }

/-- Append several outputs. -/
def State.emits (s : State) (os : List Output) : State := { s with out := s.out ++ os }

/-- Draw a free number: its value and the state with the counter advanced (log 16). -/
def State.freeNat (s : State) : Nat × State := (Config.freeNat s.free, { s with free := s.free + 1 })

/-- Draw a free bit. -/
def State.freeBit (s : State) : Bool × State := (Config.freeBit s.free, { s with free := s.free + 1 })

/-- Draw a free string of `n` bytes. -/
def State.freeBytes (s : State) (n : Nat) : Bytes × State :=
  ((List.range n).map (Config.freeByte s.free), { s with free := s.free + 1 })

/-! ## The state's tables by name -/

/-- PCIe port `n`. -/
def State.port (s : State) (n : Nat) : Port := tget {} s.ports n
/-- Change PCIe port `n`. -/
def State.modPort (s : State) (n : Nat) (f : Port → Port) : State :=
  { s with ports := tmod {} s.ports n f }

/-- Virtual switch of partition `p`. -/
def State.vs (s : State) (p : Nat) : VSwitch := tget {} s.vsw p
/-- Change the virtual switch of partition `p`. -/
def State.modVs (s : State) (p : Nat) (f : VSwitch → VSwitch) : State :=
  { s with vsw := tmod {} s.vsw p f }

/-- vDSP `k` of partition `p`. -/
def State.vdsp (s : State) (p k : Nat) : Vdsp := tget {} s.vdsps (p * 64 + k)
/-- Change vDSP `k` of partition `p`. -/
def State.modVdsp (s : State) (p k : Nat) (f : Vdsp → Vdsp) : State :=
  { s with vdsps := tmod {} s.vdsps (p * 64 + k) f }

/-- Fabric link `l`. -/
def State.link (s : State) (l : Nat) : Link := tget {} s.links l
/-- Change fabric link `l`. -/
def State.modLink (s : State) (l : Nat) (f : Link → Link) : State :=
  { s with links := tmod {} s.links l f }

/-- Mailbox page `pg`: 0 to 31 of partitions, 32 to 35 of Hearth clusters. -/
def State.page (s : State) (pg : Nat) : Page := tget {} s.ember.pages pg
/-- Change mailbox page `pg`. -/
def State.modPage (s : State) (pg : Nat) (f : Page → Page) : State :=
  { s with ember := { s.ember with pages := tmod {} s.ember.pages pg f } }

/-- Change Ember's own state. -/
def State.modEmber (s : State) (f : Ember → Ember) : State := { s with ember := f s.ember }

/-- Change the fault collector. -/
def State.modFlt (s : State) (f : FaultSt → FaultSt) : State := { s with flt := f s.flt }

/-- Change the fabric-mode state. -/
def State.modFab (s : State) (f : Fabric → Fabric) : State := { s with fab := f s.fab }

/-- Change the pool. -/
def State.modPool (s : State) (f : PoolSt → PoolSt) : State := { s with pool := f s.pool }

/-- Change the switch core. -/
def State.modCore (s : State) (f : CoreSt → CoreSt) : State := { s with core := f s.core }

/-- Change the translation tables and their staging. -/
def State.modWin (s : State) (f : Win → Win) : State := { s with win := f s.win }

/-- Change the Retort engines. -/
def State.modRt (s : State) (f : Retort → Retort) : State := { s with rt := f s.rt }

/-- Change the network. -/
def State.modNet (s : State) (f : Net → Net) : State := { s with net := f s.net }

/-- Change traffic management. -/
def State.modTm (s : State) (f : Traffic → Traffic) : State := { s with tm := f s.tm }

/-- Change the power state. -/
def State.modPwr (s : State) (f : Power → Power) : State := { s with pwr := f s.pwr }

/-- Change the counters. -/
def State.modCnt (s : State) (f : Counters → Counters) : State := { s with cnt := f s.cnt }

/-- Change the reset and start sequence. -/
def State.modBoot (s : State) (f : Boot → Boot) : State := { s with boot := f s.boot }

/-- Change the lands. -/
def State.modLands (s : State) (f : Lands → Lands) : State := { s with lands := f s.lands }

/-- Change the retained state. -/
def State.modKept (s : State) (f : Retained → Retained) : State := { s with kept := f s.kept }

/-- Change flash and fuses. -/
def State.modNv (s : State) (f : Nv → Nv) : State := { s with nv := f s.nv }

/-- Change Hearth. -/
def State.modHearth (s : State) (f : Hearth → Hearth) : State := { s with hearth := f s.hearth }

/-- Change isolation and strict mode. -/
def State.modIso (s : State) (f : Iso → Iso) : State := { s with iso := f s.iso }

/-- Change the ageing state. -/
def State.modAge (s : State) (f : Ageing → Ageing) : State := { s with age := f s.age }

/-- Change the test access port. -/
def State.modJtag (s : State) (f : Jtag → Jtag) : State := { s with jtag := f s.jtag }

/-- Sod `n`. -/
def State.sod (s : State) (n : Nat) : Sod := tget {} s.pool.sods n
/-- Change sod `n`. -/
def State.modSod (s : State) (n : Nat) (f : Sod → Sod) : State :=
  { s with pool := { s.pool with sods := tmod {} s.pool.sods n f } }

/-- Logical port `n`. -/
def State.lport (s : State) (n : Nat) : LPort := tget {} s.net.lports n
/-- Change logical port `n`. -/
def State.modLport (s : State) (n : Nat) (f : LPort → LPort) : State :=
  { s with net := { s.net with lports := tmod {} s.net.lports n f } }

/-- vNIC function `f`, when it exists. -/
def State.vnic (s : State) (f : Nat) : Option Vnic := tlook s.net.vnics f
/-- Set vNIC function `f`. -/
def State.setVnic (s : State) (f : Nat) (v : Vnic) : State :=
  { s with net := { s.net with vnics := tset s.net.vnics f v } }
/-- Change vNIC function `f` where it exists. -/
def State.modVnic (s : State) (f : Nat) (g : Vnic → Vnic) : State :=
  match s.vnic f with
  | none => s
  | some v => s.setVnic f (g v)

/-- Queue pair `q` of a function. -/
def Vnic.qp (v : Vnic) (q : Nat) : Qp := tget {} v.qps q
/-- Change queue pair `q` of a function. -/
def Vnic.modQp (v : Vnic) (q : Nat) (g : Qp → Qp) : Vnic := { v with qps := tmod {} v.qps q g }

/-- Hearth cluster `c`. -/
def State.cluster (s : State) (c : Nat) : Cluster := tget {} s.hearth.clusters c
/-- Change Hearth cluster `c`. -/
def State.modCluster (s : State) (c : Nat) (f : Cluster → Cluster) : State :=
  { s with hearth := { s.hearth with clusters := tmod {} s.hearth.clusters c f } }
/-- Core `k` of cluster `c`. -/
def State.hcore (s : State) (c k : Nat) : HCore := tget {} (s.cluster c).cores k
/-- Change core `k` of cluster `c`. -/
def State.modHcore (s : State) (c k : Nat) (f : HCore → HCore) : State :=
  s.modCluster c (fun cl => { cl with cores := tmod {} cl.cores k f })

/-- Isolation settings of partition `p`. -/
def State.partCfg (s : State) (p : Nat) : PartCfg := tget {} s.iso.parts p

/-- Admission record of module `m`. -/
def State.adm (s : State) (m : Nat) : Admission := tget {} s.fab.adm m
/-- Change the admission record of module `m`. -/
def State.modAdm (s : State) (m : Nat) (f : Admission → Admission) : State :=
  { s with fab := { s.fab with adm := tmod {} s.fab.adm m f } }

/-- Route to module `m`. -/
def State.route (s : State) (m : Nat) : Route := tget {} s.fab.routes m
/-- Change the route to module `m`. -/
def State.modRoute (s : State) (m : Nat) (f : Route → Route) : State :=
  { s with fab := { s.fab with routes := tmod {} s.fab.routes m f } }

/-- Retort instance of group `g`, when it exists. -/
def State.inst (s : State) (g : Nat) : Option RtInst := tlook s.rt.inst g
/-- Set the Retort instance of group `g`. -/
def State.setInst (s : State) (g : Nat) (i : RtInst) : State :=
  { s with rt := { s.rt with inst := tset s.rt.inst g i } }

/-- Plane `n`. -/
def State.plane (s : State) (n : Nat) : PlaneSt := tget {} s.core.planes n
/-- Change plane `n`. -/
def State.modPlane (s : State) (n : Nat) (f : PlaneSt → PlaneSt) : State :=
  { s with core := { s.core with planes := tmod {} s.core.planes n f } }

/-- Test state of block `b`. -/
def State.bistOf (s : State) (b : Nat) : Bist := tget {} s.bist b
/-- Change the test state of block `b`. -/
def State.modBist (s : State) (b : Nat) (f : Bist → Bist) : State :=
  { s with bist := tmod {} s.bist b f }

end Sys2Proof.Machine
end

