-- ==== Sys2Proof/Machine/Operands.lean ====
section
/-! DEFINITION. Operand forms: little-endian fields of frames and records (R11), bit ranges (R10),
fabric addresses (R29) and the fields of a command frame (R66). -/

namespace Sys2Proof.Machine

open Sys2Proof

/-! ## Bits and bytes -/

/-- Bits `[hi:lo]` of a number (R10). -/
def bits (v hi lo : Nat) : Nat := v / 2 ^ lo % 2 ^ (hi + 1 - lo)

/-- Bit `n` of a number (R10). -/
def bit (v n : Nat) : Bool := v / 2 ^ n % 2 == 1

/-- 1 for true. -/
def b2n (b : Bool) : Nat := if b then 1 else 0

/-- The number a little-endian byte string holds (R11). -/
def leNat : Bytes → Nat
  | [] => 0
  | b :: r => b.toNat + 256 * leNat r

/-- `n` little-endian bytes of a number (R11). -/
def leBytes : Nat → Nat → Bytes
  | 0, _ => []
  | n + 1, v => BitVec.ofNat 8 v :: leBytes n (v / 256)

/-- The number a big-endian byte string holds, as network headers and MCTP vendor IDs carry them. -/
def beNat (bs : Bytes) : Nat := bs.foldl (fun a b => a * 256 + b.toNat) 0

/-- `n` big-endian bytes of a number. -/
def beBytes (n v : Nat) : Bytes := (leBytes n v).reverse

/-- `n` bytes of a string from offset `off`, zero past its end. -/
def slice (bs : Bytes) (off n : Nat) : Bytes :=
  let t := (bs.drop off).take n
  t ++ List.replicate (n - t.length) 0

/-- A string cut or padded with zeros to `n` bytes. -/
def padTo (n : Nat) (bs : Bytes) : Bytes := slice bs 0 n

/-- The string with `d` written over it from offset `off`. -/
def overwrite (bs : Bytes) (off : Nat) (d : Bytes) : Bytes :=
  slice bs 0 off ++ d ++ bs.drop (off + d.length)

/-- Whether every byte is zero. -/
def allZero (bs : Bytes) : Bool := bs.all (fun b => b == 0)

/-- The sign of a `w`-bit two's complement number. -/
def signed (w v : Nat) : Int := if v % 2 ^ w < 2 ^ (w - 1) then (v % 2 ^ w : Nat) else (v % 2 ^ w : Nat) - (2 ^ w : Nat)

/-- A `size`-byte value widened to 64 bits, with its sign when `sgn`. -/
def extend (sgn : Bool) (size v : Nat) : Word :=
  if sgn then BitVec.ofInt 64 (signed (8 * size) v) else BitVec.ofNat 64 (v % 2 ^ (8 * size))

/-- ASCII bytes of a list of character codes. -/
def ascii (cs : List Nat) : Bytes := cs.map (BitVec.ofNat 8)

/-- Number of set bits among the `n` low bits. -/
def popCount (n v : Nat) : Nat := (List.range n).countP (fun i => bit v i)

/-- The set bits among the `n` low bits, rising. -/
def bitList (n v : Nat) : List Nat := (List.range n).filter (fun i => bit v i)

/-- The number with bit `i` set when `f i`, for `i < n`. -/
def bitsOf (n : Nat) (f : Nat → Bool) : Nat :=
  (List.range n).foldl (fun a i => if f i then a + 2 ^ i else a) 0

/-- Field `i` of width `w` of a packed map (TC maps, VC maps). -/
def mapField (m : BitVec 32) (w i : Nat) : Nat := bits m.toNat (w * i + w - 1) (w * i)

/-- The packed map with field `i` of width `w` set. -/
def setMapField (m : BitVec 32) (w i v : Nat) : BitVec 32 :=
  BitVec.ofNat 32 (m.toNat - mapField m w i * 2 ^ (w * i) + v % 2 ^ w * 2 ^ (w * i))

/-! ## Fields of a command frame (R66) -/

end Sys2Proof.Machine

namespace Sys2Proof

open Machine

/-- `n` bytes of the payload at frame offset `off`. -/
def Req.bytes (q : Req) (off n : Nat) : Bytes := slice q.payload (off - 0x20) n

/-- The `n`-byte field at frame offset `off`. -/
def Req.field (q : Req) (n off : Nat) : Nat := leNat (q.bytes off n)

/-- One-byte field. -/
def Req.u8 (q : Req) (off : Nat) : Nat := q.field 1 off
/-- Two-byte field. -/
def Req.u16 (q : Req) (off : Nat) : Nat := q.field 2 off
/-- Four-byte field. -/
def Req.u32 (q : Req) (off : Nat) : Nat := q.field 4 off
/-- Eight-byte field. -/
def Req.u64 (q : Req) (off : Nat) : Nat := q.field 8 off
/-- `n` reserved bytes at frame offset `off` are zero (R18, R67 order 7). -/
def Req.zero (q : Req) (off n : Nat) : Bool := allZero (q.bytes off n)

/-- FLAGS[0], ON_BEHALF. -/
def Req.onBehalf (q : Req) : Bool := bit q.flags 0
/-- FLAGS[1], NO_INT. -/
def Req.noInt (q : Req) : Bool := bit q.flags 1

end Sys2Proof

namespace Sys2Proof.Machine

open Sys2Proof

/-- The response frame as bytes (R66). -/
def Rsp.bytes (r : Rsp) : Bytes :=
  leBytes 2 r.opcode ++ leBytes 2 r.status ++ leBytes 4 r.tag.toNat ++ leBytes 4 r.payload.length ++
    leBytes 4 r.detail ++ leBytes 4 r.handle ++ List.replicate 12 0 ++ r.payload

/-- OPCODE and the rest of a command frame given as bytes (R66). DESIGN CHOICE (log 64): where a message ends before
36 + LENGTH bytes, the payload bytes it lacks read as 0. -/
def reqOfBytes (b : Bytes) : Nat × Req :=
  let len := leNat (slice b 8 4)
  (leNat (slice b 0 2),
   { flags := leNat (slice b 2 2), tag := BitVec.ofNat 32 (leNat (slice b 4 4)), length := len,
     target := leNat (slice b 12 1), rsvd := BitVec.ofNat 152 (leNat (slice b 13 19)),
     payload := slice b 32 (Nat.min len 4064) })

/-! ## Fabric addresses (R29) -/

/-- MODULE, [63:58]. -/
def faModule (a : Word) : Nat := bits a.toNat 63 58
/-- CLASS, [57:54]. -/
def faClass (a : Word) : Nat := bits a.toNat 57 54
/-- OFFSET, [53:0]. -/
def faOffset (a : Word) : Nat := bits a.toNat 53 0
/-- A fabric address from its fields. -/
def faMake (m c o : Nat) : Word := BitVec.ofNat 64 (m * 2 ^ 58 + c * 2 ^ 54 + o)

/-- Sod number of a class 0x0 address. -/
def faSod (a : Word) : Nat := bits a.toNat 42 30
/-- Byte within the sod, or within a group's window. -/
def faByte (a : Word) : Nat := bits a.toNat 29 0
/-- Physical downstream core port of a class 0x1 address. -/
def faPort (a : Word) : Nat := bits a.toNat 53 48
/-- PCIe address of a class 0x1 address. -/
def faPcie (a : Word) : Nat := bits a.toNat 47 0
/-- Group of a class 0x2 address. -/
def faGroup (a : Word) : Nat := bits a.toNat 41 30
/-- Function of a class 0x3 address. -/
def faFn (a : Word) : Nat := bits a.toNat 53 44
/-- Partition of a class 0x4 address. -/
def faPart (a : Word) : Nat := bits a.toNat 53 49

/-- The must-be-0 offset field of the class is zero and, in class 0x1, the port is a PCIe port (R29). -/
def faWellFormed (a : Word) : Bool :=
  match faClass a with
  | 0 => bits a.toNat 53 43 == 0
  | 1 => faPort a < 40
  | 2 => bits a.toNat 53 42 == 0
  | 5 => bits a.toNat 53 26 == 0
  | _ => true

/-! ## Core ports and blocks (R24) -/

/-- Fault block that holds core port `n`, when it has one. -/
def blockOfPort (n : Nat) : Nat :=
  if n < 40 then n / 4
  else if n < 56 then 0x0A + (n - 40)
  else if n < 64 then 0x1A + (n - 56)
  else if n < 68 then 0x26 + (n - 64)
  else if n < 72 then 0x2A + (n - 68)
  else if n = 72 then 0x32
  else 0x2E

/-- Kinds of block. -/
inductive BlockKind where
  /-- Station 0x00 to 0x09. -/
  | station
  /-- Fabric link 0x0A to 0x19. -/
  | link
  /-- Network group 0x1A to 0x21. -/
  | net
  /-- Plane 0x22 to 0x25. -/
  | plane
  /-- Pool port 0x26 to 0x29. -/
  | pool
  /-- Retort engine 0x2A to 0x2D. -/
  | retort
  /-- Hearth cluster 0x2E to 0x31. -/
  | hearth
  /-- 0x32 to 0x3A. -/
  | common
  /-- 0x3B to 0x3F. -/
  | reserved
  deriving DecidableEq, Repr, Inhabited

/-- Kind of block `b`. -/
def blockKind (b : Nat) : BlockKind :=
  if b < 0x0A then .station
  else if b < 0x1A then .link
  else if b < 0x22 then .net
  else if b < 0x26 then .plane
  else if b < 0x2A then .pool
  else if b < 0x2E then .retort
  else if b < 0x32 then .hearth
  else if b < 0x3B then .common
  else .reserved

end Sys2Proof.Machine
end

