-- ==== Sys2Proof/Machine/Flags.lean ====
section
/-! DEFINITION. Status codes (R71), fault classes (R430), attributable sources (R432) and the reaction
bits (R434, R435). -/

namespace Sys2Proof.Machine

open Sys2Proof

/-! ## Status codes (R71) -/

/-- OK. -/
def rcOk : Nat := 0x0000
/-- PENDING. -/
def rcPending : Nat := 0x0001
/-- DRAIN_PENDING. -/
def rcDrainPending : Nat := 0x0002
/-- BAD_OPCODE. -/
def rcBadOpcode : Nat := 0x0010
/-- BAD_LENGTH. -/
def rcBadLength : Nat := 0x0011
/-- BAD_FIELD. -/
def rcBadField : Nat := 0x0012
/-- OVERLAP. -/
def rcOverlap : Nat := 0x0013
/-- DENIED. -/
def rcDenied : Nat := 0x0020
/-- LOCKED. -/
def rcLocked : Nat := 0x0021
/-- BUSY_RESOURCE. -/
def rcBusy : Nat := 0x0030
/-- CONFLICT. -/
def rcConflict : Nat := 0x0031
/-- NOT_READY. -/
def rcNotReady : Nat := 0x0040
/-- ABORTED_BY_RESET. -/
def rcAborted : Nat := 0x0041
/-- HW_FAULT. -/
def rcHwFault : Nat := 0x0050
/-- TIMEOUT. -/
def rcTimeout : Nat := 0x0060

/-! ## Fault sources (R430 and the source tables of each chapter) -/

/-- Class of index `i` of block `b`: 0 corrected, 1 contained, 2 degraded, 3 fatal; none when no table
lists it. -/
def faultClassOf (b i : Nat) : Option Nat :=
  match blockKind b with
  | .station => [0, 1, 1, 0, 1, 1, 0, 1, 2, 2][i]?
  | .link => [0, 0, 0, 2, 2, 2, 2, 1, 1, 1, 1, 2, 1, 0][i]?
  | .net => [0, 0, 2, 0, 0, 1, 1, 2, 0][i]?
  | .plane => [0, 2, 2][i]?
  | .pool => [0, 1, 1, 2, 2, 1, 2, 2][i]?
  | .retort => [0, 1, 1, 1, 1, 0, 1, 1][i]?
  | .hearth => [0, 1, 1, 0, 1, 0][i]?
  | .common =>
    match b with
    | 0x32 => [3, 0, 3, 3, 1, 1][i]?
    | 0x33 => [0, 3, 1, 1, 1, 1][i]?
    | 0x34 => [0, 1, 1, 3][i]?
    | 0x35 => [0][i]?
    | 0x36 => [0, 2, 2, 2, 0, 2, 2, 2, 3, 2, 2, 2, 0][i]?
    | 0x37 => [2, 2, 2, 0, 2, 2, 2, 2, 2, 1, 0][i]?
    | 0x38 => [1, 0, 2, 3][i]?
    | 0x39 => [0, 1][i]?
    | 0x3A => [2, 2, 2, 2, 2][i]?
    | _ => none
  | .reserved => none

/-- Class of fault source `src`; none when it is reserved. -/
def faultClass (src : Nat) : Option Nat := faultClassOf (src / 32) (src % 32)

/-- Attributable indices of block `b` (R432). -/
def attributableIdx (b : Nat) : List Nat :=
  match blockKind b with
  | .station => [2, 3]
  | .pool => [1, 2, 5]
  | .retort => [1, 2, 3, 6]
  | .net => [5, 6, 8]
  | .hearth => [1, 2, 3, 4, 5]
  | .common => if b = 0x33 then [3] else []
  | _ => []

/-- Whether a source is attributable (R432). -/
def attributable (src : Nat) : Bool := (attributableIdx (src / 32)).contains (src % 32)

/-- Whether the row of block `b` and class `c` holds an attributable source (R436). -/
def rowAttributable (b c : Nat) : Bool :=
  (attributableIdx b).any (fun i => faultClassOf b i == some c)

/-- SRAM or state errors, which FLT_INJECT can place (R451). -/
def sramSource (src : Nat) : Bool :=
  let i := src % 32
  match blockKind (src / 32) with
  | .station => i == 6 || i == 7
  | .link => i == 12
  | .plane => i == 0 || i == 2
  | .retort => i == 0 || i == 4
  | .hearth => i == 0 || i == 1
  | .common =>
    match src / 32 with
    | 0x32 => i == 1 || i == 2
    | 0x33 => i == 0 || i == 1
    | 0x34 => i == 0 || i == 1 || i == 3
    | 0x38 => i == 3
    | 0x39 => i == 0 || i == 1
    | _ => false
  | _ => false

/-- Blocks whose block reset is allowed (R437). -/
def blockResetAllowed (b : Nat) : Bool :=
  match blockKind b with
  | .retort => false
  | .common => false
  | .reserved => false
  | _ => true

/-- Default reaction byte of a class (R435). -/
def defaultReaction (c : Nat) : Nat :=
  match c with
  | 0 => 0x01
  | 1 => 0x03
  | 2 => 0x43
  | _ => 0x63

/-- Reaction bit 1, INT. -/
def reactInt (r : Nat) : Bool := bit r 1
/-- Reaction bit 2, DPC. -/
def reactDpc (r : Nat) : Bool := bit r 2
/-- Reaction bit 3, QUIESCE. -/
def reactQuiesce (r : Nat) : Bool := bit r 3
/-- Reaction bit 4, BLOCK_RESET. -/
def reactBlock (r : Nat) : Bool := bit r 4
/-- Reaction bit 5, WARM_RESET. -/
def reactWarm (r : Nat) : Bool := bit r 5
/-- Reaction bit 6, ERR_PAIR. -/
def reactPair (r : Nat) : Bool := bit r 6

end Sys2Proof.Machine
end

