-- ==== Sys2Proof/Machine/Descriptor.lean ====
section
/-! DEFINITION. Packets: the transaction descriptor (R158), cells (R157), the flow hash (R235), and the packets that
attachments inside the module form: requests of its functions toward their hosts, messages, and control packets to other
modules (R95, R111, R154, R156). -/

namespace Sys2Proof.Machine

open Sys2Proof

/-! ## The transaction descriptor (R158) -/

/-- The descriptor of PTYPE 0 to 2 from its fields. -/
structure Desc where
  /-- FADDR. -/
  faddr : Word := 0
  /-- LEN, data bytes that follow. -/
  len : Nat := 0
  /-- OPC: Fmt and Type. -/
  opc : Nat := 0
  /-- RID. -/
  rid : Nat := 0
  /-- TAG. -/
  tag : Nat := 0
  /-- PASID, when present. -/
  pasid : Option Nat := none
  /-- ATTR. -/
  attr : Nat := 0
  /-- EP. -/
  ep : Bool := false
  /-- FBE. -/
  fbe : Nat := 0
  /-- LBE. -/
  lbe : Nat := 0
  /-- PTC. -/
  ptc : Nat := 0
  /-- BCOUNT; in a read request, the bytes requested (log 25). -/
  bcount : Nat := 0
  /-- CSTAT. -/
  cstat : Nat := 0
  /-- LADDR. -/
  laddr : Nat := 0
  /-- MSGCODE. -/
  msgcode : Nat := 0
  deriving DecidableEq, Repr, Inhabited

/-- The 256 bits of a descriptor. -/
def Desc.encode (d : Desc) : BitVec 256 :=
  BitVec.ofNat 256 (
    d.faddr.toNat * 2 ^ 192 + d.len % 2 ^ 14 * 2 ^ 178 + d.opc % 2 ^ 8 * 2 ^ 170 + d.rid % 2 ^ 16 * 2 ^ 154 +
    d.tag % 2 ^ 14 * 2 ^ 140 + (d.pasid.getD 0) % 2 ^ 20 * 2 ^ 120 + b2n d.pasid.isSome * 2 ^ 119 +
    d.attr % 8 * 2 ^ 116 + b2n d.ep * 2 ^ 115 + d.fbe % 16 * 2 ^ 111 + d.lbe % 16 * 2 ^ 107 +
    d.ptc % 8 * 2 ^ 104 + d.bcount % 2 ^ 13 * 2 ^ 91 + d.cstat % 8 * 2 ^ 88 + d.laddr % 128 * 2 ^ 81 +
    d.msgcode % 256 * 2 ^ 73)

/-- The fields of a descriptor. -/
def descOf (b : BitVec 256) : Desc :=
  let v := b.toNat
  { faddr := BitVec.ofNat 64 (bits v 255 192), len := bits v 191 178, opc := bits v 177 170,
    rid := bits v 169 154, tag := bits v 153 140,
    pasid := if bit v 119 then some (bits v 139 120) else none, attr := bits v 118 116, ep := bit v 115,
    fbe := bits v 114 111, lbe := bits v 110 107, ptc := bits v 106 104, bcount := bits v 103 91,
    cstat := bits v 90 88, laddr := bits v 87 81, msgcode := bits v 80 73 }

end Sys2Proof.Machine

namespace Sys2Proof

open Machine

/-- Descriptor fields of a packet. -/
def Pkt.d (p : Pkt) : Desc := descOf p.desc
/-- The packet with its descriptor changed. -/
def Pkt.modDesc (p : Pkt) (f : Desc → Desc) : Pkt := { p with desc := (f p.d).encode }

/-- Data bytes of a packet: LEN of its descriptor while they still arrive and the length was known at the head, else those
there are (R157, R202). -/
def Pkt.len (p : Pkt) : Nat := if p.more && !p.openLen then p.d.len else p.data.length
/-- Cells a packet occupies: ⌈(32 + LEN) / 256⌉ (R157). -/
def Pkt.cells (p : Pkt) : Nat := ceilDiv (32 + p.len) 256
/-- Cells of the packet that have been formed: whole ones while data still arrive (R27). -/
def Pkt.formedCells (p : Pkt) : Nat := if p.more then (32 + p.data.length) / 256 else p.cells

/-- Fmt and Type of a memory write. -/
def opcMWr : Nat := 0x60
/-- Fmt and Type of a memory read. -/
def opcMRd : Nat := 0x20
/-- Fmt and Type of FetchAdd. -/
def opcFetchAdd : Nat := 0x6C
/-- Fmt and Type of Swap. -/
def opcSwap : Nat := 0x6D
/-- Fmt and Type of CAS. -/
def opcCas : Nat := 0x6E
/-- Fmt and Type of a completion without data. -/
def opcCpl : Nat := 0x0A
/-- Fmt and Type of a completion with data. -/
def opcCplD : Nat := 0x4A
/-- Fmt and Type of a configuration read of type 0. -/
def opcCfgRd : Nat := 0x04
/-- Fmt and Type of a configuration write of type 0. -/
def opcCfgWr : Nat := 0x44
/-- The opcode is one of a configuration request. -/
def cfgOpc (o : Nat) : Bool := o == opcCfgRd || o == opcCfgWr
/-- Fmt and Type of a message routed to the root complex. -/
def opcMsg : Nat := 0x30

/-- FUNC of a frame's descriptor (R331). -/
def Pkt.func (p : Pkt) : Nat := bits p.desc.toNat 169 160
/-- QP of a frame's descriptor. -/
def Pkt.qp (p : Pkt) : Nat := bits p.desc.toNat 159 154
/-- The packet is a frame received at a logical port (R331 FROM_WIRE, R361). -/
def Pkt.fromWire (p : Pkt) : Bool := p.ptype == 3 && bit p.desc.toNat 153
/-- IN_PORT of a received frame. -/
def Pkt.inLport (p : Pkt) : Nat := bits p.desc.toNat 152 148
/-- A non-posted request: a read or an AtomicOp. -/
def Pkt.nonPosted (p : Pkt) : Bool := p.ptype == 0 && p.d.opc != opcMWr
/-- An RO-marked PTYPE 0 packet, which spray accounting counts (R238). -/
def Pkt.sprayCounted (p : Pkt) : Bool := p.ptype == 0 && p.ro

end Sys2Proof

namespace Sys2Proof.Machine

open Sys2Proof

/-! ## The flow hash -/

/-- One bit of CRC-16 with polynomial 0x1021. -/
def crcBit (c : Nat) (b : Bool) : Nat :=
  let sh := c * 2 % 65536
  if bit c 15 != b then Nat.xor sh 0x1021 else sh

/-- One byte of CRC-16, most significant bit first. -/
def crcByte (c v : Nat) : Nat :=
  [7, 6, 5, 4, 3, 2, 1, 0].foldl (fun a i => crcBit a (bit v i)) c

/-- CRC-16 of polynomial 0x1021 and initial value 0xFFFF over bytes (R155, R235). -/
def crc16 (bs : List Nat) : Nat := bs.foldl crcByte 0xFFFF

/-- FHASH over SMOD, SPORT, DMOD, TC and DKEY (R235). -/
def fhash (smod sport dmod tc dkey : Nat) : Nat :=
  crc16 [smod, sport, dmod, tc, dkey % 256, dkey / 256]

/-! ## Packets formed inside the module -/

/-- The module's own ID (R228). -/
def State.own (s : State) : Nat := s.boot.moduleId

/-- An attachment has formed a packet; it enters the core once the event that made it has ended (R154). -/
def State.form (s : State) (p : Pkt) : State := s.modCore (fun k => { k with formed := k.formed ++ [p] })

/-- Bus number below a vDSP: as the host assigned it, else a number of the model's (R106). -/
def Vdsp.bus (v : Vdsp) (p k : Nat) : Nat :=
  let b := bits (tget 0 v.cfg 0x18).toNat 15 8
  if b = 0 then Config.virtualBus p k % 256 else b

/-- Routing ID in partition `p`'s hierarchy of the module function below the vDSP meeting `f` (R95, R107). -/
def State.functionVrid (s : State) (p : Nat) (f : Vdsp → Bool) : Option Nat :=
  (s.vdsps.find? (fun e => e.1 / 64 == p && e.2.st != .empty && f e.2)).map (fun e => e.2.bus p (e.1 % 64) * 256)

/-- Routing ID of a vDSP in its hierarchy: device `k` div 2, function `k` mod 2 of the internal bus (R106). -/
def State.vdspVrid (s : State) (p k : Nat) : Nat :=
  bits (tget 0 (s.vs p).bridge 0x18).toNat 15 8 * 256 + k / 2 * 8 + k % 2

/-- Routing ID of a partition's management function: function 1 beside the bridge, on the bus its host names (R55, R106). -/
def State.mgmtVrid (s : State) (p : Nat) : Nat := (s.vs p).bus * 256 + 1

/-- A request that a function of the module, at core port `src`, sends to partition `p`'s host, in PCIe traffic class 0,
under the function's routing ID (R95, R100, R158). -/
def State.toHost (s : State) (p src rid opc tag : Nat) (addr : Word) (want : Nat) (data : Bytes) : State :=
  match (s.vs p).up with
  | none => s
  | some u =>
    s.form
      { epoch := s.win.epoch.toNat, part := p, smod := s.own, src := src, sport := src, dst := u, dmod := s.own,
        tc := mapField (s.port u).tcMap 3 0, ptype := 0, data := data,
        desc := ({ faddr := addr, len := data.length, opc := opc, rid := rid, tag := tag, fbe := 15,
                   lbe := if want ≤ 4 then 0 else 15, bcount := want, laddr := addr.toNat % 128 } : Desc).encode }

/-- An MSI-X message: a posted write of 4 bytes at the address and with the data of vector `vec` of table `t` (R55). -/
def State.msixOut (s : State) (p src rid : Nat) (t : Tab (BitVec 32)) (vec : Nat) : State :=
  s.toHost p src rid opcMWr 0 (BitVec.ofNat 64 ((tget 0 t (4 * vec + 1)).toNat * 2 ^ 32 + (tget 0 t (4 * vec)).toNat)) 4
    (leBytes 4 (tget 0 t (4 * vec + 2)).toNat)

/-- A message to partition `p`'s host from core port `src`, as received at a vDSP: PTYPE 2 with its MSGCODE (R111, R119,
R154, R158). -/
def State.messageUp (s : State) (p src rid code : Nat) (data : Bytes) : State :=
  match (s.vs p).up with
  | none => s
  | some u =>
    s.form
      { epoch := s.win.epoch.toNat, part := p, smod := s.own, src := src, sport := src, dst := u, dmod := s.own,
        tc := mapField (s.port u).tcMap 3 0, ptype := 2, data := data,
        desc := ({ len := data.length, opc := if data.isEmpty then opcMsg else opcMsg + 0x40, rid := rid,
                   msgcode := code } : Desc).encode }

/-- Destination key of control packets (R235). -/
def ctlKey : Nat := 0xFFFF

/-- A control message to module `m`: a PTYPE 4 packet of core class TC7. What its bits hold is Ember's own (R156, R158);
the message itself is written to the outbox. -/
def State.control (s : State) (m : Nat) (c : Ctl) : State :=
  (s.emit (.control m c)).form
    { epoch := s.win.epoch.toNat, part := 0, smod := s.own, src := 72, sport := 72, dmod := m, tc := 7, ptype := 4,
      fhash := fhash s.own 72 m 7 ctlKey, desc := Config.ctlDesc s.out.length, data := Config.ctlData s.out.length }

/-- A control message to the peer of link `l`, on that link whatever the routes (R242): SPDM runs while the link's paths are not
usable. -/
def State.controlOn (s : State) (l : Nat) (c : Ctl) : State :=
  let m := (s.link l).peerModule
  (s.emit (.control m c)).form
    { epoch := s.win.epoch.toNat, part := 0, smod := s.own, src := 72, sport := 72, dmod := m, tc := 7, ptype := 4
      dst := 40 + l, action := 1, actArg := m, fhash := fhash s.own 72 m 7 ctlKey
      desc := Config.ctlDesc s.out.length, data := Config.ctlData s.out.length }

end Sys2Proof.Machine
end

