-- ==== Sys2Proof/Machine/Collect.lean ====
section
/-! DEFINITION. The collector: performance counters (R507 to R510), MSI-X messages, event records
(R447 to R450), raising a fault source (R430 to R441), the Ash ledger (R445) and operation handles
(R69, R70). -/

namespace Sys2Proof.Machine

open Sys2Proof

/-! ## Counters -/

/-- One event offered to the counters of a block (R508). -/
structure CtrEv where
  /-- Block that detects it. -/
  block : Nat
  /-- Event code. -/
  event : Nat
  /-- Quantity, in the smallest unit the event is measured in. -/
  raw : Nat := 1
  /-- Quantity of one increment. -/
  unit : Nat := 1
  /-- Partition, where the event lists PART and SMOD is the own module. -/
  part : Option Nat := none
  /-- Port, where the event lists PORT. -/
  port : Option Nat := none
  /-- Core TC, where the event lists TC. -/
  tc : Option Nat := none
  /-- Core of the cluster, where the event lists CORES. -/
  core : Option Nat := none
  deriving DecidableEq, Repr, Inhabited

/-- EVENT of a counter's configuration (R507). -/
def Ctr.event (c : Ctr) : Nat := bits c.cfg.toNat 7 0
/-- OWNER of a counter's configuration. -/
def Ctr.owner (c : Ctr) : Nat := bits c.cfg.toNat 42 38

/-- A counter accepts an event: the code and every enabled filter agree (R508). -/
def Ctr.accepts (c : Ctr) (e : CtrEv) : Bool :=
  let g := c.cfg.toNat
  c.event == e.event &&
  (!bit g 8 || e.part == some (bits g 13 9)) &&
  (!bit g 14 || e.port == some (bits g 21 15)) &&
  (match e.tc with | none => true | some t => bit (bits g 29 22) t) &&
  (match e.core with | none => true | some k => bit (bits g 37 30) k)

/-- Counter `id` advanced by `n`; a wrap sets OVF and advances a chained neighbour (R509). -/
def ctrAdd : Nat → Tab Ctr → Nat → Nat → Tab Ctr
  | 0, t, _, _ => t
  | fuel + 1, t, id, n =>
    let c := tget {} t id
    let v := c.value + n
    let t1 := tset t id { c with value := v % 2 ^ 48, ovf := c.ovf || decide (2 ^ 48 ≤ v) }
    if 2 ^ 48 ≤ v ∧ id % 8 ≠ 7 ∧ (tget {} t1 (id + 1)).event = 1 then
      ctrAdd fuel t1 (id + 1) (v / 2 ^ 48)
    else t1

/-- Offer an event to counter `id` (R508). -/
def ctrOffer (e : CtrEv) (t : Tab Ctr) (id : Nat) : Tab Ctr :=
  let c := tget {} t id
  if c.event ≤ 1 ∨ !c.accepts e then t
  else
    let q := c.rem + e.raw
    ctrAdd 8 (tset t id { c with rem := q % e.unit }) id (q / e.unit)

/-- A block is masked while it is offline for test (R532). -/
def State.masked (s : State) (b : Nat) : Bool := (s.bistOf b).st != 0

/-- Offer an event to the eight counters of its block (R507, R508). -/
def State.count (s : State) (e : CtrEv) : State :=
  if s.masked e.block then s
  else s.modCnt (fun c => { c with ctrs := (List.range 8).foldl (fun t i => ctrOffer e t (e.block * 8 + i)) c.ctrs })

/-! ## Partitions -/

/-- Partition 0 and every partition with an upstream port: those with an event ring. -/
def State.allParts (s : State) : List Nat :=
  (List.range 32).filter (fun p => p == 0 || (s.vs p).up.isSome)

/-! ## MSI-X -/

/-- Dword `i` of an MSI-X table; vector control reads masked until written (log 5). -/
def msixDword (t : Tab (BitVec 32)) (i : Nat) : BitVec 32 :=
  tget (if i % 4 = 3 then 1 else 0) t i

/-- The MSI-X message of vector `vec` of partition `p`'s management function leaves Ember's core port (R57, R95). -/
def State.msixSend (s : State) (p vec : Nat) : State :=
  (s.emit (.msix p vec)).msixOut p 72 (s.mgmtVrid p) (s.vs p).mgmt.msixTable vec

/-- Send vector `vec` of partition `p`'s management function: an MSI-X message, or its pending bit
while masked (R57). -/
def State.msix (s : State) (p vec : Nat) : State :=
  let m := (s.vs p).mgmt
  if (s.vs p).up.isNone ∨ !m.msixEn then s
  else if m.msixMask ∨ (msixDword m.msixTable (4 * vec + 3)).getLsbD 0 then
    s.modVs p (fun v => { v with mgmt := { v.mgmt with pba := v.mgmt.pba ||| (1 <<< vec : BitVec 64) } })
  else s.msixSend p vec

/-! ## Event records -/

/-- Change the event ring of partition `p`. -/
def State.modRing (s : State) (p : Nat) (f : EvRing → EvRing) : State :=
  s.modFlt (fun c => { c with rings := tmod {} c.rings p f })

/-- Event ring of partition `p`. -/
def State.ring (s : State) (p : Nat) : EvRing := tget {} s.flt.rings p

/-- EV_VECTOR byte of event `e`. -/
def EvRing.vectorOf (g : EvRing) (e : Nat) : Nat := tget 0x80 g.vector e

/-- The vectors sent once a record of event `e` is visible (R449). -/
def State.ringVectors (s : State) (p e : Nat) : State :=
  let g := s.ring p
  let s1 := if g.ringInt ∧ g.vec ≠ 0 then s.msix p g.vec else s
  let v := bits (g.vectorOf e) 5 0
  if v ≠ 0 then s1.msix p v else s1

/-- Write a record to the ring of partition `p`, or drop it when the ring is full (R448, R449). -/
def State.ringWrite (s : State) (p : Nat) (r : EvRec) : State :=
  let g := s.ring p
  if !g.ringEn ∨ !bit (g.vectorOf r.id) 7 then s
  else if (g.prod + 65536 - g.cons) % 65536 = 4096 then
    s.modRing p (fun g => { g with lost := sat 65535 g.lost 1, overflow := true })
  else
    (s.modRing p (fun g => { g with ring := tset g.ring (g.prod % 4096) { r with seq := g.seq },
                                    prod := (g.prod + 1) % 65536, seq := (g.seq + 1) % 2 ^ 32 })).ringVectors p r.id

/-- Put a copy of a record of partition 0 into the sideband queue (R450). -/
def State.sbQueue (s : State) (r : EvRec) : State :=
  if s.flt.sb.length < 256 then
    s.modFlt (fun c => { c with sb := c.sb ++ [{ r with seq := (s.ring 0).seq }] })
  else s.modFlt (fun c => { c with sbLost := sat 65535 c.sbLost 1 })

/-- Deliver a record to partition `p` (R448, R450). -/
def State.post (s : State) (p : Nat) (r : EvRec) : State :=
  let s1 := if p = 0 then s.sbQueue r else s
  s1.ringWrite p r

/-- Post the non-fault event `id` to each of `ps` (R447). -/
def State.event (s : State) (id : Nat) (ps : List Nat) (d0 : Nat) : State :=
  ps.foldl (fun s p => s.post p { id := id, time := s.time.ticks, d0 := BitVec.ofNat 64 d0 }) s

/-! ## The Ash ledger -/

/-- Count an event of block `b` and class `c` in the ledger and in the block's counters (R445,
R508 code 0x02). -/
def State.ledgerAdd (s : State) (b c : Nat) (merged : Bool) : State :=
  (s.modFlt (fun f => { f with ledger := tmod 0 f.ledger (b * 8 + c * 2 + b2n merged) (fun v => sat 65535 v 1) })).count
    { block := b, event := 0x02 }

/-- Count an event for which no fault source is named: RAISED of the corrected class (R433). -/
def State.ledgerOnly (s : State) (b : Nat) : State := s.ledgerAdd b 0 false

/-! ## Raising a fault source -/

/-- Set the S bit, and the M bit when `merged`, of a source in the module map and, when the event is
attributed, in the partition's map (R431, R432, R439). -/
def State.setSticky (s : State) (b i : Nat) (attr : Option Nat) (merged : Bool) : State :=
  let m : BitVec 32 := 1 <<< i
  s.modFlt (fun f =>
    let f1 := { f with s := tmod 0 f.s b (· ||| m), m := if merged then tmod 0 f.m b (· ||| m) else f.m }
    match attr with
    | none => f1
    | some p => { f1 with ps := tmod 0 f1.ps (p * 64 + b) (· ||| m),
                          pm := if merged then tmod 0 f1.pm (p * 64 + b) (· ||| m) else f1.pm })

/-- Reaction byte in force for block `b` and class `c` (R434, R435). -/
def State.reaction (s : State) (b c : Nat) : Nat :=
  (tlook s.flt.react (b * 4 + c)).getD (defaultReaction c)

/-- A port operand of 80 + k names plane `k`, which the cell concerned crossed (log 24). -/
def blockOfFaultPort (n : Nat) : Nat := if 80 ≤ n then 0x22 + (n - 80) else blockOfPort n

/-- A non-fatal event of block `b` concerning `port` falls into the handling of an earlier one: a
block reset of the block itself, or of the block the port belongs to (R439, R440). -/
def State.inShadow (s : State) (b : Nat) (port : Option Nat) : Bool :=
  s.flt.handling.any (fun h => h.block == b || (port.map blockOfFaultPort == some h.block))

/-- An event of the current command at block `b`, of class `c` or higher, is still in handling: its records are
being written or its ports contained (R438, R439, log 59). -/
def State.inHandling (s : State) (b c : Nat) : Bool := s.flt.fresh.any (fun h => h.1 == b && decide (c ≤ h.2))

/-- The record of a fault event (R448). -/
def faultRecord (src cls : Nat) (attr port : Option Nat) (d1 : Word) (inj : Bool) (react : Nat)
    (time : Nat) : EvRec :=
  { id := src, cls := cls,
    flags := b2n attr.isSome + 2 * b2n inj + 4 * b2n (reactBlock react),
    part := attr.getD 255, time := time,
    d0 := BitVec.ofNat 64 (react + 256 * (match port with | some n => if n < 80 then n else 0xFFFF | none => 0xFFFF)),
    d1 := d1 }

/-- Append to the reactions the current step has to perform. -/
def State.owe (s : State) (d : Due) : State := s.modFlt (fun f => { f with due := f.due ++ [d] })

/-- Start the reactions of an event taken with reaction byte `r` (R434). DPC, QUIESCE, BLOCK_RESET and
WARM_RESET are performed within the same step. -/
def State.react (s : State) (b cls : Nat) (attr port : Option Nat) (r : Nat) : State :=
  let s1 := match port with
    | some n => if reactDpc r ∧ b < 10 ∧ n < 40 then s.owe (.dpc n attr) else s
    | none => s
  let s2 := match attr with
    | some p => if reactQuiesce r then s1.owe (.quiesce p) else s1
    | none => s1
  let s3 := if reactBlock r ∧ blockResetAllowed b then
      (s2.modFlt (fun f => { f with handling := f.handling ++ [{ block := b, cls := cls }] })).owe (.block b)
    else s2
  if reactWarm r then s3.owe (.warm 3) else s3

/-- Partitions that receive the record of a fault event (R447). -/
def faultRecipients (attr : Option Nat) : List Nat :=
  match attr with
  | some p => [0, p]
  | none => [0]

/-- An event that begins a handling of its own: bits, count, records and reactions (R434, R438). -/
def State.raiseNew (s : State) (src cls : Nat) (attr port : Option Nat) (d1 : Word) (inj : Bool) : State :=
  let b := src / 32
  let r := s.reaction b cls
  let s1 := (s.setSticky b (src % 32) attr false).ledgerAdd b cls false
  let s2 := if reactInt r then
      (faultRecipients attr).foldl (fun s p => s.post p (faultRecord src cls attr port d1 inj r s.time.ticks)) s1
    else s1
  let s3 := if reactInt r || reactDpc r || reactQuiesce r then s2.modFlt (fun f => { f with fresh := f.fresh ++ [(b, cls)] })
    else s2
  s3.react b cls attr port r

/-- The attribution an event keeps: only of attributable sources, only to a host partition (R432). -/
def attrOf (src : Nat) (attr : Option Nat) : Option Nat :=
  match attr with
  | some p => if attributable src ∧ 1 ≤ p ∧ p < 32 then some p else none
  | none => none

/-- A detector raises source `src`, attributed to `attr`, concerning `port` and `d1` (R430 to R441). A
reserved source is never raised; sources of a block under test are masked (R532). -/
def State.raise (s : State) (src : Nat) (attr : Option Nat := none) (port : Option Nat := none)
    (d1 : Word := 0) (inj : Bool := false) : State :=
  let b := src / 32
  match faultClass src with
  | none => s
  | some cls =>
    let a := attrOf src attr
    if s.masked b then s
    else if cls ≠ 3 ∧ (s.inShadow b port ∨ s.inHandling b cls) then
      (s.setSticky b (src % 32) a true).ledgerAdd b cls true
    else s.raiseNew src cls a port d1 inj

/-- Source index `i` of block `b`. -/
def State.raiseAt (s : State) (b i : Nat) (attr : Option Nat := none) (port : Option Nat := none)
    (d1 : Word := 0) : State := s.raise (b * 32 + i) attr port d1

/-! ## The error pair -/

/-- Some source has S set under a row whose ERR_PAIR is set (R443). -/
def State.pairFault (s : State) : Bool :=
  s.flt.s.any (fun e => (bitList 32 e.2.toNat).any (fun i =>
    match faultClassOf e.1 i with
    | some c => reactPair (s.reaction e.1 c)
    | none => false))

/-! ## Operation handles (R69, R70) -/

/-- Handles of partition `p` still running. -/
def State.openHandles (s : State) (p : Nat) : Nat :=
  s.ember.handles.countP (fun h => h.part == p && h.running)

/-- The records kept when partition `p` has received one more handle: running ones, and those with
fewer than 16 newer handles (R70). -/
def pruneHandles (p : Nat) : Nat → List Handle → List Handle
  | _, [] => []
  | n, h :: r =>
    if h.part ≠ p then h :: pruneHandles p n r
    else if h.running ∨ n < 16 then h :: pruneHandles p (n + 1) r
    else pruneHandles p (n + 1) r

/-- A new running handle of partition `p`: its internal number and the state that holds it. DESIGN CHOICE (log 67): `p` is
the partition that issued the command, also under ON_BEHALF. -/
def State.newHandle (s : State) (p opcode : Nat) (work : Work := .other) : Nat × State :=
  (s.ember.nextHandle,
   s.modEmber (fun e => { e with
     handles := pruneHandles p 0 ({ part := p, id := e.nextHandle, opcode := opcode, work := work } :: e.handles),
     nextHandle := e.nextHandle + 1 }))

/-- The number by which a response names handle `id`: 32 bits, never zero (R69). -/
def handleNumber (id : Nat) : Nat :=
  let v := Config.handleNumber id % 2 ^ 32
  if v = 0 then 1 else v

/-- The running handle `id`. -/
def State.runningHandle (s : State) (id : Nat) : Option Handle :=
  s.ember.handles.find? (fun h => h.id == id && h.running)

/-- The work of handle `id` ends with `final`, and event 0x800 goes to its partition (R69, R447). -/
def State.endHandle (s : State) (id final : Nat) (detail : Nat := 0) : State :=
  match s.runningHandle id with
  | none => s
  | some h =>
    (s.modEmber (fun e => { e with handles := e.handles.map (fun k =>
        if k.id = id ∧ k.running then { k with running := false, final := final, detail := detail } else k) })).event
      0x800 [h.part] (handleNumber id + final * 2 ^ 32)

end Sys2Proof.Machine
end

