-- ==== Sys2Proof/Machine/Packet.lean ====
section
/-! DEFINITION. What happens when a packet leaves the module (R139, R140, R190, R238), and where completions return. -/

namespace Sys2Proof.Machine

open Sys2Proof

/-! ## Leaving the module -/

/-- The tracker slot that counts packets of the `t`-th tracker opened: a packet's TRK is held as that
order, and a merged tracker counts for each of its own (R190). -/
def trackerHome (ts : Tab Tracker) (t : Nat) : Nat :=
  match ts.find? (fun e => !e.2.free && e.2.names.contains t) with
  | some e => e.1
  | none => 8

/-- Change the count of a partition in the tracker that counts packets naming `t`. -/
def Win.modCount (w : Win) (t p : Nat) (f : Nat → Nat) : Win :=
  let h := trackerHome w.trackers t
  if h < 8 then
    { w with trackers := tmod {} w.trackers h (fun k => { k with counts := tmod 0 k.counts p f }) }
  else w

/-- Spray accounting entry toward or from module `m` in class `c` (R238). -/
def State.spray (s : State) (m c : Nat) : Spray := tget {} s.fab.spray (m * 8 + c)
/-- Change a spray accounting entry. -/
def State.modSpray (s : State) (m c : Nat) (f : Spray → Spray) : State :=
  s.modFab (fun b => { b with spray := tmod {} b.spray (m * 8 + c) f })

/-! ## Write acknowledgement of Hearth (R405, R408) -/

/-- A posted write of Hearth. -/
def hearthWrite (p : Pkt) : Bool := p.ptype == 0 && p.sport == 73 && p.d.opc == opcMWr

/-- Core `k` of cluster `c` records a store in KSTERR (R408, fault source 3). -/
def State.recordStore (s : State) (c k addr : Nat) : State :=
  (s.modHcore c k (fun h =>
    { h with ksterrV := true, ksterrCount := sat 127 h.ksterrCount 1, ksterrAddr := if h.ksterrV then h.ksterrAddr else addr })).raiseAt
    (0x2E + c) 3 (some (s.cluster c).part) (some 73)

/-- The core, of the 32 of the module (four clusters of eight), whose store packet `id` waits to be acknowledged, and
that store (R405, R408). -/
def State.storeOf (s : State) (id : Nat) : Option (Nat × SbEnt) :=
  (List.range 32).findSome? (fun i =>
    ((s.hcore (i / 8) (i % 8)).unacked.find? (fun e => e.id == id && e.noEack)).map (fun e => (i, e)))

/-- Write `id` of Hearth is acknowledged, or known to be dropped (R405, R408). -/
def State.writeAcked (s : State) (id : Nat) (delivered : Bool) : State :=
  match s.storeOf id with
  | none => s
  | some (i, e) =>
    let t := s.modHcore (i / 8) (i % 8) (fun h => { h with unacked := h.unacked.filter (fun x => x.id != id) })
    if delivered then t else t.recordStore (i / 8) (i % 8) e.addr

/-- A write of Hearth that forbids early acknowledgement leaves the module on which it is delivered, or is dropped:
the core learns of it, at once or by a control message (R405). -/
def State.ackWrite (s : State) (p : Pkt) (delivered : Bool) : State :=
  if !hearthWrite p ∨ p.d.msgcode ≠ 1 then s
  else if p.smod ≠ s.own then s.control p.smod (.writeAck p.d.tag delivered)
  else if delivered ∧ p.dmod ≠ s.own then s
  else s.writeAcked p.d.tag delivered

/-- A packet leaves the module or is discarded in it: its tracker's count falls (R190), and an RO
packet of another module is reported done to its source (R238). -/
def State.leaveAs (s0 : State) (p : Pkt) (delivered : Bool) : State :=
  let s := s0.ackWrite p delivered
  let s1 := if p.trkv ∧ p.smod = s.own then s.modWin (fun w => w.modCount p.trk p.part (· - 1)) else s
  if p.sprayCounted ∧ p.smod ≠ s.own ∧ p.dmod = s.own then
    let s2 := s1.modSpray p.smod p.tc (fun y => { y with doneHere := y.doneHere + 1 })
    s2.control p.smod (.doneCount p.tc (s2.spray p.smod p.tc).doneHere.toNat)
  else s1

/-- A packet leaves the module (R139). -/
def State.leave (s : State) (p : Pkt) : State := s.leaveAs p true

/-- A packet looked up here is discarded before it leaves: besides R190, an RO packet bound for another
module is counted lost, so that spray accounting closes (R238, log 26). -/
def State.discard (s : State) (p : Pkt) : State :=
  let s1 := s.leaveAs p false
  if p.sprayCounted ∧ p.smod = s.own ∧ p.dmod ≠ s.own then
    s1.modSpray p.dmod p.tc (fun y =>
      { y with lost := y.lost + 1, sprayed := y.sprayed && (y.sent - y.done_ - (y.lost + 1) != 0) })
  else s1

/-! ## Where completions return -/

/-- FADDR of a completion: the module and core port it returns to, with the requester ID (log 25). Ports above
55 take the numbers from 40 up, which no PCIe port has. -/
def cplAddr (m n rid : Nat) : Word := faMake m 1 ((if n < 56 then n else n - 16) * 2 ^ 48 + rid)

/-- Requester ID a completion's FADDR names. -/
def cplRequester (p : Pkt) : Nat := p.d.faddr.toNat % 65536

/-- Core port a completion's FADDR names. -/
def cplPort (a : Word) : Nat := if faPort a < 40 then faPort a else faPort a + 16

end Sys2Proof.Machine
end

