-- ==== Sys2Proof/Machine/Cell.lean ====
section
/-! DEFINITION. Cells: header and payload (R27, R154), the HCRC and its check (R155). -/

namespace Sys2Proof.Machine

open Sys2Proof

/-! ## Payload (R27, R157) -/

/-- The bytes a packet carries through the core: its descriptor, then its data. -/
def cellStream (p : Pkt) : Bytes := leBytes 32 p.desc.toNat ++ p.data

/-- Valid payload bytes of cell `i`: 256 in every cell but the last (R154 VLEN). -/
def cellValid (p : Pkt) (i : Nat) : Nat := Nat.min 256 ((cellStream p).length - 256 * i)

/-- The 256 bytes of cell `i`, the last cell padded with zeros (R27). -/
def cellPayload (p : Pkt) (i : Nat) : Bytes :=
  slice (cellStream p) (256 * i) 256 ++ List.replicate (256 - cellValid p i) 0

/-! ## Header (R154, R155) -/

/-- TRK of a packet: the number of the tracker that counts it, modulo 8 (R140, R190). -/
def State.trkField (s : State) (p : Pkt) : Nat := trackerHome s.win.trackers p.trk % 8

/-- Bits [239:0] of the header of cell `i` of a packet: `last` where no cell follows it, `trk` its TRK (R154). -/
def headerBits (p : Pkt) (i : Nat) (last : Bool) (trk : Nat) : Nat :=
  p.epoch % 2 ^ 16 * 2 ^ 224 + p.pseq % 2 ^ 16 * 2 ^ 208 + i % 64 * 2 ^ 202 + cellValid p i % 2 ^ 9 * 2 ^ 193 +
    p.part % 32 * 2 ^ 188 + p.smod % 64 * 2 ^ 182 + p.src % 128 * 2 ^ 175 + p.dst % 128 * 2 ^ 168 + p.tc % 8 * 2 ^ 165 +
    p.colour % 4 * 2 ^ 163 + b2n p.ro * 2 ^ 162 + b2n (i == 0) * 2 ^ 161 + b2n last * 2 ^ 160 + b2n (last && p.abort) * 2 ^ 159 +
    b2n p.spilled * 2 ^ 158 + trk % 8 * 2 ^ 155 + p.ptype % 8 * 2 ^ 152 + p.action % 16 * 2 ^ 148 + p.actArg % 2 ^ 20 * 2 ^ 128 +
    p.tstamp.toNat * 2 ^ 64 + p.fhash % 2 ^ 16 * 2 ^ 48 + b2n p.trkv * 2 ^ 47

/-- HCRC over bits [239:0], bit 239 first (R155). -/
def hcrcOf (h : Nat) : Nat := crc16 ((List.range 30).map (fun k => h / 2 ^ (8 * (29 - k)) % 256))

/-- The 256 bits of a header with its HCRC. -/
def headerWord (h : Nat) : BitVec 256 := BitVec.ofNat 256 (hcrcOf h * 2 ^ 240 + h % 2 ^ 240)

/-- The header of cell `i` of packet `e` as it stands in the cell buffer: what has happened to its HCRC included. -/
def State.cellHeader (s : State) (e : QPkt) (i : Nat) : BitVec 256 :=
  headerWord (headerBits e.pkt i (!e.pkt.more && i + 1 == e.pkt.cells) (s.trkField e.pkt)) ^^^
    ((tget 0 e.flips i).zeroExtend 256 <<< 240)

/-- The check that the cell buffer, each plane and each egress attachment make (R155). -/
def headerOk (w : BitVec 256) : Bool := hcrcOf (w.toNat % 2 ^ 240) == w.toNat / 2 ^ 240

end Sys2Proof.Machine
end

