-- ==== Sys2Proof/Machine/Route.lean ====
section
/-! DEFINITION. The route table and path selection (R230 to R237). -/

namespace Sys2Proof.Machine

open Sys2Proof

/-- STATE of a route entry: 0 NONE, 1 ROUTED, 2 WITHDRAWN, 3 LOCAL (R232). -/
def routeState (e : BitVec 64) : Nat := bits e.toNat 1 0
/-- SPRAY of a route entry. -/
def routeSpray (e : BitVec 64) : Bool := bit e.toNat 2
/-- PVALID bit `j` of a route entry. -/
def routeValid (e : BitVec 64) (j : Nat) : Bool := bit e.toNat (8 + j)
/-- LINKj of a route entry. -/
def routeLink (e : BitVec 64) (j : Nat) : Nat := bits e.toNat (4 * j + 15) (4 * j + 12)
/-- BUCKETS of a route entry. -/
def routeBuckets (e : BitVec 64) : BitVec 32 := BitVec.ofNat 32 (bits e.toNat 63 32)
/-- Path of bucket `b` in a bucket map. -/
def bucketPath (m : BitVec 32) (b : Nat) : Nat := bits m.toNat (2 * b + 1) (2 * b)
/-- A bucket map with the path of bucket `b` set. -/
def setBucket (m : BitVec 32) (b j : Nat) : BitVec 32 := setMapField m 2 b j

/-- The entry of module `m`; the module's own reads LOCAL (R233). -/
def State.entryOf (s : State) (m : Nat) : BitVec 64 := if m = s.own then 3#64 else (s.route m).entry

/-- Link `l` is UP and not quarantined (R234, R241). -/
def State.linkUsable (s : State) (l : Nat) : Bool := (s.link l).st == .up && !(s.link l).quarantined

/-- Path `j` toward module `m` is usable (R234). -/
def State.pathUsable (s : State) (m j : Nat) : Bool :=
  let e := s.entryOf m
  let l := routeLink e j
  routeState e == 1 && routeValid e j && s.linkUsable l && !(s.route m).failed.getLsbD j &&
    ((s.link l).peerModule == m || (s.adm (s.link l).peerModule).st == .admitted)

/-- Usable paths toward module `m`, rising. -/
def State.usablePaths (s : State) (m : Nat) : List Nat := [0, 1, 2, 3].filter (s.pathUsable m)

/-- Every defined path has the destination as its link's peer (R237). -/
def State.allDirect (s : State) (m : Nat) : Bool :=
  [0, 1, 2, 3].all (fun j => !routeValid (s.entryOf m) j || (s.link (routeLink (s.entryOf m) j)).peerModule == m)

/-- A packet looked up here may be sprayed (R237). -/
def State.sprayEligible (s : State) (p : Pkt) (m : Nat) : Bool :=
  p.ptype == 0 && p.ro && p.smod == s.own && routeSpray (s.entryOf m) && s.allDirect m &&
    !(s.usablePaths m).isEmpty

/-- The next usable path after the pointer, cyclic (R236). -/
def State.nextSpray (s : State) (m : Nat) : Nat :=
  let q := (s.route m).spray
  (([1, 2, 3, 4].map (fun k => (q + k) % 4)).find? (s.pathUsable m)).getD 0

/-- Result of path selection (R236). -/
inductive Sel where
  /-- The destination is this module. -/
  | here
  /-- A fabric link and path; `sprayed` when spraying chose it. -/
  | link (l j : Nat) (sprayed : Bool)
  /-- No route: answered as in R33. -/
  | none
  deriving DecidableEq, Repr, Inhabited

/-- Path selection toward module `m` at the module of the lookup or at a transit module, whose paths
must be direct (R231, R236). -/
def State.selectPath (s : State) (p : Pkt) (m : Nat) : Sel :=
  let e := s.entryOf m
  if routeState e = 3 then .here
  else if routeState e ≠ 1 then .none
  else if s.sprayEligible p m then
    let j := s.nextSpray m
    .link (routeLink e j) j true
  else
    let j := bucketPath (s.route m).oper (p.fhash % 16)
    let l := routeLink e j
    if p.smod ≠ s.own ∧ (s.link l).peerModule ≠ m then .none else .link l j false

/-- The packet addressed to link `l` as path `j` toward module `m` (R154, R236). -/
def onLink (p : Pkt) (m l j : Nat) : Pkt :=
  { p with dst := 40 + l, action := 1, actArg := m + j * 64, dmod := m }

end Sys2Proof.Machine
end

