-- ==== Sys2Proof/Machine/Admit.lean ====
section
/-! DEFINITION. Admission to the core (R160 to R166, R178, R183 to R188), the answer a discarded request
gets, and the calendar of strict partition mode (R424). -/

namespace Sys2Proof.Machine

open Sys2Proof

/-! ## Core ports -/

/-- Core port `n` is present (R25, R161, R535): port 73 while any Hearth cluster is. -/
def State.portPresent (s : State) (n : Nat) : Bool :=
  if n = 73 then [0x2E, 0x2F, 0x30, 0x31].any (fun b => !(s.bistOf b).boot)
  else if (s.bistOf (blockOfPort n)).boot then false
  else if n < 40 then (s.port n).role != .absent
  else if n < 64 then true
  else if n < 68 then s.pool.present
  else n < 74

/-- Number of present core ports, P (R161). -/
def State.presentCount (s : State) : Nat := (List.range 74).countP s.portPresent

/-- A block takes no traffic: it is under test (R532), or in a block reset and not yet ready (R461). -/
def State.blockAway (s : State) (b : Nat) : Bool :=
  s.masked b || s.flt.handling.any (fun h => h.block == b && h.resetting)

/-- Packets for output `o` are held: it is a fabric link that is not UP (R182, R220). -/
def State.heldOut (s : State) (o : Nat) : Bool := decide (40 ≤ o ∧ o < 56) && (s.link (o - 40)).st != .up

/-- Output `o` is a held output in the sense of R182 and R220: its link is not UP, and has been UP or has a packet
waiting for it. These count in H and HELD_LINKS and set FLAGS bit 0 (R183, log 27). -/
def State.countsHeld (s : State) (o : Nat) : Bool :=
  s.heldOut o && ((s.link (o - 40)).wasUp || s.core.q.any (fun e => e.pkt.dst == o))

/-! ## VOQs and charges -/

/-- VOQ of a packet: input, output and TC (R160). -/
def voqOf (p : Pkt) : Nat := (p.src * 80 + p.dst) * 8 + p.tc

/-- Cells of a packet that have left the buffer: its leading crossed cells, when no earlier packet of
its VOQ is still queued (R162, R169). -/
def gone (ahead : Bool) (planes : List Nat) : Nat :=
  if ahead then 0 else (planes.takeWhile (fun k => decide (4 ≤ k))).length

/-- Cells of a packet for a fabric link that have left the buffer: those whose units are all packed into flits that have entered
the replay buffer, the first unit of all being the link packet header (R200, R209). -/
def QPkt.packed (e : QPkt) : Nat := (e.sent - 1) / 16

/-- Cells of a queued packet that have left the buffer (R162, R169, R209). -/
def QPkt.left (ahead : Bool) (e : QPkt) : Nat :=
  if 40 ≤ e.pkt.dst ∧ e.pkt.dst < 56 then e.packed else gone ahead e.planes

/-- The cells each queued packet is still charged for. -/
def chargesFrom : List Nat → List QPkt → List (QPkt × Nat)
  | _, [] => []
  | seen, e :: r => (e, e.n - e.left (seen.contains (voqOf e.pkt))) :: chargesFrom (voqOf e.pkt :: seen) r

/-- The cells each queued packet is still charged for, in queue order. -/
def State.charges (s : State) : List (QPkt × Nat) := chargesFrom [] s.core.q

/-- Sum of the charges of the packets meeting `f`. -/
def State.charged (s : State) (f : QPkt → Bool) : Nat :=
  (s.charges.filter (fun e => f e.1)).foldl (fun a e => a + e.2) 0

/-- The shared region S (R161). -/
def State.sharedSize (s : State) : Nat := 524288 - 1024 * s.presentCount

/-- Shared cells not in use, F; held cells in SRAM occupy the shared region (R161, R183). -/
def State.sharedFree (s : State) : Nat :=
  s.sharedSize - s.charged (fun e => e.place == .shared || e.place == .held)

/-- Shared cells held by packets for output `o` in TC `c`, Q(o, c) (R162, R183). -/
def State.queued (s : State) (o c : Nat) : Nat :=
  s.charged (fun e => (e.place == .shared || e.place == .held) && e.pkt.dst == o && e.pkt.tc == c)

/-- Cells of input `i`'s reserve free for class `c`; 64 are usable only by TC7, and an absent port has none (R161). -/
def State.reserveFree (s : State) (i c : Nat) : Nat :=
  let size := if s.portPresent i then 1024 else 0
  let all := s.charged (fun e => e.place == .reserve && e.pkt.src == i)
  let low := s.charged (fun e => e.place == .reserve && e.pkt.src == i && e.pkt.tc != 7)
  if c = 7 then size - all else Nat.min (size - all) (size - 64 - low)

/-- ALPHA code of class `c` (R163). -/
def CoreCfg.alphaCode (g : CoreCfg) (c : Nat) : Nat := mapField g.alpha 3 c

/-- Q + n ≤ α × F with α = 2^(k − 4) (R162, R163). -/
def alphaTest (k q n f : Nat) : Bool := decide ((q + n) * 16 ≤ 2 ^ k * f)

/-- A packet is lossy (R164); of frames only those received at a logical port (R361). -/
def State.lossy (s : State) (p : Pkt) : Bool :=
  p.fromWire && decide (56 ≤ p.src ∧ p.src < 64) && decide (p.tc < 7) && s.core.cfg.lossyMask.getLsbD p.tc

/-! ## The hold and the spill region -/

/-- Number of held outputs, H, counting `o` itself (R183). -/
def State.heldCount (s : State) (o : Nat) : Nat :=
  (List.range 16).countP (fun l => s.countsHeld (40 + l) || 40 + l == o)

/-- The effective quota E (R183). -/
def State.holdQuota (s : State) (o : Nat) : Nat :=
  Nat.min (s.core.cfg.holdQuota * 8192) (s.core.cfg.holdTotal * 8192 / Nat.max 1 (s.heldCount o))

/-- Cells of output `o` in SRAM, those admitted before it was held among them (R183). -/
def State.heldSram (s : State) (o : Nat) : Nat := s.charged (fun e => e.place != .spilled && e.pkt.dst == o)

/-- Output `o` becomes held: its packets are held from now on, charged to no input reserve (R183). -/
def State.holdOutput (s : State) (o : Nat) : State :=
  s.modCore (fun c => { c with q := c.q.map (fun e =>
    if e.pkt.dst = o ∧ e.place ≠ .spilled then { e with place := .held } else e) })

/-- A completion formed by an attachment of this module draws on the completion reserve (R186). -/
def ownCompletion (p : Pkt) : Bool := p.ptype == 1 && !decide (40 ≤ p.src ∧ p.src < 56)

/-- The pool is present and its wide sods are usable: every one of them takes part of every channel, so none is
once a channel is lost (R262, R277). -/
def State.poolWide (s : State) : Bool := s.pool.present && s.pool.chLost == 0

/-- Pages of 14 cells that the linked lists of VOQs take, for packets meeting `f` (R184). -/
def State.spillPages (s : State) (f : QPkt → Bool) : Nat :=
  let es := s.core.q.filter (fun e => e.place == .spilled && f e)
  ((es.map (fun e => voqOf e.pkt)).eraseDups).foldl (fun a v =>
    a + ceilDiv ((es.filter (fun e => voqOf e.pkt == v)).foldl (fun b e => b + e.n) 0) 14) 0

/-- Pages of the general part: every spill sod but the lowest (R184). -/
def State.spillRoomPages (s : State) : Nat := if s.poolWide then (s.pool.spillSods - 1) * 262144 else 0

/-- `n` more cells of VOQ `v` fit into the pages of the part that holds the packets meeting `f`, of which there are `pages`: the
last page of the VOQ's list fills first (R184). -/
def State.spillFits (s : State) (f : QPkt → Bool) (pages v n : Nat) : Bool :=
  let mine := (s.core.q.filter (fun e => e.place == .spilled && f e && voqOf e.pkt == v)).foldl (fun b e => b + e.n) 0
  decide (s.spillPages f - ceilDiv mine 14 + ceilDiv (mine + n) 14 ≤ pages)

/-- Cells in the general part of the spill region. -/
def State.spillUsed (s : State) : Nat :=
  (s.core.q.filter (fun e => e.place == .spilled && !ownCompletion e.pkt)).foldl (fun a e => a + e.n) 0
/-- Cells in the completion reserve. -/
def State.cplSpillUsed (s : State) : Nat :=
  (s.core.q.filter (fun e => e.place == .spilled && ownCompletion e.pkt)).foldl (fun a e => a + e.n) 0
/-- Capacity of the general part in cells: every spill sod but the lowest, 262,144 pages of 14 cells
each (R184). -/
def State.spillCap (s : State) : Nat :=
  if s.poolWide then (s.pool.spillSods - 1) * (262144 * 14) else 0

/-- The VOQ has a cell in the spill region (R185). -/
def State.voqSpilled (s : State) (v : Nat) : Bool :=
  s.core.q.any (fun e => e.place == .spilled && voqOf e.pkt == v)

/-! ## Flow moves and spray accounting -/

/-- A bucketed packet belongs to a flow that is moving (R188, R224). -/
def State.flowMoving (s : State) (p : Pkt) : Bool :=
  p.action == 1 && s.fab.moves.any (fun m => m.dmod == p.dmod && m.bucket == p.fhash % 16)

/-- A packet without RO waits for the spray accounting of its destination and class (R238). -/
def State.sprayWaits (s : State) (p : Pkt) : Bool :=
  let y := s.spray p.dmod p.tc
  p.action == 1 && p.smod == s.own && !p.ro && decide (p.ptype ≤ 1) && y.sprayed &&
    y.sent - y.done_ - y.lost != 0

/-! ## The admission decision -/

/-- What admission decides. -/
inductive Verdict where
  /-- Admitted to this place. -/
  | put (pl : Place)
  /-- Waits at its ingress. -/
  | wait (w : WaitWhy)
  /-- A lossy packet for a held output or a full spill region (R183, R186). -/
  | heldDrop
  /-- A lossy packet without room (R162). -/
  | drop
  deriving DecidableEq, Repr, Inhabited

/-- Room in the spill region for a packet of `n` cells (R186). Without a spill region the module's own
completions are admitted to SRAM above the quota (R277, R284). -/
def State.spillVerdict (s : State) (p : Pkt) (n : Nat) : Verdict :=
  if ownCompletion p then
    if s.poolWide ∧ s.spillFits (fun e => ownCompletion e.pkt) 262144 (voqOf p) n then .put .spilled
    else if n ≤ s.sharedFree then .put .held else .wait .room
  else if s.spillFits (fun e => !ownCompletion e.pkt) s.spillRoomPages (voqOf p) n then .put .spilled
  else if s.lossy p then .heldDrop
  else .wait .spill

/-- Admission of a packet of `n` cells whose turn it is at its ingress (R162, R183 to R186). -/
def State.verdict (s : State) (p : Pkt) (n : Nat) : Verdict :=
  if s.flowMoving p then .wait .move
  else if s.sprayWaits p then .wait .spray
  else if (s.heldOut p.dst ∧ s.lossy p) then .heldDrop
  else if s.voqSpilled (voqOf p) then s.spillVerdict p n
  else if s.heldOut p.dst then
    if s.heldSram p.dst + n ≤ s.holdQuota p.dst ∧ n ≤ s.sharedFree then .put .held
    else s.spillVerdict p n
  else if n ≤ s.reserveFree p.src p.tc then .put .reserve
  else if n ≤ s.sharedFree ∧ alphaTest (s.core.cfg.alphaCode p.tc) (s.queued p.dst p.tc) n s.sharedFree then
    .put .shared
  else if s.lossy p then .drop
  else .wait .room

/-! ## Planes in service and cut-through -/

/-- Every cell of a packet has crossed. -/
def QPkt.crossed (e : QPkt) : Bool := e.place != .spilled && !e.pkt.more && e.planes.all (fun k => decide (4 ≤ k))

/-- Planes that take newly admitted cells (R168, R170). -/
def State.planesIn (s : State) : List Nat :=
  [0, 1, 2, 3].filter (fun k => (s.plane k).inService && !(s.plane k).leaving)

/-- `n` planes of the rotation over `ps`, beginning with the next plane at or after `start` (R168). -/
def stripe (ps : List Nat) (start n : Nat) : List Nat :=
  let order := ps.filter (fun k => decide (start ≤ k)) ++ ps.filter (fun k => decide (k < start))
  if order.length = 0 then [] else (List.range n).map (fun i => order.getD (i % order.length) 0)

/-- `n` cells set out for the spill region over planes and pool ports that free numbers name (R184, R513, log 90). -/
def State.spillCross (s : State) (n : Nat) : State :=
  let r := s.freeNat
  r.2.modCore (fun k => { k with
    spillOut := k.spillOut ++ (stripe s.planesIn (r.1 % 4) n).map (fun pl => pl + 4 * ((r.1 / 4 + pl) % 4)) })

/-- Gigatransfers or gigabits per second of one lane at a PCIe rate code 1 to 6, in units of 0.1. -/
def pcieRate (r : Nat) : Nat :=
  match r with
  | 1 => 25
  | 2 => 50
  | 3 => 80
  | 4 => 160
  | 5 => 320
  | 6 => 640
  | _ => 0

/-- Gb/s of a logical port: the group's 400 Gb/s undivided, halved or quartered (R325). -/
def State.lportRate (s : State) (lp : Nat) : Nat :=
  match tget 0 s.net.modes (lp / 4) with
  | 0 => 400
  | 1 => 200
  | _ => 100

/-- Line rate of core port `n` in 0.1 Gb/s; `lp` is the logical port of a frame. Internal agents count
as at least every rate (R178). -/
def State.lineRate (s : State) (n lp : Nat) : Nat :=
  if n < 40 then (s.port n).width * pcieRate (s.port n).rate
  else if n < 56 then
    (s.link (n - 40)).width * (match (s.link (n - 40)).rate with | 2 => 1120 | 1 => 560 | _ => 0)
  else if n < 64 then s.lportRate lp * 10
  else 1000000000

/-- Logical port at which a frame leaves, or whose rate counts for a frame to a vNIC (R154, R348). -/
def State.egressLport (s : State) (p : Pkt) : Nat :=
  if p.action = 3 then (match s.vnic (p.actArg % 1024) with | some v => v.lport | none => (p.dst - 56) * 4)
  else (p.dst - 56) * 4 + p.actArg % 4

/-- Port TC of a frame that leaves at a logical port (R154 ACT_ARG). -/
def portTcOf (p : Pkt) : Nat := bits p.actArg 4 2

/-- The entries of a gate list that are used: start and end within the cycle in ns, and gates (R377). -/
def gateSpans (cycle : Nat) : Nat → List (Nat × Nat) → List (Nat × Nat × Nat)
  | _, [] => []
  | t, (g, i) :: r =>
    if cycle ≤ t then []
    else
      let z := if r.isEmpty then cycle else Nat.min cycle (t + 8 * i)
      (t, z, g) :: gateSpans cycle z r

/-- Port TC `c` is open throughout a list. -/
def GateList.alwaysOpen (l : GateList) (c : Nat) : Bool := (gateSpans l.cycleNs 0 l.entries).all (fun e => bit e.2.2 c)

/-- Gate engine of port `n`: logical ports 0 to 31, then fabric links. -/
def State.gate (s : State) (n : Nat) : Gate := tget {} s.tm.gates n

/-- The bit of a gate list that rules a frame of port TC `c` and partition `p` (R377, R425). -/
def Gate.key (g : Gate) (c p : Nat) : Nat := if g.byStrict then p else c

/-- The gates let a frame of port TC `tc` and partition `p` cut through (R382). -/
def State.gatesThrough (s : State) (lp tc p : Nat) : Bool :=
  let g := s.gate lp
  let c := g.key tc p
  (match g.oper with | some l => l.alwaysOpen c | none => true) && (match g.pend with | some l => l.alwaysOpen c | none => true)

/-- A packet of ACTION FABRIC, ETH_TX, VNIC_RX or HAIRPIN cuts through (R178, R348, R382). A frame of a vNIC enters
at its home port's rate. -/
def State.cutsThrough (s : State) (p : Pkt) : Bool :=
  decide (1 ≤ p.action ∧ p.action ≤ 4) && !s.core.q.any (fun e => e.pkt.dst == p.dst && !e.crossed) &&
    !s.heldOut p.dst && !s.voqSpilled (voqOf p) &&
    decide (s.lineRate p.dst (s.egressLport p) ≤
      s.lineRate p.src (if p.fromWire then p.inLport else s.egressLport p)) &&
    (!(p.action == 2 || p.action == 4) || s.gatesThrough (s.egressLport p) (portTcOf p) p.part)

/-! ## Admission -/

/-- Put a packet into the core with its PSEQ and planes (R160, R168). One of which cells have still to arrive has planes for those
formed, and keeps its admission for the rest. -/
def State.enqueue (s0 : State) (p : Pkt) (n : Nat) (pl : Place) (cut : Bool) : State :=
  let s := if pl = .spilled then s0.spillCross n else s0
  let v := voqOf p
  let q := tget 0 s.core.pseq v
  let ps := if pl = .spilled then [] else stripe s.planesIn (tget 0 s.core.rot p.src) p.formedCells
  let e : QPkt := { pkt := { p with pseq := q }, n := n, place := pl, planes := ps, cut := cut }
  (s.modCore (fun k =>
    { k with
      q := k.q ++ [e]
      pseq := tset k.pseq v ((q + 1) % 65536)
      rot := match ps.getLast? with | some l => tset k.rot p.src ((l + 1) % 4) | none => k.rot })).count
    (if pl = .spilled then { block := 0x38, event := 0x10, raw := n }
     else { block := 0x34, event := 0x10, raw := n, tc := some p.tc })

/-- A packet waits at its ingress (R166); one that waits for spill space finds the general part of the
spill region full (R186, fault source 2 of block 0x38). -/
def State.park (s : State) (p : Pkt) (n : Nat) (w : WaitWhy) (cut : Bool) : State :=
  let s1 := (s.modCore (fun k => { k with waiting := k.waiting ++ [{ pkt := p, why := w, n := n, cut := cut }] })).count
    { block := 0x34, event := 0x11, tc := some p.tc }
  if w = .spill then s1.raiseAt 0x38 2 else s1

/-- A lossy packet is dropped at admission, counted by the logical port it entered at (R164). -/
def State.dropLossy (s : State) (p : Pkt) (held : Bool) : State :=
  let lp := p.inLport
  let s1 := if held then s.modCore (fun k => { k with heldDrops := sat (2 ^ 32 - 1) k.heldDrops 1 }) else s
  (((s1.modLport lp (fun l => { l with wredDrop := sat (2 ^ 64 - 1) l.wredDrop 1 })).discard p).count
    { block := 0x34, event := 0x12, tc := some p.tc }).count
    { block := blockOfPort p.src, event := 0x14, part := some p.part, port := some lp }

/-- Admit a packet of `n` cells (the frame's bound when its length is not yet known) at its ingress
(R162 to R166). -/
def State.admitN (s : State) (p : Pkt) (n : Nat) : State :=
  if s.planesIn.isEmpty ∨ s.core.waiting.any (fun w => voqOf w.pkt == voqOf p) then
    s.park p n .room false
  else match s.verdict p n with
    | .put pl => s.enqueue p (if p.more then n else p.cells) pl (s.cutsThrough p)
    | .wait w => s.park p n w false
    | .heldDrop => s.dropLossy p true
    | .drop => s.dropLossy p false

/-- Cells the frame of a logical port is admitted for: those of its maximum size, whose FCS does not cross (R162, log 34). -/
def LPort.frameCells (l : LPort) : Nat := ceilDiv (32 + (l.maxFrame - 4)) 256

/-- Cells that admission asks for a packet: by its length, and for an Ethernet frame by the maximum frame size of its logical
port: the one it entered at, else the one it leaves at (R162); of a frame in transit between fabric links none is here, and 64
cells, the most a packet has, stand for it (log 77). -/
def State.admitCells (s : State) (p : Pkt) : Nat :=
  if p.ptype ≠ 3 then p.cells
  else if p.fromWire ∧ p.smod = s.own then (s.lport p.inLport).frameCells
  else if 56 ≤ p.dst ∧ p.dst < 64 then (s.lport (s.egressLport p)).frameCells
  else 64

/-- Packets meeting `f` that wait at the ingress attachment of core port `n`. -/
def State.waitingAt (s : State) (n : Nat) (f : Pkt → Bool) : Nat := s.core.waiting.countP (fun w => w.pkt.src == n && f w.pkt)

/-- The attachment of core port `n`, inside the module, has as many packets waiting as it can stage: its issue stalls (R165, log 80). -/
def State.stalled (s : State) (n : Nat) : Bool :=
  decide (64 ≤ n) && decide (Config.staging n + 1 ≤ s.waitingAt n (fun _ => true))

/-- A packet comes to its ingress: a pool port, a Retort engine, Hearth and Ember issue it once they are not stalled, in the order
they form their packets (R165). -/
def State.enterCore (s : State) (p : Pkt) : State :=
  if 64 ≤ p.src ∧ (s.stalled p.src ∨ !(tget [] s.core.issue p.src).isEmpty) then
    s.modCore (fun c => { c with issue := tmod [] c.issue p.src (· ++ [p]) })
  else s.admitN p (s.admitCells p)

/-- Every packet in the core and at the attachments' doors. -/
def State.allPkts (s : State) : List Pkt :=
  s.core.q.map (fun e => e.pkt) ++ s.core.waiting.map (fun w => w.pkt) ++ s.core.issue.flatMap (fun e => e.2) ++
    s.core.delivered.flatMap (fun e => e.2)

/-- An attachment whose stall has ended issues what it has formed meanwhile (R165). -/
def State.issueFrom (n : Nat) : Nat → State → State
  | 0, s => s
  | fuel + 1, s =>
    match tget [] s.core.issue n with
    | [] => s
    | p :: r =>
      if s.stalled n then s
      else State.issueFrom n fuel ((s.modCore (fun c => { c with issue := tset c.issue n r })).admitN p (s.admitCells p))

/-- Every attachment inside the module goes on with its issue. -/
def State.issueAll (s : State) : State :=
  (List.range 16).foldl (fun t i => State.issueFrom (64 + i) (tget [] t.core.issue (64 + i)).length t) s

/-! ## Sending toward another module -/

/-- Choose the path of a packet toward module `m`; spraying moves its pointer, and RO packets looked up
here are counted in SENT (R236, R238). -/
def State.routePkt (s : State) (p : Pkt) (m : Nat) : Option (Pkt × State) :=
  match s.selectPath p m with
  | .here => some ({ p with dmod := m }, s)
  | .none => none
  | .link l j sp =>
    let s1 := if sp then s.modRoute m (fun r => { r with spray := j }) else s
    let s2 := if p.sprayCounted ∧ p.smod = s.own then
        s1.modSpray m p.tc (fun y => { y with sent := y.sent + 1, sprayed := y.sprayed || sp })
      else s1
    some (onLink p m l j, s2)

/-! ## Answers to requests -/

/-- The completion that answers request `r` at its destination: status, data, poison, completer ID and byte count. Its
FADDR names the port and module it returns to, with the requester ID in the low bits (log 25). -/
def completionOf (own : Nat) (r : Pkt) (status : Nat) (data : Bytes) (ep : Bool) (cid bcount : Nat) : Pkt :=
  let d := r.d
  { part := r.part, smod := own, src := r.dst, sport := r.dst, dst := r.src, dmod := own, tc := r.tc,
    ptype := 1,
    desc := ({ faddr := cplAddr r.smod r.sport d.rid, len := data.length,
               opc := if data.isEmpty then opcCpl else opcCplD, rid := cid, tag := d.tag, attr := d.attr, ep := ep,
               ptc := d.ptc, bcount := bcount, cstat := status, laddr := d.faddr.toNat % 128 } : Desc).encode,
    data := data }

/-- Completer ID of an attachment inside the module that answers request `r`: the routing ID, in the partition's hierarchy, of the
function it is, and 0 where no vDSP of the partition is bound to it (R158, log 78). -/
def State.completerId (s : State) (r : Pkt) : Nat :=
  if r.smod ≠ s.own then 0
  else if r.dst = 72 then s.mgmtVrid r.part
  else (s.functionVrid r.part (fun v =>
    (decide (64 ≤ r.dst ∧ r.dst < 68) && v.kind == 4) || (decide (68 ≤ r.dst ∧ r.dst < 72) && v.kind == 5) ||
      (decide (56 ≤ r.dst ∧ r.dst < 64) && v.kind == 6 && v.first == faFn r.d.faddr))).getD 0

/-- Send the completion of request `r` back through the core, or over the fabric to the module that
looked it up (R96, R235), with the completer ID and byte count of a completion received, where it is one. -/
def State.completeWith (s : State) (r : Pkt) (status : Nat) (data : Bytes) (ep : Bool) (cid bcount : Nat) : State :=
  let c := completionOf s.own r status data ep cid bcount
  if r.smod = s.own then s.enterCore c
  else
    let c1 := { c with fhash := fhash s.own c.sport r.smod c.tc (0x1000 + r.sport) }
    match s.routePkt c1 r.smod with
    | some (p, s1) => s1.enterCore p
    | none => s

/-- Send the completion that an attachment inside the module forms for request `r`. -/
def State.complete (s : State) (r : Pkt) (status : Nat) (data : Bytes) (ep : Bool) : State :=
  s.completeWith r status data ep (s.completerId r) data.length

/-- Completion status Unsupported Request. -/
def csUr : Nat := 1
/-- Completion status Completer Abort. -/
def csCa : Nat := 4

/-- A packet is discarded at its egress or in the core: it leaves, and a non-posted request is
completed with Unsupported Request (R123, R181, R182). -/
def State.refusePkt (s : State) (p : Pkt) : State :=
  let s1 := s.discard p
  if p.nonPosted then s1.complete p csUr [] false else s1

/-- Cluster whose block an access to local space is counted against. -/
def localBlock (off : Nat) : Nat := Nat.min 3 (off / 2 ^ 20)

/-- Block of the egress of a packet: toward core port 73 that of the Hearth cluster whose core a completion answers, or to whose
control block a request goes, and 0x2E for what is addressed to the complex as a whole (R181). -/
def egressBlock (p : Pkt) : Nat :=
  if p.dst = 73 ∧ p.ptype = 1 then 0x2E + cplRequester p / 8 % 4
  else if p.dst = 73 ∧ faClass p.d.faddr = 5 then 0x2E + localBlock (bits p.d.faddr.toNat 25 0)
  else blockOfPort p.dst

/-- Count one cell packet aborted, against the block of its egress (R181). -/
def State.countAbort (s : State) (p : Pkt) : State :=
  (s.modCore (fun k => { k with aborts := sat (2 ^ 32 - 1) k.aborts 1 })).ledgerOnly (egressBlock p)

/-! ## The calendar of strict partition mode (R424) -/

/-- Slots 1 to 31 of a shared core port: rounds over the partitions with slots unspent. -/
def State.sharedCalendar (s : State) : List Nat :=
  ((List.range 31).flatMap (fun r =>
    (List.range 32).filter (fun p => decide (r < (s.partCfg p).strictSlots)))).take 31

/-- The partition that owns an EXCLUSIVE physical port: the one whose vDSP is bound to it. -/
def State.exclusiveOwner (s : State) (n : Nat) : Option Nat :=
  if (s.port n).mode = .exclusive then
    (s.vdsps.find? (fun e => (e.2.kind == 1) && e.2.port == n && e.2.st != .empty)).map (fun e => e.1 / 64)
  else none

/-- The partition to which the calendar of core port `n` gives slot `k`, with `cal` on the shared ones. -/
def State.slotOwner (s : State) (cal : List Nat) (n k : Nat) : Option Nat :=
  if k = 0 then none
  else if n < 40 ∧ (s.port n).role = .upstream then some (s.port n).part
  else if n < 40 ∧ (s.port n).mode = .exclusive then s.exclusiveOwner n
  else cal[k - 1]?

/-- A cell of partition `p` and class `c` may cross from `i` to `o` in slot `k` (R424). -/
def State.slotAllows (s : State) (cal : List Nat) (i o p c k : Nat) : Bool :=
  (k == 0 && c == 7) || (s.slotOwner cal i k == some p && s.slotOwner cal o k == some p)

end Sys2Proof.Machine
end

