-- ==== Sys2Proof/Machine/Gates.lean ====
section
/-! DEFINITION. PTP time (R352) and the gate engines of logical ports and fabric links (R377 to R383, R425). A list
of strict partition mode has a bit per partition in its gates, one of a user schedule a bit per port TC. -/

namespace Sys2Proof.Machine

open Sys2Proof

/-! ## PTP time -/

/-- Nanoseconds of a PTP instant. -/
def ptpOf (sec ns : Nat) : Nat := sec * 1000000000 + ns
/-- PTP time now. -/
def State.ptpNow (s : State) : Nat := ptpOf s.time.ptpSec s.time.ptpNs
/-- Set PTP time. -/
def State.setPtp (s : State) (t : Nat) : State :=
  { s with time := { s.time with ptpSec := t / 1000000000 % 2 ^ 48, ptpNs := t % 1000000000, ptpFrac := 0 } }
/-- TSTAMP of the present instant (R154). -/
def State.stamp (s : State) : BitVec 64 := BitVec.ofNat 64 (s.time.ptpSec % 2 ^ 32 * 2 ^ 32 + s.time.ptpNs)

/-- The first instant START + n × PERIOD, n at least 0, not before `t` (R379, R387). -/
def firstAt (start period t : Nat) : Nat := if t ≤ start then start else start + ceilDiv (t - start) (Nat.max 1 period) * period

/-! ## Gate lists (R377 to R383) -/

/-- BASE of a list. -/
def GateList.base (l : GateList) : Nat := ptpOf l.baseSec l.baseNs
/-- Place within the cycle at PTP time `t`. -/
def GateList.offset (l : GateList) (t : Nat) : Nat := (((t : Int) - (l.base : Nat)) % ((Nat.max 1 l.cycleNs : Nat) : Int)).toNat
/-- Entry in force at a place within the cycle. -/
def GateList.entryAt (l : GateList) (off : Nat) : Nat :=
  ((gateSpans l.cycleNs 0 l.entries).findIdx? (fun e => decide (e.1 ≤ off ∧ off < e.2.1))).getD 0

/-- Open time of class `c` from the start of a run of entries. -/
def runLen (c : Nat) : List (Nat × Nat × Nat) → Nat
  | [] => 0
  | (a, z, g) :: r => if bit g c then (z - a) + runLen c r else 0

/-- Time from a place in the cycle until class `c` closes; none when it never does (R380). -/
def GateList.openRun (l : GateList) (off c : Nat) : Option Nat :=
  let sp := gateSpans l.cycleNs 0 l.entries
  if l.alwaysOpen c then none
  else
    let k := l.entryAt off
    match (sp.drop k) with
    | [] => some 0
    | (_, z, g) :: r => some (if bit g c then (z - off) + runLen c (r ++ sp) else 0)

/-- The longest window of class `c`; none when it is open throughout (R381). -/
def GateList.longest (l : GateList) (c : Nat) : Option Nat :=
  if l.alwaysOpen c then none
  else some ((gateSpans l.cycleNs 0 l.entries).foldl (fun a e => Nat.max a ((l.openRun e.1 c).getD 0)) 0)

/-- Change time of the pending list. -/
def Gate.change (g : Gate) : Nat := ptpOf g.changeSec g.changeNs

/-- Time until port TC `c` closes; none when nothing will close it (R380). -/
def State.closesIn (s : State) (lp c : Nat) : Option Nat :=
  let g := s.gate lp
  let now := s.ptpNow
  let a := match g.oper with | none => none | some l => l.openRun (l.offset now) c
  match g.pend with
  | none => a
  | some q =>
    let left := g.change - now
    let after := (q.openRun 0 c).map (fun m => left + m)
    match a with
    | none => after
    | some n => if n < left then some n else after

/-- A frame of wire length `lw` takes no longer than `n` ns at `r` Gb/s. -/
def fitsIn (lw r : Nat) (n : Option Nat) : Bool := match n with | none => true | some t => decide (lw * 8 ≤ t * r)

/-- The gate of port TC `c` is open in the entry in force. -/
def Gate.isOpen (g : Gate) (c : Nat) : Bool :=
  match g.oper with
  | none => true
  | some l => bit (lget (255, 0) l.entries g.pos).1 c

/-- What `lw` bytes on the wire of key `c` may begin at rate `r` Gb/s on port `n`: its gate is open and its window
long enough (R380, R425). -/
def State.gateFits (s : State) (n c lw r : Nat) : Bool :=
  (s.gate n).isOpen c && fitsIn lw r (s.closesIn n c)

/-- A frame fits some window of its class in the operational or the pending list (R381). -/
def State.everFits (s : State) (lp c lw : Nat) : Bool :=
  let g := s.gate lp
  let r := s.lportRate lp
  (match g.oper with | none => true | some l => fitsIn lw r (l.longest c)) ||
    (match g.pend with | none => false | some l => fitsIn lw r (l.longest c))

end Sys2Proof.Machine
end

