-- ==== Sys2Proof/Machine/LinkCode.lean ====
section
/-! DEFINITION. The code of a Ndofin link: flits as bytes and their CRC (R197, R198), TRAIN records in flits (R217), and lanes:
codeword pairs, markers, forward error correction and symbols (R194, R195), and the lock of a receive lane (R196). -/

namespace Sys2Proof

open Machine

/-! ## The CRC (R198) -/

/-- One bit of CRC-32, least significant bit first: polynomial 0x04C11DB7 as IEEE 802.3 shifts it. -/
def crc32Bit (c : Nat) (b : Bool) : Nat := if bit c 0 != b then Nat.xor (c / 2) 0xEDB88320 else c / 2

/-- CRC-32 of IEEE 802.3 over bytes (R198). -/
def crc32 (bs : Bytes) : Nat :=
  Nat.xor (bs.foldl (fun c v => (List.range 8).foldl (fun a i => crc32Bit a (v.getLsbD i)) c) 0xFFFFFFFF) 0xFFFFFFFF

/-! ## The link flit (R197) -/

/-- The 96 bits of a flit header. -/
def Flit.header (f : Flit) : Nat :=
  f.seq.toNat * 2 ^ 80 + f.ack.toNat * 2 ^ 64 + f.xoff.toNat * 2 ^ 56 + f.ftype % 16 * 2 ^ 52 + f.vc % 8 * 2 ^ 49 +
    b2n f.ackv * 2 ^ 48 + f.units % 16 * 2 ^ 44 + f.first % 16 * 2 ^ 40 + f.last % 16 * 2 ^ 36

/-- Bytes 0 to 251 of a flit: the header and 15 units. -/
def Flit.body (f : Flit) : Bytes :=
  leBytes 12 f.header ++ (List.range 15).flatMap (fun u => leBytes 16 (f.payload.getD u 0).toNat)

/-- The 256 bytes of a flit, byte 0 first. -/
def Flit.bytes (f : Flit) : Bytes := f.body ++ leBytes 4 (crc32 f.body)

/-- The fields of a flit's bytes. Reserved bits are ignored. -/
def flitOf (raw : Bytes) : Flit :=
  let h := leNat (raw.take 12)
  { seq := BitVec.ofNat 16 (bits h 95 80), ack := BitVec.ofNat 16 (bits h 79 64), xoff := BitVec.ofNat 8 (bits h 63 56),
    ftype := bits h 55 52, vc := bits h 51 49, ackv := bit h 48, units := bits h 47 44, first := bits h 43 40,
    last := bits h 39 36, payload := (List.range 15).map (fun u => BitVec.ofNat 128 (leNat (slice raw (12 + 16 * u) 16))) }

/-- The CRC of a flit checks. -/
def flitCrcOk (raw : Bytes) : Bool := crc32 (raw.take 252) == leNat (slice raw 252 4)

/-! ## TRAIN records (R217) -/

/-- The first 12 bytes of a TRAIN record; the rest is reserved. -/
def TrainRec.bytes (r : TrainRec) : Bytes :=
  leBytes 1 r.module ++ leBytes 1 r.link ++ leBytes 1 r.maxWidth ++ leBytes 1 r.reqWidth ++ leBytes 1 r.reqRate ++
    leBytes 1 r.lanesOk.toNat ++ leBytes 1 (b2n r.streamReset + 2 * b2n r.echoReq + 4 * b2n r.echoRsp + 8 * b2n r.rxLastV) ++
    leBytes 1 r.cause ++ leBytes 2 r.rxLast.toNat ++ leBytes 2 (if r.echoRsp then r.turnNs else 0)

/-- A TRAIN record as the payload of a TRAIN or LRESET flit: its first unit. -/
def TrainRec.payload (r : TrainRec) : List (BitVec 128) := [BitVec.ofNat 128 (leNat r.bytes)]

/-! ## Lanes (R194, R195) -/

/-- PATTERN of a lane marker. -/
def lanePattern : Nat := 0x5CA61D

/-- The 40-bit marker of a pair on a lane. -/
def laneMarker (pair lane : Nat) : BitVec 40 := BitVec.ofNat 40 (pair % 16384 * 2 ^ 26 + lane % 4 * 2 ^ 24 + lanePattern)

/-- Byte `b` of each flit goes to lane `b` mod `w`: the bytes of lane `i`. -/
def laneBytes (w i : Nat) (flits : List Bytes) : Bytes :=
  flits.flatMap (fun f => (List.range (f.length / Nat.max 1 w)).map (fun j => f.getD (w * j + i) 0))

/-- The bits of bytes, least significant first. -/
def byteBits (bs : Bytes) : List Bool := bs.flatMap (fun v => (List.range 8).map v.getLsbD)

/-- The 10-bit symbols of a list of bits, first bit least significant. -/
def tenBits : Nat → List Bool → List Nat
  | 0, _ => []
  | n + 1, b => (b.take 10).zipIdx.foldl (fun a e => a + b2n e.1 * 2 ^ e.2) 0 :: tenBits n (b.drop 10)

/-- The 1,028 message symbols of a pair: the marker, then 1,280 bytes of flit data. -/
def pairMessage (pair lane : Nat) (data : Bytes) : List Nat :=
  tenBits 1028 ((List.range 40).map (fun i => (laneMarker pair lane).getLsbD i) ++ byteBits data)

/-- Multiplication by α in GF(2^10), of polynomial x^10 + x^3 + 1 (log 81). -/
def gfTwice (a : Nat) : Nat := if bit a 9 then Nat.xor (a * 2 % 1024) 9 else a * 2

/-- Multiplication in GF(2^10). -/
def gfMul (a b : Nat) : Nat :=
  ((List.range 10).reverse).foldl (fun r i => let d := gfTwice r; if bit b i then Nat.xor d a else d) 0

/-- Coefficients, lowest first, of the product of `n` factors x + α^i, i from `i` (log 81). -/
def rsGenerator : Nat → Nat → List Nat → List Nat
  | 0, _, g => g
  | n + 1, root, g => rsGenerator n (gfTwice root) (List.zipWith Nat.xor (0 :: g) (g.map (gfMul root) ++ [0]))

/-- The 30 parity symbols of RS(544,514) over 514 message symbols, first symbol highest (R194, log 81). -/
def rsParity (msg : List Nat) : List Nat :=
  let g := ((rsGenerator 30 1 [1]).take 30).reverse
  msg.foldl (fun r m =>
    let f := Nat.xor m (r.headD 0)
    List.zipWith Nat.xor (r.drop 1 ++ [0]) (g.map (gfMul f))) (List.replicate 30 0)

/-- The level of two bits on the line under Gray coding: 00, 01, 11 and 10 from the lowest level up (R194). -/
def pam4 (b1 b0 : Bool) : Nat := if b1 then (if b0 then 2 else 3) else b2n b0

/-- A 10-bit symbol as five PAM4 levels, its low bits first. -/
def symbolLevels (x : Nat) : List Nat := (List.range 5).map (fun i => pam4 (bit x (2 * i + 1)) (bit x (2 * i)))

/-- What a lane sends for a pair: two codewords of 544 symbols each, as levels (R194, R195, log 81). -/
def pairLevels (pair lane : Nat) (data : Bytes) : List Nat :=
  let m := pairMessage pair lane data
  let a := m.take 514
  let b := m.drop 514
  (a ++ rsParity a ++ b ++ rsParity b).flatMap symbolLevels

/-! ## Lock of a receive lane (R196) -/

/-- The marker of a pair is the lane's. -/
def PairRx.marked (p : PairRx) : Bool := p.marker.toNat % 2 ^ 24 == lanePattern

/-- Longest run, from the start, of pairs meeting `f`. -/
def runOf (f : PairRx → Bool) (ps : List PairRx) : Nat := (ps.takeWhile f).length

/-- From some pair on, the marker stands at one position in 4 pairs in a row, and the 16 pairs after those decode (R196). -/
def laneLocks : List PairRx → Bool
  | [] => false
  | p :: r =>
    (p.marked && decide (4 ≤ runOf (fun q => q.marked && q.pos == p.pos) (p :: r)) &&
      decide (16 ≤ runOf (fun q => q.decoded) ((p :: r).drop 4))) || laneLocks r

/-- Four pairs in a row have no marker or do not decode: the lane loses lock (R196). -/
def laneUnlocks : List PairRx → Bool
  | [] => false
  | p :: r => decide (4 ≤ runOf (fun q => !q.marked || !q.decoded) (p :: r)) || laneUnlocks r

/-- The transmit lane a receive lane carries: LANE of its latest pair. -/
def LaneRx.lane (x : LaneRx) : Nat :=
  match x.pairs.getLast? with
  | some p => bits p.marker.toNat 25 24
  | none => 0

/-- The receive lanes of `sel` lock, carry different transmit lanes, and lie within 20 ns of each other (R196). -/
def lanesAlign (sel : BitVec 4) (rx : List LaneRx) : Bool :=
  let ls := (rx.zipIdx.filter (fun e => sel.getLsbD e.2)).map (fun e => e.1)
  !ls.isEmpty && ls.all (fun x => laneLocks x.pairs && decide (x.skewPs ≤ 20000)) &&
    (ls.map LaneRx.lane).eraseDups.length == ls.length

end Sys2Proof
end

