-- ==== Sys2Proof/Machine/CfgSpace.lean ====
section
/-! DEFINITION. The configuration spaces the engine emulates: which capability structures a kind of function carries and
what they read (R55, R57, R93, R106, R122, R268, R321, R335), and which structures of a real function it hides (R94, R107).

Kinds of emulated function: 0 upstream bridge, 1 management function, 2 vDSP, 3 pool, 4 Retort, 5 vNIC. Register positions
inside a structure, and the fixed fields of the standard header, are those of the PCI Express specification (log 31); where a
structure lies in the space is DESIGN CHOICE (log 75). -/

namespace Sys2Proof.Machine

open Sys2Proof

/-- Mask of the bytes a configuration request enables. -/
def beMask (be : BitVec 4) : BitVec 32 :=
  BitVec.ofNat 32 (bitsOf 32 (fun i => be.getLsbD (i / 8)))

/-- `old` with the enabled bytes of `v` among the bits `m` written. -/
def mergeBits (m old v : BitVec 32) : BitVec 32 := (old &&& ~~~m) ||| (v &&& m)

/-- Device ID and class code of a kind of function (R55, R106, R268, R321, R335). -/
def functionIds (kind : Nat) : Nat × Nat :=
  match kind with
  | 0 => (0x9660, 0x060400)
  | 1 => (0x9661, 0x088000)
  | 2 => (0x9662, 0x060400)
  | 3 => (0x9663, 0x050000)
  | 4 => (0x9664, 0x120000)
  | _ => (0x9665, 0x020000)

/-! ## Capability structures -/

/-- Offsets of the structures (log 75): Power Management, MSI-X, PCI Express, Enhanced Allocation; AER, ACS, DPC and Lane
Margining in the extended space. -/
def capPm : Nat := 0x40
/-- MSI-X. -/
def capMsix : Nat := 0x50
/-- PCI Express. -/
def capPcie : Nat := 0x70
/-- Enhanced Allocation. -/
def capEa : Nat := 0xB0
/-- AER. -/
def capAer : Nat := 0x100
/-- ACS. -/
def capAcs : Nat := 0x150
/-- DPC. -/
def capDpc : Nat := 0x160
/-- Lane Margining at the Receiver. -/
def capMargin : Nat := 0x180

/-- A bridge of a kind: type 1 header (R106). -/
def isBridge (kind : Nat) : Bool := kind == 0 || kind == 2
/-- A kind carries MSI-X (R55, R321, R335). -/
def hasMsix (kind : Nat) : Bool := kind == 1 || kind == 4 || kind == 5
/-- A kind carries AER (R55, R93). -/
def hasAer (kind : Nat) : Bool := decide (kind ≤ 2)

/-- Port type of the PCI Express Capabilities register: 5 upstream port, 6 downstream port of a switch, 0 endpoint (R106). -/
def portType (kind : Nat) : Nat := if kind = 0 then 5 else if kind = 2 then 6 else 0

/-- Vectors less one, table offset and PBA offset of MSI-X (R55, R57, R321, R335). Where the Retort function's table lies the
specification does not say. -/
def msixPlace (kind : Nat) : Nat × Nat × Nat :=
  match kind with
  | 1 => (63, 0x8000, 0x8400)
  | 5 => (64, 0x1000, 0x1800)
  | _ => (0, Config.retortTable * 8, Config.retortPba * 8)

/-- Place below a vDSP's own registers where those of function `fn` below it are stored. -/
def belowKey (fn reg : Nat) : Nat := (fn + 1) * 4096 + reg

/-- Dword `i` of one Enhanced Allocation entry: BAR-equivalent `bei`, property, 64-bit base, last offset (R57). -/
def eaDword (bei prop : Nat) (base : Word) (last i : Nat) : Nat :=
  match i with
  | 0 => 3 + bei * 2 ^ 4 + prop * 2 ^ 8 + 0xFF * 2 ^ 16 + 2 ^ 31
  | 1 => base.toNat % 2 ^ 32 / 4 * 4 + 2
  | 2 => last / 4 * 4
  | _ => base.toNat / 2 ^ 32

/-- The Enhanced Allocation structure of the management function: BAR0, BAR2 and the expansion ROM (R57). -/
def VSwitch.eaRead (v : VSwitch) (reg : Nat) : Nat :=
  let i := (reg - capEa) / 4
  match i with
  | 0 => 0x14 + 3 * 2 ^ 16
  | _ =>
    match (i - 1) / 4 with
    | 0 => eaDword 0 0 v.bar0 0x1FFFF ((i - 1) % 4)
    | 1 => eaDword 2 1 v.bar2 0xFFFFF ((i - 1) % 4)
    | 2 => eaDword 8 0 v.rom 0xFFFFF ((i - 1) % 4)
    | _ => 0

/-- Registers of the PCI Express structure before anything is written: types, Function Level Reset, Max Payload Size
1,024, ARI Forwarding, AtomicOps, slot capabilities (R55, R93, R106, R112, R268). -/
def pcieReset (kind off : Nat) : Nat :=
  match off with
  | 0x00 => 0x10 + (if kind = 1 then capEa else 0) * 2 ^ 8 + (2 + portType kind * 16 + (if kind = 2 then 0x100 else 0)) * 2 ^ 16
  | 0x04 => 0x8023 + (if isBridge kind then 0 else 2 ^ 28)
  | 0x08 => 0x2000
  | 0x0C => if kind = 0 then 0x6 else if kind = 2 then 0x180011 else 0
  | 0x14 => if kind = 2 then 0x63 else 0
  | 0x24 => if kind = 0 then 0x30040 else if kind = 2 then 0x60 else if kind = 3 then 0x100 else 0
  | 0x2C => if kind = 0 then 0x7E else 0
  | _ => 0

/-- Value of a register before anything is written to it (log 31). Base Address registers and the Expansion ROM register of a
function that has none, and every register no structure holds, read 0. -/
def cfgReset (kind reg : Nat) : Nat :=
  match reg with
  | 0x00 => (functionIds kind).1 * 65536 + Config.vendorId.toNat
  | 0x04 => 0x100000
  | 0x08 => (functionIds kind).2 * 256 + 0xB0
  | 0x0C => (if kind = 0 then 0x81 else if kind = 1 then 0x80 else if kind = 2 then 0x01 else 0) * 2 ^ 16
  | 0x24 => if isBridge kind then 0x10001 else 0
  | 0x34 => capPm
  | 0x40 => 0x1 + (if hasMsix kind then capMsix else capPcie) * 2 ^ 8 + 3 * 2 ^ 16
  | 0x50 => if hasMsix kind then 0x11 + capPcie * 2 ^ 8 + (msixPlace kind).1 * 2 ^ 16 else 0
  | 0x54 => if hasMsix kind then (msixPlace kind).2.1 else 0
  | 0x58 => if hasMsix kind then (msixPlace kind).2.2 else 0
  | 0x100 => if hasAer kind then 0x20001 + (if kind = 2 then capAcs else if kind = 0 then capMargin else 0) * 2 ^ 20 else 0
  | 0x10C => if hasAer kind then 0x462030 else 0
  | 0x114 => if hasAer kind then 0x2000 else 0
  | 0x150 => if kind = 2 then 0x1000D + capDpc * 2 ^ 20 else 0
  | 0x154 => if kind = 2 then 0x1F else 0
  | 0x160 => if kind = 2 then 0x1001D else 0
  | 0x164 => if kind = 2 then 0x80 else 0
  | 0x180 => if kind = 0 then 0x10027 else 0
  | _ => if capPcie ≤ reg ∧ reg < capPcie + 0x3C then pcieReset kind (reg - capPcie) else 0

/-- Bits of a register a host can write and read back (log 31). -/
def cfgMask (kind reg : Nat) : Nat :=
  match reg with
  | 0x04 => if isBridge kind then 0x547 else 0x546
  | 0x0C => 0xFF
  | 0x18 => if isBridge kind then 0xFFFFFF else 0
  | 0x1C => if isBridge kind then 0xF0F0 else 0
  | 0x20 => if isBridge kind then 0xFFF0FFF0 else 0
  | 0x24 => if isBridge kind then 0xFFF0FFF0 else 0
  | 0x28 => if isBridge kind then 0xFFFFFFFF else 0
  | 0x2C => if isBridge kind then 0xFFFFFFFF else 0
  | 0x30 => if isBridge kind then 0xFFFFFFFF else 0
  | 0x3C => if isBridge kind then 0x5F00FF else 0xFF
  | 0x44 => 0x3
  | 0x50 => if hasMsix kind then 0xC0000000 else 0
  | 0x78 => 0x79FF
  | 0x80 => if isBridge kind then 0xC0 else 0
  | 0x88 => if kind = 2 then 0x143F else 0
  | 0x98 => 0x10FF
  | 0xA0 => if kind = 0 then 0xF else 0
  | 0x108 => if hasAer kind then 0x7FFF030 else 0
  | 0x10C => if hasAer kind then 0x7FFF030 else 0
  | 0x114 => if hasAer kind then 0xF1C1 else 0
  | 0x154 => if kind = 2 then 0x1F0000 else 0
  | 0x164 => if kind = 2 then 0x3F0000 else 0
  | _ => 0

/-- A register as stored, else as it reads before anything is written. -/
def cfgStored (kind reg : Nat) (v : Option (BitVec 32)) : BitVec 32 := v.getD (BitVec.ofNat 32 (cfgReset kind reg))

/-- A write to a stored register: only the bits it can hold change. -/
def cfgStore (kind : Nat) (t : Tab (BitVec 32)) (key reg : Nat) (be : BitVec 4) (v : BitVec 32) : Tab (BitVec 32) :=
  if cfgMask kind reg = 0 then t
  else tset t key (mergeBits (beMask be &&& BitVec.ofNat 32 (cfgMask kind reg)) (cfgStored kind reg (tlook t key)) v)

/-! ## Link settings of a bridge (R93, R99) -/

/-- Max Payload Size in force on port `n`'s link, in bytes: what the device and Ember agreed, or on an upstream port what the
host programs in the bridge's Device Control. -/
def State.linkMps (s : State) (n : Nat) : Nat :=
  let p := s.port n
  if p.role = .upstream then 128 * 2 ^ (Nat.min 3 (bits (cfgStored 0 0x78 (tlook (s.vs p.part).bridge 0x78)).toNat 7 5))
  else p.dev.mps

/-- Max Read Request Size in force on port `n`'s link, in bytes (R99). -/
def State.linkMrrs (s : State) (n : Nat) : Nat :=
  let p := s.port n
  if p.role = .upstream then 128 * 2 ^ (Nat.min 5 (bits (cfgStored 0 0x78 (tlook (s.vs p.part).bridge 0x78)).toNat 14 12))
  else p.dev.mrrs

/-! ## Structures of a real function the host does not see (R94, R107) -/

/-- Extended capabilities hidden below a vDSP: ATS, PRI, PTM, LTR and IDE, and SR-IOV from a VF (R93, R94, R107). -/
def hiddenCap (vf : Bool) (id : Nat) : Bool :=
  id == 0x0F || id == 0x13 || id == 0x1F || id == 0x18 || id == 0x30 || (vf && id == 0x10)

/-- The next structure after the first of a chain that the host does see; 0 at the end. -/
def nextShown (vf : Bool) : List (Nat × Nat × Nat) → Nat
  | [] => 0
  | (o, id, _) :: r => if hiddenCap vf id then nextShown vf r else o

/-- What the host sees of register `reg` of a function whose extended capabilities are `caps`, as (offset, ID, length) in the
order of their chain: the bits kept of what the function answers, and the bits put in their place. A hidden structure reads 0
but for the pointer on a hidden head of the chain, a pointer to one goes past it, and LTR support of Device Capabilities 2 at
`dc2` reads 0. -/
def shownBits (vf : Bool) (dc2 : Nat) : List (Nat × Nat × Nat) → Nat → BitVec 32 × BitVec 32
  | [], reg => (if reg = dc2 then 0xFFFFF7FF#32 else 0xFFFFFFFF#32, 0#32)
  | (o, id, len) :: r, reg =>
    if o ≤ reg ∧ reg < o + len then
      let next := BitVec.ofNat 32 (nextShown vf r * 2 ^ 20)
      if hiddenCap vf id then (0#32, if reg = 0x100 then next else 0#32)
      else if reg = o then (0xFFFFF#32, next)
      else (0xFFFFFFFF#32, 0#32)
    else shownBits vf dc2 r reg

/-- A write to register `reg` of a real function falls in a structure the host does not see. -/
def writeHidden (vf : Bool) (caps : List (Nat × Nat × Nat)) (reg : Nat) : Bool :=
  caps.any (fun c => hiddenCap vf c.2.1 && decide (c.1 ≤ reg ∧ reg < c.1 + c.2.2))

/-- Offset of the SR-IOV structure of a PF; 0 without one. -/
def sriovAt (caps : List (Nat × Nat × Nat)) : Nat := ((caps.find? (fun c => c.2.1 == 0x10)).map (fun c => c.1)).getD 0

end Sys2Proof.Machine
end

