-- ==== Sys2Proof/Machine/CoreOps.lean ====
section
/-! DEFINITION. The planes' matching (R171 to R174), crossing and release of cells (R169), delivery to
the egress attachments, aborts (R180, R181) and planes leaving service (R170). -/

namespace Sys2Proof.Machine

open Sys2Proof

/-! ## Delivery to an egress attachment -/

/-- Two packets are one: a VOQ gives each its PSEQ (R160). -/
def samePkt (a b : Pkt) : Bool := voqOf a == voqOf b && a.pseq == b.pseq

/-- A cut-through frame whose last cell has crossed: the logical port's copy of it is made whole, in staging or in transmission; one
that the port no longer has was ended by an underrun (R178, R179). -/
def State.frameWhole (s : State) (p : Pkt) : State :=
  s.modLport (s.egressLport p) (fun l =>
    { l with egress := l.egress.map (fun w => if samePkt w p then p else w),
             sending := l.sending.map (fun w => if samePkt w p then p else w) })

/-- The logical port of frame `p` is transmitting it in cut-through. -/
def State.frameBegun (s : State) (p : Pkt) : Bool :=
  match (s.lport (s.egressLport p)).sending with
  | some w => samePkt w p
  | none => false

/-- The logical port of frame `p` has it, staged or in transmission. -/
def State.frameHeld (s : State) (p : Pkt) : Bool :=
  s.frameBegun p || (s.lport (s.egressLport p)).egress.any (samePkt p)

/-- The logical port of frame `p` forgets it before it has begun. -/
def State.frameDrop (s : State) (p : Pkt) : State :=
  s.modLport (s.egressLport p) (fun l => { l with egress := l.egress.filter (fun w => !samePkt w p) })

/-- The egress attachment takes a released packet: stored for a PCIe port, staged for a logical
port, queued for the attachments inside; discarded where the port or logical port is down (R182). A packet for a fabric link stays
in the buffer until its units are packed (R209). -/
def State.deliver (s : State) (p : Pkt) : State :=
  if p.dst < 40 then
    if (s.port p.dst).dlActive then s.modPort p.dst (fun k => { k with egress := k.egress ++ [p] })
    else (s.refusePkt p).ledgerOnly (blockOfPort p.dst)
  else if p.dst < 64 ∧ p.ptype = 3 then
    if p.action = 3 then s.modNet (fun n => { n with rxWait := n.rxWait ++ [p] })
    else if (s.lport (s.egressLport p)).linkUp then
      s.modLport (s.egressLport p) (fun l => { l with egress := l.egress ++ [p] })
    else (s.discard p).ledgerOnly (blockOfPort p.dst)
  else s.modCore (fun k => { k with delivered := tmod [] k.delivered p.dst (· ++ [p]) })

/-- The cells of a packet have crossed: counted by their planes (R508). -/
def State.countCrossed (s : State) (e : QPkt) : State :=
  e.planes.foldl (fun s k =>
    s.count { block := 0x22 + k % 4, event := if e.pkt.abort then 0x12 else 0x11, port := some e.pkt.dst }) s

/-- An aborted packet that no egress has begun is discarded; a non-posted request is answered where its egress is not a link (R181). -/
def State.dropAborted (s : State) (p : Pkt) : State :=
  let s1 := s.countAbort p
  if 40 ≤ p.dst ∧ p.dst < 56 then s1.discard p else s1.refusePkt p

/-- A released packet: a good one is delivered. An aborted one is discarded unless its egress had begun it in cut-through: a vNIC's
DMA completes with the error, and a frame in transmission ends with its FCS inverted (R181). -/
def State.release (s : State) (e : QPkt) : State :=
  let s1 := s.countCrossed e
  let p := e.pkt
  if e.out.isSome ∧ 56 ≤ p.dst ∧ p.dst < 64 then
    if !p.abort then
      if s1.frameHeld p then s1.frameWhole p else (s1.discard p).ledgerOnly (blockOfPort p.dst)
    else if s1.frameBegun p then (s1.countAbort p).frameWhole p
    else (s1.frameDrop p).dropAborted p
  else if p.abort then
    if e.cut ∧ p.action = 3 then (s1.countAbort p).deliver p else s1.dropAborted p
  else s1.deliver p

/-- Cells of a packet that have crossed, in order from the first. -/
def QPkt.lead (e : QPkt) : Nat := (e.planes.takeWhile (fun k => decide (4 ≤ k))).length

/-- The packet goes to a fabric link. -/
def QPkt.onFabric (e : QPkt) : Bool := decide (40 ≤ e.pkt.dst ∧ e.pkt.dst < 56)

/-- An egress can begin the packet: all its cells have crossed, or it cuts through and enough have: the first toward a fabric link,
the first two toward a logical port (R178, R179). -/
def QPkt.canBegin (e : QPkt) : Bool :=
  e.crossed || (e.cut && e.place != .spilled &&
    ((e.onFabric && decide (1 ≤ e.lead)) ||
      (decide (56 ≤ e.pkt.dst ∧ e.pkt.dst < 64) && (e.pkt.action == 2 || e.pkt.action == 4) && decide (2 ≤ e.lead))))

/-- Give their egress, in order, the packets it can begin whose VOQ has no earlier one it has not been given whole: all those of
fabric links, and cut-through frames not yet whole, which a link sends with their length unknown (R202). `n` numbers them; the
packets given are those of the second list. -/
def giveOut : Nat → List Nat → List QPkt → List QPkt × List QPkt
  | _, _, [] => ([], [])
  | n, seen, e :: r =>
    let v := voqOf e.pkt
    if e.out.isNone ∧ e.canBegin ∧ !seen.contains v ∧ (e.onFabric ∨ !e.crossed) then
      let g := { e with out := some n, pkt := { e.pkt with openLen := e.pkt.openLen || (e.pkt.ptype == 3 && !e.crossed) } }
      let t := giveOut (n + 1) (if e.crossed then seen else v :: seen) r
      (g :: t.1, g :: t.2)
    else
      let t := giveOut n (if e.out.isSome && e.crossed && e.onFabric then seen else v :: seen) r
      (e :: t.1, t.2)

/-- Stage at its logical port a frame that cuts through; it is discarded where that port is down (R182). -/
def State.stageCut (s : State) (e : QPkt) : State :=
  if e.onFabric then s
  else s.modLport (s.egressLport e.pkt) (fun l => if l.linkUp then { l with egress := l.egress ++ [{ e.pkt with more := true }] } else l)

/-- Packets for fabric links, and frames that cut through, come before their egress (R178, R200). -/
def State.offer (s : State) : State :=
  let t := giveOut s.core.outs [] s.core.q
  t.2.foldl State.stageCut (s.modCore (fun c => { c with q := t.1, outs := c.outs + t.2.length }))

/-- Packets for fabric links that are aborted and have not been begun are discarded once all their cells have crossed (R181). -/
def State.dropUnbegun (s : State) : State :=
  let gone (e : QPkt) : Bool := e.onFabric && e.crossed && e.pkt.abort && !e.begun
  (s.core.q.filter gone).foldl (fun t e => (t.countCrossed e).dropAborted e.pkt)
    (s.modCore (fun c => { c with q := c.q.filter (fun e => !gone e) }))

/-- Split a queue into the packets still held back and those egress releases: crossed whole, with no
earlier packet of their VOQ left (R169). Those for fabric links stay. -/
def splitReleased : List Nat → List QPkt → List QPkt × List QPkt
  | _, [] => ([], [])
  | seen, e :: r =>
    let v := voqOf e.pkt
    if e.crossed ∧ !e.onFabric ∧ !seen.contains v then
      let t := splitReleased seen r
      (t.1, e :: t.2)
    else
      let t := splitReleased (v :: seen) r
      (e :: t.1, t.2)

/-- Release every packet whose turn has come (R169). -/
def State.releaseAll (s : State) : State :=
  let t := splitReleased [] s.core.q
  (t.2.foldl (fun s e => s.release e) (s.modCore (fun k => { k with q := t.1 }))).dropUnbegun.offer

/-! ## Cells that go bad in the buffer (R155, R180) -/

/-- Mark every queued packet meeting `f` as aborted with a cause (R180). -/
def State.abortWhere (s : State) (f : QPkt → Bool) (cause : Nat) : State :=
  s.modCore (fun c => { c with q := c.q.map (fun e =>
    if f e then { e with flips := [], pkt := { e.pkt with more := false, abort := true, abortCause := cause } } else e) })

/-- A cell of packet `e` whose header fails its check, if there is one (R155). -/
def State.badCell (s : State) (e : QPkt) : Option Nat :=
  (List.range e.planes.length).find? (fun i => !headerOk (s.cellHeader e i))

/-- The packets with a cell whose header fails its check are aborted with cause HCRC (R155, R180). -/
def State.dropBadCells (s : State) : State := s.abortWhere (fun e => (s.badCell e).isSome) 3

/-- The check by the planes and the egress attachments as cells cross: a failure raises source 2 of block 0x34 (R155). -/
def State.checkCells (s : State) : State :=
  match s.core.q.find? (fun e => (s.badCell e).isSome) with
  | none => s
  | some e => (s.raiseAt 0x34 2 none ((s.badCell e).map (fun i => 80 + lget 0 e.planes i % 4))).dropBadCells

/-- A cell of the buffer is the one a detector has found: which, the detection does not say. -/
def State.struckCell (s : State) : Option (QPkt × Nat) × State :=
  let r := s.freeNat
  let es := s.core.q.filter (fun e => e.place != .spilled && !e.planes.isEmpty)
  match es[r.1 % Nat.max 1 es.length]? with
  | none => (none, r.2)
  | some e => (some (e, r.1 / Nat.max 1 es.length % Nat.max 1 e.planes.length), r.2)

/-- The cell buffer has found a payload error it cannot correct, as source 1 of block 0x34, or an HCRC failure, as source 2: the
packet of the cell is aborted (R155, R180). -/
def State.cellStruck (s : State) (i : Nat) : State :=
  let r := s.struckCell
  match r.1 with
  | none => s
  | some (e, k) =>
    if i = 1 then r.2.abortWhere (fun x => samePkt x.pkt e.pkt) 2
    else (r.2.modCore (fun c => { c with q := c.q.map (fun x =>
      if samePkt x.pkt e.pkt then { x with flips := tset x.flips k 1 } else x) })).dropBadCells

/-! ## Matching -/

/-- A VOQ by input, output and class. -/
structure Voq where
  /-- Input. -/
  i : Nat
  /-- Output. -/
  o : Nat
  /-- Class. -/
  c : Nat
  deriving DecidableEq, Repr, Inhabited

/-- The VOQ of a packet. -/
def pktVoq (p : Pkt) : Voq := { i := p.src, o := p.dst, c := p.tc }

/-- Cells of the packets that the attachment of core port `n` has taken and not yet sent or executed. -/
def State.stagedCells (s : State) (n : Nat) : Nat :=
  (if n < 40 then (s.port n).egress else tget [] s.core.delivered n).foldl (fun a p => a + p.cells) 0

/-- Virtual channel on which link `l` sends packet `p` (R200, R227). -/
def State.vcOf (s : State) (l : Nat) (p : Pkt) : Nat := mapField (s.link l).vcMapUp 3 p.tc

/-- The egress of packet `e` has room for one more cell (R167, log 28): a block in reset or under test has none
(R461); a link virtual channel takes one packet beyond the one it is sending, and every cell of one it has begun; a logical port
stages 2 × MAX_FRAME bytes of each port TC (R368); a lossless frame that waits for a receive descriptor stops its core TC (R347);
and a PCIe port, which waits for credits of its link partner, a pool port or an engine takes as many cells as its staging has,
in a number the specification does not give (log 79). -/
def State.egressRoom (s : State) (e : QPkt) : Bool :=
  let p := e.pkt
  !s.blockAway (blockOfPort p.dst) &&
    (if e.out.isSome then true
     else if 40 ≤ p.dst ∧ p.dst < 56 then
      !s.core.q.any (fun w => w.out.isSome && !w.begun && w.pkt.dst == p.dst && s.vcOf (p.dst - 40) w.pkt == s.vcOf (p.dst - 40) p)
     else if 56 ≤ p.dst ∧ p.dst < 64 then
      if p.action = 3 then !s.net.rxWait.any (fun w => w.dst == p.dst && w.tc == p.tc)
      else
        let l := s.lport (s.egressLport p)
        !l.linkUp || decide ((l.egress.filter (fun w => portTcOf w == portTcOf p)).foldl (fun a w => a + w.data.length) 0 <
          2 * l.maxFrame)
     else decide (s.stagedCells p.dst ≤ Config.egressCells p.dst))

/-- The packets at the head of their VOQs on plane `k`, in order of admission. -/
def headsOn (k : Nat) : List Voq → List QPkt → List QPkt
  | _, [] => []
  | seen, e :: r =>
    if e.place = .spilled ∨ !e.planes.contains k ∨ seen.contains (pktVoq e.pkt) then headsOn k seen r
    else e :: headsOn k (pktVoq e.pkt :: seen) r

/-- The VOQs that request on plane `k`, in order of admission of their first cell there (R171, R174). -/
def State.requests (s : State) (k : Nat) : List Voq :=
  let slot := (s.plane k).cellNo % 32
  ((headsOn k [] s.core.q).filter (fun e => !s.heldOut e.pkt.dst && s.egressRoom e &&
      (match (s.plane k).cal with
       | none => true
       | some cal => s.slotAllows cal e.pkt.src e.pkt.dst e.pkt.part e.pkt.tc slot))).map (fun e => pktVoq e.pkt)

/-- The first of `n` positions at or after `start`, cyclic, that meets `f`. -/
def firstCyclic (n start : Nat) (f : Nat → Bool) : Option Nat :=
  ((List.range n).map (fun k => (start + k) % n)).find? f

/-- The grant of output `o` among the requests `rs` of unmatched inputs (R171). -/
def grantOf (w : List Nat) (ps : PlaneSt) (rs : List Voq) (o : Nat) : PlaneSt × Option Voq :=
  let mine := rs.filter (fun v => v.o == o)
  if mine.isEmpty then (ps, none)
  else
    let tcs := mine.map (fun v => v.c)
    let dry := !tcs.contains 7 && !tcs.any (fun c => decide (0 < tget 0 ps.credit (o * 8 + c)))
    let ps1 := if dry then
        { ps with credit := (List.range 7).foldl (fun t c => tset t (o * 8 + c) (w.getD c 1)) ps.credit }
      else ps
    let c := if tcs.contains 7 then 7 else
      (firstCyclic 7 ((tget 0 ps1.tcptr o + 1) % 7)
        (fun c => tcs.contains c && decide (0 < tget 0 ps1.credit (o * 8 + c)))).getD 0
    let i := firstCyclic 80 (tget 0 ps1.gptr (o * 8 + c)) (fun i => mine.contains { i := i, o := o, c := c })
    (ps1, i.map (fun i => { i := i, o := o, c := c }))

/-- The grants of every output with requests, in rising order. -/
def grantsOf (w : List Nat) (ps : PlaneSt) (rs : List Voq) : PlaneSt × List Voq :=
  (List.range 80).foldl (fun a o =>
    let g := grantOf w a.1 rs o
    (g.1, match g.2 with | some v => a.2 ++ [v] | none => a.2)) (ps, [])

/-- The acceptance of input `i` among the grants; pointers move only in the first iteration (R171,
R172). -/
def acceptOf (first : Bool) (ps : PlaneSt) (gs : List Voq) (i : Nat) : PlaneSt × Option Voq :=
  let mine := gs.filter (fun v => v.i == i)
  let cand := if mine.any (fun v => v.c == 7) then mine.filter (fun v => v.c == 7) else mine
  match firstCyclic 80 (tget 0 ps.aptr i) (fun o => cand.any (fun v => v.o == o)) with
  | none => (ps, none)
  | some o =>
    match cand.find? (fun v => v.o == o) with
    | none => (ps, none)
    | some v =>
      let ps1 := if v.c ≤ 6 then { ps with credit := tmod 0 ps.credit (o * 8 + v.c) (· - 1) } else ps
      let ps2 := if first then
          { ps1 with
            gptr := tset ps1.gptr (o * 8 + v.c) ((i + 1) % 80)
            aptr := tset ps1.aptr i ((o + 1) % 80)
            tcptr := if v.c ≤ 6 then tset ps1.tcptr o v.c else ps1.tcptr }
        else ps1
      (ps2, some v)

/-- One iteration over the inputs and outputs still unmatched (R171). -/
def iteration (w : List Nat) (first : Bool) (a : PlaneSt × List Voq) (rs : List Voq) : PlaneSt × List Voq :=
  let free := rs.filter (fun v => !a.2.any (fun m => m.i == v.i || m.o == v.o))
  let g := grantsOf w a.1 free
  (List.range 80).foldl (fun b i =>
    let r := acceptOf first b.1 g.2 i
    (r.1, match r.2 with | some v => b.2 ++ [v] | none => b.2)) (g.1, a.2)

/-- Up to `n` iterations; the first moves the pointers. -/
def iterations (w : List Nat) (rs : List Voq) : Nat → Bool → PlaneSt × List Voq → PlaneSt × List Voq
  | 0, _, a => a
  | n + 1, first, a => iterations w rs n false (iteration w first a rs)

/-- Replace the first `k` of a list by `v`. -/
def replaceFirst (k v : Nat) : List Nat → List Nat
  | [] => []
  | x :: r => if x = k then v :: r else x :: replaceFirst k v r

/-- The head unmatched cell of VOQ `v` on plane `k` crosses (R171). -/
def crossOne (k : Nat) (v : Voq) : List QPkt → List QPkt
  | [] => []
  | e :: r =>
    if pktVoq e.pkt = v ∧ e.place ≠ .spilled ∧ e.planes.contains k then
      { e with planes := replaceFirst k (4 + k) e.planes } :: r
    else e :: crossOne k v r

/-- A cell waited on plane `k` for output `o` that could not take part (R513). -/
def State.slotBlocked (s : State) (k o : Nat) : Bool :=
  s.core.q.any (fun e => e.pkt.dst == o && e.planes.contains k && e.place != .spilled) &&
    !(s.requests k).any (fun v => v.o == o)

/-- The slot of plane `k` for output `o` that no queued cell took: a cell on its way to the spill region crosses in it, wasted; or
it is blocked, or starved (R513, log 90). -/
def State.idleSlot (s : State) (k o : Nat) (t : State) : State :=
  let c := k + 4 * (o - 64)
  if 64 ≤ o ∧ o < 68 ∧ t.core.spillOut.contains c then
    (t.modCore (fun x => { x with spillOut := x.spillOut.erase c })).count { block := 0x22 + k, event := 0x12, port := some o }
  else t.count { block := 0x22 + k, event := if s.slotBlocked k o then 0x14 else 0x13, port := some o }

/-- Count the cell time and the slots no cell of a queue crossed in (R508, R513). -/
def State.countSlots (s : State) (k : Nat) (matched : List Voq) : State :=
  let s1 := s.count { block := 0x22 + k, event := 0x10 }
  ((List.range 74).filter (fun o => s.portPresent o && !matched.any (fun v => v.o == o))).foldl (fun t o => s.idleSlot k o t) s1

/-- A plane that is leaving and has no assigned cell left leaves service (R170). -/
def State.planeDrained (s : State) (k : Nat) : State :=
  if (s.plane k).leaving ∧ !s.core.q.any (fun e => e.planes.contains k) then
    s.modPlane k (fun p => { p with inService := false, leaving := false })
  else s

/-- Plane `k` begins to leave service (R170). -/
def State.planeLeave (s : State) (k why : Nat) : State :=
  (s.modPlane k (fun p => { p with leaving := true, leaveFor := why })).planeDrained k

/-- Plane `k` returns to service at a cell boundary, its pointers and credits reset (R170). -/
def State.planeReturn (s : State) (k : Nat) : State :=
  s.modPlane k (fun p =>
    { p with inService := true, leaving := false, leaveFor := 0, gptr := [], aptr := [], tcptr := [], credit := [] })

/-- One cell time of plane `k`: matching, crossing and release (R169 to R174, R177). A change of the iteration count
takes effect at once, a calendar at slot 0 (R427). -/
def State.cellTime (s : State) (k : Nat) : State :=
  if !(s.plane k).inService then s
  else
    let s0 := s.modPlane k (fun p => { p with
      n := s.core.n
      cal := if !s.iso.strict then none else if p.cellNo % 32 = 0 then some s.sharedCalendar else p.cal })
    let rs := s0.requests k
    let m := iterations s.core.cfg.weight rs (s0.plane k).n true (s0.plane k, [])
    let s1 := s0.countSlots k m.2
    let s2 := s1.modPlane k (fun p =>
      { p with gptr := m.1.gptr, aptr := m.1.aptr, tcptr := m.1.tcptr, credit := m.1.credit, cellNo := p.cellNo + 1 })
    let s3 := s2.modCore (fun c => { c with q := m.2.foldl (fun q v => crossOne k v q) c.q })
    (s3.checkCells.releaseAll).planeDrained k

/-! ## Waiting packets -/

/-- The packets of bucket `b` toward module `m` that wait at an ingress for any reason wait for the move of their flow from now on,
and are routed again when it has ended (R188). -/
def State.waitForMove (s : State) (m b : Nat) : State :=
  s.modCore (fun c => { c with waiting := c.waiting.map (fun w =>
    if w.pkt.action = 1 ∧ w.pkt.dmod = m ∧ w.pkt.fhash % 16 = b then { w with why := .move } else w) })

/-- Route a waiting packet of a moved flow again: its destination link and path index are written
afresh, and nothing else (R188). -/
def State.reroute (s : State) (p : Pkt) : Pkt :=
  if p.action = 1 then
    match s.selectPath { p with ro := false } p.dmod with
    | .link l j _ => onLink p p.dmod l j
    | _ => p
  else p

/-- Try again to let in the `i`-th waiting packet; an earlier one of its VOQ keeps it waiting (R166). -/
def State.retryAdmission (s : State) (i : Nat) : State :=
  match s.core.waiting[i]? with
  | none => s
  | some w =>
    if (s.core.waiting.take i).any (fun x => voqOf x.pkt == voqOf w.pkt) ∨ s.planesIn.isEmpty then s
    else
      let p := if w.why = .move ∧ !s.flowMoving w.pkt then s.reroute w.pkt else w.pkt
      match s.verdict p w.n with
      | .put pl =>
        (s.modCore (fun k => { k with waiting := dropAt k.waiting i })).enqueue p (if p.more then w.n else p.cells) pl (s.cutsThrough p)
      | .wait y =>
        s.modCore (fun k => { k with waiting := lset k.waiting i { pkt := p, why := y, n := w.n, cut := false } })
      | .heldDrop => (s.modCore (fun k => { k with waiting := dropAt k.waiting i })).dropLossy p true
      | .drop => (s.modCore (fun k => { k with waiting := dropAt k.waiting i })).dropLossy p false

/-! ## Removal of held traffic (R187) -/

/-- Remove the queued packets meeting `f` that no egress has begun, and the waiting ones meeting `h`, each treated by `g`. -/
def State.removePkts (s : State) (f : QPkt → Bool) (h : WPkt → Bool) (g : State → Pkt → State) : State :=
  let mine (e : QPkt) : Bool := f e && !e.begun
  let gone := (s.core.q.filter mine).map (fun e => e.pkt) ++ (s.core.waiting.filter h).map (fun w => w.pkt)
  gone.foldl g (s.modCore (fun k =>
    { k with q := k.q.filter (fun e => !mine e), waiting := k.waiting.filter (fun w => !h w) }))

/-- A packet is held or spilled (R182, R185). -/
def State.heldOrSpilled (s : State) (e : QPkt) : Bool := s.heldOut e.pkt.dst || e.place == .spilled

/-- A P reset of partition `p` discards its held and spilled packets without answers (R187, R240). -/
def State.dropHeldOf (s : State) (p : Nat) : State :=
  s.removePkts (fun e => e.pkt.part == p && e.pkt.smod == s.own && s.heldOrSpilled e) (fun _ => false) (fun t k => t.discard k)

/-- Withdrawal of module `m` removes the held and spilled packets bound for it, and those that wait for spill space: requests are
answered, the rest dropped, each counted (R187). -/
def State.dropBoundFor (s : State) (m : Nat) : State :=
  let bound (k : Pkt) : Bool := k.action == 1 && k.dmod == m
  s.removePkts (fun e => bound e.pkt && s.heldOrSpilled e) (fun w => bound w.pkt && w.why == .spill) (fun t k =>
    ((t.modCore (fun c => { c with withdrawn := sat (2 ^ 32 - 1) c.withdrawn 1 })).raiseAt 0x38 1).refusePkt k)

/-- Append a redirected packet to the VOQ of its new path, keeping its cells' planes and charge (R188). -/
def State.appendMoved (s : State) (e : QPkt) : State :=
  let v := voqOf e.pkt
  let q := tget 0 s.core.pseq v
  s.modCore (fun c =>
    { c with q := c.q ++ [{ e with pkt := { e.pkt with pseq := q } }], pseq := tset c.pseq v ((q + 1) % 65536) })

/-- Redirect the packets of bucket `b` toward module `m` queued for link `old` to path `j` on link `l`,
in queue order, spilled ones and those the old link had not begun included: their cells have still to cross to the new
output (R188). -/
def State.redirect (s : State) (m b old l j : Nat) : State :=
  let mine (e : QPkt) : Bool :=
    e.pkt.action == 1 && e.pkt.dmod == m && e.pkt.fhash % 16 == b && e.pkt.dst == 40 + old && !e.begun
  let moved := s.core.q.filter mine
  moved.foldl (fun t e => t.appendMoved { e with pkt := onLink e.pkt m l j, planes := e.planes.map (· % 4), out := none })
    (s.modCore (fun c => { c with q := c.q.filter (fun e => !mine e) }))

/-! ## Packets whose cells still arrive (R178, R211, R220) -/

/-- Packet number `id` of core port `src` has cells still to come. -/
def growing (src id : Nat) (p : Pkt) : Bool := p.more && p.src == src && p.rxId == id

/-- The cells a queued packet has formed beyond those with a plane take the next ones of its input's rotation (R168). -/
def State.planeCells (s : State) (e : QPkt) : QPkt × State :=
  if e.place = .spilled then (e, s)
  else
    let ps := stripe s.planesIn (tget 0 s.core.rot e.pkt.src) (e.pkt.formedCells - e.planes.length)
    ({ e with planes := e.planes ++ ps },
     match ps.getLast? with
     | some l => s.modCore (fun k => { k with rot := tset k.rot e.pkt.src ((l + 1) % 4) })
     | none => s)

/-- Change the packet number `id` of core port `src` wherever it is in the core; a queued one forms its new cells, and returns those
it does not use once it is whole (R162). -/
def State.modGrowing (s : State) (src id : Nat) (f : Pkt → Pkt) : State :=
  let s1 := (s.modCore (fun c => { c with waiting := c.waiting.map (fun w =>
    if growing src id w.pkt then { w with pkt := f w.pkt } else w) })).modPort src (fun p =>
      { p with npWait := p.npWait.map (fun k => if growing src id k then f k else k) })
  match s1.core.q.find? (fun e => growing src id e.pkt) with
  | none => s1
  | some e =>
    let p := f e.pkt
    let r := s1.planeCells { e with pkt := p, n := if p.more then e.n else p.cells }
    r.2.modCore (fun c => { c with q := c.q.map (fun x => if growing src id x.pkt then r.1 else x) })

/-- More data of a packet arrives. -/
def State.growPkt (s : State) (src id : Nat) (data : Bytes) : State :=
  s.modGrowing src id (fun p => { p with data := p.data ++ data })

/-- A packet is whole. -/
def State.endPkt (s : State) (src id : Nat) (data : Bytes) : State :=
  s.modGrowing src id (fun p => { p with data := data, more := false })

/-- The ingress finds that a packet ends and is bad: its next cell is marked ABORT and LAST, and none follows (R180). -/
def State.cutPkt (s : State) (src id cause : Nat) : State :=
  s.modGrowing src id (fun p => { p with more := false, abort := true, abortCause := cause })

end Sys2Proof.Machine
end

