-- ==== Sys2Proof/Machine/Command.lean ====
section
/-! DEFINITION. The command frame, the order of its checks (R66 to R68), privileges (R74) and the
answer a command gives. -/

namespace Sys2Proof.Machine

open Sys2Proof

/-- Who issues a command, and on which partition it acts (R54, R74). -/
structure Who where
  /-- Path it came by. -/
  path : Path := .sideband
  /-- Attributed partition. -/
  caller : Nat := 0
  /-- Partition acted on: TARGET with ON_BEHALF, else the attributed partition. -/
  subject : Nat := 0
  /-- ON_BEHALF. -/
  onBehalf : Bool := false
  deriving DecidableEq, Repr, Inhabited

/-- A response field that counts or reflects the activity of more than one partition: in strict partition mode a host partition
reads 0 (R426). -/
def Who.shown (w : Who) (strict : Bool) (v : Nat) : Nat := if strict ∧ w.caller ≠ 0 then 0 else v

/-- What a command answers, with the state it leaves. -/
structure Ans where
  /-- STATUS. -/
  status : Nat := 0
  /-- DETAIL. -/
  detail : Nat := 0
  /-- Internal number of the handle; 0 for none. -/
  handle : Nat := 0
  /-- Response payload. -/
  payload : Bytes := []
  /-- What the response still waits for outside Ember. -/
  wait : Option RunWait := none
  /-- State after the command. -/
  s : State := {}
  deriving DecidableEq, Repr

/-- A refusal with status `rc`: nothing has changed. -/
def failWith (s : State) (rc : Nat) (detail : Nat := 0) : Ans := { status := rc, detail := detail, s := s }
/-- BAD_FIELD with the offset of the field at fault. -/
def bad (s : State) (off : Nat) : Ans := failWith s rcBadField off
/-- DENIED. -/
def deny (s : State) : Ans := failWith s rcDenied
/-- OK with a payload. -/
def ok (s : State) (payload : Bytes := []) : Ans := { status := rcOk, payload := payload, s := s }
/-- PENDING under handle `h`. -/
def pend (s : State) (h : Nat) (payload : Bytes := []) : Ans :=
  { status := rcPending, handle := h, payload := payload, s := s }

/-- Offset of the first field that fails its check; fields are listed by rising offset. -/
def firstBad : List (Nat × Bool) → Option Nat
  | [] => none
  | (off, good) :: r => if good then firstBad r else some off

/-- A command of firmware 3.2: its opcode, the lengths its definition allows (R67 order 6), who may
issue it (order 5) and what it does from order 7 on. -/
structure Cmd where
  /-- OPCODE. -/
  op : Nat
  /-- LENGTH agrees with the definition. -/
  lenOk : Req → Bool
  /-- The attributed partition may issue it. -/
  allowed : Who → Req → State → Bool
  /-- Orders 7 to 10. -/
  body : Who → Req → State → Ans

/-- LENGTH must equal `n`. -/
def lenIs (n : Nat) (q : Req) : Bool := q.length == n

/-- Every partition may issue the command. -/
def anyone (_ : Who) (_ : Req) (_ : State) : Bool := true
/-- Only partition 0 may issue it. -/
def onlyZero (w : Who) (_ : Req) (_ : State) : Bool := w.caller == 0
/-- Partition `p` holds fabric-administration rights (R429, DEVICE_INFO CALLER_FLAGS). -/
def State.isAdmin (s : State) (p : Nat) : Bool := p == 0 || (s.partCfg p).fabricAdmin
/-- Partition 0, and a partition holding fabric-administration rights (R226). -/
def fabricAdmins (w : Who) (_ : Req) (s : State) : Bool := s.isAdmin w.caller

/-- Partition `p` may open one more handle (R69). -/
def State.handleFree (s : State) (p : Nat) : Bool := s.openHandles p < 16

/-- Opcodes allowed in Smoulder mode (R68). -/
def smoulderAllows (op : Nat) : Bool :=
  op == 0x0100 || op == 0x0101 || op == 0x0102 || op == 0x0103 || op / 256 == 0x0C

/-- The header fields of order 3: offset of the first at fault. -/
def headerFault (q : Req) : Option Nat :=
  firstBad [(0x02, q.flags / 4 == 0),
    (0x0C, if q.onBehalf then decide (q.target < 32) else q.target == 0),
    (0x0D, q.rsvd == 0)]

/-- Who a frame from partition `p` on path `c` stands for. -/
def whoOf (c : Path) (p : Nat) (q : Req) : Who :=
  { path := c, caller := p, subject := if q.onBehalf then q.target else p, onBehalf := q.onBehalf }

/-- Checks 1 and 3 to 6 in order, then the command (R67). -/
def runCmd (k : Cmd) (c : Path) (p : Nat) (q : Req) (s : State) : Ans :=
  let w := whoOf c p q
  if 4064 < q.length ∨ q.length % 4 ≠ 0 then failWith s rcBadLength
  else match headerFault q with
    | some off => bad s off
    | none =>
      if s.ember.smoulder ∧ !smoulderAllows k.op then failWith s rcNotReady
      else if (w.onBehalf ∧ w.caller ≠ 0) ∨ !k.allowed w q s then deny s
      else if !k.lenOk q then failWith s rcBadLength
      else k.body w q s

/-- The partition a path attributes its commands to; none while the path does not exist (R54, R56). -/
def State.partOf (s : State) (c : Path) : Option Nat :=
  match c with
  | .page p => if (s.vs p).up.isSome ∧ p < 32 then some p else none
  | .vdm p => if (s.vs p).up.isSome ∧ p < 32 then some p else none
  | .sideband => some 0
  | .hearth cl => if (s.cluster cl).part < 32 ∧ cl < 4 then some (s.cluster cl).part else none
  | .relay _ => some 0

/-- Queue position of a path (R72). -/
def posOf : Path → Nat
  | .page p => p
  | .hearth c => 32 + c
  | .vdm p => 64 + p
  | .sideband => 96
  | .relay m => 128 + m

/-- The response frame an answer forms (R66). -/
def rspOf (op : Nat) (tag : BitVec 32) (a : Ans) : Rsp :=
  { opcode := op, status := a.status, tag := tag, detail := a.detail,
    handle := if a.handle = 0 then 0 else handleNumber a.handle, payload := a.payload }

/-- The body of a response message: message type, vendor ID, command set and the frame (R76). -/
def Rsp.message (r : Rsp) : Bytes := [0x7E] ++ (leBytes 2 Config.vendorId.toNat).reverse ++ [1] ++ r.bytes

/-- Keep the last response formed, and send it where the path carries messages (R78, R245). -/
def State.respond (s : State) (c : Path) (msgTag : Nat) (r : Rsp) : State :=
  let s1 := s.modEmber (fun e => { e with lastRsp := r })
  match c with
  | .page _ => s1
  | .hearth _ => s1
  | .relay m => s1.control m (.relayRsp msgTag r.bytes)
  | _ => s1.emit (.response c msgTag r.message)

/-- The state after a command, with the command counted when it passed every check (R508, R67). -/
def Ans.counted (a : Ans) (p : Nat) : State :=
  if a.status ≤ rcDrainPending then a.s.count { block := 0x32, event := 0x10, part := some p } else a.s

/-- A command's answer is returned, or the command is left running for what it waits for. -/
def Ans.deliver (a : Ans) (c : Path) (p op : Nat) (q : Req) (msgTag : Nat) : State :=
  match a.wait with
  | none => (a.counted p).respond c msgTag (rspOf op q.tag a)
  | some w =>
    let r : RunCmd := { pos := posOf c, path := c, opcode := op, tag := q.tag, noInt := q.noInt,
                        msgTag := msgTag, wait := w }
    (a.counted p).modEmber (fun e => { e with running := tset e.running p r })

/-- Ember executes command `k` arriving on path `c`; nothing executes while the mailbox service does not run,
the path does not exist (R54, R56) or another command of its partition is executing (R72). -/
def direct (k : Cmd) (c : Path) (q : Req) (s : State) : State :=
  if !s.ember.fwReady then s
  else match s.partOf c with
    | none => s
    | some p =>
      if (tlook s.ember.running p).isSome then s else (runCmd k c p q s).deliver c p k.op q 0

end Sys2Proof.Machine
end

