-- ==== Sys2Proof/Machine/MailOps.lean ====
section
/-! DEFINITION. Mailbox pages: writing a response, orphan reports, resets of a page (R61 to R63, R86), and
the end of a command that waited outside Ember (R65). -/

namespace Sys2Proof.Machine

open Sys2Proof

/-- Set or clear the machine external interrupt of core 0 of cluster `c`: MEIP of its `mip` (R394). -/
def State.setMeip (s : State) (c : Nat) (on : Bool) : State :=
  s.modHcore c 0 (fun k =>
    let v := tget 0 k.csr 0x344
    { k with csr := tset k.csr 0x344 (if on then v ||| 0x800 else v &&& ~~~0x800#64) })

/-- Response written to page `pg`: buffer, DONE_SEQ, DONE_INT, and vector 0 of a partition or the
external interrupt of core 0 of a cluster (R62, R63, R394). -/
def State.pageDone (s : State) (pg : Nat) (noInt : Bool) (r : Rsp) : State :=
  let s1 := s.modPage pg (fun g =>
    { g with st := .done, doneSeq := g.doneSeq + 1, doneInt := true, rspBuf := mwrite 0 g.rspBuf 0 r.bytes })
  if (s.page pg).intEn ∧ !noInt then
    if pg < 32 then s1.msix pg 0 else s1.setMeip (pg - 32) true
  else s1

/-- A command that ends after a reset of its page: the orphan registers are loaded (R62). -/
def State.pageOrphan (s : State) (pg : Nat) (r : Rsp) : State :=
  s.modPage pg (fun g =>
    { g with st := .idle, orphan := true, orphanTag := r.tag, orphanOp := BitVec.ofNat 16 r.opcode,
             orphanStatus := BitVec.ofNat 16 r.status })

/-- A committed page command ends: its response is written, or reported as an orphan when the page was
reset meanwhile (R62). -/
def State.pageEnd (s : State) (pg : Nat) (noInt : Bool) (r : Rsp) : State :=
  match (s.page pg).st with
  | .busy => s.pageDone pg noInt r
  | .resetting => s.pageOrphan pg r
  | _ => s

/-- The response of a command reaches its path: a page, or a message (R54). -/
def State.reply (s : State) (c : Path) (msgTag : Nat) (noInt : Bool) (r : Rsp) : State :=
  let s1 := s.respond c msgTag r
  match c with
  | .page p => s1.pageEnd p noInt r
  | .hearth k => s1.pageEnd (32 + k) noInt r
  | _ => s1

/-- The command of partition `p` that waits outside Ember ends with this answer (R65, R140). -/
def State.finishRun (s : State) (p status handle : Nat) (payload : Bytes) : State :=
  match tlook s.ember.running p with
  | none => s
  | some r =>
    (s.modEmber (fun e => { e with running := tdel e.running p })).reply r.path r.msgTag r.noInt
      { opcode := r.opcode, status := status, tag := r.tag,
        handle := if handle = 0 then 0 else handleNumber handle, payload := payload }

/-- P reset of page `pg` (R62, R86): every P field takes its reset value, a queued command is discarded,
and a committed one goes on as an orphan. -/
def Page.pReset (g : Page) : Page :=
  { g with
    st := if g.st = .busy ∨ g.st = .resetting then .resetting else .idle
    doneSeq := 0, dbErr := false, doneInt := false, intEn := false }

/-- P reset of partition `p`'s page; a queued command leaves its position (R62). -/
def State.pagePReset (s : State) (p : Nat) : State :=
  (s.modPage p Page.pReset).modEmber (fun e => { e with arrivals := e.arrivals.filter (fun a => a != p) })

/-- W reset of every page (R61, R80): all but the buffers. -/
def Page.wReset (g : Page) : Page := { cmdBuf := g.cmdBuf, rspBuf := g.rspBuf }

end Sys2Proof.Machine
end

