-- ==== Sys2Proof/Machine/WinOps.lean ====
section
/-! DEFINITION. The translation store: entry fields (R128 to R130), lookups (R131 to R135, R143), commits
with their epoch and drain trackers (R137, R140), owners of ranges (R148, R149) and the invalidation of
dependent entries (R142). -/

namespace Sys2Proof.Machine

open Sys2Proof

/-! ## Entry fields -/

/-- A 256-bit entry of the store. -/
abbrev Entry := BitVec 256

/-- Bits `[hi:lo]` of an entry. -/
def eBits (e : Entry) (hi lo : Nat) : Nat := bits e.toNat hi lo
/-- The entry with bits `[hi:lo]` replaced. -/
def eSet (e : Entry) (hi lo v : Nat) : Entry :=
  BitVec.ofNat 256 (e.toNat - eBits e hi lo * 2 ^ lo + v % 2 ^ (hi + 1 - lo) * 2 ^ lo)

/-- VALID. -/
def eValid (e : Entry) : Bool := bit e.toNat 0
/-- KIND. -/
def eKind (e : Entry) : Nat := eBits e 5 3
/-- LOCK. -/
def eLock (e : Entry) : Bool := bit e.toNat 128
/-- EMBER. -/
def eEmber (e : Entry) : Bool := bit e.toNat 129
/-- SIZE of a window or grant. -/
def eSize (e : Entry) : Nat := eBits e 11 6
/-- First input address of a window; first address of a grant's range. -/
def eIn (e : Entry) : Nat := eBits e 63 12 * 4096
/-- First fabric address of a window's output range. -/
def eOut (e : Entry) : Nat := eBits e 127 76 * 4096
/-- READ, WRITE and ATOMIC as bits 0 to 2. -/
def ePerm (e : Entry) : Nat := eBits e 66 64
/-- OWNER of a window. -/
def eOwner (e : Entry) : Nat := eBits e 191 187
/-- GRANT_VALID. -/
def eGrantV (e : Entry) : Bool := bit e.toNat 186
/-- GRANT_IDX. -/
def eGrantIdx (e : Entry) : Nat := eBits e 185 174
/-- GRANTOR of a grant; PARTITION of an ID map entry. -/
def ePartHi (e : Entry) : Nat := eBits e 127 123
/-- GRANTEE of a grant. -/
def eGrantee (e : Entry) : Nat := eBits e 122 118
/-- APPROVED of a grant. -/
def eApproved (e : Entry) : Bool := bit e.toNat 1
/-- VRID of an ID map entry. -/
def eVrid (e : Entry) : Nat := eBits e 122 107
/-- VPASID. -/
def eVpasid (e : Entry) : Nat := eBits e 106 87
/-- RID. -/
def eRid (e : Entry) : Nat := eBits e 63 48
/-- SPAN. -/
def eSpan (e : Entry) : Nat := eBits e 47 44
/-- PORT. -/
def ePort (e : Entry) : Nat := eBits e 43 38
/-- PASID_MODE. -/
def ePmode (e : Entry) : Nat := eBits e 37 36
/-- PASID. -/
def ePasid (e : Entry) : Nat := eBits e 35 16

/-! ## Places in the store (R126) -/

/-- Key of entry `i` of a table and scope. -/
def winKey (table scope i : Nat) : Nat :=
  match table with
  | 1 => scope * 256 + i
  | 2 => 8192 + scope * 1024 + i
  | 3 => 49152 + i
  | 4 => 57344 + i
  | _ => 61440 + scope

/-- Entries per scope. -/
def winCount (table : Nat) : Nat :=
  match table with
  | 1 => 256
  | 2 => 1024
  | 3 => 8192
  | 4 => 4096
  | _ => 1

/-- Table of a key. -/
def tableOfKey (k : Nat) : Nat :=
  if k < 8192 then 1 else if k < 49152 then 2 else if k < 57344 then 3 else if k < 61440 then 4 else 5

/-- Index of a key within its scope. -/
def indexOfKey (k : Nat) : Nat :=
  match tableOfKey k with
  | 1 => k % 256
  | 2 => (k - 8192) % 1024
  | 3 => k - 49152
  | 4 => k - 57344
  | _ => 0

/-- Scope of a key. -/
def scopeOfKey (k : Nat) : Nat :=
  match tableOfKey k with
  | 1 => k / 256
  | 2 => (k - 8192) / 1024
  | 5 => k - 61440
  | _ => 0

/-- A bank of the store. -/
abbrev Bank := Tab Entry

/-- The active bank, sampled once by each lookup (R127). -/
def Win.bank (w : Win) : Bank := if w.active then w.bank1 else w.bank0

/-- Entry at key `k` of a bank. -/
def bankGet (b : Bank) (k : Nat) : Entry := tget 0 b k

/-- The valid entries of a table and scope, with their keys. -/
def bankScope (b : Bank) (table scope : Nat) : List (Nat × Entry) :=
  b.filter (fun e => tableOfKey e.1 == table && scopeOfKey e.1 == scope && eValid e.2)

/-! ## Lookup -/

/-- The address lies in the window's input range (R132). -/
def winHit (e : Entry) (a : Nat) : Bool := decide (eIn e ≤ a ∧ a < eIn e + 2 ^ eSize e)

/-- The host-side window of partition `p` for address `a`: its ROM window, then its host windows (R135). -/
def hostWindow (b : Bank) (p a : Nat) : Option Entry :=
  match (bankScope b 5 p).find? (fun e => winHit e.2 a) with
  | some e => some e.2
  | none => ((bankScope b 1 p).find? (fun e => winHit e.2 a)).map (fun e => e.2)

/-- The device requester window of port `n` owned by `p` for address `a` (R135). -/
def deviceWindow (b : Bank) (n p a : Nat) : Option Entry :=
  ((bankScope b 2 n).find? (fun e => eOwner e.2 == p && winHit e.2 a)).map (fun e => e.2)

/-- The ID map entry for a requester on port `n`; an exact PASID takes precedence (R143). -/
def idMatch (b : Bank) (n rid : Nat) (pasid : Option Nat) : Option Entry :=
  let es := (bankScope b 3 0).filter (fun e =>
    ePort e.2 == n && decide (eRid e.2 ≤ rid ∧ rid < eRid e.2 + 2 ^ eSpan e.2))
  match es.find? (fun e => ePmode e.2 == 1 && pasid == some (ePasid e.2)) with
  | some e => some e.2
  | none => (es.find? (fun e => ePmode e.2 == 0)).map (fun e => e.2)

/-- The fabric address a window gives (R132). -/
def winFaddr (e : Entry) (a : Nat) : Word := BitVec.ofNat 64 (eOut e + (a - eIn e))

/-- The whole request lies in the window (R132). -/
def winHolds (e : Entry) (a len : Nat) : Bool := decide (a + len ≤ eIn e + 2 ^ eSize e)

/-- The ID map entry that carries virtual routing ID `v` in partition `p` (R143). -/
def vridMatch (b : Bank) (p v : Nat) (pasid : Option Nat) : Option Entry :=
  let es := (bankScope b 3 0).filter (fun e =>
    ePartHi e.2 == p && decide (eVrid e.2 ≤ v ∧ v < eVrid e.2 + 2 ^ eSpan e.2))
  match es.find? (fun e => ePmode e.2 == 1 && pasid == some (eVpasid e.2)) with
  | some e => some e.2
  | none => (es.find? (fun e => ePmode e.2 == 0)).map (fun e => e.2)

/-- Entry `f` is a PASID_MODE 0 entry of the port and partition of `e` whose range holds that of `e` (R144). -/
def idHolds (f e : Entry) : Bool :=
  eValid f && ePmode f == 0 && ePort f == ePort e && ePartHi f == ePartHi e &&
    decide (eRid f ≤ eRid e ∧ eRid e + 2 ^ eSpan e ≤ eRid f + 2 ^ eSpan f)

/-! ## Drain trackers (R140) -/

/-- Every count of a tracker is zero. -/
def Tracker.empty (t : Tracker) : Bool := t.counts.all (fun e => e.2 == 0)

/-- A drain is complete: no tracker that counts packets of its commit or an earlier one still counts a
packet of its partitions (R140). -/
def Win.drainDone (w : Win) (d : Drain) : Bool :=
  w.trackers.all (fun e =>
    e.2.free || e.2.isOpen || e.2.names.all (fun n => decide (d.tracker < n)) ||
      d.parts.all (fun p => tget 0 e.2.counts p == 0))

/-- Free the closed trackers whose counts have all reached zero (R140). -/
def Win.freeTrackers (w : Win) : Win :=
  { w with trackers := tmap w.trackers (fun _ t =>
      if !t.free ∧ !t.isOpen ∧ t.empty then { free := true } else t) }

/-- Numbers of the free trackers. -/
def Win.freeSlots (w : Win) : List Nat := (List.range 8).filter (fun i => (tget {} w.trackers i).free)

/-- Insert a tracker number into a list ordered by age. -/
def insertByAge (ts : Tab Tracker) (i : Nat) : List Nat → List Nat
  | [] => [i]
  | j :: r => if (tget {} ts i).age < (tget {} ts j).age then i :: j :: r else j :: insertByAge ts i r

/-- The closed trackers by rising order of opening. -/
def Win.closedByAge (w : Win) : List Nat :=
  ((List.range 8).filter (fun i => !(tget {} w.trackers i).free && !(tget {} w.trackers i).isOpen)).foldl
    (fun l i => insertByAge w.trackers i l) []

/-- Merge the two oldest closed trackers into one (R140). -/
def Win.mergeOldest (w : Win) : Win :=
  match w.closedByAge with
  | a :: b :: _ =>
    let ta := tget {} w.trackers a
    let tb := tget {} w.trackers b
    let counts := ta.counts.foldl (fun c e => tmod 0 c e.1 (· + e.2)) tb.counts
    { w with trackers := tset (tset w.trackers b { tb with counts := counts, names := ta.names ++ tb.names }) a {} }
  | _ => w

/-- Close the open tracker and open a new one (R140): the order of the closed one, and the store. -/
def Win.turnTracker (w : Win) : Nat × Win :=
  let closed := match w.trackers.find? (fun e => e.2.isOpen) with | some e => e.2.age | none => 0
  let w1 := { w with trackers := tmap w.trackers (fun _ t => { t with isOpen := false }) }
  let w2 := if w1.freeSlots.isEmpty then w1.mergeOldest else w1
  let slot := w2.freeSlots.headD 0
  (closed,
   { w2 with
     trackers := tset w2.trackers slot { free := false, isOpen := true, names := [w2.trackSeq], age := w2.trackSeq }
     trackSeq := w2.trackSeq + 1 })

/-- The order of the open tracker, which new lookups name (R140). -/
def Win.openTracker (w : Win) : Nat :=
  match w.trackers.find? (fun e => e.2.isOpen) with | some e => e.2.age | none => 0

/-! ## Commit -/

/-- Partition owning an entry: OWNER of a window, PARTITION of an ID map entry, GRANTOR of a grant. -/
def entryOwner (table : Nat) (e : Entry) : Nat :=
  match table with
  | 3 => ePartHi e
  | 4 => ePartHi e
  | _ => eOwner e

/-- Apply writes to a bank, each stamped with the epoch of the commit. -/
def bankApply (b : Bank) (epoch : BitVec 16) (ws : List (Nat × Entry)) : Bank :=
  ws.foldl (fun b w => tset b w.1 (eSet w.2 207 192 epoch.toNat)) b

/-- One commit of the writes `ws`: both banks hold the result, the pointer moves, EPOCH advances, each
written entry's stamp rises, and the drain trackers turn (R127, R137, R140). Answers the order of the
tracker it closed. -/
def Win.commit (w : Win) (ws : List (Nat × Entry)) : Nat × Win :=
  let ep := w.epoch + 1
  let nb := bankApply w.bank ep ws
  let t := Win.turnTracker
    { w with
      bank0 := nb, bank1 := nb, active := !w.active, epoch := ep
      stamps := ws.foldl (fun t e => tmod 0 t e.1 (· + 1)) w.stamps }
  (t.1, t.2)

/-- A commit Ember makes of its own accord (R137). -/
def State.emberCommit (s : State) (ws : List (Nat × Entry)) : State :=
  s.modWin (fun w => (w.commit ws).2.freeTrackers)

/-- An entry made invalid; one of Ember's own is free for others from then on (R141). -/
def invalidated (e : Entry) : Entry := eSet (eSet e 0 0 0) 129 129 0

/-! ## Ranges and their owners (R148, R149) -/

/-- The range of 2^SIZE bytes from `base` lies in one class of one module, and obeys the layout of its
class at both ends (R30, R131). -/
def rangeWhole (base size : Nat) : Bool :=
  let a : Word := BitVec.ofNat 64 base
  let z : Word := BitVec.ofNat 64 (base + 2 ^ size - 1)
  faModule a == faModule z && faClass a == faClass z && faWellFormed a && faWellFormed z &&
    decide (base + 2 ^ size ≤ 2 ^ 64)

/-- Partition owning group `g`: its instance's owner, else the partition whose group block holds it
(R148, log 29). -/
def State.groupOwner (s : State) (g : Nat) : Option Nat :=
  match s.inst g with
  | some i => some (bits i.desc.toNat 16 12)
  | none => (s.rt.blocks.find? (fun e => decide (e.2.gbase ≤ g ∧ g < e.2.gbase + e.2.gcount))).map (fun e => e.1)

/-- Owner of sod `n` (R148, R266). -/
def State.sodOwner (s : State) (n : Nat) : Option Nat :=
  let d := s.sod n
  if d.st ≠ .assigned then none else if d.kind = 3 then some 0 else some d.target

/-- The partition to which function `vf` of a shared port is bound. -/
def State.vfOwner (s : State) (port vf : Nat) : Option Nat :=
  (s.vdsps.find? (fun e => (e.2.kind == 2) && e.2.port == port && e.2.st != .empty &&
    decide (e.2.first ≤ vf ∧ vf < e.2.first + e.2.count))).map (fun e => e.1 / 64)

/-- Every resource the range from `base` covers is owned by `p` (R148). DESIGN CHOICE (log 73): a class 0x4 range, which R148
does not name, belongs to the partition in its address (R29). -/
def State.ownsRange (s : State) (p base size : Nat) : Bool :=
  let a : Word := BitVec.ofNat 64 base
  let z : Word := BitVec.ofNat 64 (base + 2 ^ size - 1)
  if faModule a ≠ s.own then false
  else match faClass a with
    | 0 => (List.range (faSod z + 1 - faSod a)).all (fun k => s.sodOwner (faSod a + k) == some p)
    | 1 =>
      match (s.port (faPort a)).mode with
      | .exclusive => faPort a == faPort z && s.exclusiveOwner (faPort a) == some p
      | .shared _ _ _ => faPort a == faPort z &&
          (List.range (2 ^ (size - 12))).all (fun k =>
            s.vfOwner (faPort a) (Config.barFunction (faPort a) (faPcie a / 4096 + k)) == some p)
      | .unassigned => false
    | 2 => (List.range (faGroup z + 1 - faGroup a)).all (fun k => s.groupOwner (faGroup a + k) == some p)
    | 3 => faFn a == faFn z && (match s.vnic (faFn a) with | some v => v.part == p | none => false)
    | 4 => faPart a == p && faPart z == p
    | 5 => p == 0
    | _ => false

/-- Two ranges share a byte. -/
def rangesTouch (b1 n1 b2 n2 : Nat) : Bool := decide (b1 < b2 + n2 ∧ b2 < b1 + n1)

/-! ## Dependent invalidation (R142) -/

/-- Keys of the valid windows and grants whose output or target range touches `[base, base + len)`. -/
def touching (b : Bank) (base len : Nat) : List Nat :=
  (b.filter (fun e => eValid e.2 &&
    (match tableOfKey e.1 with
     | 1 => rangesTouch (eOut e.2) (2 ^ eSize e.2) base len
     | 2 => rangesTouch (eOut e.2) (2 ^ eSize e.2) base len
     | 4 => rangesTouch (eIn e.2) (2 ^ eSize e.2) base len
     | _ => false))).map (fun e => e.1)

/-- Keys of the valid windows that depend on one of the grants `gs`, given by index. -/
def dependents (b : Bank) (gs : List Nat) : List Nat :=
  (b.filter (fun e => (tableOfKey e.1 == 1 || tableOfKey e.1 == 2) && eValid e.2 && eGrantV e.2 &&
    gs.contains (eGrantIdx e.2))).map (fun e => e.1)

/-- The keys with the windows that depend on the grants among them. -/
def withDependents (b : Bank) (ks : List Nat) : List Nat :=
  ks ++ (dependents b ((ks.filter (fun k => tableOfKey k == 4)).map indexOfKey)).filter (fun k => !ks.contains k)

/-- Tell the owner of each entry that it was invalidated (R142, event 0x802). -/
def State.tellInvalidated (s : State) (b : Bank) (ks : List Nat) : State :=
  ks.foldl (fun t k =>
    t.event 0x802 [entryOwner (tableOfKey k) (bankGet b k)]
      (tableOfKey k + indexOfKey k * 2 ^ 8 + 1 * 2 ^ 24)) s

/-- Invalidate entries and everything that depends on them in one commit, and tell their owners (R142).
Nothing is committed when there is nothing to invalidate. -/
def State.invalidateKeys (s : State) (ks : List Nat) : State :=
  let b := s.win.bank
  let all := withDependents b ks
  if all.isEmpty then s
  else (s.emberCommit (all.map (fun k => (k, invalidated (bankGet b k))))).tellInvalidated b all

/-- Invalidate the windows and grants that touch a range of fabric addresses (R142). -/
def State.invalidateRange (s : State) (base len : Nat) : State :=
  s.invalidateKeys (touching s.win.bank base len)

/-! ## Drains -/

/-- Response payload of a commit that completed: EPOCH, operations applied and entries invalidated. -/
def Drain.reply (d : Drain) : Bytes :=
  leBytes 2 d.epoch.toNat ++ leBytes 2 d.applied ++ leBytes 2 d.inval ++ [0, 0]

/-- End the handles of the drains that are complete, and forget them (R140). -/
def State.settleDrains (s : State) : State :=
  let done := s.win.drains.filter s.win.drainDone
  let s1 := s.modWin (fun w => (Win.freeTrackers { w with drains := w.drains.filter (fun d => !w.drainDone d) }))
  done.foldl (fun t d =>
    if d.handle = 0 then t.finishRun d.part rcOk 0 d.reply else t.endHandle d.handle rcOk) s1

end Sys2Proof.Machine
end

