-- ==== Sys2Proof/Machine/PortOps.lean ====
section
/-! DEFINITION. PCIe ports: tags and their records (R96, R102 to R105), non-posted slots (R97), egress of
TLPs (R95, R99, R123), completions (R96), and links going up and down (R104, R115). -/

namespace Sys2Proof.Machine

open Sys2Proof

/-! ## Tags -/

/-- First tag and number of tags of a port's pool (R96). -/
def Port.pool (p : Port) : Nat × Nat := if p.dev.tag10 then (0x100, 0x300) else (0, 0x100)

/-- The lowest tag neither outstanding nor in quarantine. -/
def Port.freeTag (p : Port) : Option Nat :=
  ((List.range p.pool.2).map (fun k => p.pool.1 + k)).find? (fun t =>
    !p.tags.any (fun r => r.tag == t) && !p.quar.any (fun q => q.1 == t))

/-- The request a tag record stands for, as its answer sees it: original requester, tag, partition,
class and return port (R96). -/
def TagRec.req (r : TagRec) (n : Nat) : Pkt :=
  { part := r.part, smod := r.smod, src := r.src, sport := r.retPort, dst := n, tc := r.tc,
    desc := ({ rid := r.rid, tag := r.origTag, opc := opcMRd } : Desc).encode }

/-- A late or unwanted completion: LATE_CPL and the corrected source of the station's block (R103, R105). -/
def State.lateCpl (s : State) (n : Nat) (attr : Option Nat) : State :=
  (s.modPort n (fun p => { p with lateCpl := sat (2 ^ 32 - 1) p.lateCpl 1 })).raiseAt (n / 4) 3 attr (some n)

/-- Two names of functions of one port mean a common function; 0xFFFF means the whole device (R152). -/
def sameFn (a b : Nat) : Bool := a == b || a == 0xFFFF || b == 0xFFFF

/-- Whether a fence time of one of `fs` has not passed. -/
def State.fenced (s : State) (fs : List (Nat × Nat)) : Bool :=
  s.win.fences.any (fun f => fs.any (fun g => g.1 == f.port && sameFn g.2 f.fn))

/-- Port and function of every bound function that the request of record `r` at port `n` comes from or goes to (R151). -/
def State.recFns (s : State) (n : Nat) (r : TagRec) : List (Nat × Nat) :=
  s.vdsps.flatMap (fun e =>
    let v := e.2
    if r.smod ≠ s.own ∨ e.1 / 64 ≠ r.part ∨ v.st = .empty then []
    else match v.kind with
      | 1 => if v.port = r.src ∨ v.port = n then [(v.port, 0xFFFF)] else []
      | 2 =>
        (if v.port = r.src ∧ r.rid / 256 = v.bus (e.1 / 64) (e.1 % 64) then [(v.port, v.first + r.rid % 256)] else []) ++
        (if v.port = n ∧ v.first ≤ r.tfn ∧ r.tfn < v.first + v.count then [(n, r.tfn)] else [])
      | _ => [])

/-- A function of `fs` is being unbound, or its fence time has not passed (R151). -/
def State.leavingFns (s : State) (fs : List (Nat × Nat)) : Bool :=
  s.fenced fs || s.vdsps.any (fun e => e.2.st == .removing && fs.any (fun g => g.1 == e.2.port &&
    (e.2.kind == 1 || (e.2.kind == 2 && decide (e.2.first ≤ g.2 ∧ g.2 < e.2.first + e.2.count)))))

/-- The record of a request answered by this module is quarantined with its tag, for twice the timeout in
force when it was issued (R103), and kept with the functions it concerns (R151). -/
def State.retireTag (s : State) (n : Nat) (r : TagRec) : State :=
  let fs := s.recFns n r
  s.modPort n (fun p =>
    { p with tags := p.tags.filter (fun x => x.tag != r.tag), quar := p.quar ++ [(r.tag, 2 * r.cto)],
             kept := if fs.isEmpty then p.kept else p.kept ++ [{ r with fns := fs }] })

/-- A request outstanding at port `n` is answered by the module with `status`. -/
def State.answerTag (s : State) (n : Nat) (r : TagRec) (status : Nat) : State :=
  (s.retireTag n r).complete (r.req n) status [] false

/-- Every request outstanding at port `n` is answered with Unsupported Request at once (R104). -/
def State.answerTags (s : State) (n : Nat) : State :=
  (s.port n).tags.foldl (fun t r => t.answerTag n r csUr) s

/-! ## Non-posted slots (R97) -/

/-- Non-posted slots of egress port `e` in use by requests meeting `f` of their return port. -/
def State.slotsUsed (s : State) (e : Nat) (f : Nat → Bool) : Nat :=
  let mine (k : Pkt) : Bool := k.nonPosted && k.dst == e && f k.src
  (s.port e).tags.countP (fun r => f r.src) + (s.port e).egress.countP mine +
    s.core.q.countP (fun q => mine q.pkt) + s.core.waiting.countP (fun w => mine w.pkt)

/-- A slot of egress port `e` is free for a request from core port `i` (R97). -/
def State.slotFree (s : State) (e i : Nat) : Bool :=
  decide (s.slotsUsed e (fun _ => true) < 1024) && decide (s.slotsUsed e (fun k => k == i) < 256)

/-- The ingress queue of port `n` for non-posted requests is full: the port withholds non-posted credits, so its partner sends
none (R97). The specification gives the queue no size (log 74). -/
def State.npFull (s : State) (n : Nat) : Bool := decide (Config.npQueue + 1 ≤ (s.port n).npWait.length)

/-- Port `n` withholds credits for requests of one kind, posted or non-posted: as many of that kind wait for admission as it can stage,
or the queue for non-posted requests is full, so its link partner sends none (R97, R165, log 80). Completion credits are never
withheld (R98). -/
def State.noCredit (s : State) (n : Nat) (asks : Bool) : Bool :=
  (asks && s.npFull n) ||
    decide (Config.staging n + 1 ≤ s.waitingAt n (fun p => p.ptype != 1 && p.nonPosted == asks))

/-- A request or posted packet enters the core from its ingress, in order of lookup (R265): a non-posted
request for a PCIe port waits there until it has a slot (R97). -/
def State.submit (s0 : State) (p0 : Pkt) : State :=
  let p := { p0 with order := s0.core.lookups }
  let s := s0.modCore (fun k => { k with lookups := k.lookups + 1 })
  if p.nonPosted ∧ p.dst < 40 then
    if s.slotFree p.dst p.src ∧ !(s.port p.src).npWait.any (fun k => k.dst == p.dst) then s.enterCore p
    else
      let t := s.modPort p.src (fun k => { k with npWait := k.npWait ++ [p] })
      if p.src < 40 then t.count { block := p.src / 4, event := 0x14, part := some p.part, port := some p.src } else t
  else s.enterCore p

/-- The `i`-th request waiting at port `n` reserves its slot, when one is free and no earlier one waits
for the same egress port (R97). -/
def State.npReserve (s : State) (n i : Nat) : State :=
  match (s.port n).npWait[i]? with
  | none => s
  | some p =>
    if s.slotFree p.dst n ∧ !((s.port n).npWait.take i).any (fun k => k.dst == p.dst) then
      (s.modPort n (fun k => { k with npWait := dropAt k.npWait i })).enterCore p
    else s

/-- A P reset of partition `p` acts on its requests waiting for a slot: those of PCIe requesters it
reaches are discarded, the others answered with Unsupported Request (R97). A shared PF is not reached
(R118); an FLR of the management function reaches no requester (R116). -/
def State.dropWaiting (s : State) (p : Nat) (wide : Bool) : State :=
  let mine (k : Pkt) : Bool := k.part == p && k.smod == s.own
  let reached (k : Pkt) : Bool :=
    wide && decide (k.src < 40) && !(match (s.port k.src).mode with
      | .shared _ _ _ => k.d.rid == Config.functionRid k.src 0
      | _ => false)
  let gone := (s.ports.flatMap (fun e => e.2.npWait)).filter mine
  let s1 := { s with ports := tmap s.ports (fun _ k => { k with npWait := k.npWait.filter (fun x => !mine x) }) }
  gone.foldl (fun t k => if reached k then t.discard k else t.refusePkt k) s1

/-! ## Egress (R95, R99, R123) -/

/-- The pieces of `data` from address `a`, cut at multiples of `m`. -/
def cutAt (m : Nat) : Nat → Nat → Bytes → List (Nat × Bytes)
  | 0, a, d => [(a, d)]
  | fuel + 1, a, d =>
    let k := m - a % m
    if d.length ≤ k then [(a, d)] else (a, d.take k) :: cutAt m fuel (a + k) (d.drop k)

/-- A request of this requester and tag is already outstanding: the next piece of a split read waits for
it (R99). DESIGN CHOICE (log 69): the pieces go one at a time, each once the one before it is answered. -/
def Port.pieceOut (p : Port) (k : Pkt) : Bool :=
  p.tags.any (fun r => r.rid == k.d.rid && r.origTag == k.d.tag && r.retPort == k.sport && r.smod == k.smod)

/-- A stored TLP can leave: anything but a non-posted request without a tag, or the next piece of a split read
(R97, R99). -/
def Port.issuable (p : Port) (k : Pkt) : Bool :=
  !k.nonPosted || (p.freeTag.isSome && !p.pieceOut k)

/-- TLP `k` may leave before the earlier TLP `e` stored at the port: they entered at different ports or travel in different
core classes; `k` is posted or a completion and `e` waits for a tag; or relaxed or ID-based ordering permits it (R101). -/
def Port.mayPass (p : Port) (k e : Pkt) : Bool :=
  k.src != e.src || k.smod != e.smod || k.tc != e.tc || (!k.nonPosted && e.nonPosted && p.freeTag.isNone) ||
    (bit k.d.attr 1 && !(k.d.opc == opcMRd && !e.nonPosted)) || (bit k.d.attr 2 && k.d.rid != e.d.rid)

/-- The first TLP that meets `f` and may pass every one before it, and the others in order. -/
def takeOrdered (f : Pkt → Bool) (pass : Pkt → Pkt → Bool) : List Pkt → List Pkt → Option (Pkt × List Pkt)
  | _, [] => none
  | before, k :: r =>
    if f k ∧ before.all (pass k) then some (k, before ++ r) else takeOrdered f pass (before ++ [k]) r

/-- Address a request carries on the link: a class 0x1 target's PCIe address, or a host address
unchanged (R32, R111). -/
def linkAddr (p : Port) (k : Pkt) : Word :=
  if p.role = .downstream then BitVec.ofNat 64 (faPcie k.d.faddr) else k.d.faddr

/-- Requester ID a request carries: the virtual routing ID toward a host, the port's own toward a
device (R95). -/
def linkRid (p : Port) (n : Nat) (k : Pkt) : Nat :=
  if p.role = .downstream then Config.portRid n else k.d.rid

/-- A request as it leaves port `n`, for `len` data bytes or bytes requested. -/
def linkTlp (p : Port) (n : Nat) (k : Pkt) (tag addr want : Nat) (data : Bytes) : Pkt :=
  { k with
    data := data
    desc := ({ k.d with faddr := BitVec.ofNat 64 addr, rid := linkRid p n k, tag := tag,
                        len := data.length, bcount := want } : Desc).encode }

/-- Offer the TLP counters of station port `n` (R508): `rx` received, else transmitted; `len` bytes of payload. -/
def State.stationCount (s : State) (n : Nat) (rx : Bool) (part : Option Nat) (tc len : Nat) : State :=
  (s.count { block := n / 4, event := if rx then 0x10 else 0x11, part := part, port := some n, tc := some tc }).count
    { block := n / 4, event := if rx then 0x12 else 0x13, raw := len, unit := 16, part := part, port := some n, tc := some tc }

/-- A packet's partition for the counters: only of packets of this module (R507). -/
def State.countPart (s : State) (k : Pkt) : Option Nat := if k.smod = s.own then some k.part else none

/-- Issue a posted write, split at the link's Max Payload Size (R99). -/
def State.issuePosted (s : State) (n : Nat) (k : Pkt) : State :=
  let p := s.port n
  let a := (linkAddr p k).toNat
  let cuts := if k.d.opc = opcMWr then cutAt (Nat.max 1 (s.linkMps n)) k.data.length a k.data else [(a, k.data)]
  let s1 := cuts.foldl (fun t c => (t.emit (.tlp n none (linkTlp p n k k.d.tag c.1 c.2.length c.2))).stationCount n false
    (s.countPart k) k.tc c.2.length) s
  s1.modPort n (fun q => { q with unacked := q.unacked ++ [k] })

/-- Function of the device on port `n` that a request goes to: by the routing ID of a configuration request, else by its
address (R108, R151). -/
def requestFn (n : Nat) (k : Pkt) : Nat :=
  if cfgOpc k.d.opc then
    ((List.range 257).find? (fun f => Config.functionRid n f == faPcie k.d.faddr / 65536 % 65536)).getD 0
  else Config.barFunction n (faPcie k.d.faddr / 4096)

/-- Issue a non-posted request under tag `t`: a read longer than the Max Read Request Size goes piece by
piece, the rest staying at the head of egress (R96, R99, R102). -/
def State.issueNp (s : State) (n t : Nat) (k : Pkt) : State :=
  let p := s.port n
  let a := (linkAddr p k).toNat
  let want := if k.d.opc = opcMRd then Nat.min k.d.bcount (Nat.max 1 (s.linkMrrs n)) else k.d.bcount
  let rest := k.modDesc (fun d => { d with faddr := d.faddr + BitVec.ofNat 64 want, bcount := d.bcount - want })
  let more := k.d.opc = opcMRd ∧ want < k.d.bcount
  let r : TagRec := { tag := t, rid := k.d.rid, origTag := k.d.tag, part := k.part, retPort := k.sport, src := k.src,
                      smod := k.smod, tc := k.tc, len := want, cto := p.ctoMs,
                      cfgRid := if cfgOpc k.d.opc then some (faPcie k.d.faddr / 65536 % 65536) else none,
                      tfn := requestFn n k }
  ((s.emit (.tlp n (some t) (linkTlp p n k t a want k.data))).stationCount n false (s.countPart k) k.tc k.data.length).modPort n (fun q =>
    { q with tags := q.tags ++ [r], egress := if more then rest :: q.egress else q.egress,
             unacked := if more then q.unacked else q.unacked ++ [k] })

/-- What the configuration engine does to the answer to a forwarded read: the kept bits, and the bits put in (R94, R107). -/
def CfgFix.apply (x : CfgFix) (d : Bytes) : Bytes :=
  if d.length = 4 then leBytes 4 ((BitVec.ofNat 32 (leNat d) &&& x.keep) ||| x.put).toNat else d

/-- The change due to the answer with this requester and tag at upstream port `n`. -/
def State.cfgFixOf (s : State) (n rid tag : Nat) : Option CfgFix :=
  if (s.port n).role = .upstream then
    (s.vs (s.port n).part).cfgOut.find? (fun x => x.rid == rid && x.tag == tag)
  else none

/-- That change has been made. -/
def State.dropCfgFix (s : State) (n rid tag : Nat) : State :=
  s.modVs (s.port n).part (fun v => { v with cfgOut := v.cfgOut.filter (fun x => !(x.rid == rid && x.tag == tag)) })

/-- Issue a completion, each TLP at most the link's Max Payload Size, split at 64-byte boundaries (R99).
Its requester ID stands in the low bits of FADDR (log 25). -/
def State.issueCpl (s : State) (n : Nat) (k : Pkt) : State :=
  let d := k.d
  let fixed := (s.cfgFixOf n (d.faddr.toNat % 65536) d.tag).map (fun x => x.apply k.data)
  let s0 := if fixed.isSome then s.dropCfgFix n (d.faddr.toNat % 65536) d.tag else s
  let cuts := cutAt (Nat.max 64 (s.linkMps n)) k.data.length d.laddr (fixed.getD k.data)
  let s1 := cuts.foldl (fun t c => (t.emit (.completion n (d.faddr.toNat % 65536) d.tag d.cstat d.ep c.2)).stationCount n false
    (s.countPart k) k.tc c.2.length) s0
  s1.modPort n (fun q => { q with unacked := q.unacked ++ [k] })

/-- The station of port `n` has staging for the completion data of request `k` beside that of the reads outstanding (R166, log 80). -/
def State.cplRoom (s : State) (n : Nat) (k : Pkt) : Bool :=
  let want := if k.d.opc = opcMRd then Nat.min k.d.bcount (Nat.max 1 (s.linkMrrs n)) else k.d.bcount
  let out := (List.range 4).foldl (fun a i => (s.port (n / 4 * 4 + i)).tags.foldl (fun b r => b + r.len) a) 0
  decide (out + want ≤ Config.cplStaging (n / 4) + 4096)

/-- The oldest TLP stored at port `n` that can leave is issued. One whose cells carry the abort flag, or
which has no deliverable address, is discarded (R31, R123). -/
def State.egressIssue (s : State) (n : Nat) : State :=
  let p := s.port n
  if !p.dlActive then s
  else match takeOrdered (fun k => p.issuable k && (!k.nonPosted || s.cplRoom n k)) p.mayPass [] p.egress with
    | none => s
    | some (k, r) =>
      let s1 := s.modPort n (fun q => { q with egress := r })
      if k.abort then (s1.refusePkt k).ledgerOnly (n / 4)
      else if k.ptype = 1 then s1.issueCpl n k
      else if k.nonPosted then
        match p.freeTag with
        | none => s
        | some t => s1.issueNp n t k
      else s1.issuePosted n k

/-- The link partner acknowledges the oldest TLP not yet acknowledged; its packet leaves the module
(R139). -/
def State.tlpAcked (s : State) (n : Nat) : State :=
  match (s.port n).unacked with
  | [] => s
  | k :: r => (s.modPort n (fun p => { p with unacked := r })).leave k

/-! ## Completions (R96, R102 to R105, R151) -/

/-- P2P Completion Redirect applies to a completion from port `n` that answers record `r`: the requester is a function on another
downstream port, and the vDSP of its partition on port `n` has the bit set (R122). -/
def State.cplRedirected (s : State) (n : Nat) (r : TagRec) : Bool :=
  (s.port n).role == .downstream && decide (r.src < 40) && r.smod == s.own && (s.port r.src).role == .downstream &&
    s.vdsps.any (fun e => e.1 / 64 == r.part && e.2.st != .empty && (e.2.kind == 1 || e.2.kind == 2) && e.2.port == n &&
      e.2.cplRedirect)

/-- The completion returned to the original requester of record `r` (R96); under P2P Completion Redirect it goes to the
partition's root complex instead, which sends it back (R122). -/
def State.returnCpl (s : State) (n : Nat) (r : TagRec) (c : Cpl) : State :=
  match (s.vs r.part).up, s.cplRedirected n r with
  | some u, true =>
    (s.modPort u (fun p => { p with redir := p.redir ++ [{ r with redirAt := n }] })).emit
      (.completion u r.rid r.origTag c.status c.ep c.data)
  | _, _ => s.completeWith ((r.req n).modDesc (fun d => { d with faddr := BitVec.ofNat 64 c.laddr })) c.status c.data c.ep c.cid c.bcount

/-- A function that answers a configuration request has ended its FLR (R118). -/
def State.flrEnded (s : State) (n : Nat) (rid : Option Nat) : State :=
  match rid with
  | none => s
  | some r => s.modPort n (fun p => { p with flrs := p.flrs.filter (fun x => x != r) })

/-- A completion matches record `r`: of a reset partition it is discarded and frees the tag (R105), else it
is returned, and the last one frees the tag. -/
def State.completeTag (s : State) (n : Nat) (r : TagRec) (c : Cpl) : State :=
  let drop (t : State) : State := t.modPort n (fun p => { p with tags := p.tags.filter (fun x => x.tag != r.tag) })
  if r.stale then (drop s).lateCpl n (some r.part)
  else
    let s0 := if c.status = 0 then s.flrEnded n r.cfgRid else s
    let s1 := if c.status ≠ 0 ∨ r.len ≤ c.data.length then drop s0
      else s0.modPort n (fun p =>
        { p with tags := p.tags.map (fun x => if x.tag = r.tag then { x with len := x.len - c.data.length } else x) })
    s1.returnCpl n r c

/-- A completion with tag `c.tag` arrives at port `n`: late when no request outstanding has the tag (R103,
R151). -/
def State.cplArrives (s : State) (n : Nat) (c : Cpl) : State :=
  match (s.port n).tags.find? (fun r => r.tag == c.tag) with
  | some r => s.completeTag n r c
  | none => s.lateCpl n (((s.port n).kept.find? (fun r => r.tag == c.tag)).map (fun r => r.part))

/-- The completion timeout of tag `t` fires (R103). -/
def State.cplTimeout (s : State) (n t : Nat) : State :=
  match (s.port n).tags.find? (fun r => r.tag == t) with
  | none => s
  | some r => (s.answerTag n r csCa).raiseAt (n / 4) 2 (some r.part) (some n)

/-- The quarantine of tag `t` ends (R103); its record stays while a function it concerns is being unbound or fenced (R151). -/
def State.quarEnd (s : State) (n t : Nat) : State :=
  s.modPort n (fun p => { p with quar := p.quar.filter (fun q => q.1 != t)
                                 kept := p.kept.filter (fun r => r.tag != t || s.leavingFns r.fns) })

/-- Requests of this module's partition `p` outstanding anywhere are marked reset since issue (R105). -/
def State.staleTags (s : State) (p : Nat) : State :=
  { s with ports := tmap s.ports (fun _ k =>
      { k with tags := k.tags.map (fun r => if r.part = p ∧ r.smod = s.own then { r with stale := true } else r) }) }

/-! ## Links -/

/-- The land that a port's option record assigns as its slot power enable, where it is one in force (R114). -/
def State.powerLand (s : State) (n : Nat) : Option Nat :=
  (tget ({} : PortOpt) s.boot.opt.ports n).power.filter (fun g => s.tm.slotPower.contains g)

/-- The slot power enable of port `n` is driven high (R114). -/
def State.powerSlot (s : State) (n : Nat) : State :=
  match s.powerLand n with
  | none => s
  | some g => s.modLands (fun l => { l with gpio := tset l.gpio g { out := true, level := true } })

/-- The link of port `n` goes down: requests outstanding are answered (R104), TLPs stored for it refused
(R123), and those not acknowledged count as discarded. -/
def State.portDrop (s : State) (n st : Nat) : State :=
  let p := s.port n
  let s1 := s.modPort n (fun q =>
    { q with dlActive := false, flit := false, width := 0, rate := 0, ltssm := st, egress := [], unacked := [], flrs := [] })
  let s2 := p.egress.foldl (fun t k => (t.refusePkt k).ledgerOnly (n / 4)) s1
  let s3 := p.unacked.foldl (fun t k => t.discard k) s2
  s3.answerTags n

/-- A port trains: link up at a width and rate; below the configured ones it raises source 9 of its
station. -/
def State.portUp (s : State) (n width rate : Nat) (flit : Bool) : State :=
  let p := s.port n
  let s1 := s.modPort n (fun q =>
    { q with dlActive := true, flit := flit, width := width, rate := rate, ltssm := 3 })
  if width < p.maxWidth ∨ rate < p.targetRate then s1.raiseAt (n / 4) 9 none (some n) else s1

/-- Bring-up of downstream port `n` begins: slot power on, PERST_N asserted (R114, R115 step 1). -/
def State.bringUp (s : State) (n : Nat) : State :=
  (s.powerSlot n).modPort n (fun p =>
    { p with step := 1, perst := true, powerOn := true, enumerated := false, notReady := false, unbound := false })

end Sys2Proof.Machine
end

