-- ==== Sys2Proof/Machine/LinkOps.lean ====
section
/-! DEFINITION. Ndofin links: packets as units (R200 to R203), flits sent (R204) and received (R205 to
R215), receive slots (R212 to R216), link resets and failure (R220 to R223). -/

namespace Sys2Proof

open Machine

/-! ## Units -/

/-- Link packet header of a packet (R201); HOPS counts the fabric links crossed before this one (R231). -/
def Pkt.headerUnit (p : Pkt) (own : Nat) : BitVec 128 :=
  let nunits := if p.openLen then 0 else 3 + ceilDiv p.len 16
  BitVec.ofNat 128 (
    nunits % 2 ^ 11 * 2 ^ 117 + p.part % 32 * 2 ^ 112 + p.smod % 64 * 2 ^ 106 + p.sport % 128 * 2 ^ 99 +
    p.tc % 8 * 2 ^ 96 + p.colour % 4 * 2 ^ 94 + b2n p.ro * 2 ^ 93 + p.ptype % 8 * 2 ^ 90 +
    (if p.smod = own then 0 else (p.hops + 1) % 4) * 2 ^ 88 + p.fhash % 2 ^ 16 * 2 ^ 72 + p.tstamp.toNat)

/-- Data bytes as whole units, the last padded with zeros (R200). -/
def dataUnits : Nat → Bytes → List (BitVec 128)
  | 0, _ => []
  | fuel + 1, d =>
    if d.isEmpty then [] else BitVec.ofNat 128 (leNat (slice d 0 16)) :: dataUnits fuel (d.drop 16)

/-- The units of a packet in order: header, descriptor, data (R200). -/
def Pkt.units (p : Pkt) (own : Nat) : List (BitVec 128) :=
  [p.headerUnit own, BitVec.ofNat 128 p.desc.toNat, BitVec.ofNat 128 (p.desc.toNat / 2 ^ 128)] ++
    dataUnits (ceilDiv p.data.length 16) p.data

/-- The units a virtual channel sends of a packet. Of one aborted in cut-through whose length was known
at its head, the last unit is never sent: the abort trailer ends it (R181, R203). -/
def Pkt.sentUnits (p : Pkt) (own : Nat) : List (BitVec 128) :=
  if p.abort ∧ !p.openLen then (p.units own).take (2 + ceilDiv p.d.len 16) else p.units own

/-- Units of a queued packet that its link can send: those of the cells that have crossed, and the link packet header, which the
egress adds (R178, R200). -/
def Machine.QPkt.ready (e : QPkt) (own : Nat) : List (BitVec 128) :=
  if e.crossed then e.pkt.sentUnits own else (e.pkt.sentUnits own).take (if e.lead = 0 then 0 else 1 + 16 * e.lead)

/-- NUNITS of a link packet header. -/
def unitNunits (h : BitVec 128) : Nat := bits h.toNat 127 117

/-- The packet that a run of units holds, of a packet whose whole length may have still to come (R201). -/
def pktOfUnits (us : List (BitVec 128)) (id : Nat) (more : Bool) : Pkt :=
  let h := (us.getD 0 0).toNat
  let d := (us.getD 2 0).toNat * 2 ^ 128 + (us.getD 1 0).toNat
  let all := (us.drop 3).flatMap (fun u => leBytes 16 u.toNat)
  let openL := bits h 127 117 == 0
  { part := bits h 116 112, smod := bits h 111 106, sport := bits h 105 99, tc := bits h 98 96,
    colour := bits h 95 94, ro := bit h 93, ptype := bits h 92 90, hops := bits h 89 88, fhash := bits h 87 72,
    tstamp := BitVec.ofNat 64 (bits h 63 0), openLen := openL, desc := BitVec.ofNat 256 d, dmod := bits d 255 250,
    data := if openL && (bits d 191 178 == 0 || decide (all.length < bits d 191 178)) then all else all.take (bits d 191 178),
    rxId := id, more := more }

end Sys2Proof

namespace Sys2Proof.Machine

open Sys2Proof

/-! ## State changes -/

/-- Code of STATE in LINK_GET_STATUS; a link waiting after a failed attempt reads as the state that
failed (R217). -/
def Link.code (k : Link) : Nat :=
  match k.st with
  | .disabled => 0
  | .lreset => 1
  | .idle => 1
  | .detect => 2
  | .equalize => 3
  | .align => 4
  | .negotiate => 5
  | .up => 6
  | .retry => if k.lastCause = 11 then 3 else 5

/-- Change link `l`; event 0x807 tells partition 0 of a change of its STATE (R447). Leaving UP makes it a held output (R182, R183). -/
def State.linkTo (s : State) (l : Nat) (f : Link → Link) : State :=
  let s0 := s.modLink l f
  let s1 := if (s.link l).st = .up ∧ (s0.link l).st ≠ .up then s0.holdOutput (40 + l) else s0
  if (s1.link l).code = (s.link l).code then s1 else s1.event 0x807 [0] (l + (s1.link l).code * 256)

/-- Fault source `i` of link `l`'s block. -/
def State.linkFault (s : State) (l i : Nat) : State := s.raiseAt (0x0A + l) i none (some (40 + l))

/-- Count event `e` of link `l`'s block. -/
def State.linkCount (s : State) (l e : Nat) (tc : Option Nat := none) : State :=
  s.count { block := 0x0A + l, event := e, tc := tc }

/-! ## Receive slots (R211 to R214, R216) -/

/-- Receive stream of VC `v`. -/
def Link.rxVc (k : Link) (v : Nat) : RxVc := tget {} k.rx v
/-- Shared slots in use. -/
def Link.sharedUsed (k : Link) : Nat :=
  k.rx.foldl (fun a e => a + e.2.slots.countP (fun x => x.shared)) 0
/-- Shared slots VC `v` holds. -/
def Link.sharedBy (k : Link) (v : Nat) : Nat := (k.rxVc v).slots.countP (fun x => x.shared)
/-- Private slots VC `v` has free. -/
def Link.privateFree (k : Link) (v : Nat) : Nat := k.p - (k.rxVc v).slots.countP (fun x => !x.shared)

/-- The slot an accepted flit of VC `v` takes: shared, private or none (R212). -/
def Link.slotFor (k : Link) (v : Nat) : Option Bool :=
  if k.sharedBy v < k.shCap ∧ k.sharedUsed < k.sharedSlots then some true
  else if 0 < k.privateFree v then some false
  else none

/-- The XOFF map to send after the slots have changed (R214). -/
def Link.xoffNow (k : Link) : BitVec 8 :=
  BitVec.ofNat 8 (bitsOf 8 (fun v =>
    decide (k.privateFree v < k.h) || (k.xoffTx.getLsbD v && decide (k.privateFree v < Nat.min (k.h + 8) k.p))))

/-- Packet number `id` received on link `l` has units that are not in cells: it waits at its ingress, or its head is not whole
(R211). -/
def State.rxBlocked (s : State) (l id : Nat) : Bool :=
  s.core.waiting.any (fun w => w.pkt.src == 40 + l && w.pkt.rxId == id) ||
    (s.port (40 + l)).npWait.any (fun p => p.rxId == id) ||
    (s.link l).rx.any (fun e => e.2.id == id && !e.2.entered && !e.2.units.isEmpty)

/-- Free the slots whose units are all in cells, and form the XOFF map anew (R211, R214). -/
def State.rxRefresh (s : State) (l : Nat) : State :=
  s.modLink l (fun k =>
    let k1 := { k with rx := tmap k.rx (fun _ x => { x with slots := x.slots.filter (fun y => y.ids.any (s.rxBlocked l)) }) }
    { k1 with xoffTx := k1.xoffNow })

/-! ## Link reset and failure (R219 to R224) -/

/-- Everything of the flit protocol that a link reset begins anew; SEQ and EXP restart at 0 (R199, R205,
R215). -/
def Link.restart (k : Link) : Link :=
  { k with exp := 0, accepted := false, nakOut := false, nakDue := false, trainDue := false, seq := 0,
           xoffRx := 255, replayRuns := 0, replayAt := none, width := 0, rate := 0, aligned := false,
           spdmRun := false, txPair := [], pair := 0 }

/-- Source and cause of a link reset (R220, R225). -/
def State.resetSource (s : State) (l cause : Nat) : State :=
  if cause = 3 then s.linkFault l 3
  else if cause = 4 ∨ cause = 5 then s.linkFault l 4
  else s

/-- Link `l` leaves UP for LRESET with a cause; the last SEQ accepted is kept for the peer (R217, R219,
R220). -/
def State.linkResetCore (s : State) (l cause : Nat) : State :=
  (s.linkTo l (fun k =>
    { k.restart with st := .lreset, cause := cause, lastCause := cause, resets := sat (2 ^ 32 - 1) k.resets 1,
                     rxLastV := k.accepted, rxLast := k.exp - 1 })).resetSource l cause

/-- A queued packet is in progress on a virtual channel of link `l`. -/
def QPkt.sending (l : Nat) (e : QPkt) : Bool := e.begun && e.pkt.dst == 40 + l

/-- The packets a failure of link `l` discards: those with a flit in the replay buffer or in progress on a
virtual channel (R223). -/
def State.inFlight (s : State) (l : Nat) : List Pkt :=
  (s.link l).replay.flatMap (fun r => r.pkts) ++ (s.core.q.filter (QPkt.sending l)).map (fun e => e.pkt)

/-- The egress has begun queued packet `e` in cut-through (R181). -/
def State.egressBegun (s : State) (e : QPkt) : Bool := e.begun || (e.out.isSome && s.frameBegun e.pkt)

/-- The partial packet number `id` received on link `l` is removed without an answer; an egress that has begun it ends it with
cause 4 (R223). -/
def State.dropPartial (s : State) (l id : Nat) : State :=
  let mine (p : Pkt) : Bool := growing (40 + l) id p
  let gone (e : QPkt) : Bool := mine e.pkt && !s.egressBegun e
  let lost := (s.core.q.filter gone).map (fun e => e.pkt) ++ (s.core.waiting.map (fun w => w.pkt)).filter mine ++
    (s.port (40 + l)).npWait.filter mine
  let s1 := (s.modCore (fun c => { c with
    q := c.q.filter (fun e => !gone e), waiting := c.waiting.filter (fun w => !mine w.pkt) })).modPort (40 + l)
      (fun p => { p with npWait := p.npWait.filter (fun k => !mine k) })
  (lost.foldl (fun t p => (t.frameDrop p).discard p) s1).cutPkt (40 + l) id 4

/-- The resolution of R223: sent packets not acknowledged are counted lost and leave; partial packets
received are removed. -/
def State.resolveFailure (s : State) (l : Nat) : State :=
  let lostPkts := s.inFlight l
  let partials := ((s.link l).rx.filter (fun e => e.2.entered)).map (fun e => e.2.id)
  let s1 := (s.modLink l (fun k =>
    { k with lost := sat (2 ^ 32 - 1) k.lost lostPkts.length, replay := [], replayAt := none, replayRuns := 0,
             rx := tmap k.rx (fun _ x => { x with units := [], slots := [], entered := false }) })).modCore (fun c =>
    { c with q := c.q.filter (fun e => !e.sending l) })
  let s2 := lostPkts.foldl (fun t p => t.discard p) s1
  let s3 := partials.foldl (fun t id => t.dropPartial l id) s2
  if lostPkts.isEmpty then s3 else s3.linkFault l 9

/-- The TRAIN record of link `l` (R217, R222). -/
def State.trainRec (s : State) (l : Nat) : TrainRec :=
  let k := s.link l
  { module := s.own, link := l, maxWidth := k.maxWidth, reqWidth := k.reqWidth, reqRate := k.reqRate,
    lanesOk := k.lanesOk, streamReset := k.streamReset, rxLastV := k.rxLastV, cause := k.cause, rxLast := k.rxLast,
    framing := k.framing }

/-- Link `l` sends its beacon, unless its clocked domain has no clock (R217, R562). -/
def State.beacon (s : State) (l : Nat) : State :=
  if s.boot.fabricHeld ∨ !s.lands.frefOk then s else s.emit (.beacon l (s.trainRec l))

/-- Link `l` enters DETECT. -/
def State.toDetect (s : State) (l : Nat) : State :=
  (s.linkTo l (fun k => { k.restart with st := .detect, lanesOk := 0 })).beacon l

/-- Link `l` is made failed (R223): resolution, then DISABLED when ENABLE is 0, else it trains again with
STREAM_RESET. -/
def State.makeFailedCore (s : State) (l : Nat) : State :=
  let s1 := s.resolveFailure l
  let s2 := s1.modLink l (fun k => { k with failed := true, streamReset := true })
  let k := s2.link l
  if !k.enabled then
    s2.linkTo l (fun k => { k.restart with st := .disabled, cause := 8, lastCause := 8 })
  else match k.st with
    | .up => s2.linkResetCore l 8
    | .disabled => s2
    | .lreset => s2
    | .idle => s2
    | _ => (s2.modLink l (fun k => { k with cause := 8, lastCause := 8 })).toDetect l

/-- The framing error of R202: STREAM_RESET is set and the link resets. -/
def State.framingCore (s : State) (l : Nat) : State :=
  ((s.linkFault l 7).modLink l (fun k => { k with streamReset := true, framing := true })).linkResetCore l 6

/-- Gb/s of flit data on one lane. -/
def laneRate (rate : Nat) : Nat := if rate = 2 then 112 else 56

/-! ## Sending (R199 to R208) -/

/-- The lanes of link `l` that carry flits, rising: those in use, or before UP those that passed equalization (R195, R217). -/
def Link.lanes (k : Link) : List Nat :=
  (List.range 4).filter (fun i => (if k.st = .negotiate then k.lanesOk else k.lanesUse).getLsbD i)

/-- Send a flit: it joins the codeword pair being filled on each lane, and 5 × W flits complete the pairs (R195). -/
def State.sendFlit (s : State) (l : Nat) (f : Flit) : State :=
  let k := s.link l
  let w := k.lanes.length
  let fs := k.txPair ++ [f.bytes]
  let s1 := s.emit (.flit l f.bytes)
  if fs.length < 5 * w ∨ w = 0 then s1.modLink l (fun k => { k with txPair := if w = 0 then [] else fs })
  else
    k.lanes.zipIdx.foldl (fun t e => t.emit (.lanePair l e.1 (pairLevels k.pair e.1 (laneBytes w e.2 fs))))
      (s1.modLink l (fun k => { k with txPair := [], pair := (k.pair + 1) % 16384 }))

/-- Insert a packet in the order of release. -/
def insertOut (e : QPkt) : List QPkt → List QPkt
  | [] => [e]
  | x :: r => if e.out.getD 0 < x.out.getD 0 then e :: x :: r else x :: insertOut e r

/-- The packets that VC `v` of link `l` has to send: the one in progress, then those released to it, in order (R200, R204). -/
def State.txLine (s : State) (l v : Nat) : List QPkt :=
  let mine (e : QPkt) : Bool := e.pkt.dst == 40 + l && e.out.isSome
  s.core.q.filter (fun e => mine e && e.begun && e.vc == v) ++
    (s.core.q.filter (fun e => mine e && !e.begun && !e.pkt.abort && s.vcOf l e.pkt == v)).foldl (fun a e => insertOut e a) []

/-- The packet in progress is aborted and has no unit left to send: its abort trailer is due (R181, R203). -/
def QPkt.trailerDue (own : Nat) (e : QPkt) : Bool := e.begun && e.pkt.abort && decide ((e.ready own).length ≤ e.sent)

/-- What packing one flit of a virtual channel gives. -/
structure Packed where
  /-- The packets left, the first of which may be in progress. -/
  line : List QPkt
  /-- Units packed, last first. -/
  units : List (BitVec 128) := []
  /-- FIRST. -/
  first : Nat := 15
  /-- END. -/
  last : Nat := 15
  /-- Packets whose last unit is packed. -/
  done_ : List QPkt := []
  deriving DecidableEq, Repr, Inhabited

/-- Pack up to `fuel` more units of a channel: packets one after another, at most one END, and none after
the last unit ready of a packet in cut-through (R200 to R203). -/
def packVc (own v : Nat) (may : Pkt → Bool) : Nat → Packed → Packed
  | 0, a => a
  | fuel + 1, a =>
    match a.line with
    | [] => a
    | e :: r =>
      if e.sent = 0 ∧ !may e.pkt then a
      else match (e.ready own)[e.sent]? with
        | none => a
        | some u =>
          let ends := e.crossed && !e.pkt.abort && e.sent + 1 == (e.ready own).length
          if ends ∧ e.pkt.openLen ∧ a.last ≠ 15 then a
          else
            let n := a.units.length
            let g := { e with sent := e.sent + 1, begun := true, vc := v }
            packVc own v may fuel
              { line := if ends then r else g :: r
                units := u :: a.units
                first := if e.sent = 0 ∧ a.first = 15 then n else a.first
                last := if ends ∧ e.pkt.openLen then n else a.last
                done_ := if ends then a.done_ ++ [g] else a.done_ }

/-- The gate engine of link `l` lets a packet start on VC `v`: VC7 always, else its flits fit an entry of its
partition (R425). A packet of a flow that is moving does not start (R224). -/
def State.linkStarts (s : State) (l v : Nat) (p : Pkt) : Bool :=
  let k := s.link l
  !s.flowMoving p && (v == 7 || !(s.gate (32 + l)).byStrict ||
    s.gateFits (32 + l) p.part (ceilDiv (3 + ceilDiv p.len 16) 15 * 256) (k.width * laneRate k.rate))

/-- VC `v` of link `l` has a DATA or ABORT flit to send: units ready of a packet in progress or of one it may start, or a
trailer (R204). -/
def State.vcReady (s : State) (l v : Nat) : Bool :=
  match s.txLine l v with
  | [] => false
  | e :: _ => e.trailerDue s.own || (decide (e.sent < (e.ready s.own).length) && (e.begun || s.linkStarts l v e.pkt))

/-- The virtual channel whose turn it is: VC7 first, then VC0 to VC6 round-robin, none stopped (R204). -/
def State.linkTurn (s : State) (l : Nat) : Option Nat :=
  let k := s.link l
  if 256 ≤ k.replay.length then none
  else
    let can (v : Nat) : Bool := s.vcReady l v && !k.xoffRx.getLsbD v && (!k.quarantined || v == 7)
    if can 7 then some 7 else ((List.range 7).map (fun i => (k.rr + 1 + i) % 7)).find? can

/-- The header fields every flit carries (R197, R206, R214). -/
def Link.stamp (k : Link) (f : Flit) : Flit :=
  { f with ack := k.exp - 1, ackv := k.accepted, xoff := k.xoffTx }

/-- A queue after a flit is packed: the packets `gone` are no longer in it, and `cur` is as it has become. -/
def packedQueue (gone cur : List QPkt) (q : List QPkt) : List QPkt :=
  (q.filter (fun e => !gone.any (fun g => samePkt g.pkt e.pkt && g.pkt.dst == e.pkt.dst && e.place != .spilled))).map (fun e =>
    match cur.find? (fun g => samePkt g.pkt e.pkt && e.place != .spilled) with
    | some g => g
    | none => e)

/-- A flit of VC `v` enters the replay buffer as it is first sent, with the packets it ends, which have no cell left in the buffer
(R199, R209). -/
def State.sendSeq (s : State) (l v : Nat) (f : Flit) (gone cur : List QPkt) : State :=
  let s1 := s.modLink l (fun k =>
    { k with seq := k.seq + 1, rr := if v = 7 then k.rr else v
             replay := k.replay ++ [{ flit := f, pkts := gone.map (fun e => e.pkt), cuts := cur.map (fun e => e.pkt) }] })
  let s2 := s1.modCore (fun c => { c with q := packedQueue gone cur c.q })
  (gone.foldl (fun t e => t.countCrossed e) s2).sendFlit l f

/-- Send a DATA or ABORT flit of VC `v` (R199, R203, R209). -/
def State.sendData (s : State) (l v : Nat) : State :=
  let k := s.link l
  let line := s.txLine l v
  match line.find? (QPkt.trailerDue s.own) with
  | some e =>
    let f := k.stamp { seq := k.seq, ftype := 2, vc := v, units := 1, payload := [BitVec.ofNat 128 e.pkt.abortCause] }
    (s.sendSeq l v f [e] []).countAbort e.pkt
  | none =>
    let a := packVc s.own v (s.linkStarts l v) 15 { line := line }
    let f := k.stamp { seq := k.seq, ftype := 1, vc := v, units := a.units.length, first := a.first, last := a.last,
                       payload := a.units.reverse }
    let s1 := (s.sendSeq l v f a.done_ (a.line.filter (fun e => e.begun))).linkCount l 0x10
    a.done_.foldl (fun u e => u.linkCount l 0x15 (some e.pkt.tc)) s1

/-- The TRAIN record sent in NEGOTIATE, or owed from it in UP: ECHO_RSP answers an ECHO_REQ, with the time since that came, and
ECHO_REQ measures the round trip (R217, R218). Time is counted in ticks (log 82). -/
def State.echoRec (s : State) (l : Nat) : TrainRec :=
  let k := s.link l
  let answers := match k.peerRec with | some r => r.echoReq | none => false
  { (if k.st = .up then k.upRec else s.trainRec l) with
    echoReq := !(answers && k.leader), echoRsp := answers
    turnNs := if answers then (s.time.ticks - k.echoTick) * 40 % 65536 else 0 }

/-- One flit time of link `l` (R204). Out of UP only LRESET flits, in LRESET, and TRAIN flits, in NEGOTIATE,
are sent (R217). -/
def State.flitTime (s : State) (l : Nat) : State :=
  let s0 := s.rxRefresh l
  let k := s0.link l
  let other (ty : Nat) (pl : List (BitVec 128)) : Flit := k.stamp { seq := k.seq, ftype := ty, payload := pl }
  match k.st with
  | .lreset => s0.sendFlit l (other 4 (s0.trainRec l).payload)
  | .negotiate =>
    if k.trainDue then
      (s0.modLink l (fun k => { k with trainDue := false })).sendFlit l (other 5 (s0.echoRec l).payload)
    else s0
  | .up =>
    match k.replayAt with
    | some i =>
      match k.replay[i]? with
      | some r =>
        (s0.modLink l (fun k =>
          { k with replayAt := if i + 1 < k.replay.length then some (i + 1) else none })).sendFlit l (k.stamp r.flit)
      | none => s0.modLink l (fun k => { k with replayAt := none })
    | none =>
      if k.nakDue then
        (s0.modLink l (fun k => { k with nakDue := false, nakOut := true })).sendFlit l (other 3 [])
      else if k.trainDue then
        (s0.modLink l (fun k => { k with trainDue := false })).sendFlit l (other 5 (s0.echoRec l).payload)
      else match s0.linkTurn l with
        | some v => s0.sendData l v
        | none => s0.sendFlit l (other 0 [])
  | _ => s0

/-! ## Acknowledgement and replay (R205 to R207) -/

/-- Index in the replay buffer of the flit numbered `q`. -/
def Link.replayIndex (k : Link) (q : BitVec 16) : Option Nat :=
  (List.range k.replay.length).find? (fun i => (k.replay[i]?.map (fun r => r.flit.seq)) == some q)

/-- An ACK frees every replay slot up to and including the flit it names; the packets those flits ended
leave the module (R207, R209). -/
def State.linkAck (s : State) (l : Nat) (q : BitVec 16) : State :=
  let k := s.link l
  match k.replayIndex q with
  | none => s
  | some i =>
    let freed := (k.replay.take (i + 1)).flatMap (fun r => r.pkts)
    freed.foldl (fun t p => t.leave p) (s.modLink l (fun k =>
      { k with replay := k.replay.drop (i + 1), replayRuns := 0
               replayAt := k.replayAt.bind (fun j => if j ≤ i then
                  (if k.replay.length = i + 1 then none else some 0) else some (j - (i + 1))) }))

/-- Begin a replay from index `i`; the eighth in a row of the same oldest flit resets the link (R207). -/
def State.replayFrom (s : State) (l i : Nat) : State :=
  let s1 := ((s.modLink l (fun k =>
    { k with replayAt := some i, replays := sat (2 ^ 32 - 1) k.replays 1, replayRuns := k.replayRuns + 1 })).linkFault
      l 2).linkCount l 0x12
  if 8 ≤ (s1.link l).replayRuns then s1.linkResetCore l 3 else s1

/-- REPLAY_TO passes for the oldest unacknowledged flit (R207). -/
def State.replayTimeout (s : State) (l : Nat) : State :=
  let k := s.link l
  if k.st = .up ∧ !k.replay.isEmpty then s.replayFrom l 0 else s

/-- A NAK asks for replay from the flit after ACK, or from SEQ 0 (R206, R207). -/
def State.nakIn (s : State) (l : Nat) (f : Flit) : State :=
  match (s.link l).replayIndex (if f.ackv then f.ack + 1 else 0) with
  | some i => s.replayFrom l i
  | none => s

/-- Answer a flit with a NAK, unless one is out (R205, R206). -/
def State.owesNak (s : State) (l : Nat) : State :=
  s.modLink l (fun k => if k.nakOut then k else { k with nakDue := true })

/-- NAK_TO passes after a NAK without an accepted flit (R206). -/
def State.nakTimeout (s : State) (l : Nat) : State := s.modLink l (fun k => { k with nakOut := false })

/-! ## Receiving units (R200 to R203) -/

/-- Progress of parsing the units of one flit. -/
structure Parse where
  /-- Units of the packet in progress. -/
  cur : List (BitVec 128) := []
  /-- Its number. -/
  id : Nat := 0
  /-- Packets whose first unit has arrived. -/
  count : Nat := 0
  /-- Numbers of the packets with units in the flit. -/
  ids : List Nat := []
  /-- Index of the first header seen; 15 none. -/
  first : Nat := 15
  /-- END was used by a packet of unknown length. -/
  ended : Bool := false
  /-- Packets completed, by number. -/
  done_ : List (Nat × List (BitVec 128)) := []
  /-- The stream broke a rule. -/
  broken : Bool := false
  deriving DecidableEq, Repr, Inhabited

/-- Take unit `u` at index `i` of a flit whose END is `last`. -/
def Parse.step (last : Nat) (a0 : Parse) (i : Nat) (u : BitVec 128) : Parse :=
  let head := a0.cur.isEmpty
  let a1 := if head then { a0 with id := a0.count, count := a0.count + 1 } else a0
  let a := if a1.ids.contains a1.id then a1 else { a1 with ids := a1.ids ++ [a1.id] }
  let us := a.cur ++ [u]
  let n := unitNunits (us.headD 0)
  let f := if head ∧ a.first = 15 then i else a.first
  if head ∧ (n = 1 ∨ n = 2 ∨ 1025 < n) then { a with broken := true, first := f }
  else if n ≠ 0 ∧ us.length = n then
    { a with cur := [], first := f, done_ := a.done_ ++ [(a.id, us)], broken := a.broken || i == last }
  else if i = last then
    if n = 0 ∧ 3 ≤ us.length then { a with cur := [], first := f, ended := true, done_ := a.done_ ++ [(a.id, us)] }
    else { a with broken := true, first := f }
  else { a with cur := us, first := f }

/-- Parse the units of a DATA flit into stream `x` of a link that has numbered `count` packets (R202). -/
def parseFlit (x : RxVc) (count : Nat) (f : Flit) : Parse :=
  let us := (List.range f.units).map (fun i => f.payload.getD i 0)
  let a := (us.zipIdx).foldl (fun (a : Parse) e => if a.broken then a else a.step f.last e.2 e.1)
    { cur := x.units, id := x.id, count := count }
  { a with broken := a.broken || a.first != f.first || (f.last != 15 && !a.ended) }

/-! ## Link status (R213, R216) -/

/-- The headroom figure H = ⌈(RTT + 20 ns) / t⌉ + 2 with t = 2048 / (W · R) ns (R213). -/
def headroom (rtt width rate : Nat) : Nat := ceilDiv ((rtt + 20) * width * laneRate rate) 2048 + 2

/-- Private and shared slots for a headroom figure (R211, R216). -/
def slotsFor (h : Nat) : Nat × Nat := if h ≤ 48 then (48, 256) else (h, 256 - 8 * (h - 48))

/-- The lanes both ends can use and the width they give (R218). -/
def trainWidth (ok : BitVec 4) (most : Nat) : Nat × BitVec 4 :=
  if 4 ≤ most ∧ ok = 15 then (4, 15)
  else if 2 ≤ most ∧ ok &&& 3 = 3 then (2, 3)
  else if 2 ≤ most ∧ ok &&& 12 = 12 then (2, 12)
  else if ok.getLsbD 0 then (1, 1)
  else if ok.getLsbD 1 then (1, 2)
  else if ok.getLsbD 2 then (1, 4)
  else if ok.getLsbD 3 then (1, 8)
  else (0, 0)

end Sys2Proof.Machine
end

