-- ==== Sys2Proof/Machine/VdspOps.lean ====
section
/-! DEFINITION. vDSPs: their states (R112), the BARs below them and their enumeration entries (R109, R110,
R268), DPC (R120, R121), the reach of PCIe resets (R116 to R118), and the P reset of a partition (R86). -/

namespace Sys2Proof.Machine

open Sys2Proof

/-! ## Bindings -/

/-- The vDSP has a binding. -/
def Vdsp.bound (v : Vdsp) : Bool := v.st != .empty

/-- The vDSP is bound to the device or functions of local port `n`. -/
def Vdsp.onPort (v : Vdsp) (n : Nat) : Bool := v.bound && (v.kind == 1 || v.kind == 2) && v.port == n

/-- Numbers of the device functions a binding of kind 1 or 2 names: 0 for the PF, else VF numbers. -/
def Vdsp.fns (v : Vdsp) : List Nat :=
  if v.kind = 2 then (List.range v.count).map (fun i => v.first + i) else [0]

/-- Partition and index of every vDSP meeting `f`. -/
def State.vdspsWhere (s : State) (f : Vdsp → Bool) : List (Nat × Nat) :=
  (s.vdsps.filter (fun e => f e.2)).map (fun e => (e.1 / 64, e.1 % 64))

/-- Partition and index of every vDSP bound to port `n`. -/
def State.boundTo (s : State) (n : Nat) : List (Nat × Nat) := s.vdspsWhere (fun v => v.onPort n)

/-- Indices of the vDSPs of partition `p` that exist. -/
def State.vdspsOf (s : State) (p : Nat) : List Nat := List.range (s.vs p).vdspCount

/-- A hot-plug interrupt, when the host has enabled it. -/
def State.hpNotify (s : State) (p k : Nat) : State :=
  if (s.vdsp p k).hpInt then s.emit (.hotPlug p k) else s

/-! ## BARs (R109, R268, R321, R335) -/

/-- Sods of KIND 2 assigned to partition `p`, rising (R268). -/
def State.poolSods (s : State) (p : Nat) : List Nat :=
  (s.pool.sods.filter (fun e => e.2.st == .assigned && e.2.kind == 2 && e.2.target == p)).map (fun e => e.1)

/-- The least power of two that is at least `n`, as its logarithm. -/
def log2Up (n : Nat) : Nat := ((List.range 64).find? (fun k => decide (n ≤ 2 ^ k))).getD 64

/-- The list begins with `n` consecutive numbers. -/
def runOf (l : List Nat) (n : Nat) : Bool :=
  (l.take n).length == n && (List.range n).all (fun i => l.getD i 0 == l.headD 0 + i)

/-- The longest aligned run, as a logarithm, at the head of `l`, whose window begins at GiB `g`. -/
def runLog (l : List Nat) (g : Nat) : Nat :=
  ((List.range 14).reverse.find? (fun j =>
    runOf l (2 ^ j) && l.headD 0 % 2 ^ j == 0 && g % 2 ^ j == 0)).getD 0

/-- The fewest aligned pieces of a pool BAR: input, size and output, in GiB (R268). -/
def poolRuns : Nat → List Nat → Nat → List (Nat × Nat × Nat)
  | 0, _, _ => []
  | fuel + 1, l, g =>
    match l with
    | [] => []
    | n :: _ =>
      let j := runLog l g
      (g, j, n) :: poolRuns fuel (l.drop (2 ^ j)) (g + 2 ^ j)

/-- Log2 of the size of an emulated BAR, at least 4 KiB; 0 where the function has none (R109). -/
def State.barSize (s : State) (p : Nat) (v : Vdsp) (fn bar : Nat) : Nat :=
  let real (port f : Nat) : Nat :=
    let l := Config.barLog port f bar
    if l = 0 then 0 else Nat.max 12 l
  match v.kind with
  | 1 => real v.port fn
  | 2 => real v.port (v.first + fn)
  | 3 => real (64 * (v.module + 1) + v.port) v.first
  | 4 => if bar = 0 then 30 + log2Up (s.poolSods p).length else 0
  | 5 => if bar = 0 then 30 + log2Up (tget {} s.rt.blocks p).gcount else 0
  | 6 => if bar = 0 then 19 else 0
  | _ => 0

/-- Address at which Ember places BAR `bar` of a device's function, within the port's 48-bit secondary address space (R32). -/
def barAddr (port fn bar : Nat) : Nat := Config.barAddr port fn bar % 2 ^ 48

/-- The windows that map a BAR at host address `base`: input, log2 of the size, fabric address. -/
def State.barMaps (s : State) (p : Nat) (v : Vdsp) (fn bar base : Nat) : List (Nat × Nat × Nat) :=
  let z := s.barSize p v fn bar
  if z = 0 then []
  else match v.kind with
    | 1 => [(base, z, (faMake s.own 1 (v.port * 2 ^ 48 + barAddr v.port fn bar)).toNat)]
    | 2 => [(base, z, (faMake s.own 1 (v.port * 2 ^ 48 + barAddr v.port (v.first + fn) bar)).toNat)]
    | 3 => [(base, z, (faMake v.module 1
              (v.port * 2 ^ 48 + barAddr (64 * (v.module + 1) + v.port) v.first bar)).toNat)]
    | 4 => (poolRuns 8192 (s.poolSods p) (base / 2 ^ 30)).map (fun r =>
              (r.1 * 2 ^ 30, 30 + r.2.1, (faMake s.own 0 (r.2.2 * 2 ^ 30)).toNat))
    | 5 => [(base, z, (faMake s.own 2 ((tget {} s.rt.blocks p).gbase * 2 ^ 30)).toNat)]
    | _ => [(base, z, (faMake s.own 3 (v.first * 2 ^ 44)).toNat)]

/-- An enumeration entry: a host window with every permission, owned by Ember (R109, R128). -/
def enumEntry (p : Nat) (m : Nat × Nat × Nat) : Entry :=
  BitVec.ofNat 256 (1 + 8 + m.2.1 * 64 + m.1 / 4096 * 4096 + (m.2.2 / 4096 * 4096 + 7) * 2 ^ 64 + 2 ^ 129 + p * 2 ^ 187)

/-- Keys of the enumeration entries of partition `p` whose input begins within `[base, base + len)`. -/
def State.enumWithin (s : State) (p base len : Nat) : List Nat :=
  ((bankScope s.win.bank 1 p).filter (fun e => eEmber e.2 && decide (base ≤ eIn e.2 ∧ eIn e.2 < base + len))).map
    (fun e => e.1)

/-- Keys of the enumeration entries of one BAR of a vDSP. -/
def State.barKeys (s : State) (p k fn bar : Nat) : List Nat :=
  let v := s.vdsp p k
  match tlook v.bars (fn * 6 + bar) with
  | none => []
  | some a => s.enumWithin p a.toNat (2 ^ s.barSize p v fn bar)

/-- Keys of every enumeration entry below vDSP `k` of partition `p`. -/
def State.enumKeys (s : State) (p k : Nat) : List Nat :=
  (s.vdsp p k).bars.flatMap (fun e => s.barKeys p k (e.1 / 6) (e.1 % 6))

/-- Indices of the partition's host windows that hold no valid entry. -/
def State.freeHost (s : State) (p : Nat) : List Nat :=
  (List.range 256).filter (fun i => !eValid (bankGet s.win.bank (winKey 1 p i)))

/-- Make one commit that invalidates `ks` and writes `ws`; nothing when both are empty. -/
def State.enumCommit (s : State) (ks : List Nat) (ws : List (Nat × Entry)) : State :=
  let inv := ks.map (fun k => (k, invalidated (bankGet s.win.bank k)))
  if inv.isEmpty ∧ ws.isEmpty then s else s.emberCommit (inv ++ ws)

/-- Bring the enumeration entries of a BAR up to date for value `base`, in one commit with the removal of
`old`. With too few free windows the BAR stays unmapped (R109, R110). -/
def State.mapBar (s : State) (p k fn bar : Nat) (old : List Nat) : State :=
  let v := s.vdsp p k
  match tlook v.bars (fn * 6 + bar) with
  | none => s.enumCommit old []
  | some a =>
    let maps := s.barMaps p v fn bar a.toNat
    let free := (s.freeHost p).map (fun i => winKey 1 p i) ++ old
    if !(tget false v.memEn fn) ∨ maps.isEmpty then s.enumCommit old []
    else if free.length < maps.length then
      ((s.enumCommit old []).modVdsp p k (fun v => { v with barUnmapped := v.barUnmapped ||| (1#6 <<< bar) })).event
        0x803 [p] (k + bar * 256)
    else
      let ws := (free.zip maps).map (fun e => (e.1, enumEntry p e.2))
      (s.enumCommit (old.filter (fun o => !ws.any (fun w => w.1 == o))) ws).modVdsp p k
        (fun v => { v with barUnmapped := v.barUnmapped &&& ~~~(1#6 <<< bar) })

/-- Drop the enumeration entries below a vDSP (R116). -/
def State.unmapBelow (s : State) (p k : Nat) : State := s.enumCommit (s.enumKeys p k) []

/-! ## Target resets (R112, R116, R118) -/

/-- Registers the engine emulates below a vDSP to reset values, by function (R108, R116). -/
def Vdsp.fnReset (v : Vdsp) (fn : Nat) : Vdsp :=
  { v with memEn := tdel v.memEn fn, bars := v.bars.filter (fun e => e.1 / 6 != fn) }

/-- Function `fn` below a vDSP takes a reset: its BARs are unmapped and read their reset values (R116). -/
def State.fnReset (s : State) (p k fn : Nat) : State :=
  (s.enumCommit ([0, 1, 2, 3, 4, 5].flatMap (s.barKeys p k fn)) []).modVdsp p k (fun v => v.fnReset fn)

/-- Configuration registers below a vDSP to reset values; for a module function, that is what its
function reset does to them. -/
def Vdsp.belowReset (v : Vdsp) : Vdsp :=
  { v with memEn := [], bars := [], barUnmapped := 0, cfg := v.cfg.filter (fun e => decide (e.1 < 4096)) }

/-- A hot reset on the link of port `n`: nothing more while PORT_RESET holds PERST_N asserted, or while a hot
reset is in progress there (R118). -/
def State.hotResetPort (s : State) (n : Nat) : State :=
  let p := s.port n
  if p.step = 1 ∨ (p.ltssm = 7 ∧ !p.dlActive) then s
  else
    let s1 := s.emit (.hotReset n)
    if p.dlActive then s1.portDrop n 7 else s1

/-- An FLR is sent to function `fn` behind port `n`, unless one of that function is in progress (R118). -/
def State.sendFlr (s : State) (n fn : Nat) : State :=
  if (s.port n).flrs.contains (Config.functionRid n fn) then s
  else (s.emit (.flr n fn)).modPort n (fun p => { p with flrs := p.flrs ++ [Config.functionRid n fn] })

/-- Reset of a vDSP's target: hot reset of a whole device, FLR of each VF but not of a PF, FLR of a remote
function, function reset of a module function. One that an upstream reset propagated and that has not completed
is not repeated (R116, R118). -/
def State.targetReset (s : State) (p k : Nat) : State :=
  let v := s.vdsp p k
  if v.resetPending then s
  else
    match v.kind with
    | 1 => ((s.unmapBelow p k).modVdsp p k Vdsp.belowReset).hotResetPort v.port
    | 2 => (v.fns.filter (fun f => f != 0)).foldl (fun t f => (t.fnReset p k (f - v.first)).sendFlr v.port f) s
    | 3 => ((s.unmapBelow p k).modVdsp p k Vdsp.belowReset).emit (.remoteFlr v.module v.port v.first)
    | 4 => (s.unmapBelow p k).modVdsp p k Vdsp.belowReset
    | 5 => ((s.unmapBelow p k).modVdsp p k Vdsp.belowReset).owe (.retortReset p)
    | 6 => ((s.unmapBelow p k).modVdsp p k Vdsp.belowReset).owe (.vnicReset v.first)
    | _ => s

/-! ## The vDSP states (R112, R113) -/

/-- The target of a binding still exists: the device is present, or the remote module admitted (R112). -/
def State.targetExists (s : State) (v : Vdsp) : Bool :=
  match v.kind with
  | 1 => (s.port v.port).present
  | 2 => (s.port v.port).present
  | 3 => (s.adm v.module).st == .admitted || (s.adm v.module).st == .extracting
  | _ => true

/-- The vDSP begins removal: its target is reset where it still exists, and the drain begins. -/
def State.beginRemoval (s : State) (p k : Nat) (gone : Bool) : State :=
  let s1 := s.modVdsp p k (fun v => { v with st := .removing, timer := false, linkActive := false })
  if gone then s1 else s1.targetReset p k

/-- Forced removal, or target lost when `gone`: surprise removal toward the host, then removal. -/
def State.surpriseRemoval (s : State) (p k : Nat) (gone : Bool) : State :=
  match (s.vdsp p k).st with
  | .empty => s
  | .removing => s
  | _ =>
    ((s.modVdsp p k (fun v =>
        { v with presence := false, linkActive := false, presenceChanged := true, linkChanged := true })).hpNotify
      p k).beginRemoval p k gone

/-- The host writes Power Controller Control (R112, R113). -/
def State.powerControl (s : State) (p k : Nat) (off : Bool) : State :=
  let s1 := s.modVdsp p k (fun v => { v with powerOff := off })
  match (s.vdsp p k).st with
  | .present =>
    if off then
      (s1.modVdsp p k (fun v => { v with st := .poweredOff, linkActive := false, linkChanged := true })).targetReset p k
    else s1
  | .poweredOff =>
    if off then s1
    else s1.modVdsp p k (fun v => { v with st := .present, linkActive := true, linkChanged := true })
  | .unplug => if off then s1.beginRemoval p k false else s1
  | _ => s1

/-- The DPC trigger event of a vDSP (R112). A host that has not enabled DPC sees a link down (R120). -/
def State.dpcVdsp (s : State) (p k : Nat) : State :=
  match (s.vdsp p k).st with
  | .present =>
    s.modVdsp p k (fun v =>
      { v with st := .contained, dpcStatus := true, linkActive := false, linkChanged := v.linkChanged || !v.dpcEnable })
  | .poweredOff => s.modVdsp p k (fun v => { v with st := .contained, dpcStatus := true })
  | .unplug => (s.modVdsp p k (fun v => { v with dpcStatus := true })).beginRemoval p k false
  | .removing => s.modVdsp p k (fun v => { v with dpcStatus := true })
  | _ => s

/-- Every vDSP of partition `p` takes the DPC trigger event: QUIESCE (R434, R121). -/
def State.quiesce (s : State) (p : Nat) : State := (s.vdspsOf p).foldl (fun t k => t.dpcVdsp p k) s

/-- DPC triggers on physical downstream port `n`: the port is contained, its link disabled, and every
vDSP bound to it takes the event (R120). -/
def State.dpcTrigger (s : State) (n : Nat) : State :=
  if (s.port n).role ≠ .downstream ∨ (s.port n).dpc then s
  else
    let s1 := (s.modPort n (fun p => { p with dpc := true })).raiseAt (n / 4) 5 none (some n)
    let s2 := if (s.port n).dlActive then s1.portDrop n 6 else s1.modPort n (fun p => { p with ltssm := 6 })
    (s.boundTo n).foldl (fun t e => t.dpcVdsp e.1 e.2) s2

/-- The DPC reaction of an event concerning port `n`: of a partition that does not own the port
exclusively, only its own vDSPs bound there are contained (R434). -/
def State.dpcReact (s : State) (n : Nat) (attr : Option Nat) : State :=
  match attr with
  | some p =>
    if s.exclusiveOwner n = some p then s.dpcTrigger n
    else (s.boundTo n).foldl (fun t e => if e.1 = p then t.dpcVdsp e.1 e.2 else t) s
  | none => s.dpcTrigger n

/-- A contained port is released: its link trains again (R120). -/
def State.dpcRelease (s : State) (n : Nat) : State :=
  if (s.port n).dpc then s.modPort n (fun p => { p with dpc := false, ltssm := 0 }) else s

/-- The host clears DPC Trigger Status (R112, R113, R120): the port of an exclusively assigned whole device is released,
whatever state its vDSP is in. -/
def State.dpcClear (s : State) (p k : Nat) : State :=
  let v := s.vdsp p k
  match v.st with
  | .contained =>
    let s1 := if v.kind = 1 then s.dpcRelease v.port else s
    if (v.kind = 1 ∨ v.kind = 2) ∧ (s1.port v.port).dpc then s
    else
      (s1.targetReset p k).modVdsp p k (fun v =>
        if v.powerOff then { v with st := .poweredOff, dpcStatus := false }
        else { v with st := .present, dpcStatus := false, linkActive := true })
  | _ => (if v.kind = 1 ∧ v.bound then s.dpcRelease v.port else s).modVdsp p k (fun v => { v with dpcStatus := false })

/-- VDSP_UNBIND MODE 0 on a PRESENT vDSP: the unplug request (R112). -/
def State.unplugRequest (s : State) (p k : Nat) : State :=
  (s.modVdsp p k (fun v => { v with st := .unplug, attention := true, timer := true })).hpNotify p k

/-! ## The end of a removal (R112, R142, R145, R151) -/

/-- Keys of the ID map entries Ember made for a vDSP's functions (R145). -/
def State.idKeys (s : State) (p k : Nat) : List Nat :=
  let v := s.vdsp p k
  if v.kind = 1 ∨ v.kind = 2 then
    ((bankScope s.win.bank 3 0).filter (fun e => eEmber e.2 && ePort e.2 == v.port && ePartHi e.2 == p &&
      (v.kind == 1 || v.fns.any (fun f => eRid e.2 == Config.functionRid v.port f)))).map (fun e => e.1)
  else []

/-- Keys of the windows and grants that reach what a vDSP binds (R142). -/
def State.bindingTouch (s : State) (p k : Nat) : List Nat :=
  let v := s.vdsp p k
  let b := s.win.bank
  let at_ (m c o len : Nat) : List Nat := touching b (faMake m c o).toNat len
  let bars (m dev f : Nat) : List Nat := (List.range 6).flatMap (fun bar =>
    if Config.barLog dev f bar = 0 then []
    else at_ m 1 (v.port * 2 ^ 48 + barAddr dev f bar) (2 ^ Nat.max 12 (Config.barLog dev f bar)))
  match v.kind with
  | 1 => at_ s.own 1 (v.port * 2 ^ 48) (2 ^ 48)
  | 2 => v.fns.flatMap (bars s.own v.port)
  | 3 => bars v.module (64 * (v.module + 1) + v.port) v.first
  | 6 => at_ s.own 3 (v.first * 2 ^ 44) (2 ^ 44)
  | _ => s.enumKeys p k

/-- Keys of the PASID_MODE 1 entries that the entries at `gone` held, so that no entry is left without the one that contains
it (R144). -/
def strandedIds (b : Bank) (gone : List Nat) : List Nat :=
  ((bankScope b 3 0).filter (fun x => ePmode x.2 == 1 && !gone.contains x.1 &&
    gone.any (fun g => idHolds (bankGet b g) x.2))).map (fun x => x.1)

/-- The longest completion timeout in force on any PCIe port, in ms (R151). -/
def State.maxCto (s : State) : Nat := s.ports.foldl (fun a e => Nat.max a e.2.ctoMs) 0

/-- The binding is removed: ID map entries with the PASID entries they contained, enumeration entries and everything that
reached the functions go in one commit (R112, R142, R144, R145); a fence time starts for each function, as long as the
longest completion timeout now in force (R151). -/
def State.removeBinding (s : State) (p k : Nat) : State :=
  let v := s.vdsp p k
  let b := s.win.bank
  let ids := s.idKeys p k
  let own := ids ++ s.enumKeys p k
  let hit := (withDependents b (s.bindingTouch p k) ++ strandedIds b ids).filter (fun x => !own.contains x)
  let all := own ++ hit.eraseDups
  let s1 := if all.isEmpty then s
    else (s.emberCommit (all.map (fun x => (x, invalidated (bankGet b x))))).tellInvalidated b hit.eraseDups
  let fs : List Fence := match v.kind with
    | 1 => [{ port := v.port, fn := 0xFFFF, ms := s.maxCto }]
    | 2 => v.fns.map (fun f => { port := v.port, fn := f, ms := s.maxCto })
    | _ => []
  let s2 := s1.modWin (fun w => { w with fences := w.fences ++ fs })
  let s3 := if v.kind = 1 then s2.modPort v.port (fun q => { q with mode := .unassigned }) else s2
  let s4 := s3.modVdsp p k (fun v =>
    ({ dpcEnable := v.dpcEnable, dpcNonfatal := v.dpcNonfatal, hpInt := v.hpInt, redirect := v.redirect,
       srcVal := v.srcVal, cplRedirect := v.cplRedirect, cfg := v.cfg, powerOff := v.powerOff, attention := v.attention,
       linkChanged := v.linkChanged, presenceChanged := v.presenceChanged, dpcStatus := v.dpcStatus,
       aerUnc := v.aerUnc } : Vdsp))
  match v.unbind with
  | some h => s4.endHandle h rcOk
  | none => s4

/-- A packet of partition `p` goes to or comes from the target of vDSP `v`. -/
def State.concerns (s : State) (p : Nat) (v : Vdsp) (k : Pkt) : Bool :=
  k.part == p && k.smod == s.own &&
    match v.kind with
    | 1 => k.dst == v.port || k.src == v.port
    | 2 => (k.dst == v.port || k.src == v.port) && (k.ptype != 0 ||
        v.fns.any (fun f => (k.src == v.port && k.d.rid == Config.functionRid v.port f) ||
          (k.dst == v.port && Config.barFunction v.port (faPcie k.d.faddr / 4096) == f)))
    | 3 => k.action == 1 && k.dmod == v.module && faClass k.d.faddr == 1 && faPort k.d.faddr == v.port
    | 4 => decide (64 ≤ k.dst ∧ k.dst < 68)
    | 5 => decide (68 ≤ k.dst ∧ k.dst < 72)
    | _ => faClass k.d.faddr == 3 && faFn k.d.faddr == v.first && k.ptype == 0

/-- The drain of a removal has ended: no request of the partition to or from the target is outstanding
and none of its cells remains in the module (R112). -/
def State.drained (s : State) (p k : Nat) : Bool :=
  let v := s.vdsp p k
  let f := s.concerns p v
  !s.allPkts.any f &&
    s.ports.all (fun e => !e.2.npWait.any f && !e.2.egress.any f &&
      ((v.kind != 1 && v.kind != 2) || !e.2.tags.any (fun r =>
        r.part == p && ((e.1 == v.port) || (r.src == v.port))))) &&
    (v.kind != 3 || s.links.all (fun e => e.2.replay.all (fun r => !r.pkts.any f)))

/-! ## P resets and hierarchy resets (R86, R116) -/

/-- Ember closes the open transfer for a reset: its slot is left INVALID (R82). -/
def State.closeXfer (s : State) : State :=
  match s.ember.xfer with
  | none => s
  | some x =>
    let mark (o : Slot) : Slot := { o with st := .invalid, good := false }
    { s with
      ember := { s.ember with xfer := none }
      nv := { s.nv with
              slotA := if x.slot = 0 then mark s.nv.slotA else s.nv.slotA
              slotB := if x.slot = 0 then s.nv.slotB else mark s.nv.slotB
              lastOp := 0x0C01, lastStatus := rcAborted } }

/-- A P reset reaches the owner of the open transfer: it is closed, once an operation running for it has
ended. The sideband's transfer is not reached (R82). -/
def State.xferPReset (s : State) (p : Nat) : State :=
  match s.ember.xfer with
  | none => s
  | some x =>
    if x.owner ≠ p ∨ x.path = .sideband then s
    else if x.op = .none then s.closeXfer
    else s.modEmber (fun e => { e with xfer := some { x with closeDue := true } })

/-- A sweep stream disabled by a P reset: its settings return to their defaults (R518, R523). -/
def Stream.pReset (x : Stream) : Stream := { cause := if x.enabled then 2 else x.cause }

/-- The P fields of a queue pair's registers (R21, R336); a fetch under way leaves nothing to send. -/
def Qp.pReset (k : Qp) : Qp :=
  { k with error := false, txTail := 0, rxTail := 0, txHead := 0, rxHead := 0, fetchTo := 0, itr := 0, intEn := false }

/-- The P fields of a vNIC function's registers (R21, R336). -/
def Vnic.pReset (v : Vnic) : Vnic := { v with qpErrEv := false, linkChg := false, qps := tmap v.qps (fun _ k => k.pReset) }

/-- A P reset of partition `p` restores the P fields of its vNIC functions (R21, R336). -/
def State.vnicsPReset (s : State) (p : Nat) : State :=
  s.modNet (fun n => { n with vnics := n.vnics.map (fun e => (e.1, if e.2.part = p then e.2.pReset else e.2)) })

/-- P reset of partition `p`: mailbox page, event registers, staging set, sweep stream, held packets,
requests waiting for a slot, the registers of its vNIC functions, and an open transfer of its own (R82, R86, R97, R136,
R187, R336, R449, R518). `wide`: a reset of the hierarchy, which reaches its PCIe requesters (R116). -/
def State.pReset (s : State) (p : Nat) (wide : Bool) : State :=
  let s1 := s.pagePReset p
  let s2 := s1.modFlt (fun f => { f with rings := tdel f.rings p })
  let s3 := s2.modWin (fun w => { w with staging := tdel w.staging p })
  let s4 := s3.modCnt (fun c => { c with streams := tmod {} c.streams p Stream.pReset })
  (((s4.vnicsPReset p).dropHeldOf p).dropWaiting p wide).xferPReset p

/-- Registers of a vDSP to reset values. -/
def Vdsp.regsReset (v : Vdsp) : Vdsp :=
  { st := v.st, kind := v.kind, port := v.port, module := v.module, first := v.first, count := v.count,
    linkActive := v.linkActive, presence := v.presence, unbind := v.unbind, timer := v.timer,
    resetPending := v.resetPending }

/-- A vDSP at a P reset that reaches the hierarchy (R112); the reset of its target is in progress until every
propagated reset has completed (R117, R118). -/
def State.vdspPReset (s : State) (p k : Nat) : State :=
  let s0 := s.modVdsp p k Vdsp.regsReset
  match (s.vdsp p k).st with
  | .unplug => (s0.modVdsp p k (fun v => { v with powerOff := true })).beginRemoval p k false
  | .removing => s0
  | .empty => s0
  | _ =>
    ((s0.modVdsp p k (fun v => { v with st := .present, linkActive := true, presence := true })).targetReset p
      k).modVdsp p k (fun v => { v with resetPending := true })

/-- The virtual hierarchy of partition `p` is reset, with everything a PERST_N or hot reset of its
upstream port reaches (R116); the port releases its CLKREQ_N (R91). -/
def State.hierReset (s : State) (p : Nat) : State :=
  let keys := ((bankScope s.win.bank 1 p).filter (fun e => eEmber e.2)).map (fun e => e.1)
  let s1 := s.enumCommit keys []
  let s2 := s1.modVs p (fun v => { v with bridge := [], mgmt := {} })
  let s3 := (s.vdspsOf p).foldl (fun t k => t.vdspPReset p k) s2
  let s4 := match (s.vs p).up with
    | some u => s3.modPort u (fun q => { q with clkreq := false })
    | none => s3
  (s4.staleTags p).pReset p true

/-- A low pulse of `ns` on PERST_N or MODULE_RESET_N is taken: always from 1 µs, never below 100 ns (R117, R455). -/
def pulseTaken (ns : Nat) : Bool := decide (1000 ≤ ns) || (decide (100 ≤ ns) && Config.pulseTaken ns)

/-- PERST_N of an upstream port is asserted and stays low for `ns` (R116, R117). -/
def State.perstAssert (s : State) (n ns : Nat) : State :=
  let p := s.port n
  if !pulseTaken ns then s
  else if p.role ≠ .upstream ∨ tget false s.lands.perstLow n then
    { s with lands := { s.lands with perstLow := tset s.lands.perstLow n true } }
  else
    let s1 := { s with lands := { s.lands with perstLow := tset s.lands.perstLow n true } }
    let s2 := if p.dlActive then s1.portDrop n 0 else s1
    (s2.modVs p.part (fun v => { v with inReset := true })).hierReset p.part

/-- PERST_N of an upstream port is released: the hierarchy answers Request Retry Status until every
propagated reset has completed (R117). -/
def State.perstRelease (s : State) (n : Nat) : State :=
  let s1 := { s with lands := { s.lands with perstLow := tset s.lands.perstLow n false } }
  if (s.port n).role = .upstream then
    s1.modVs (s.port n).part (fun v => { v with inReset := false, rrs := v.rrs || v.inReset })
  else s1

/-- In-band hot reset, or the data link layer going down, on an upstream port (R116, R117). -/
def State.upstreamReset (s : State) (n : Nat) : State :=
  let p := (s.port n).part
  (s.hierReset p).modVs p (fun v => { v with rrs := true })

/-- The FLRs of a vDSP's functions have ended (R118). -/
def State.flrsDone (s : State) (v : Vdsp) : State :=
  if v.kind = 2 then
    s.modPort v.port (fun q => { q with flrs := q.flrs.filter (fun r => !v.fns.any (fun f => Config.functionRid v.port f == r)) })
  else s

/-- Every propagated reset of partition `p` has completed (R117). -/
def State.resetsDone (s : State) (p : Nat) : State :=
  (s.vdspsOf p).foldl (fun t k => (t.flrsDone (t.vdsp p k)).modVdsp p k (fun v =>
      if v.st = .removing then v else { v with resetPending := false }))
    (s.modVs p (fun v => { v with rrs := false }))

/-! ## Links and devices -/

/-- Surprise Down in the AER of every vDSP bound to port `n` (R119). -/
def State.surpriseDown (s : State) (n : Nat) : State :=
  (s.boundTo n).foldl (fun t e => t.modVdsp e.1 e.2 (fun v => { v with aerUnc := v.aerUnc ||| 0x20#32 })) s

/-- The link of PCIe port `n` goes down by itself: requests are answered, the station reports it, an
upstream port's hierarchy is reset and a downstream port is contained (R104, R116, R119, R120). -/
def State.linkDown (s : State) (n : Nat) : State :=
  if !(s.port n).dlActive then s
  else
    let s1 := (s.portDrop n 0).raiseAt (n / 4) 8 none (some n)
    match (s.port n).role with
    | .upstream => s1.upstreamReset n
    | .downstream => (s1.surpriseDown n).dpcTrigger n
    | .absent => s1

/-- The bound vDSPs of port `n` see the data link layer change, State Changed set. -/
def State.vdspLinks (s : State) (n : Nat) (up : Bool) : State :=
  (s.boundTo n).foldl (fun t e =>
    if (t.vdsp e.1 e.2).st = .present ∨ (t.vdsp e.1 e.2).st = .unplug then
      (t.modVdsp e.1 e.2 (fun v => { v with linkActive := up, linkChanged := true })).hpNotify e.1 e.2
    else t) s

/-- Enumeration after the first successful completion: the device is read, its BARs placed, and the bound
vDSPs hot-added (R32, R115 step 5). -/
def State.enumerate (s : State) (n : Nat) (d : DevInfo) : State :=
  let s1 := s.modPort n (fun p =>
    { p with step := 0, enumerated := true, unbound := !d.placeable
             dev := { totalVfs := d.totalVfs, acs := d.acs, placeable := d.placeable, tag10 := d.tag10,
                      mps := d.mps, mrrs := d.mrrs } })
  s1.vdspLinks n true

/-- The target of every vDSP bound to port `n`, or to a function of module `m`, is lost (R112). -/
def State.targetLost (s : State) (t : LostTarget) : State :=
  match t with
  | .port n => (s.boundTo n).foldl (fun a e => a.surpriseRemoval e.1 e.2 true) s
  | .module m =>
    (s.vdspsWhere (fun v => v.bound && v.kind == 3 && v.module == m)).foldl (fun a e => a.surpriseRemoval e.1 e.2 true) s

/-- The module asserts PERST_N of downstream port `n`: vDSPs bound there pass through target lost, or stay POWERED_OFF
(R116). -/
def State.perstLost (s : State) (n : Nat) : State :=
  (s.boundTo n).foldl (fun a e =>
    if (a.vdsp e.1 e.2).st = .poweredOff then a else a.surpriseRemoval e.1 e.2 true) s

end Sys2Proof.Machine
end

