-- ==== Sys2Proof/Machine/Lookup.lean ====
section
/-! DEFINITION. The ingress lookup of requests from hosts and devices (R132 to R135, R143, R144), the local
attachment of a fabric address (R33, R263), and the routing of what a lookup admits (R235, R264). -/

namespace Sys2Proof.Machine

open Sys2Proof

/-! ## Local attachments -/

/-- Pool port of byte `b` of sod `n` (R262, R263). -/
def State.poolPort (s : State) (n b : Nat) : Nat :=
  let w := s.pool.wide
  if n < w then b / 256 % 16 / 4 else Nat.min 3 ((n - w) / Nat.max 1 (s.pool.total / 4 - w / 4))

/-- Core port of the local attachment of a fabric address; none where it is not deliverable (R31, R33). -/
def State.attachment (s : State) (a : Word) : Option Nat :=
  if !faWellFormed a then none
  else match faClass a with
    | 0 => some (64 + s.poolPort (faSod a) (faByte a))
    | 1 => if s.portPresent (faPort a) then some (faPort a) else none
    | 2 => some (68 + (match s.inst (faGroup a) with | some i => i.engine | none => 0))
    | 3 => some (56 + (match s.vnic (faFn a) with | some v => v.lport / 4 | none => 0))
    | 4 => some 72
    | 5 => some 73
    | _ => none

/-- Destination key of a request (R235). -/
def destKey (a : Word) : Nat :=
  match faClass a with
  | 1 => 0x1000 + faPort a
  | 2 => 0x2000 + faGroup a
  | 3 => 0x3000 + faFn a
  | _ => 0

/-! ## Packets of memory requests -/

/-- Fmt and Type of a memory request. -/
def opcOf : MemKind → Nat
  | .read => opcMRd
  | .write => opcMWr
  | .fetchAdd => opcFetchAdd
  | .swap => opcSwap
  | .cas => opcCas
  | .translation => opcMRd

end Sys2Proof.Machine

namespace Sys2Proof

/-- A request is non-posted. -/
def MemKind.asks (k : MemKind) : Bool := k != .write

/-- Permission bit a request needs: READ, WRITE, ATOMIC (R133). -/
def MemKind.need : MemKind → Nat
  | .read => 0
  | .translation => 0
  | .write => 1
  | _ => 2

/-- The bytes a request touches: an AtomicOp those of its operand (R282). -/
def MemKind.span (k : MemKind) (len : Nat) : Nat := if k = .cas then len / 2 else len

end Sys2Proof

namespace Sys2Proof.Machine

open Sys2Proof

/-- The packet of a request from core port `n` with partition `p`, at fabric address `a` (R154, R158). -/
def State.requestPkt (s : State) (n p tc rid : Nat) (pasid : Option Nat) (a : Word) (r : MemReq) : Pkt :=
  { epoch := s.win.epoch.toNat, part := p, smod := s.own, src := n, sport := n, tc := tc,
    ro := bit r.attr 1, trk := s.win.openTracker, trkv := true, ptype := 0, dmod := s.own,
    desc := ({ faddr := a, len := r.data.length, opc := opcOf r.kind, rid := rid, tag := r.tag, pasid := pasid,
               attr := r.attr, ep := r.ep, fbe := r.fbe, lbe := r.lbe, ptc := r.ptc, bcount := r.len,
               laddr := a.toNat % 128 } : Desc).encode,
    data := r.data }

/-! ## Answers at the ingress -/

/-- A request is answered at its ingress port: a non-posted one with a completion, a posted one
discarded. -/
def State.answerAt (s : State) (n : Nat) (r : MemReq) (status : Nat) (data : Bytes) : State :=
  if r.kind.asks then s.emit (.completion n r.rid r.tag status false data) else s

/-- Unsupported Request, or discarded when posted. -/
def State.refuseAt (s : State) (n : Nat) (r : MemReq) : State := s.answerAt n r csUr []

/-! ## What a lookup admits -/

/-- Submit one looked-up packet toward a fabric address; it counts in the open drain tracker (R139,
R140). -/
def State.sendOne (s : State) (p : Pkt) (a : Word) : Option State :=
  let counted (t : State) : State := t.modWin (fun w => w.modCount p.trk p.part (· + 1))
  if faModule a = s.own then
    match s.attachment a with
    | none => none
    | some o => some ((counted s).submit { p with dst := o })
  else
    let p1 := { p with fhash := fhash s.own p.sport (faModule a) p.tc (destKey a) }
    match s.routePkt p1 (faModule a) with
    | some (p2, s1) => some ((counted s1).submit p2)
    | none => none

/-- The pieces of a request to a wide sod, one per 1 KiB block: address, length and data (R264). -/
def blocksOf (a len : Nat) (data : Bytes) : List (Nat × Nat × Bytes) :=
  let first := a / 1024
  let last := (a + Nat.max 1 len - 1) / 1024
  (List.range (last + 1 - first)).map (fun i =>
    let lo := Nat.max a ((first + i) * 1024)
    let hi := Nat.min (a + Nat.max 1 len) ((first + i + 1) * 1024)
    (lo, hi - lo, slice data (lo - a) (hi - lo)))

/-- First and last DW byte enables of the piece of `n` bytes at `lo` of a request of `len` bytes at `a`. -/
def pieceEnables (fbe lbe a len lo n : Nat) : Nat × Nat :=
  let last := (lo + n - 1) / 4 == (a + len - 1) / 4
  let one := lo / 4 == (lo + n - 1) / 4
  (if lo / 4 = a / 4 then fbe else if one && last then lbe else 15, if one then 0 else if last then lbe else 15)

/-- The packets of a request: a read or write of a local wide sod is split at its blocks (R264). -/
def State.piecesOf (s : State) (p : Pkt) (a : Word) (r : MemReq) : List (Pkt × Word) :=
  if faModule a = s.own ∧ faClass a = 0 ∧ faSod a < s.pool.wide ∧ (r.kind = .read ∨ r.kind = .write) then
    (blocksOf a.toNat r.len r.data).map (fun c =>
      let w : Word := BitVec.ofNat 64 c.1
      let d : Bytes := if r.kind = .write then c.2.2 else []
      let be := pieceEnables r.fbe r.lbe a.toNat r.len c.1 c.2.1
      ({ (p.modDesc (fun k => { k with faddr := w, len := d.length, bcount := c.2.1, laddr := c.1 % 128,
                                       fbe := be.1, lbe := be.2 })) with
          data := d }, w))
  else [(p, a)]

/-- Send a looked-up request; where its module has no route or its address no attachment, it is answered
at the ingress and counted against block 0x33 (R31, R33). -/
def State.sendRequest (s : State) (n : Nat) (r : MemReq) (p : Pkt) (a : Word) : State :=
  (s.piecesOf p a r).foldl (fun t c =>
    match t.sendOne c.1 c.2 with
    | some t1 => t1
    | none =>
      let t1 := t.refuseAt n r
      if faModule c.2 = t.own then t1.raiseAt 0x33 2 else t1.ledgerOnly 0x33) s

/-- A request of partition `p` to a target below one of its vDSPs that is not in service is refused
(R112): a device or remote function by its address, a module function by its enumeration entry. -/
def State.belowClosed (s : State) (p : Nat) (e : Entry) (a : Word) : Bool :=
  (s.vdspsOf p).any (fun k =>
    let v := s.vdsp p k
    v.bound && v.st != .present && v.st != .unplug &&
    (match v.kind with
     | 1 => faModule a == s.own && faClass a == 1 && faPort a == v.port
     | 2 => faModule a == s.own && faClass a == 1 && faPort a == v.port &&
         v.fns.contains (Config.barFunction v.port (faPcie a / 4096))
     | 3 => faModule a == v.module && faClass a == 1 && faPort a == v.port &&
         Config.barFunction (64 * (v.module + 1) + v.port) (faPcie a / 4096) == v.first
     | _ => eEmber e && (s.enumKeys p k).any (fun x => bankGet s.win.bank x == e)))

/-- A contained or absent physical port takes no request (R120). -/
def State.portClosed (s : State) (a : Word) : Bool :=
  faModule a == s.own && faClass a == 1 && ((s.port (faPort a)).dpc || !(s.port (faPort a)).dlActive)

/-- The request matched window `e`: last byte, permission, target, then on its way (R132, R133, R135). -/
def State.windowed (s : State) (n p tc rid : Nat) (pasid : Option Nat) (e : Entry) (r : MemReq) : State :=
  let a := winFaddr e r.addr.toNat
  if !winHolds e r.addr.toNat (Nat.max 1 (r.kind.span r.len)) then (s.refuseAt n r).ledgerOnly 0x33
  else if !bit (ePerm e) r.kind.need then (s.refuseAt n r).raiseAt 0x33 3 (some p) (some n) r.addr
  else if s.belowClosed p e a ∨ s.portClosed a then s.refuseAt n r
  else s.sendRequest n r { s.requestPkt n p tc rid pasid a r with rom := eKind e == 5 } a

/-- Partition `p`'s BAR ranges decode (R57). -/
def State.barsOpen (s : State) (p : Nat) : Bool :=
  let v := s.vs p
  decide (p < 32) && v.up.isSome && v.mgmt.memEn && !v.mgmt.d3

/-- Core class of a PCIe traffic class at a port (R100). -/
def Port.coreTc (p : Port) (ptc : Nat) : Nat := mapField p.tcMap 3 ptc

/-- PASID under which a request of partition `p`'s host with PASID `x` leaves toward the function at fabric address `a`: the
device's own where an entry of the ID map translates that function's (R143). -/
def State.devicePasid (s : State) (p : Nat) (a : Word) (x : Nat) : Nat :=
  if faClass a = 1 ∧ faModule a = s.own then
    let rid := Config.functionRid (faPort a) (Config.barFunction (faPort a) (faPcie a / 4096))
    match (bankScope s.win.bank 3 0).find? (fun g =>
        ePartHi g.2 == p && ePmode g.2 == 1 && eVpasid g.2 == x && ePort g.2 == faPort a &&
        decide (eRid g.2 ≤ rid ∧ rid < eRid g.2 + 2 ^ eSpan g.2)) with
    | some g => ePasid g.2
    | none => x
  else x

/-- A request from the host on upstream port `n`, outside the management ranges (R110, R135). A request
to a function that carries a virtual PASID leaves with the device's own (R143). -/
def State.hostLookup (s : State) (n : Nat) (r : MemReq) : State :=
  let p := s.port n
  match hostWindow s.win.bank p.part r.addr.toNat with
  | none => s.refuseAt n r
  | some e =>
    if eKind e = 5 ∧ !s.barsOpen p.part then s.refuseAt n r
    else
      let a := winFaddr e r.addr.toNat
      s.windowed n p.part (p.coreTc r.ptc) r.rid (r.pasid.map (s.devicePasid p.part a)) e r

/-- A request forwarded to the partition's upstream port, its address unchanged (R111); the tag of its
lookup is kept as for any other. -/
def State.forwardUp (s : State) (n p tc rid : Nat) (pasid : Option Nat) (r : MemReq) : State :=
  match (s.vs p).up with
  | none => s.refuseAt n r
  | some u =>
    if !(s.port u).dlActive then s.refuseAt n r
    else
      let k := s.requestPkt n p tc rid pasid r.addr r
      (s.modWin (fun w => w.modCount k.trk p (· + 1))).submit { k with dst := u }

/-- ACS P2P Request Redirect is set on the partition's vDSP bound to the requester (R111). -/
def State.redirected (s : State) (p n rid : Nat) : Bool :=
  (s.vdspsOf p).any (fun k =>
    let v := s.vdsp p k
    v.onPort n && v.redirect && (v.kind == 1 || v.fns.any (fun f => Config.functionRid n f == rid)))

/-- The vDSP of partition `p` through which a requester on port `n` is contained (R120, R121). -/
def State.containedAt (s : State) (p n rid : Nat) : Bool :=
  (s.vdspsOf p).any (fun k =>
    let v := s.vdsp p k
    v.onPort n && v.st != .present && v.st != .unplug &&
      (v.kind == 1 || v.fns.any (fun f => Config.functionRid n f == rid)))

/-- ACS Source Validation: the requester's virtual bus lies outside the buses below the vDSP it enters by, whose host has set the
check (R122). -/
def State.sourceInvalid (s : State) (p n rid vrid : Nat) : Bool :=
  (s.vdspsOf p).any (fun k =>
    let v := s.vdsp p k
    let b := (tget 0 v.cfg 0x18).toNat
    v.onPort n && v.srcVal && (v.kind == 1 || v.fns.any (fun f => Config.functionRid n f == rid)) &&
      !decide (bits b 15 8 ≤ vrid / 256 ∧ vrid / 256 ≤ bits b 23 16))

/-- A request from a device on downstream port `n` (R94, R111, R122, R143, R144). -/
def State.deviceLookup (s : State) (n : Nat) (r : MemReq) : State :=
  let q := s.port n
  if r.atField ≠ 0 ∨ r.kind = .translation then (s.refuseAt n r).ledgerOnly (n / 4)
  else match idMatch s.win.bank n r.rid r.pasid with
    | none => (s.refuseAt n r).raiseAt (n / 4) 4 none (some n)
    | some m =>
      let p := ePartHi m
      let rid := eVrid m + (r.rid - eRid m)
      let pasid := if ePmode m = 1 then some (eVpasid m) else r.pasid
      let tc := q.coreTc r.ptc
      if s.containedAt p n r.rid then s.refuseAt n r
      else if s.sourceInvalid p n r.rid rid then s.refuseAt n r
      else if s.redirected p n r.rid then s.forwardUp n p tc rid pasid r
      else match deviceWindow s.win.bank n p r.addr.toNat with
        | none => s.forwardUp n p tc rid pasid r
        | some e => s.windowed n p tc rid pasid e r

end Sys2Proof.Machine
end

