-- ==== Sys2Proof/Machine/FabOps.lean ====
section
/-! DEFINITION. Fabric mode: failing paths and moving flows (R224, R246 to R248), withdrawal (R252), link
quarantine and SPDM (R241 to R243), extraction (R249, R250), and packets from other modules (R231, R239,
R240). -/

namespace Sys2Proof.Machine

open Sys2Proof

/-! ## Flow moves (R224, R247) -/

/-- A packet belongs to bucket `b` toward module `m`. -/
def inBucket (m b : Nat) (p : Pkt) : Bool := p.action == 1 && p.dmod == m && p.fhash % 16 == b

/-- Link `l` has a packet of the flow it has begun and not sent whole, or sent and not seen acknowledged. -/
def State.flowOnLink (s : State) (l m b : Nat) : Bool :=
  s.core.q.any (fun e => e.sending l && inBucket m b e.pkt) ||
    (s.link l).replay.any (fun r => r.pkts.any (inBucket m b) || r.cuts.any (inBucket m b))

/-- A ROUTE_SET or withdrawal ends under handle `h` once none of its moves is left (R257). -/
def State.endMoves (s : State) (h : Nat) : State :=
  if h = 0 ∨ s.fab.moves.any (fun v => v.handle == h) then s else s.endHandle h rcOk

/-- The flow takes its new path: the bucket, then the held packets of the flow (R188, R224). -/
def State.finishMove (s : State) (v : Move) : State :=
  let l := routeLink (s.entryOf v.dmod) v.dest
  let s1 := s.modFab (fun f => { f with moves := f.moves.filter (fun x => !(x.dmod == v.dmod && x.bucket == v.bucket)) })
  let s2 := s1.modRoute v.dmod (fun r => { r with oper := setBucket r.oper v.bucket v.dest })
  (if l = v.fromLink then s2 else s2.redirect v.dmod v.bucket v.fromLink l v.dest).endMoves v.handle

/-- The old link has acknowledged every flit of a moving flow, or is not UP and resolved (R224). -/
def State.moveReady (s : State) (v : Move) : Bool :=
  (s.link v.fromLink).st != .up || !s.flowOnLink v.fromLink v.dmod v.bucket

/-- Begin to move bucket `b` toward module `m` from link `l` to path `j`. A link that is not UP is first made
failed (R223, R224). -/
def State.startMove (s : State) (m b l j h : Nat) : State :=
  let s1 := if (s.link l).st = .up ∨ (s.link l).failed then s else s.makeFailedCore l
  let v : Move := { dmod := m, bucket := b, dest := j, fromLink := l, handle := h }
  let s2 := (s1.modFab (fun f => { f with moves := f.moves ++ [v] })).waitForMove m b
  if s2.moveReady v then s2.finishMove v else s2

/-- FLOW_MOVE_COMPLETE of bucket `b` toward module `d`. -/
def State.moveComplete (s : State) (d b : Nat) : State :=
  match s.fab.moves.find? (fun v => v.dmod == d && v.bucket == b) with
  | some v => if s.moveReady v then s.finishMove v else s
  | none => s

/-- Bucket `b` toward module `m` is moving. -/
def State.moving (s : State) (m b : Nat) : Bool := s.fab.moves.any (fun v => v.dmod == m && v.bucket == b)

/-! ## Failing paths (R246 to R248) -/

/-- Set the failed bit of every defined path meeting `f` (of a destination and a link). -/
def State.failPaths (s : State) (f : Nat → Bool) : State :=
  s.modFab (fun b => { b with routes := tmap b.routes (fun _ r =>
    if routeState r.entry = 1 then
      { r with failed := r.failed ||| BitVec.ofNat 4 (bitsOf 4 (fun j => routeValid r.entry j && f (routeLink r.entry j))) }
    else r) })

/-- Move every bucket of a failed path to the usable paths of its destination (R247). -/
def State.moveFailedTo (s : State) (m : Nat) : State :=
  let us := s.usablePaths m
  if us.isEmpty then s
  else
    let r := s.route m
    let bs := (List.range 16).filter (fun b => r.failed.getLsbD (bucketPath r.oper b) && !s.moving m b)
    (bs.zipIdx).foldl (fun t e =>
      t.startMove m e.1 (routeLink r.entry (bucketPath r.oper e.1)) (us.getD (e.2 % us.length) 0) 0) s

/-- Move the buckets of every failed path that can move. -/
def State.moveFailed (s : State) : State :=
  (s.fab.routes.filter (fun e => routeState e.2.entry == 1)).foldl (fun t e => t.moveFailedTo e.1) s

/-- Link `l` has been out of UP for FAILOVER_MS, or is disabled by command (R246). -/
def State.failover (s : State) (l : Nat) : State :=
  if (s.link l).st = .up then s else (s.failPaths (fun k => k == l)).moveFailed

/-- Link `l` has become usable: its paths are no longer failed (R234, R248), and buckets held on other failed
paths can move to it (R247). -/
def State.pathsBack (s : State) (l : Nat) : State :=
  if !s.linkUsable l then s
  else
    let peer := (s.link l).peerModule
    let ok (m : Nat) : Bool := peer == m || (s.adm peer).st == .admitted
    (s.modFab (fun b => { b with routes := tmap b.routes (fun m r =>
      if ok m then { r with failed := BitVec.ofNat 4 (bitsOf 4 (fun j =>
          r.failed.getLsbD j && !(routeValid r.entry j && routeLink r.entry j == l))) }
      else r) })).moveFailed

/-- Path `j` toward module `d` has been usable again for REVERT_MS: its committed buckets return (R248). -/
def State.revert (s : State) (d j : Nat) : State :=
  if s.fab.revertMs = 0 ∨ !s.pathUsable d j then s
  else
    let r := s.route d
    ((List.range 16).filter (fun b => bucketPath (routeBuckets r.entry) b == j && bucketPath r.oper b != j &&
        !s.moving d b)).foldl (fun t b =>
      t.startMove d b (routeLink r.entry (bucketPath r.oper b)) j 0) s

/-! ## Withdrawal and links leaving UP (R243, R252) -/

/-- Links whose last peer is module `m`. -/
def State.linksTo (s : State) (m : Nat) : List Nat := (List.range 16).filter (fun l => (s.link l).peerModule == m)

/-- Withdrawal of module `m` under handle `h`, in the order of R252. -/
def State.withdraw (s : State) (m h : Nat) : State :=
  let s1 := (s.modAdm m (fun a => { a with st := .withdrawn })).modRoute m (fun r =>
    { r with entry := (r.entry &&& ~~~3#64) ||| 2#64 })
  let dead := s1.fab.moves.filter (fun v => v.dmod == m)
  let s2 := dead.foldl (fun t v => t.endMoves v.handle)
    (s1.modFab (fun f => { f with moves := f.moves.filter (fun v => v.dmod != m) }))
  let s3 := (s2.linksTo m).foldl (fun t l => t.makeFailedCore l) s2
  let s4 := s3.dropBoundFor m
  let s5 := (List.range 8).foldl (fun t c => t.modSpray m c (fun _ => {})) s4
  let s6 := s5.invalidateRange (m * 2 ^ 58) (2 ^ 58)
  let s7 := s6.targetLost (.module m)
  ((s7.failPaths (fun l => (s7.link l).peerModule == m)).moveFailed).endMoves h

/-- Link `l` has left UP: when it was the last one to a module that is extracting, that module is withdrawn
(R243, R253). -/
def State.linkLeft (s : State) (l : Nat) : State :=
  let m := (s.link l).peerModule
  if m < 64 ∧ (s.adm m).st = .extracting ∧ (s.linksTo m).all (fun k => (s.link k).st != .up) then s.withdraw m 0
  else s

/-- A reset of link `l` with a cause, from UP (R217, R220). -/
def State.linkReset (s : State) (l cause : Nat) : State :=
  if (s.link l).st = .up then (s.linkResetCore l cause).linkLeft l else s

/-- Link `l` is made failed (R223). -/
def State.makeFailed (s : State) (l : Nat) : State :=
  if (s.link l).st = .up then (s.makeFailedCore l).linkLeft l else s.makeFailedCore l

/-! ## SPDM and quarantine (R241 to R244) -/

/-- Code of an admission record's state (FAB_GET_MODULE). -/
def admCode : AdmSt → Nat
  | .unknown => 0
  | .quarantined => 1
  | .authenticated => 2
  | .admitted => 3
  | .extracting => 4
  | .withdrawn => 5

/-- Event 0x808 for module `m` (R447). -/
def State.admEvent (s : State) (m : Nat) : State := s.event 0x808 [0] (m + admCode (s.adm m).st * 256)

/-- Ember begins an SPDM attempt on link `l` with GET_VERSION (R242). -/
def State.spdmStart (s : State) (l : Nat) : State :=
  (s.modLink l (fun k => { k with spdmRun := true, spdmStep := 0 })).controlOn l (.spdmReq 0)

/-- The quarantine of link `l` ends (R241). -/
def State.unquarantine (s : State) (l : Nat) : State :=
  (s.modLink l (fun k => { k with quarantined := false })).pathsBack l

/-- An SPDM attempt on link `l` fails (R242). -/
def State.spdmFail (s : State) (l : Nat) : State :=
  let m := (s.link l).peerModule
  ((s.modLink l (fun k => { k with spdmRun := false, spdmTries := k.spdmTries + 1 })).modAdm m (fun a =>
    { a with authFails := sat 255 a.authFails 1 })).raiseAt 0x32 4 none (some (40 + l))

/-- SPDM succeeds on link `l` with an identity digest and measurements (R243). -/
def State.spdmSuccess (s : State) (l : Nat) (d : BitVec 384) (fw : BitVec 32) (svn : Nat) : State :=
  let m := (s.link l).peerModule
  let s1 := s.modLink l (fun k => { k with spdmRun := false, spdmOk := true })
  let note (t : State) : State := t.modAdm m (fun a => { a with digest := some d, fwVersion := fw, svn := svn, verified := true })
  match (s.adm m).st with
  | .quarantined => ((note s1).modAdm m (fun a => { a with st := .authenticated })).admEvent m
  | .admitted =>
    if (s.adm m).admitted = some d then (note s1).unquarantine l
    else ((s1.modLink l (fun k => { k with spdmOk := false })).raiseAt 0x32 5 none (some (40 + l))).admEvent m
  | _ => note s1

/-- An SPDM response from the peer of link `l` (R242, R243). -/
def State.spdmResponse (s : State) (l : Nat) (r : SpdmResult) : State :=
  let k := s.link l
  if k.st ≠ .up ∨ !k.spdmRun then s
  else match r with
    | .progress =>
      (s.modLink l (fun k => { k with spdmStep := Nat.min 6 (k.spdmStep + 1) })).controlOn l
        (.spdmReq (Nat.min 6 (k.spdmStep + 1)))
    | .success d fw svn => s.spdmSuccess l d fw svn
    | .failed => s.spdmFail l

/-- The 1 s interval after a failed attempt ends: at most two retries (R242). -/
def State.spdmRetry (s : State) (l : Nat) : State :=
  let k := s.link l
  if k.st = .up ∧ k.quarantined ∧ !k.spdmRun ∧ !k.spdmOk ∧ 1 ≤ k.spdmTries ∧ k.spdmTries ≤ 2 then s.spdmStart l else s

/-- Ember answers SPDM request `name` received on link `l` (R242). -/
def State.spdmAnswer (s : State) (l name : Nat) (content : Bytes) : State :=
  if (s.link l).st = .up ∧ s.ember.fwReady then s.controlOn l (.spdmRsp name content) else s

/-- Content of the answer to SPDM request `name` with arguments `a` and `b` (R242): the algorithms ECDSA P-384 and SHA-384, by their
bits in DSP0274 (PRESUMED, log 83); the digest of the identity certificate; the running firmware version and security version, 4
and 2 bytes (log 83). What the cited SPDM specification puts into the others is not in this one. -/
def State.spdmContent (s : State) (name a b : Nat) : Bytes :=
  match name with
  | 2 => leBytes 4 0x80 ++ leBytes 4 0x02
  | 3 => leBytes 48 Config.identityDigest.toNat
  | 6 => leBytes 4 s.boot.fwVersion.toNat ++ leBytes 2 s.boot.fwSvn
  | _ => Config.spdmContent name a b

/-! ## Extraction (R249, R250) -/

/-- No route of this module for another destination names a link to module `m` (R249 step 4). -/
def State.avoids (s : State) (m : Nat) : Bool :=
  s.fab.routes.all (fun e => e.1 == m || routeState e.2.entry != 1 ||
    [0, 1, 2, 3].all (fun j => !routeValid e.2.entry j || (s.link (routeLink e.2.entry j)).peerModule != m))

/-- Report to every extracting neighbour that routes of this module avoid it, where they did not before. -/
def State.reportReroutes (s old : State) : State :=
  ((List.range 64).filter (fun m => (s.adm m).st == .extracting && !(s.linksTo m).isEmpty && s.avoids m &&
      !((old.adm m).st == .extracting && old.avoids m))).foldl (fun t m => t.control m .rerouted) s

/-- MODE 0 unbinding of one vDSP by Ember itself: as VDSP_UNBIND does, without a handle (R112, R249). -/
def State.emberUnbind (s : State) (p k : Nat) : State :=
  match (s.vdsp p k).st with
  | .present => s.unplugRequest p k
  | .poweredOff => s.modVdsp p k (fun v => { v with st := .removing })
  | .contained => s.surpriseRemoval p k (!s.targetExists (s.vdsp p k))
  | _ => s

/-- EXTRACT_REQ_N is asserted; its filter starts (R249). -/
def State.extractReq (s : State) : State :=
  let s1 := { s with lands := { s.lands with extractReq := true } }
  if s.fab.extract.step = 0 then s1.modFab (fun f => { f with extract := { f.extract with filter := true } }) else s1

/-- The module's own ID is announced to every admitted module and partition, and the unbinds begin (R249
steps 2 to 4). -/
def State.extractBegin (s : State) : State :=
  if !s.fab.extract.filter ∨ !s.lands.extractReq ∨ s.fab.extract.step ≠ 0 then s
  else
    let s1 := s.modFab (fun f => { f with extract := { filter := false, step := 3, rerouted := [] } })
    let s2 := ((List.range 64).filter (fun m => (s.adm m).st == .admitted)).foldl (fun t m => t.control m (.extracting false)) s1
    let s3 := s2.event 0x809 s2.allParts s2.own
    (s3.vdspsWhere (fun v => v.bound)).foldl (fun t e => t.emberUnbind e.1 e.2) s3

/-- Neighbours whose report step 4 waits for: peers of UP links that this module has admitted (R249, R253). -/
def State.extractNeighbours (s : State) : List Nat :=
  (((List.range 16).filter (fun l => (s.link l).st == .up)).map (fun l => (s.link l).peerModule)).eraseDups.filter
    (fun m => (s.adm m).st == .admitted)

/-- Neighbour `m` reports that its routes avoid this module (R249 step 4). -/
def State.neighbourReport (s : State) (m : Nat) : State :=
  s.modFab (fun f => { f with extract := { f.extract with
    rerouted := if f.extract.rerouted.contains m then f.extract.rerouted else f.extract.rerouted ++ [m] } })

/-- Every link is disabled and READY_REMOVE_N asserted (R249 steps 6 and 7). -/
def State.extractEnd (s : State) : State :=
  let s1 := (List.range 16).foldl (fun t l =>
    (t.modLink l (fun k => { k with enabled := false })).makeFailedCore l) s
  ({ s1 with lands := { s1.lands with readyRemove := true } }).modFab (fun f => { f with extract := { f.extract with step := 7 } })

/-- Steps 3 and 4 have ended and everything is drained (R249 step 5). -/
def State.extractDrained (s : State) : Bool :=
  s.fab.extract.step == 3 && s.vdsps.all (fun e => !e.2.bound) &&
    s.extractNeighbours.all (fun m => s.fab.extract.rerouted.contains m) &&
    s.core.q.isEmpty && s.core.waiting.isEmpty && s.links.all (fun e => e.2.replay.isEmpty)

/-- An EXTRACTING announcement from module `m`, or one that ends its extraction (R243, R249). -/
def State.announced (s : State) (m : Nat) (ended : Bool) : State :=
  match (s.adm m).st with
  | .admitted =>
    if ended then s
    else
      let s1 := (s.modAdm m (fun a => { a with st := .extracting })).event 0x809 s.allParts m
      let s2 := (s1.vdspsWhere (fun v => v.bound && v.kind == 3 && v.module == m)).foldl (fun t e => t.emberUnbind e.1 e.2) s1
      s2.reportReroutes s
  | .extracting => if ended then s.withdraw m 0 else s
  | _ => s

/-! ## Packets from other modules (R231, R239, R240) -/

/-- A packet received here is discarded without answer and counted against block 0x33 (R239). -/
def State.dropForeign (s : State) (l : Nat) (p : Pkt) : State := (s.discard p).raiseAt 0x33 4 none (some (40 + l))

/-- A packet is answered as in R31 at this module, with a source of block 0x33 (R231, R239). -/
def State.refuseForeign (s : State) (l i : Nat) (p : Pkt) : State :=
  (s.refusePkt { p with dst := 40 + l }).raiseAt 0x33 i none (some (40 + l)) p.d.faddr

/-- A packet for this module is addressed to its attachment; a frame received for a vNIC function is steered to the queue pair its
descriptor names: action VNIC_RX (R154). -/
def localPkt (p : Pkt) (o : Nat) : Pkt :=
  if p.ptype = 3 then { p with dst := o, action := 3, actArg := faFn p.d.faddr + 1024 * p.qp }
  else { p with dst := o, action := 0, actArg := 0 }

/-- The packets that a request from another module becomes here: a read or write of a wide sod one for each block (R264). -/
def State.arrivals (s : State) (p : Pkt) : List (Pkt × Word) :=
  let d := p.d
  if p.ptype = 0 ∧ (d.opc = opcMRd ∨ d.opc = opcMWr) then
    s.piecesOf p d.faddr
      { kind := if d.opc = opcMWr then .write else .read, addr := d.faddr, len := if d.opc = opcMWr then p.len else d.bcount,
        data := p.data, fbe := d.fbe, lbe := d.lbe }
  else [(p, d.faddr)]

/-- The packets of a request for this module go to their attachments; one whose address has none is answered (R231, R239). -/
def State.deliverHere (s : State) (l : Nat) (p : Pkt) : State :=
  (s.arrivals p).foldl (fun t c =>
    match t.attachment c.2 with
    | none => t.refuseForeign l 2 c.1
    | some o => t.submit (localPkt c.1 o)) s

/-- A packet arrives on fabric link `l` (R231, R239, R240). At a transit module a destination without a route is
R33's case and a path that is not direct is R231's. Control packets of PTYPE 4 for this module have
their own events; SPDM runs before a module is ADMITTED, so only those in transit are held to it. -/
def State.fabricIn (s : State) (l : Nat) (k : Pkt) : State :=
  let p := { k with src := 40 + l, epoch := s.win.epoch.toNat, trk := 0, trkv := false, spilled := false }
  if (s.link l).st ≠ .up then s
  else if (s.link l).quarantined ∧ p.ptype ≠ 4 then s.dropForeign l p
  else if (p.ptype ≠ 4 ∨ p.dmod ≠ s.own) ∧ (s.adm p.smod).st ≠ .admitted then s.dropForeign l p
  else if p.dmod = s.own then
    if p.ptype = 4 then s
    else if p.ptype = 1 then
      if s.portPresent (cplPort p.d.faddr) then s.submit (localPkt p (cplPort p.d.faddr)) else s.refuseForeign l 2 p
    else if 4 ≤ faClass p.d.faddr then s.refuseForeign l 2 p
    else s.deliverHere l p
  else if p.hops = 0 then
    match s.routePkt p p.dmod with
    | some (p1, s1) => s1.submit p1
    | none => s.refuseForeign l (if routeState (s.entryOf p.dmod) = 1 then 5 else 2) p
  else s.refuseForeign l 5 p

/-- A DONE report of module `m` and class `tc` (R238). -/
def State.doneReport (s : State) (m tc value : Nat) : State :=
  s.modSpray m tc (fun y =>
    let y1 := { y with done_ := BitVec.ofNat 32 value }
    { y1 with sprayed := y1.sprayed && y1.sent - y1.done_ - y1.lost != 0 })

end Sys2Proof.Machine
end

