-- ==== Sys2Proof/Machine/Fabric.lean ====
section
/-! DEFINITION. Fabric commands: ROUTE_SET to FAB_SET_CONFIG (R244, R245, R252, R256, R257), relayed commands,
and the running image served to a peer (R470). -/

namespace Sys2Proof.Machine

open Sys2Proof

/-! ## ROUTE_SET (R257) -/

/-- One record of ROUTE_SET. -/
structure RouteRec where
  /-- MODULE. -/
  m : Nat
  /-- Route entry, with AUTOFILL applied. -/
  e : BitVec 64
  deriving DecidableEq, Repr, Inhabited

/-- Defined paths of an entry, rising. -/
def definedPaths (e : BitVec 64) : List Nat := [0, 1, 2, 3].filter (routeValid e)

/-- AUTOFILL: bucket b takes the (b mod n)-th of n defined paths. -/
def autofill (e : BitVec 64) : BitVec 64 :=
  let ps := definedPaths e
  let b := (List.range 16).foldl (fun a i => a + (ps.getD (i % Nat.max 1 ps.length) 0) * 2 ^ (2 * i)) 0
  BitVec.ofNat 64 (e.toNat % 2 ^ 32 + b * 2 ^ 32)

/-- Offset of record `i`. -/
def routeOff (i : Nat) : Nat := 0x28 + 16 * i

/-- Record `i` of a request. -/
def routeRec (q : Req) (i : Nat) : RouteRec :=
  let e := BitVec.ofNat 64 (q.u64 (routeOff i + 8))
  { m := q.u8 (routeOff i), e := if bit (q.u8 0x21) 0 ∧ routeState e = 1 then autofill e else e }

/-- Two defined paths name one link. -/
def sameLink (e : BitVec 64) : Bool :=
  (definedPaths e).any (fun i => (definedPaths e).any (fun j => decide (i < j) && routeLink e i == routeLink e j))

/-- Record `i` is in order. -/
def State.routeOk (s : State) (q : Req) (i : Nat) : Bool :=
  let r := routeRec q i
  decide (r.m < 64) && r.m != s.own && q.zero (routeOff i + 1) 7 &&
    !(List.range i).any (fun j => (routeRec q j).m == r.m) &&
    decide (routeState r.e ≤ 1) && bits r.e.toNat 31 28 == 0 && bits r.e.toNat 7 3 == 0 &&
    (routeState r.e == 0 || (!(definedPaths r.e).isEmpty &&
      (List.range 16).all (fun b => routeValid r.e (bucketPath (routeBuckets r.e) b)))) &&
    !sameLink r.e

/-- The buckets of a record whose flows change link: bucket, old link, new path. -/
def State.routeMoves (s : State) (r : RouteRec) : List (Nat × Nat × Nat) :=
  let o := s.route r.m
  if routeState o.entry = 1 ∧ routeState r.e = 1 then
    ((List.range 16).map (fun b =>
      (b, routeLink o.entry (bucketPath o.oper b), bucketPath (routeBuckets r.e) b))).filter
      (fun x => x.2.1 != routeLink r.e x.2.2)
  else []

/-- Every entry of a ROUTE_SET takes effect at one instant (R233). -/
def State.setRoutes (s : State) (rs : List RouteRec) : State :=
  rs.foldl (fun t r => t.modRoute r.m (fun x => { x with entry := r.e, oper := routeBuckets r.e, failed := 0 })) s

/-- ROUTE_SET, 0x0403. -/
def cmdRouteSet : Cmd where
  op := 0x0403
  lenOk q := q.length == 8 + 16 * q.u8 0x20
  allowed := fabricAdmins
  body w q s :=
    let n := q.u8 0x20
    match firstBad ([(0x20, decide (1 ≤ n ∧ n ≤ 63)), (0x21, decide (q.u8 0x21 ≤ 1)), (0x22, q.zero 0x22 6)] ++
        (List.range n).map (fun i => (routeOff i, s.routeOk q i))) with
    | some f => bad s f
    | none =>
      let rs := (List.range n).map (routeRec q)
      if rs.any (fun r => routeState (s.route r.m).entry == 2 || s.fab.moves.any (fun v => v.dmod == r.m)) then
        failWith s rcConflict
      else
        let ms := rs.flatMap (fun r => (s.routeMoves r).map (fun x => (r.m, x)))
        if ms.isEmpty then ok ((s.setRoutes rs).reportReroutes s)
        else if !s.handleFree w.caller then failWith s rcBusy
        else
          let h := s.newHandle w.caller 0x0403
          let t := ms.foldl (fun t x => t.startMove x.1 x.2.1 x.2.2.1 x.2.2.2 h.1) (h.2.setRoutes rs)
          pend ((t.reportReroutes s).endMoves h.1) h.1

/-- ROUTE_READ, 0x0404. -/
def cmdRouteRead : Cmd where
  op := 0x0404
  lenOk := lenIs 4
  allowed := fabricAdmins
  body _ q s :=
    let a := q.u8 0x20
    let n := q.u8 0x21
    match firstBad [(0x20, decide (a < 64)), (0x21, decide (1 ≤ n ∧ n ≤ 64 ∧ a + n ≤ 64)), (0x22, q.zero 0x22 2)] with
    | some f => bad s f
    | none =>
      ok s ((List.range n).flatMap (fun i =>
        let m := a + i
        leBytes 8 (s.entryOf m).toNat ++ leBytes 4 (s.route m).oper.toNat ++
          leBytes 1 (bitsOf 4 (s.pathUsable m)) ++ [0, 0, 0]))

/-! ## Admission (R243, R244, R252) -/

/-- FAB_GET_MODULE, 0x0405. -/
def cmdFabGetModule : Cmd where
  op := 0x0405
  lenOk := lenIs 4
  allowed := fabricAdmins
  body _ q s :=
    let m := q.u8 0x20
    match firstBad [(0x20, decide (m < 64)), (0x21, q.zero 0x21 3)] with
    | some f => bad s f
    | none =>
      let a := s.adm m
      let digest := match a.digest with | some d => d | none => a.admitted.getD 0
      let flags := b2n a.verified + 2 * b2n (decide (3 ≤ a.fwVersion.toNat / 2 ^ 24)) + 4 * b2n a.force +
        8 * b2n (s.boot.opt.managers.contains m) + 16 * b2n (m == s.own && s.fab.forced)
      ok s (leBytes 1 m ++ leBytes 1 (if m = s.own then 0xFF else admCode a.st) ++
        leBytes 2 (bitsOf 16 (fun l => (s.link l).peerModule == m)) ++ leBytes 4 a.fwVersion.toNat ++ leBytes 2 a.svn ++
        leBytes 1 flags ++ leBytes 1 a.authFails ++ [0, 0, 0, 0] ++ leBytes 48 digest.toNat)

/-- Module `m` is admitted on digest `d`: the quarantine ends on every link to it whose SPDM has succeeded
(R241, R243). A route that withdrawal left WITHDRAWN returns to NONE. -/
def State.admitModule (s : State) (m : Nat) (d : BitVec 384) (force : Bool) : State :=
  let s1 := s.modAdm m (fun a => { a with st := .admitted, admitted := some d, force := force })
  let s2 := if routeState (s1.route m).entry = 2 then s1.modRoute m (fun r => { r with entry := 0, oper := 0, failed := 0 }) else s1
  let s3 := if force then s2.modFab (fun f => { f with forced := true }) else s2
  let s4 := ((s3.linksTo m).filter (fun l => (s3.link l).st == .up && (s3.link l).quarantined && (s3.link l).spdmOk)).foldl
    (fun t l => t.unquarantine l) s3
  (List.range 16).foldl (fun t l => t.pathsBack l) s4

/-- FAB_ADMIT, 0x0406. -/
def cmdFabAdmit : Cmd where
  op := 0x0406
  lenOk := lenIs 56
  allowed := fabricAdmins
  body _ q s :=
    let m := q.u8 0x20
    let force := q.u8 0x21
    match firstBad [(0x20, decide (m < 64) && m != s.own), (0x21, decide (force ≤ 1)), (0x22, q.zero 0x22 6)] with
    | some f => bad s f
    | none =>
      let a := s.adm m
      let d := BitVec.ofNat 384 (leNat (q.bytes 0x28 48))
      if a.st = .extracting then failWith s rcConflict
      else if !(s.linksTo m).isEmpty ∧ a.st ≠ .authenticated ∧ a.st ≠ .admitted then failWith s rcNotReady
      else if a.digest.isSome ∧ a.digest ≠ some d then bad s 0x28
      else if a.st = .admitted ∧ a.admitted ≠ some d then failWith s rcConflict
      else if a.verified ∧ a.fwVersion.toNat / 2 ^ 24 < 3 ∧ force = 0 then deny s
      else ok (s.admitModule m d (force == 1))

/-- FAB_WITHDRAW, 0x0407. -/
def cmdFabWithdraw : Cmd where
  op := 0x0407
  lenOk := lenIs 4
  allowed := fabricAdmins
  body w q s :=
    let m := q.u8 0x20
    match firstBad [(0x20, decide (m < 64) && m != s.own), (0x21, q.zero 0x21 3)] with
    | some f => bad s f
    | none =>
      if (s.adm m).st = .unknown ∨ (s.adm m).st = .withdrawn then failWith s rcConflict
      else if !s.handleFree w.caller then failWith s rcBusy
      else
        let h := s.newHandle w.caller 0x0407
        pend (h.2.withdraw m h.1) h.1

/-! ## Relayed commands (R245) -/

/-- FAB_RELAY, 0x0408: the frame is sent, and the response waits for the target's. -/
def cmdFabRelay : Cmd where
  op := 0x0408
  lenOk q := q.length == 40 + q.u32 0x30
  allowed := fabricAdmins
  body w q s :=
    let m := q.u8 0x20
    match firstBad [(0x20, decide (m < 64)), (0x21, q.zero 0x21 7)] with
    | some f => bad s f
    | none =>
      if (s.adm m).st ≠ .admitted ∨ routeState (s.entryOf m) ≠ 1 then failWith s rcNotReady
      else
        let n := s.fab.relaySeq
        let s1 := s.modFab (fun f => { f with relays := tset f.relays n { target := m, part := w.caller }, relaySeq := n + 1 })
        { status := rcOk, wait := some (.relay n),
          s := s1.control m (.relay n (w.caller == 0) (q.bytes 0x28 (q.length - 8))) }

/-- The response of relay `n` arrives: FAB_RELAY ends with OK and carries it. -/
def State.relayBack (s : State) (n : Nat) (frame : Bytes) : State :=
  match tlook s.fab.relays n with
  | none => s
  | some r =>
    (s.modFab (fun f => { f with relays := tdel f.relays n })).finishRun r.part rcOk 0 frame

/-- 200 ms pass without the response the command of partition `p` waits for (R65). -/
def State.relayOver (s : State) (p : Nat) : State :=
  match tlook s.ember.running p with
  | some r =>
    match r.wait with
    | .relay n => (s.modFab (fun f => { f with relays := tdel f.relays n })).finishRun p rcTimeout 0 []
    | .drain _ => s
  | none => s

/-- A command frame relayed by module `m` arrives (R245): queued at the module's position, or answered with
DENIED or BUSY_RESOURCE. -/
def State.relayIn (s : State) (m : Nat) (fromZero : Bool) (num : Nat) (frame : Bytes) : State :=
  if !s.ember.fwReady then s
  else
    let f := reqOfBytes frame
    let answer (rc : Nat) : State :=
      s.control m (.relayRsp num (Rsp.bytes { opcode := f.1, status := rc, tag := f.2.tag }))
    if !s.boot.opt.managers.contains m ∨ (s.adm m).st ≠ .admitted ∨ !fromZero then answer rcDenied
    else if (tlook s.ember.msgQ (128 + m)).isSome then answer rcBusy
    else s.modEmber (fun e =>
      { e with msgQ := tset e.msgQ (128 + m) { opcode := f.1, req := f.2, msgTag := num },
               arrivals := e.arrivals ++ [128 + m] })

/-- FAB_SET_CONFIG, 0x0409. -/
def cmdFabSetConfig : Cmd where
  op := 0x0409
  lenOk := lenIs 16
  allowed := fabricAdmins
  body _ q s :=
    let v := q.u8 0x20
    let fo := q.u32 0x24
    let rv := q.u32 0x28
    let ex := q.u32 0x2C
    match firstBad [(0x20, decide (v < 8) && v != 0), (0x21, q.zero 0x21 3), (0x24, !bit v 0 || decide (1 ≤ fo ∧ fo ≤ 1000)),
        (0x28, !bit v 1 || rv == 0 || decide (100 ≤ rv ∧ rv ≤ 60000)), (0x2C, !bit v 2 || decide (10 ≤ ex ∧ ex ≤ 600))] with
    | some f => bad s f
    | none =>
      ok (s.modFab (fun f =>
        { f with failoverMs := if bit v 0 then fo else f.failoverMs, revertMs := if bit v 1 then rv else f.revertMs,
                 extractS := if bit v 2 then ex else f.extractS }))

/-! ## The running image (R470) -/

/-- Bytes of the image in a slot: an unlisted byte reads 0xFF, as erased flash. -/
def Slot.image (o : Slot) : Bytes := mread 0xFF o.data 0 o.size

/-- The running image: of the slot it started from, or as downloaded. -/
def State.runningImage (s : State) : Bytes :=
  match s.boot.fwSource with
  | 0 => s.nv.slotA.image
  | 1 => s.nv.slotB.image
  | _ => s.boot.dlImage

/-- A peer asks for the running image: served while Ember runs and the peer is known (R470). -/
def State.peerImageAsked (s : State) (m : Nat) : State :=
  if s.ember.fwReady ∧ ((s.adm m).st = .authenticated ∨ (s.adm m).st = .admitted) then
    s.control m (.image s.runningImage)
  else s

end Sys2Proof.Machine
end

