-- ==== Sys2Proof/Machine/Pool.lean ====
section
/-! DEFINITION. The memory pool: layout (R262, R263), accesses at a pool port (R264, R265, R270, R274, R275, R282,
R283), sod states (R269, R271), errors (R276, R277), and the pool commands (R285 to R288). -/

namespace Sys2Proof.Machine

open Sys2Proof

/-! ## Layout (R262, R263) -/

/-- Key of byte `b` of sod `n` in the pool's contents. -/
def poolKey (n b : Nat) : Nat := n * 2 ^ 30 + b

/-- Sods contained in each pool port. -/
def PoolSt.contained (p : PoolSt) : Nat := p.total / 4 - p.wide / 4

/-- Channel of byte `b` of sod `n` (R263). -/
def PoolSt.channel (p : PoolSt) (n b : Nat) : Nat :=
  let g := b / 256
  if n < p.wide then g % 16 else 4 * Nat.min 3 ((n - p.wide) / Nat.max 1 p.contained) + g % 4

/-- Channel address of byte `b` of sod `n` (R263). -/
def PoolSt.chanAddr (p : PoolSt) (n b : Nat) : Nat :=
  let g := b / 256
  if n < p.wide then n * 2 ^ 26 + g / 16 * 256 + b % 256
  else p.wide * 2 ^ 26 + (n - p.wide) % Nat.max 1 p.contained * 2 ^ 28 + g / 4 * 256 + b % 256

/-- Block of the pool port that drives the channel of byte `b` of sod `n` (R278). -/
def PoolSt.blockOf (p : PoolSt) (n b : Nat) : Nat := 0x26 + p.channel n b / 4

/-- The byte lies on a channel that is lost (R277). -/
def PoolSt.lostAt (p : PoolSt) (n b : Nat) : Bool := p.chLost.getLsbD (p.channel n b)

/-- Lost channels among those sod `n` lies on: all 16 for a wide sod, its pool port's four for a contained one
(R263, R277). -/
def PoolSt.lostUnder (p : PoolSt) (n : Nat) : List Nat :=
  (List.range 16).filter (fun c => p.chLost.getLsbD c && (decide (n < p.wide) || c / 4 == p.channel n 0 / 4))

/-- Block in which the retirement of sod `n` is raised: that of a lost channel under it, else of its first
channel (R278, log 60). -/
def PoolSt.retireBlock (p : PoolSt) (n : Nat) : Nat :=
  match p.lostUnder n with
  | c :: _ => 0x26 + c / 4
  | [] => p.blockOf n 0

/-- A layout the population allows: WIDE_SODS and SPILL_SODS (R262, R285). -/
def layoutOk (total wide spill : Nat) : Bool :=
  wide % 4 == 0 && decide (ceilDiv (spill + 1) 4 * 4 ≤ wide ∧ wide ≤ total ∧ 16 ≤ spill ∧ spill ≤ 256)

/-! ## Sod states (R269, R271) -/

/-- A sod ends what its handle waits for; the handle ends with the last of its sods (R271, R286, R288). -/
def State.sodHandle (s : State) (n : Nat) : State :=
  let h := (s.sod n).handle
  let s1 := s.modSod n (fun d => { d with handle := 0 })
  if h = 0 ∨ s1.pool.sods.any (fun e => e.2.handle == h) then s1 else s1.endHandle h rcOk

/-- Event 0x80D with a reason (R573). -/
def State.poolEvent (s : State) (reason x : Nat) : State := s.event 0x80D [0] (x + reason * 65536)

/-- Event 0x805 to the owner of sod `n` (R275, R447). -/
def State.poisonEvent (s : State) (n : Nat) : State :=
  match s.sodOwner n with
  | some p => s.event 0x805 [p] n
  | none => s

/-- Sod `n` is retired: recorded in flash, with source 7 and an event (R269, R278). -/
def State.retireSod (s : State) (n : Nat) : State :=
  let s1 := s.modSod n (fun d => { d with st := .retired, freed := false })
  let s2 := { s1 with nv := { s1.nv with retired := if s1.nv.retired.contains n then s1.nv.retired else s1.nv.retired ++ [n] } }
  ((s2.raise (s2.pool.retireBlock n * 32 + 7) none none (faMake s2.own 0 (poolKey n 0))).poolEvent 5 n).sodHandle n

/-- Reservations on sod `n` are broken: it has left ASSIGNED, SPILL or RESERVE (R283). -/
def State.breakSod (s : State) (n : Nat) : State :=
  s.modPool (fun p => { p with resv := p.resv.map (fun (r : Reservation) =>
    if r.granule / 2 ^ 22 = n then { r with valid := false } else r) })

/-- Sod `n` enters ZEROING; `fenced` while a pool fence must still complete. -/
def State.zeroSod (s : State) (n : Nat) (fenced : Bool) (h : Nat) : State :=
  (s.modSod n (fun d =>
    { st := .zeroing, poison := d.poison, chlost := d.chlost, reserve := d.reserve, spill := d.spill, fenced := fenced,
      handle := h })).breakSod n

/-- Order in which initialization reaches the sods: spill region and reserve, then the rest (R281). -/
def State.nextUntested (s : State) : Option Nat :=
  match s.pool.sods.find? (fun e => e.2.st == .untested && (e.2.spill || e.2.reserve)) with
  | some e => some e.1
  | none => (s.pool.sods.find? (fun e => e.2.st == .untested)).map (fun e => e.1)

/-- Initialization goes on while fewer than 4 sods are being zeroed (R269, R271, R281). -/
def State.initPool : Nat → State → State
  | 0, s => s
  | fuel + 1, s =>
    if 4 ≤ s.pool.sods.countP (fun e => e.2.st == .zeroing) then s
    else match s.nextUntested with
      | some n => State.initPool fuel (s.modSod n (fun d => { d with st := .zeroing }))
      | none => s

/-- Lay the pool out afresh: every sod UNTESTED but those on the retired list, contents and flags of no
account, and initialization begun (R262, R281, R285). -/
def State.layoutPool (s : State) (wide spill h : Nat) : State :=
  State.initPool 4 (s.modPool (fun p =>
    { p with
      wide := wide, spillSods := spill, reserve := spill, poisoned := [], resv := [], fences := [], rom := false
      sods := (List.range p.total).map (fun n =>
        (n, if s.nv.retired.contains n then { st := .retired }
            else { st := .untested, reserve := n == spill, spill := decide (n < spill), handle := h,
                   chlost := false })) }))

/-- First byte of the expansion ROM copy in the reserve sod, whose first granules hold the canaries (R59, R279). DESIGN CHOICE
(log 65). -/
def romBase : Nat := 33 * 2 ^ 20

/-- The expansion ROM copy is made once the reserve is usable: one commit makes the ROM window of every partition
with an upstream port valid (R59). DESIGN CHOICE (log 65): the copy lies in the MiB of the reserve sod behind the sweep regions. DESIGN CHOICE
(log 66): a commit of Ember's own is not checked for overlap with host windows. -/
def State.romWindows (s : State) (valid : Bool) : State :=
  let ps := (List.range 32).filter (fun p => (s.vs p).up.isSome)
  let out := (faMake s.own 0 (poolKey s.pool.reserve romBase)).toNat
  s.emberCommit (ps.map (fun p =>
    (winKey 5 p 0,
     if valid then BitVec.ofNat 256 (1 + 5 * 8 + 20 * 64 + (s.vs p).rom.toNat / 4096 * 4096 + (out / 4096 * 4096 + 1) * 2 ^ 64 +
        2 ^ 129 + p * 2 ^ 187)
     else invalidated (bankGet s.win.bank (winKey 5 p 0)))))

/-- The firmware that runs makes the copy when it can and has not yet (R59, R60). -/
def State.romCopyCheck (s : State) : State :=
  if s.ember.romCopy ∨ !s.ember.fwReady ∨ s.ember.smoulder ∨ !s.poolWide ∨ (s.sod s.pool.reserve).st ≠ .reserve then s
  else ((s.modEmber (fun e => { e with romCopy := true })).modPool (fun p => { p with rom := true })).romWindows true

/-- The copy is lost (R59, R277). -/
def State.romCopyLost (s : State) : State :=
  if s.ember.romCopy then
    ((s.modEmber (fun e => { e with romCopy := false })).modPool (fun p => { p with rom := false })).romWindows false
  else s

/-- Zeroing of sod `n` ends: every byte is zero with fresh ECC (R269). -/
def State.zeroed (s : State) (n : Nat) : State :=
  if (s.sod n).st ≠ .zeroing then s
  else
    State.initPool 4 ((s.modPool (fun p =>
      { p with mem := mclear p.mem (poolKey n 0) (2 ^ 30)
               poisoned := p.poisoned.filter (fun l => l / 2 ^ 24 != n) })).modSod n (fun d =>
        { d with st := .scrubbing, scrubbed := false }))

/-- Scrub pass and pool fence of sod `n` have both ended: it is FREE, or takes the place configuration gave it
(R269). -/
def State.sodDone (s : State) (n : Nat) : State :=
  let d := s.sod n
  if d.st ≠ .scrubbing ∨ !d.scrubbed ∨ d.fenced then s
  else
    ((s.modSod n (fun d =>
      { st := if d.reserve then .reserve else if d.spill then .spill else .free, chlost := d.chlost, freed := true,
        handle := d.handle })).sodHandle n).romCopyCheck

/-- The scrub pass of sod `n` ends (R269, R271); a sod on a lost channel cannot pass it (R277). -/
def State.scrubOver (s : State) (n : Nat) (ue : Bool) : State :=
  if (s.sod n).st ≠ .scrubbing ∨ (s.sod n).scrubbed then s
  else if ue ∨ !(s.pool.lostUnder n).isEmpty then
    (s.modPool (fun p => { p with ue := sat (2 ^ 32 - 1) p.ue 1 })).retireSod n
  else (s.modSod n (fun d => { d with scrubbed := true })).sodDone n

/-! ## Pool fences (R271, R273) -/

/-- The pool ports on whose channels sod `n` lies (R263). -/
def PoolSt.portsOf (p : PoolSt) (n : Nat) : List Nat := if n < p.wide then [0, 1, 2, 3] else [p.channel n 0 / 4]

/-- The KIND 3 sods of cluster `c`, rising (R393). -/
def State.hearthSods (s : State) (c : Nat) : List Nat :=
  (s.pool.sods.filter (fun e => e.2.st == .assigned && e.2.kind == 3 && e.2.target == c)).map (fun e => e.1)

/-- Key in the pool of a physical address of cluster `c` that lies in its sods (R393). -/
def State.sodAt (s : State) (c pa : Nat) : Option Nat :=
  if pa < 0x080000000000 ∨ 0x100000000000 ≤ pa then none
  else ((s.hearthSods c)[(pa - 0x080000000000) / 2 ^ 30]?).map (fun n => poolKey n (pa % 2 ^ 30))

/-- The stores of every core's buffer that lie in this module's pool, by cluster and core: how many of its stores issue before the
last of them has (R271). -/
def State.fenceStores (s : State) (ports : List Nat) : List (Nat × Nat × Nat) :=
  s.hearth.clusters.flatMap (fun c => c.2.cores.filterMap (fun k =>
    let hits := k.2.sb.map (fun e => match s.sodAt c.1 e.addr with
      | some a => ports.contains (s.pool.channel (a / 2 ^ 30) (a % 2 ^ 30) / 4)
      | none => false)
    let n := (hits.reverse.dropWhile (fun b => !b)).length
    if n = 0 then none else some (c.1, k.1, n)))

/-- A fence begins for sods `ns`: its markers stand behind everything looked up so far toward their pool ports, and behind the
stores that the Hearth cores' buffers hold toward them (R271). -/
def State.poolFence (s : State) (ns : List Nat) (h : Nat) (group : Option Nat) : State :=
  let ports := (ns.flatMap s.pool.portsOf).eraseDups
  s.modPool (fun p =>
    { p with fences := p.fences ++ [{ id := p.fenceSeq, sods := ns, handle := h, group := group, mark := s.core.lookups, ports := ports,
                                      stores := s.fenceStores ports }]
             fenceSeq := p.fenceSeq + 1 })

/-- A packet was looked up before the markers of a fence, toward one of its pool ports (R271, R272). -/
def PFence.behind (f : PFence) (p : Pkt) : Bool :=
  decide (64 ≤ p.dst ∧ p.dst < 68) && f.ports.contains (p.dst - 64) && decide (p.order < f.mark)

/-- Every packet looked up toward the pool ports before the markers has arrived there and been executed, and so have the stores that
the cores' buffers held (R271). -/
def State.fenceReached (s : State) (f : PFence) : Bool :=
  !s.allPkts.any f.behind && f.stores.all (fun e => e.2.2 == 0 || (s.hcore e.1 e.2.1).sb.isEmpty)

/-- Fence `id` completes (R271, R273). -/
def State.fenceDone (s : State) (id : Nat) : State :=
  match s.pool.fences.find? (fun f => f.id == id) with
  | none => s
  | some f =>
    if !s.fenceReached f then s
    else
      let s1 := s.modPool (fun p => { p with fences := p.fences.filter (fun g => g.id != id) })
      let s2 := f.sods.foldl (fun t n => if (t.sod n).fenced then (t.modSod n (fun d => { d with fenced := false })).sodDone n else t) s1
      if f.handle = 0 then s2 else s2.endHandle f.handle rcOk

/-! ## Accesses (R270, R274, R275, R282, R283) -/

/-- Lines of `n` bytes from key `a`. -/
def linesOf (a n : Nat) : List Nat := (List.range ((a + Nat.max 1 n - 1) / 64 + 1 - a / 64)).map (fun i => a / 64 + i)

/-- An uncorrectable error is found in the line at key `a`: poison signature, POISON, source, event (R275, R276). -/
def State.lineBad (s : State) (a idx : Nat) (attr : Option Nat) : State :=
  let n := a / 2 ^ 30
  let s1 := (s.modPool (fun p => { p with poisoned := if p.poisoned.contains (a / 64) then p.poisoned else p.poisoned ++ [a / 64],
                                           ue := sat (2 ^ 32 - 1) p.ue 1 })).modSod n (fun d => { d with poison := true })
  (s1.raiseAt (s.pool.blockOf n (a % 2 ^ 30)) idx attr none (faMake s.own 0 a)).poisonEvent n

/-- Ticks of 24 h. -/
def dayTicks : Nat := 24 * 3600 * 25000000

/-- A corrected error of rank and device `dev` in the line at key `a` counts for its position; when that has produced more than 64
within 24 h, source 3 and an event say so (R276). -/
def State.countDevice (s : State) (a dev : Nat) : State :=
  let ch := s.pool.channel (a / 2 ^ 30) (a % 2 ^ 30)
  let key := ch * 1024 + dev % 1024
  let ts := (tget [] s.pool.devErr key).filter (fun t => decide (s.time.ticks < t + dayTicks)) ++ [s.time.ticks]
  let s1 := s.modPool (fun p => { p with devErr := tset p.devErr key ts })
  if ts.length = 65 then (s1.raiseAt (0x26 + ch / 4) 3 none none (faMake s.own 0 a)).poolEvent 2 ch else s1

/-- An error in the line at key `a` is corrected and written back (R274). -/
def State.lineCorrected (s : State) (a dev : Nat) : State :=
  ((s.modPool (fun p => { p with ce := sat (2 ^ 32 - 1) p.ce 1 })).raiseAt (s.pool.blockOf (a / 2 ^ 30) (a % 2 ^ 30)) 0 none none
    (faMake s.own 0 a)).countDevice a dev

/-- What error correction finds in the line at key `a` when it is read: source `idx` where it cannot correct (R274 to R276). -/
def State.eccLine (s : State) (a : Nat) (ecc : Ecc) (idx : Nat) (attr : Option Nat) : State :=
  match ecc with
  | .ok => s
  | .corrected dev => s.lineCorrected a dev
  | .bad => s.lineBad a idx attr

/-- What error correction finds in the lines of a read of `n` bytes at key `a` (R274, R275). -/
def State.eccAt (s : State) (a n : Nat) (ecc : Eccs) (attr : Option Nat) : State :=
  ((linesOf a n).zip ecc).foldl (fun t e => t.eccLine (e.1 * 64) e.2 1 attr) s

/-- Some line of `n` bytes from key `a` is poisoned, or lies on a lost channel (R275, R277). -/
def PoolSt.tainted (p : PoolSt) (a n : Nat) : Bool :=
  (linesOf a n).any (fun l => p.poisoned.contains l || p.lostAt (l / 2 ^ 24) (l * 64 % 2 ^ 30))

/-- Byte at key `a`; a byte not listed reads 0 (log 11). The MiB of the ROM copy in the reserve sod reads as the expansion ROM
image while the copy is there (R59). -/
def PoolSt.byte (p : PoolSt) (a : Nat) : Byte :=
  if p.rom ∧ a / 2 ^ 20 = poolKey p.reserve romBase / 2 ^ 20 then Config.romByte (a % 2 ^ 20) else mget 0 p.mem a

/-- Bytes at key `a`. -/
def PoolSt.bytes (p : PoolSt) (a n : Nat) : Bytes := (List.range n).map (fun k => p.byte (a + k))

/-- Store the enabled bytes of `d` from key `a` that lie on channels in service. -/
def PoolSt.put (p : PoolSt) (a : Nat) (d : Bytes) (en : Nat → Bool) : PoolSt :=
  { p with mem := ((List.range d.length).zip d).foldl (fun m e =>
      if en (a + e.1) && !p.lostAt ((a + e.1) / 2 ^ 30) ((a + e.1) % 2 ^ 30) then mset 0 m (a + e.1) e.2 else m) p.mem }

/-- Every byte of line `l` is written by the enabled bytes of a write of `n` bytes at key `a`. -/
def lineWhole (a n : Nat) (en : Nat → Bool) (l : Nat) : Bool :=
  decide (a ≤ l * 64 ∧ l * 64 + 64 ≤ a + n) && (List.range 64).all (fun i => en (l * 64 + i))

/-- Reservations on the granules of `n` bytes at key `a` are broken, but for the `k`-th (R283). -/
def PoolSt.breakAt (p : PoolSt) (a n : Nat) (but : Option Reservation) : PoolSt :=
  { p with resv := p.resv.map (fun (r : Reservation) =>
      if a / 256 ≤ r.granule ∧ r.granule ≤ (a + Nat.max 1 n - 1) / 256 ∧ some r ≠ but then { r with valid := false } else r) }

/-- Hearth reservations on the 64-byte granules `ls` are lost (R410). -/
def State.breakHearth (s : State) (ls : List Nat) : State :=
  { s with hearth := { s.hearth with clusters := tmap s.hearth.clusters (fun _ c =>
      { c with cores := tmap c.cores (fun _ k =>
          match k.reservation with
          | some g => if ls.contains g then { k with reservation := none } else k
          | none => k) }) } }

/-- A write of `d` at key `a` executes (R275, R277): poisoned data leaves poison on every line it touches, and a
whole clean line clears it. Bytes on a lost channel are discarded and counted. -/
def State.poolWrite (s : State) (a : Nat) (d : Bytes) (ep : Bool) (en : Nat → Bool) : State :=
  let ls := linesOf a d.length
  let s1 := (s.breakHearth ls).modPool (fun p =>
    let p1 := (p.put a d en).breakAt a d.length none
    { p1 with poisoned :=
        if ep then p1.poisoned ++ ls.filter (fun l => !p1.poisoned.contains l)
        else p1.poisoned.filter (fun l => !(ls.contains l && lineWhole a d.length en l)) })
  let s2 := if ls.any (fun l => s.pool.lostAt (l / 2 ^ 24) (l * 64 % 2 ^ 30)) then s1.ledgerOnly (s.pool.blockOf (a / 2 ^ 30) (a % 2 ^ 30)) else s1
  if ep then (s2.modSod (a / 2 ^ 30) (fun d => { d with poison := true })).poisonEvent (a / 2 ^ 30) else s2

/-- Byte enables of a write of `n` bytes at address `a` (R158 FBE, LBE). -/
def enabled (fbe lbe a n x : Nat) : Bool :=
  if x / 4 = a / 4 then bit fbe (x % 4) else if x / 4 = (a + n - 1) / 4 then bit lbe (x % 4) else true

/-- An access is allowed to a sod: one in service, for its kind of agent (R270). -/
def Sod.admits (d : Sod) (foreign privileged : Bool) : Bool :=
  match d.st with
  | .assigned => !foreign || d.exported
  | .reserve => privileged && !foreign
  | .spill => false
  | _ => false

/-- Count an access at pool port `m` (R508). -/
def State.poolCount (s : State) (m ev n : Nat) (part : Option Nat) : State :=
  s.count { block := 0x26 + m, event := ev, raw := n, part := part }

/-- New value of an AtomicOp on `old`: FetchAdd, Swap, CAS (R282). -/
def atomicNew (opc old a b : Nat) : Nat :=
  if opc = opcFetchAdd then (old + a) % 2 ^ 64 else if opc = opcSwap then a else if old = a then b else old

/-- Operand bytes an AtomicOp carries at the size the pool executes (R282). -/
def atomicSize (opc : Nat) : Nat := if opc = opcCas then 16 else 8

/-- A request the pool port does not execute: Unsupported Request, source 5, counted (R270, R282). -/
def State.poolRefuse (s : State) (m : Nat) (p : Pkt) (attr : Option Nat) : State :=
  (s.refusePkt p).raiseAt (0x26 + m) 5 attr (some (64 + m)) p.d.faddr

/-- `n` bytes from byte `b` of the reserve sod lie in the ROM copy. -/
def inRom (b n : Nat) : Bool := decide (romBase ≤ b ∧ b + n ≤ romBase + 2 ^ 20)

/-- Pool port `m` executes or refuses packet `p`; `ecc` is what error correction finds where it reads (R270,
R274, R275, R282). The packet leaves the module as the port accepts it (R139). -/
def State.poolExec (s : State) (m : Nat) (p : Pkt) (ecc : Eccs) : State :=
  let d := p.d
  let n := faSod d.faddr
  let a := poolKey n (faByte d.faddr)
  let foreign := p.smod != s.own
  let attr := if foreign then none else some p.part
  let rom := p.rom && d.opc == opcMRd && !foreign && inRom (faByte d.faddr) d.bcount
  if !(s.sod n).admits foreign (p.src == 72 || rom) then s.poolRefuse m p attr
  else if d.opc = opcMRd then
    let s1 := s.eccAt a d.bcount ecc attr
    let ep := s1.pool.tainted a d.bcount
    (((s1.poolCount m 0x10 (linesOf a d.bcount).length attr).leave p).complete p 0 (s1.pool.bytes a d.bcount) ep)
  else if d.opc = opcMWr then
    ((s.poolWrite a p.data d.ep (fun x => enabled d.fbe d.lbe a p.data.length x)).poolCount m 0x11 (linesOf a p.data.length).length
      attr).leave p
  else if p.data.length ≠ atomicSize d.opc then s.poolRefuse m p attr
  else
    let s1 := s.eccAt a 8 ecc attr
    if s1.pool.tainted a 8 ∨ d.ep then (s1.leave p).complete p csCa [] false
    else
      let old := leNat (s1.pool.bytes a 8)
      let new := atomicNew d.opc old (leNat (slice p.data 0 8)) (leNat (slice p.data 8 8))
      let s2 := (s1.poolWrite a (leBytes 8 new) false (fun _ => true)).poolCount m 0x12 1 attr
      (s2.leave p).complete p 0 (leBytes 8 old) false

/-- A posted write without RO that holds back packet `p`: looked up before it at the same ingress in the same
class, and bound for a pool port (R265). -/
def holdsBack (p w : Pkt) : Bool :=
  w.src == p.src && w.tc == p.tc && w.ptype == 0 && w.d.opc == opcMWr && !w.ro && decide (64 ≤ w.dst ∧ w.dst < 68) &&
    decide (w.order < p.order)

/-- An earlier piece of the same split read (R264). -/
def earlierPiece (p w : Pkt) : Bool :=
  p.d.opc == opcMRd && w.d.opc == opcMRd && w.ptype == 0 && w.src == p.src && w.smod == p.smod && w.part == p.part &&
    w.d.rid == p.d.rid && w.d.tag == p.d.tag && decide (w.order < p.order) && decide (64 ≤ w.dst ∧ w.dst < 68)

/-- A completion of an earlier piece of the same split read that has not left the core. -/
def State.pieceReturning (s : State) (p : Pkt) : Bool :=
  s.allPkts.any (fun w => w.ptype == 1 && w.smod == s.own && w.d.tag == p.d.tag && w.part == p.part &&
    w.d.faddr == cplAddr p.smod p.sport p.d.rid && decide (64 ≤ w.src ∧ w.src < 68) && w.src != p.dst)

/-- An earlier write or piece holds packet `p` back at its pool port (R264, R265). -/
def State.poolHeld (s : State) (p : Pkt) : Bool :=
  s.allPkts.any (holdsBack p) || s.allPkts.any (earlierPiece p) || (p.d.opc == opcMRd && s.pieceReturning p)

/-- The packet that a pool port executes next of those delivered to it, and the others: the oldest that nothing holds back; a
non-posted request does not pass an earlier packet of its VOQ, a posted write does (R265). -/
def poolPick (held : Pkt → Bool) : List Pkt → List Pkt → Option (Pkt × List Pkt)
  | _, [] => none
  | seen, p :: r =>
    if !held p && (!p.nonPosted || !seen.any (fun w => voqOf w == voqOf p)) then some (p, seen.reverse ++ r)
    else poolPick held (p :: seen) r

/-- The oldest packet delivered to pool port `m` that nothing holds back executes. -/
def State.poolQueued (s : State) (m : Nat) (ecc : Eccs) : State :=
  if s.blockAway (0x26 + m) then s
  else match poolPick s.poolHeld [] (tget [] s.core.delivered (64 + m)) with
    | none => s
    | some (p, r) => (s.modCore (fun k => { k with delivered := tset k.delivered (64 + m) r })).poolExec m p ecc

/-- Bytes an operation touches. -/
def poolOpLen : PoolOp → Nat
  | .read n => n
  | .write d _ => d.length
  | .fetchAdd n _ => n
  | .swap n _ => n
  | .cas n _ _ => n / 2
  | .reserve => 256
  | .conditional d => d.length

/-- Byte of the reserve sod that backs byte `off` of BAR2 of partition `p`: its sweep region is bytes 0x2_0000 to 0xF_FFFF of a
MiB of its own, behind the ROM copy (R448, R515). DESIGN CHOICE (log 84). -/
def sweepByte (p off : Nat) : Nat := (p + 1) * 2 ^ 20 + off

/-- An agent may access `op`'s bytes from byte `off` of a sod: of the reserve, the gatherer writes and BAR2 reads the sweep region
of its partition, and a ROM window reads the ROM copy (R270). -/
def agentAdmits (g : PoolAgent) (d : Sod) (off : Nat) (op : PoolOp) : Bool :=
  let n := poolOpLen op
  let reads := match op with | .read _ => true | _ => false
  let writes := match op with | .write _ _ => true | _ => false
  let region (p : Nat) : Bool := decide (p < 32 ∧ sweepByte p 0x20000 ≤ off ∧ off + n ≤ sweepByte p 0x100000)
  match d.st, g with
  | .assigned, _ => true
  | .spill, .spill => true
  | .reserve, .ember => true
  | .reserve, .gatherer p => writes && region p
  | .reserve, .rom _ => reads && inRom off n
  | .reserve, .bar2 p => reads && region p
  | _, _ => false

/-- Core port of a privileged agent (R283). -/
def agentPort : PoolAgent → Option Nat
  | .ember => some 72
  | .retort e => some (68 + e)
  | _ => none

/-- A posted write that the agent's core port has issued before has still to execute (R265). -/
def State.agentHeld (s : State) (g : PoolAgent) : Bool :=
  match agentPort g with
  | some n => s.allPkts.any (fun w => w.src == n && w.ptype == 0 && !w.nonPosted && !w.ro && decide (64 ≤ w.dst ∧ w.dst < 68))
  | none => false

/-- Ember has read poisoned data of sod `n`: event to partition 0, unless the finding has told it as the sod's owner (R275). -/
def State.emberPoison (s : State) (g : PoolAgent) (n : Nat) (ecc : Eccs) : State :=
  if g = .ember ∧ !(ecc.contains .bad && s.sodOwner n == some 0) then s.event 0x805 [0] n else s

/-- Keep the result of an access of an agent without a packet. -/
def State.poolResult (s : State) (status : Nat) (d : Bytes) : State :=
  s.modPool (fun p => { p with results := p.results ++ [{ status := status, payload := d }] })

/-- A new reservation; the 17th of an agent at a port replaces its oldest (R283). -/
def PoolSt.addResv (p : PoolSt) (r : Reservation) : PoolSt :=
  let rest := p.resv.filter (fun (x : Reservation) => !(x.agent == r.agent && x.port == r.port && x.granule == r.granule))
  let mine := rest.filter (fun x => x.agent == r.agent && x.port == r.port)
  let others := rest.filter (fun x => !(x.agent == r.agent && x.port == r.port))
  { p with resv := r :: mine.take 15 ++ others }

/-- The reservations of `r`'s agent on its granule at its port end (R283). -/
def PoolSt.dropResv (p : PoolSt) (r : Reservation) : PoolSt :=
  { p with resv := p.resv.filter (fun (x : Reservation) =>
      !(x.agent == r.agent && x.port == r.port && x.granule == r.granule)) }

/-- An AtomicOp of an agent without a packet. -/
def State.directAtomic (s : State) (m a opc x y : Nat) (ecc : Eccs) : State :=
  let s1 := s.eccAt a 8 ecc none
  if s1.pool.tainted a 8 then s1.poolResult csCa []
  else
    let old := leNat (s1.pool.bytes a 8)
    ((s1.poolWrite a (leBytes 8 (atomicNew opc old x y)) false (fun _ => true)).poolCount m 0x12 1 none).poolResult 0 (leBytes 8 old)

/-- A conditional write of an agent: it executes under a valid reservation of its granule, and ends it (R283). -/
def State.directConditional (s : State) (m a agent : Nat) (d : Bytes) : State :=
  match s.pool.resv.find? (fun (r : Reservation) => r.agent == agent && r.port == m && r.granule == a / 256 && r.valid) with
  | none => s.poolResult 1 []
  | some r =>
    (((s.poolWrite a d false (fun _ => true)).modPool (fun p => p.dropResv r)).poolCount m 0x11 (linesOf a d.length).length
      none).poolResult 0 []

/-- An access of agent `g` to byte `off` of sod `n` at pool port `m` (R270, R275, R282, R283). Poisoned data and
refusals are shown in the result. -/
def State.poolDirect (s : State) (m : Nat) (g : PoolAgent) (n off : Nat) (op : PoolOp) (ecc : Eccs) : State :=
  let a := poolKey n off
  let refuse : State := (s.raiseAt (0x26 + m) 5 none (some (64 + m)) (faMake s.own 0 a)).poolResult csUr []
  if s.agentHeld g then s
  else if !s.pool.present ∨ !agentAdmits g (s.sod n) off op then refuse
  else match op with
    | .read len =>
      let s1 := (s.eccAt a len ecc none).poolCount m 0x10 (linesOf a len).length none
      let bad := s1.pool.tainted a len
      (if bad then s1.emberPoison g n ecc else s1).poolResult (if bad then csCa else 0) (s1.pool.bytes a len)
    | .write d ep => ((s.poolWrite a d ep (fun _ => true)).poolCount m 0x11 (linesOf a d.length).length none).poolResult 0 []
    | .fetchAdd size v => if size ≠ 8 then refuse else s.directAtomic m a opcFetchAdd v.toNat 0 ecc
    | .swap size v => if size ≠ 8 then refuse else s.directAtomic m a opcSwap v.toNat 0 ecc
    | .cas size c v => if size ≠ 16 then refuse else s.directAtomic m a opcCas c.toNat v.toNat ecc
    | .reserve =>
      match agentPort g with
      | none => refuse
      | some agent =>
        let s1 := (s.eccAt (a / 256 * 256) 256 ecc none).poolCount m 0x10 4 none
        (s1.modPool (fun p => p.addResv { agent := agent, port := m, granule := a / 256 })).poolResult
          (if s1.pool.tainted (a / 256 * 256) 256 then csCa else 0) (s1.pool.bytes (a / 256 * 256) 256)
    | .conditional d =>
      match agentPort g with
      | none => refuse
      | some agent => s.directConditional m a agent (d.take (256 - a % 256))

/-- POOL_ACCESS at pool port `m`. -/
def State.poolAccess (s : State) (m : Nat) (a : PoolAcc) (ecc : Eccs) : State :=
  match a with
  | .queued => s.poolQueued m ecc
  | .direct g n off op => s.poolDirect m g n off op ecc

/-! ## Patrol scrub and lost channels (R276, R277) -/

/-- Patrol scrub reads line `l` of the pool (R276). -/
def State.patrol (s : State) (l : Nat) (ecc : Ecc) : State :=
  let n := l / 2 ^ 24
  if !s.pool.present ∨ (s.sod n).st = .absent ∨ (s.sod n).st = .retired then s
  else (s.modEmber (fun e => { e with sincePatrol := l * 100 / (Nat.max 1 s.pool.total * 2 ^ 24) })).eccLine (l * 64) ecc 2 none

/-- Channel `ch` is lost (R277). -/
def State.channelLost (s : State) (ch : Nat) : State :=
  if !s.pool.present ∨ s.pool.chLost.getLsbD ch then s
  else
    let s1 := ((s.modPool (fun p => { p with chLost := p.chLost ||| (1#16 <<< ch) })).raiseAt (0x26 + ch / 4) 4).poolEvent 4 ch
    let hit (n : Nat) : Bool := decide (n < s.pool.wide) || s.pool.channel n 0 / 4 == ch / 4
    let s2 := s1.modPool (fun p =>
      { p with sods := tmap p.sods (fun n d =>
          if hit n && d.st != .free && d.st != .retired then { d with chlost := true } else d) })
    let dead := (s2.pool.sods.filter (fun e => hit e.1 && e.2.st == .free)).map (fun e => e.1)
    (dead.foldl (fun t n => t.retireSod n) s2).romCopyLost

/-! ## Commands (R284 to R288) -/

/-- Number of sods in a state. -/
def State.sodCount (s : State) (f : Sod → Bool) : Nat := s.pool.sods.countP (fun e => f e.2)

/-- POOL_GET_STATUS, 0x0500. -/
def cmdPoolGetStatus : Cmd where
  op := 0x0500
  lenOk := lenIs 0
  allowed := onlyZero
  body _ _ s :=
    let p := s.pool
    ok s (leBytes 1 (b2n p.present) ++ leBytes 1 p.dpc ++ leBytes 2 (if p.dpc = 1 then 6400 else if p.dpc = 2 then 5600 else 0) ++
      leBytes 2 p.dimmGib ++ leBytes 2 p.chLost.toNat ++ leBytes 2 p.total ++ leBytes 2 p.wide ++
      leBytes 2 (s.sodCount (fun d => d.st == .spill)) ++ leBytes 2 (if p.present then p.reserve else 0) ++
      leBytes 2 (s.sodCount (fun d => d.st == .free)) ++ leBytes 2 (s.sodCount (fun d => d.st == .assigned)) ++
      leBytes 2 (s.sodCount (fun d => d.st == .untested || d.st == .zeroing || d.st == .scrubbing)) ++
      leBytes 2 (s.sodCount (fun d => d.st == .retired)) ++ leBytes 2 (s.sodCount (fun d => d.poison)) ++
      leBytes 1 p.retention ++ leBytes 1 s.ember.sincePatrol ++ leBytes 4 p.ce ++ leBytes 4 p.ue ++ [0, 0, 0, 0])

/-- A handle of SOD_RELEASE, SOD_SET or POOL_CONFIG is RUNNING (R286). -/
def State.poolBusy (s : State) : Bool :=
  s.ember.handles.any (fun h => h.running && (h.opcode == 0x0503 || h.opcode == 0x0505 || h.opcode == 0x0501))

/-- The spill region holds a cell. -/
def State.spillHolds (s : State) : Bool := s.core.q.any (fun e => e.place == .spilled)

/-- Give the spill region a new size, `free` its lowest FREE wide sods (R48, R286). -/
def State.resizeSpill (s : State) (n : Nat) : State :=
  let cur := (s.pool.sods.filter (fun e => e.2.st == .spill)).map (fun e => e.1)
  let s1 := s.modPool (fun p => { p with spillSods := n })
  if s.pool.spillSods ≤ n then
    let free := (s.pool.sods.filter (fun e => e.2.st == .free && decide (e.1 < s.pool.wide))).map (fun e => e.1)
    (free.take (n - s.pool.spillSods)).foldl (fun t k => t.modSod k (fun d => { d with st := .spill })) s1
  else
    (cur.reverse.take (s.pool.spillSods - n)).foldl (fun t k => (t.modSod k (fun d => { d with spill := false })).zeroSod k false 0) s1

/-- POOL_CONFIG, 0x0501. -/
def cmdPoolConfig : Cmd where
  op := 0x0501
  lenOk := lenIs 8
  allowed := onlyZero
  body w q s :=
    let v := q.u8 0x20
    let wide := if bit v 0 then q.u16 0x24 else s.pool.wide
    let spill := if bit v 1 then q.u16 0x26 else s.pool.spillSods
    let p := s.pool
    match firstBad [(0x20, decide (v < 4) && v != 0), (0x21, q.zero 0x21 3),
        (0x24, !bit v 0 || (wide % 4 == 0 && decide (ceilDiv (spill + 1) 4 * 4 ≤ wide) && (!p.present || decide (wide ≤ p.total)))),
        (0x26, !bit v 1 || (decide (16 ≤ spill ∧ spill ≤ 256) && (!p.present || decide (ceilDiv (spill + 1) 4 * 4 ≤ wide))))] with
    | some f => bad s f
    | none =>
      let keep (t : State) : State := { t with nv := { t.nv with
        wideSods := if bit v 0 then some wide else t.nv.wideSods, spillSods := if bit v 1 then some spill else t.nv.spillSods } }
      let freeWide := p.sods.countP (fun e => e.2.st == .free && decide (e.1 < p.wide))
      if wide ≠ p.wide ∧ p.present ∧ (s.sodCount (fun d => d.st == .assigned) ≠ 0 ∨ s.spillHolds ∨ s.poolBusy) then failWith s rcConflict
      else if wide = p.wide ∧ p.spillSods < spill ∧ p.present ∧ freeWide < spill - p.spillSods then failWith s rcBusy
      else if wide = p.wide ∧ spill < p.spillSods ∧ s.spillHolds then failWith s rcBusy
      else if wide ≠ p.wide ∧ !s.handleFree w.caller then failWith s rcBusy
      else if !p.present then failWith s rcNotReady
      else if wide ≠ p.wide then
        let h := s.newHandle w.caller 0x0501
        pend (((keep h.2).layoutPool wide spill h.1).romCopyLost) h.1
      else ok ((keep s).resizeSpill spill)

/-- Number of KIND `k` sods of a target. -/
def State.sodsHeld (s : State) (kind target : Nat) : Nat :=
  s.sodCount (fun d => d.st == .assigned && d.kind == kind && d.target == target)

/-- The pool function of partition `p` is bound to a vDSP. -/
def State.poolFnBound (s : State) (p : Nat) : Bool := s.vdsps.any (fun e => e.1 / 64 == p && e.2.bound && e.2.kind == 4)

/-- The largest power of two not above `n`. -/
def pow2Below (n : Nat) : Nat := 2 ^ (Nat.log2 (Nat.max 1 n))

/-- The lowest run of `n` FREE sods in `[lo, hi)`, aligned as R287 asks. -/
def State.freeRun (s : State) (lo hi n : Nat) : Option Nat :=
  let al := pow2Below n
  ((List.range ((hi - lo) / al + 1)).map (fun i => (ceilDiv lo al + i) * al)).find? (fun a =>
    decide (lo ≤ a ∧ a + n ≤ hi) && (List.range n).all (fun i => (s.sod (a + i)).st == .free))

/-- The run Ember chooses (R287). -/
def State.chooseRun (s : State) (mode port n : Nat) : Option Nat :=
  let p := s.pool
  if mode = 1 then s.freeRun 0 p.wide n
  else ((if port = 0xFF then [0, 1, 2, 3] else [port]).filterMap (fun m =>
    s.freeRun (p.wide + m * p.contained) (p.wide + (m + 1) * p.contained) n)).head?

/-- Sods of a run. -/
def runList (first n : Nat) : List Nat := (List.range n).map (fun i => first + i)

/-- SOD_ASSIGN, 0x0502. -/
def cmdSodAssign : Cmd where
  op := 0x0502
  lenOk := lenIs 8
  allowed := onlyZero
  body _ q s :=
    let kind := q.u8 0x20
    let target := q.u8 0x21
    let mode := q.u8 0x22
    let port := q.u8 0x23
    let n := q.u16 0x24
    let first := q.u16 0x26
    let own := first == 0xFFFF
    let sts := if own then [] else (runList first n).map (fun i => (s.sod i).st)
    let held := s.sodsHeld kind target + n
    match firstBad [(0x20, decide (1 ≤ kind ∧ kind ≤ 3)),
        (0x21, if kind = 1 then decide (target < 32) else if kind = 2 then decide (1 ≤ target ∧ target < 32) else decide (target < 4)),
        (0x22, if own then decide (mode ≤ 1) else mode == 0),
        (0x23, if own ∧ mode = 0 then decide (port < 4) || port == 0xFF else port == 0xFF),
        (0x24, decide (1 ≤ n ∧ n ≤ 4096) && (kind != 2 || (isPow2 held && decide (held ≤ 4096)))),
        (0x26, own || decide (first + n ≤ 8192))] with
    | some f => bad s f
    | none =>
      if !own ∧ s.pool.present ∧ first ≤ s.pool.reserve ∧ s.pool.reserve < first + n then deny s
      else if sts.any (fun x => x == .absent || x == .assigned || x == .spill || x == .retired) then bad s 0x26
      else if sts.any (fun x => x == .untested || x == .zeroing || x == .scrubbing) then failWith s rcNotReady
      else if kind = 2 ∧ s.poolFnBound target then failWith s rcConflict
      else if !s.pool.present then failWith s rcNotReady
      else match (if own then s.chooseRun mode port n else some first) with
        | none => failWith s rcBusy
        | some f =>
          let s1 := (runList f n).foldl (fun t i => t.modSod i (fun d =>
            { d with st := .assigned, kind := kind, target := target, exported := false })) s
          ok s1 (leBytes 2 f ++ leBytes 2 n ++ leBytes 2 (s1.sodsHeld kind target) ++ [0, 0])

/-- A running SOD_RELEASE or SOD_SET holds sod `n`, which is on its way to FREE (R73, R271, R288). -/
def State.sodRunning (s : State) (n : Nat) : Bool := (s.sod n).handle != 0

/-- The pool fence of a running SOD_SET guards sod `n` (R73, R273). -/
def State.sodFencing (s : State) (n : Nat) : Bool := s.pool.fences.any (fun f => f.handle != 0 && f.sods.contains n)

/-- SOD_RELEASE, 0x0503. Sods that a running release holds are no longer ASSIGNED: order 7 looks at the others, and those
then give CONFLICT. -/
def cmdSodRelease : Cmd where
  op := 0x0503
  lenOk := lenIs 4
  allowed := onlyZero
  body w q s :=
    let first := q.u16 0x20
    let n := q.u16 0x22
    let run := runList first n
    let d0 := s.sod ((run.find? (fun i => !s.sodRunning i)).getD first)
    let left := s.sodsHeld d0.kind d0.target - n
    match firstBad [(0x20, decide (first < 8192)), (0x22, decide (1 ≤ n ∧ n ≤ 4096 ∧ first + n ≤ 8192))] with
    | some f => bad s f
    | none =>
      if s.pool.present ∧ first ≤ s.pool.reserve ∧ s.pool.reserve < first + n then deny s
      else if !run.all (fun i => s.sodRunning i ||
          ((s.sod i).st == .assigned && (s.sod i).kind == d0.kind && (s.sod i).target == d0.target)) then
        bad s (if d0.st = .assigned then 0x22 else 0x20)
      else if run.any s.sodRunning then failWith s rcConflict
      else if d0.kind = 2 ∧ left ≠ 0 ∧ !isPow2 left then bad s 0x22
      else if run.any (fun i => (s.sod i).exported) ∨ (d0.kind = 2 ∧ s.poolFnBound d0.target) then failWith s rcConflict
      else if !s.handleFree w.caller then failWith s rcBusy
      else if !s.pool.present then failWith s rcNotReady
      else
        let h := s.newHandle w.caller 0x0503 (.sods run)
        let s1 := h.2.invalidateRange (faMake s.own 0 (poolKey first 0)).toNat (n * 2 ^ 30)
        let s2 := run.foldl (fun t i => t.zeroSod i true h.1) s1
        pend (s2.poolFence run 0 none) h.1

/-- Record of SOD_QUERY for sod `n`. -/
def State.sodRecord (s : State) (n : Nat) : Nat :=
  let d := s.sod n
  let code := match d.st with
    | .absent => 0 | .untested => 1 | .zeroing => 2 | .scrubbing => 3 | .free => 4 | .assigned => 5 | .spill => 6 | .reserve => 7
    | .retired => 8
  let wide := decide (n < s.pool.wide)
  if d.st = .absent then 0
  else code + d.kind * 2 ^ 8 + d.target * 2 ^ 16 + b2n wide * 2 ^ 24 + b2n d.poison * 2 ^ 25 + b2n d.chlost * 2 ^ 26 +
    b2n d.exported * 2 ^ 27 + (if wide then 15 else s.pool.channel n 0 / 4) * 2 ^ 28

/-- SOD_QUERY, 0x0504: a host partition sees only the sods assigned to it (R285). -/
def cmdSodQuery : Cmd where
  op := 0x0504
  lenOk := lenIs 4
  allowed := anyone
  body w q s :=
    let first := q.u16 0x20
    let n := q.u16 0x22
    let sees (i : Nat) : Bool := w.subject == 0 ||
      ((s.sod i).st == .assigned && (s.sod i).kind != 3 && (s.sod i).target == w.subject)
    match firstBad [(0x20, decide (first < 8192)), (0x22, decide (1 ≤ n ∧ n ≤ 1000 ∧ first + n ≤ 8192))] with
    | some f => bad s f
    | none =>
      ok s (leBytes 2 first ++ leBytes 2 n ++ [0, 0, 0, 0] ++
        (runList first n).flatMap (fun i => leBytes 4 (if sees i then s.sodRecord i else 0)))

/-- SOD_SET, 0x0505. -/
def cmdSodSet : Cmd where
  op := 0x0505
  lenOk := lenIs 8
  allowed := onlyZero
  body w q s :=
    let first := q.u16 0x20
    let n := q.u16 0x22
    let act := q.u8 0x24
    let run := runList first n
    let all (st : SodSt) : Bool := run.all (fun i => s.sodRunning i || (s.sod i).st == st)
    let each (t : State) (f : Sod → Sod) : State := run.foldl (fun t i => t.modSod i f) t
    match firstBad [(0x20, decide (first < 8192)), (0x22, decide (1 ≤ n ∧ n ≤ 4096 ∧ first + n ≤ 8192)), (0x24, decide (act ≤ 3)),
        (0x25, q.zero 0x25 3)] with
    | some f => bad s f
    | none =>
      if (act = 1 ∨ act = 2) ∧ !all .assigned then bad s (if (s.sod first).st = .assigned then 0x22 else 0x20)
      else if act = 3 ∧ !all .retired then bad s (if (s.sod first).st = .retired then 0x22 else 0x20)
      else if run.any (fun i => s.sodRunning i || s.sodFencing i) then failWith s rcConflict
      else if (act = 1 ∨ act = 3) ∧ !s.handleFree w.caller then failWith s rcBusy
      else if !s.pool.present then failWith s rcNotReady
      else match act with
        | 0 => ok (each s (fun d => { d with poison := false }))
        | 1 =>
          let h := s.newHandle w.caller 0x0505
          pend ((each h.2 (fun d => { d with exported := true })).poolFence run h.1 none) h.1
        | 2 => ok (each s (fun d => { d with exported := false }))
        | _ =>
          let h := s.newHandle w.caller 0x0505 (.sods run)
          let s1 := { h.2 with nv := { h.2.nv with retired := h.2.nv.retired.filter (fun i => !run.contains i) } }
          pend (run.foldl (fun t i => t.zeroSod i false h.1) s1) h.1

end Sys2Proof.Machine
end

