-- ==== Sys2Proof/Machine/Comps.lean ====
section
/-! DEFINITION. The four comparators of the PTP time domain (R49, R385). -/

namespace Sys2Proof.Machine

open Sys2Proof

/-- HOLDERS code of a pending gate list change. -/
def holdGate : Nat := 1
/-- HOLDERS code of a PTP output, GPIO28 to GPIO30. -/
def holdOut (k : Nat) : Nat := 2 + k
/-- HOLDERS code of the Retort coarse timer. -/
def holdRetort : Nat := 5
/-- HOLDERS code of a Hearth cluster. -/
def holdHearth (c : Nat) : Nat := 6 + c

/-- Holder of comparator `k`; 0 free. -/
def State.holder (s : State) (k : Nat) : Nat := tget 0 s.tm.comps k

/-- The lowest comparator nobody holds. -/
def State.freeComp (s : State) : Option Nat := (List.range 4).find? (fun k => s.holder k == 0)

/-- Give comparator `k` to `h`; 0 frees it. -/
def State.setComp (s : State) (k h : Nat) : State := s.modTm (fun t => { t with comps := tset t.comps k h })

/-- Free every comparator held under code `h`. -/
def State.dropComp (s : State) (h : Nat) : State :=
  s.modTm (fun t => { t with comps := tmap t.comps (fun _ v => if v = h then 0 else v) })

/-- Comparators held by Hearth clusters. -/
def State.hearthComps (s : State) : Nat := (List.range 4).countP (fun k => decide (6 ≤ s.holder k))

end Sys2Proof.Machine
end

