-- ==== Sys2Proof/Machine/Frames.lean ====
section
/-! DEFINITION. Ethernet frames as bytes, from the destination MAC to the byte before the FCS: parsing (R328), the
ACL key (R334), checksums (R341), tags (R343), the receive hash (R344), remarking (R372) and segmentation
(R342). -/

namespace Sys2Proof.Machine

open Sys2Proof

/-- The two-byte field of a frame at an offset, network byte order. -/
def be16 (f : Bytes) (o : Nat) : Nat := beNat (slice f o 2)
/-- The byte of a frame at an offset. -/
def byteAt (f : Bytes) (o : Nat) : Nat := (f.getD o 0).toNat

/-- What step 2 of the receive path finds (R328). -/
structure Parsed where
  /-- TCI of the outer tag. -/
  tag : Option Nat := none
  /-- EtherType after the tags. -/
  etype : Nat := 0
  /-- L3: 0 none, 1 IPv4, 2 IPv6. -/
  l3 : Nat := 0
  /-- Offset of the L3 header. -/
  l3off : Nat := 14
  /-- Bytes of the L3 header. -/
  l3len : Nat := 0
  /-- L4: 0 none or other, 1 TCP, 2 UDP. -/
  l4 : Nat := 0
  /-- IPv4 protocol or IPv6 next header. -/
  proto : Nat := 0
  /-- Bytes of L3 payload the L3 header announces. -/
  l4len : Nat := 0
  deriving DecidableEq, Repr, Inhabited

/-- L4 code of an IP protocol number. -/
def l4Of (proto : Nat) : Nat := if proto = 6 then 1 else if proto = 17 then 2 else 0

/-- Parse the L3 header at `o` (R328 step 2). A fragment is classed with L4 as other. -/
def parseL3 (f : Bytes) (p : Parsed) : Parsed :=
  let o := p.l3off
  if p.etype = 0x0800 ∧ byteAt f o / 16 = 4 ∧ 5 ≤ byteAt f o % 16 then
    let n := byteAt f o % 16 * 4
    { p with l3 := 1, l3len := n, proto := byteAt f (o + 9), l4len := be16 f (o + 2) - n
             l4 := if be16 f (o + 6) % 16384 = 0 then l4Of (byteAt f (o + 9)) else 0 }
  else if p.etype = 0x86DD ∧ byteAt f o / 16 = 6 then
    { p with l3 := 2, l3len := 40, proto := byteAt f (o + 6), l4 := l4Of (byteAt f (o + 6)), l4len := be16 f (o + 4) }
  else p

/-- Parse a frame (R328 step 2). -/
def parseFrame (f : Bytes) : Parsed :=
  let t0 := be16 f 12
  if t0 = 0x8100 ∨ t0 = 0x88A8 then
    let o := if be16 f 16 = 0x8100 then 22 else 18
    parseL3 f { tag := some (be16 f 14), etype := be16 f (o - 2), l3off := o }
  else parseL3 f { etype := t0 }

/-- Outer VID; 0 for an untagged frame. -/
def Parsed.vid (p : Parsed) : Nat := match p.tag with | some t => t % 4096 | none => 0
/-- Offset of the L4 header. -/
def Parsed.l4off (p : Parsed) : Nat := p.l3off + p.l3len
/-- DSCP. -/
def dscpOf (f : Bytes) (p : Parsed) : Nat :=
  if p.l3 = 1 then byteAt f (p.l3off + 1) / 4 else if p.l3 = 2 then be16 f p.l3off / 64 % 64 else 0
/-- IP ECN field. -/
def ecnOf (f : Bytes) (p : Parsed) : Nat :=
  if p.l3 = 1 then byteAt f (p.l3off + 1) % 4 else if p.l3 = 2 then be16 f p.l3off / 16 % 4 else 0

/-- The ACL key of a frame (R334). -/
def aclKey (f : Bytes) (p : Parsed) (fn lp dir prio : Nat) : Nat :=
  let ports := p.l4 != 0
  fn * 2 ^ 151 + lp * 2 ^ 146 + dir * 2 ^ 145 + p.vid * 2 ^ 133 + prio * 2 ^ 130 + p.etype * 2 ^ 114 + (p.l3 * 4 + p.l4) * 2 ^ 110 +
    (if p.l3 = 0 then 0 else p.proto) * 2 ^ 102 + dscpOf f p * 2 ^ 96 +
    (if p.l3 = 1 then beNat (slice f (p.l3off + 12) 4) else 0) * 2 ^ 64 +
    (if p.l3 = 1 then beNat (slice f (p.l3off + 16) 4) else 0) * 2 ^ 32 +
    (if ports then be16 f p.l4off else 0) * 2 ^ 16 + (if ports then be16 f (p.l4off + 2) else 0)

/-! ## Checksums (R341) -/

/-- One's complement sum of a string of 16-bit words. -/
def sum16 : Bytes → Nat
  | [] => 0
  | [a] => a.toNat * 256
  | a :: b :: r => a.toNat * 256 + b.toNat + sum16 r

/-- End-around carries folded to 16 bits. -/
def fold16 (v : Nat) : Nat := if v = 0 then 0 else (v - 1) % 65535 + 1

/-- The Internet checksum over a string. -/
def inetSum (bs : Bytes) : Nat := 65535 - fold16 (sum16 bs)

/-- The pseudo-header of an L4 segment of `n` bytes. -/
def pseudo (f : Bytes) (p : Parsed) (proto n : Nat) : Bytes :=
  if p.l3 = 1 then slice f (p.l3off + 12) 8 ++ beBytes 2 proto ++ beBytes 2 n
  else slice f (p.l3off + 8) 32 ++ beBytes 4 n ++ beBytes 4 proto

/-- Place of the checksum in an L4 header. -/
def csumAt (l4 : Nat) : Nat := if l4 = 1 then 16 else 6

/-- CSUM of a received frame: L3 checked, L3 bad, L4 checked, L4 bad (R331, R341). A UDP checksum of 0 over IPv4
is none. -/
def csumOf (f : Bytes) (p : Parsed) : Nat :=
  let l3c := p.l3 == 1
  let l3b := l3c && inetSum (slice f p.l3off p.l3len) != 0
  let l4c := p.l4 != 0 && !(p.l4 == 2 && p.l3 == 1 && be16 f (p.l4off + 6) == 0)
  let n := p.l4len
  let l4b := l4c && (decide (f.length < p.l4off + n) || inetSum (pseudo f p p.proto n ++ slice f p.l4off n) != 0)
  b2n l3c * 8 + b2n l3b * 4 + b2n l4c * 2 + b2n l4b

/-- The frame with its IPv4 header checksum computed. -/
def setL3Sum (f : Bytes) (o n : Nat) : Bytes :=
  let g := overwrite f (o + 10) [0, 0]
  overwrite g (o + 10) (beBytes 2 (inetSum (slice g o n)))

/-- The frame with the checksum of its L4 segment of `n` bytes computed; a UDP checksum of 0 is sent as 0xFFFF
(R341). -/
def setL4Sum (f : Bytes) (p : Parsed) (l4 n : Nat) : Bytes :=
  let at_ := p.l4off + csumAt l4
  let g := overwrite f at_ [0, 0]
  let seg := slice g p.l4off n
  let c := inetSum (pseudo g p (if l4 = 1 then 6 else 17) seg.length ++ seg)
  overwrite g at_ (beBytes 2 (if l4 = 2 ∧ c = 0 then 0xFFFF else c))

/-! ## Tags and marks (R343, R346, R372, R376) -/

/-- The frame without its outer tag. -/
def stripTag (f : Bytes) : Bytes := f.take 12 ++ f.drop 16
/-- The frame with a new outer tag of TPID 0x8100. -/
def insertTag (f : Bytes) (tci : Nat) : Bytes := f.take 12 ++ beBytes 2 0x8100 ++ beBytes 2 tci ++ f.drop 12

/-- The frame with the six DSCP bits, and with the ECN bits, replaced; the IPv4 header checksum follows. -/
def setTos (f : Bytes) (p : Parsed) (dscp ecn : Nat) : Bytes :=
  let tos := dscp * 4 + ecn
  if p.l3 = 1 then setL3Sum (overwrite f (p.l3off + 1) [BitVec.ofNat 8 tos]) p.l3off p.l3len
  else if p.l3 = 2 then
    let w := be16 f p.l3off
    overwrite f p.l3off (beBytes 2 (w / 4096 * 4096 + tos * 16 + w % 16))
  else f

/-- The frame with the PCP of its outer tag replaced. -/
def setPcp (f : Bytes) (p : Parsed) (pcp : Nat) : Bytes :=
  match p.tag with
  | some t => overwrite f 14 (beBytes 2 (pcp * 8192 + t % 8192))
  | none => f

/-! ## The receive hash (R344) -/

/-- RSS_TYPE of a frame. -/
def rssType (p : Parsed) : Nat :=
  if p.l3 = 1 then 1 + p.l4 else if p.l3 = 2 then 4 + p.l4 else 0

/-- Input of the hash, in wire byte order. -/
def rssInput (f : Bytes) (p : Parsed) : Bytes :=
  (if p.l3 = 1 then slice f (p.l3off + 12) 8 else slice f (p.l3off + 8) 32) ++
    (if p.l4 = 0 then [] else slice f p.l4off 4)

/-- Toeplitz hash of a key of 40 bytes. -/
def toeplitz (key : Bytes) (input : Bytes) : Nat :=
  let k := beNat (padTo 40 key)
  let n := 8 * input.length
  let v := beNat input
  (List.range n).foldl (fun h i => if bit v (n - 1 - i) then Nat.xor h (k / 2 ^ (288 - i) % 2 ^ 32) else h) 0

/-! ## Segmentation (R342) -/

/-- Cut a payload into segments of `mss` bytes. -/
def cutSegs (mss : Nat) : Nat → Bytes → List Bytes
  | 0, _ => []
  | fuel + 1, d => if d.length ≤ mss then [d] else d.take mss :: cutSegs mss fuel (d.drop mss)

/-- Segment number `i`, `last` or not, which begins at payload byte `off`: headers adjusted (R342). -/
def tsoSeg (hdr : Bytes) (p : Parsed) (i off : Nat) (last : Bool) (pay : Bytes) : Bytes :=
  let o := p.l3off
  let t := p.l4off
  let f := hdr ++ pay
  let l3 := if p.l3 = 1 then
      let f1 := overwrite f (o + 2) (beBytes 2 (f.length - o))
      overwrite f1 (o + 4) (beBytes 2 ((be16 hdr (o + 4) + i) % 65536))
    else overwrite f (o + 4) (beBytes 2 (f.length - o - 40))
  let seq := (beNat (slice hdr (t + 4) 4) + off) % 2 ^ 32
  let fl := byteAt hdr (t + 13)
  let fin := if last then fl else fl - fl % 2 - (fl / 8 % 2) * 8
  let cwr := if i = 0 then fin else fin - (fin / 128 % 2) * 128
  let g := overwrite (overwrite l3 (t + 4) (beBytes 4 seq)) (t + 13) [BitVec.ofNat 8 cwr]
  setL4Sum (if p.l3 = 1 then setL3Sum g o p.l3len else g) p 1 (f.length - t)

/-- The frames TSO makes of headers and payload (R342). -/
def tsoFrames (hdr : Bytes) (p : Parsed) (mss : Nat) (pay : Bytes) : List Bytes :=
  let segs := cutSegs mss (pay.length + 1) pay
  ((List.range segs.length).zip segs).map (fun e => tsoSeg hdr p e.1 (e.1 * mss) (e.1 + 1 == segs.length) e.2)

end Sys2Proof.Machine
end

