-- ==== Sys2Proof/Machine/Traffic.lean ====
section
/-! DEFINITION. Traffic management: shapers (R362 to R366), meters (R370 to R373), WRED (R374 to R376), gate lists
(R377 to R384), the port scheduler (R367 to R369), PTP time (R352, R386 to R388), and the commands of 0x0709 to
0x0711 (R389). -/

namespace Sys2Proof.Machine

open Sys2Proof

/-- Change meter `n`. -/
def State.modMeter (s : State) (n : Nat) (f : Meter → Meter) : State :=
  s.modTm (fun t => { t with meters := tmod {} t.meters n f })
/-- Change the shaper of function `f`. -/
def State.modShaper (s : State) (f : Nat) (g : Shaper → Shaper) : State :=
  s.modTm (fun t => { t with shapers := tmod {} t.shapers f g })
/-- Shaper of function `f`. -/
def State.shaper (s : State) (f : Nat) : Shaper := tget {} s.tm.shapers f
/-- Change the gate engine of port `n`. -/
def State.modGate (s : State) (n : Nat) (f : Gate → Gate) : State := s.modTm (fun t => { t with gates := tmod {} t.gates n f })

/-! ## Shapers (R362 to R364) -/

/-- Wire length of a frame of `n` bytes without its FCS (R363). -/
def wireLen (n : Nat) : Nat := n + 24

/-- The function qualifies for a round: 0 committed, 1 excess, 2 excess without a shaper (R364). -/
def Shaper.qualifies (h : Shaper) (round : Nat) : Bool :=
  match round with
  | 0 => h.enabled && decide (0 < h.ct ∧ 0 < h.pt)
  | 1 => h.enabled && decide (0 < h.pt)
  | _ => !h.enabled

/-- Charge a frame of wire length `lw`: both buckets in the committed round, the peak bucket in the excess round
(R364). -/
def Shaper.charge (h : Shaper) (round lw : Nat) : Shaper :=
  match round with
  | 0 => { h with ct := h.ct - (200 * lw : Nat), pt := h.pt - (200 * lw : Nat) }
  | 1 => { h with pt := h.pt - (200 * lw : Nat) }
  | _ => h

/-! ## Meters (R370 to R373) -/

/-- The colour of a frame of `b` bytes and the buckets after it (R371): 0 green, 1 yellow, 2 red. -/
def Meter.colour (m : Meter) (yellow : Bool) (b : Nat) : Nat × Meter :=
  let n := 200 * b
  if m.tp < n then (2, m)
  else if (m.aware ∧ yellow) ∨ m.tc < n then (1, { m with tp := m.tp - n })
  else (0, { m with tp := m.tp - n, tc := m.tc - n })

/-- Action record for a colour (R372). -/
def Meter.action (m : Meter) (colour : Nat) : Nat :=
  (match colour with | 0 => m.green | 1 => m.yellow | _ => m.red).toNat

/-- Count a colour. -/
def Meter.tally (m : Meter) (colour : Nat) : Meter :=
  match colour with
  | 0 => { m with greenPkts := sat (2 ^ 64 - 1) m.greenPkts 1 }
  | 1 => { m with yellowPkts := sat (2 ^ 64 - 1) m.yellowPkts 1 }
  | _ => { m with redPkts := sat (2 ^ 64 - 1) m.redPkts 1 }

/-- Bytes rewritten by REMARK (R372). -/
def remark (a : Nat) (f : Bytes) (p : Parsed) : Bytes :=
  let f1 := if bit a 15 then setTos f p (bits a 13 8) (ecnOf f p) else f
  if bit a 23 then setPcp f1 p (bits a 18 16) else f1

/-- A frame passes meter `n`: its colour, and the frame unless it is dropped (R371 to R373). -/
def State.meterFrame (s : State) (n : Nat) (yellow : Bool) (f : Bytes) (p : Parsed) : State × Nat × Option Bytes :=
  let m := tget {} s.tm.meters n
  if !m.enabled then (s, 0, some f)
  else
    let c := m.colour yellow (f.length + 4)
    let a := m.action c.1
    match a % 4 with
    | 2 => (s.modMeter n (fun _ => { (c.2.tally c.1) with dropped := sat (2 ^ 64 - 1) m.dropped 1 }), c.1, none)
    | 1 => (s.modMeter n (fun _ => c.2.tally c.1), c.1,
            some (remark a f p))
    | _ => (s.modMeter n (fun _ => c.2.tally c.1), c.1, some f)

/-! ## WRED (R374 to R376) -/

/-- Key of the average A[o][c][k]. -/
def avgKey (o c k : Nat) : Nat := (o * 8 + c) * 4 + k

/-- The average moved toward `q` by a factor of 2^−w; 12 fractional bits, rounded down. -/
def avgStep (a q w : Nat) : Nat := ((a : Int) + ((q * 4096 : Nat) - (a : Int)) / (2 ^ w : Nat)).toNat

/-- Averages of one output and class after a decision finds `q` cells queued (R374, R375). -/
def State.avgUpdate (s : State) (o c q : Nat) (w : Wred) : State :=
  let idle := q == 0 && (match tlook s.tm.emptyAt (o * 8 + c) with | some t => decide (t + 250 ≤ s.time.ticks) | none => false)
  s.modTm (fun t => { t with avg := [0, 1, 2].foldl (fun a k =>
    tmod 0 a (avgKey o c k) (fun v => avgStep (if idle then 0 else v) q (lget {} w.cols k).weight)) t.avg })

/-- Times at which queues with an average were found empty, kept up to date (R374). -/
def State.avgTrack (s : State) : State :=
  if s.tm.avg.isEmpty then s
  else s.modTm (fun t => { t with emptyAt :=
    ((t.avg.map (fun e => e.1 / 4)).eraseDups).foldl (fun m v =>
      if s.queued (v / 8) (v % 8) ≠ 0 then tdel m v
      else if (tlook m v).isSome then m else tset m v s.time.ticks) t.emptyAt })

/-- What the profile decides. -/
inductive WredDec where
  /-- On to R162. -/
  | pass
  /-- Marked CE, on to R162. -/
  | mark
  /-- Dropped. -/
  | drop
  deriving DecidableEq, Repr, Inhabited

/-- The decision for an average `a` with 12 fractional bits (R375). -/
def WredCol.decide (k : WredCol) (a rnd ecn : Nat) : WredDec :=
  if a < k.minTh * 4096 then .pass
  else if k.maxTh * 4096 ≤ a then .drop
  else if rnd * 256 * ((k.maxTh - k.minTh) * 4096) < k.maxP * (a - k.minTh * 4096) * 65536 then
    if k.ecn ∧ ecn ≠ 0 then .mark else .drop
  else .pass

/-- A lossy frame passes the profile of its class (R164, R375): the state, and whether it goes on, marked or not.
The random number is a free value. -/
def State.wred (s : State) (p : Pkt) (ecn : Nat) : State × WredDec :=
  let n := lget 255 s.core.cfg.drop p.tc
  if n = 255 then (s, .pass)
  else
    let w := tget {} s.tm.wred n
    let q := s.queued p.dst p.tc
    let s1 := s.avgUpdate p.dst p.tc q w
    let r := s1.freeNat
    let a := tget 0 s1.tm.avg (avgKey p.dst p.tc p.colour)
    let d := (lget {} w.cols p.colour).decide a (r.1 % 65536) ecn
    (match d with
     | .pass => r.2
     | .mark => r.2.modTm (fun t => { t with wred := tmod {} t.wred n (fun w => { w with marks := sat (2 ^ 64 - 1) w.marks 1 }) })
     | .drop => r.2.modTm (fun t => { t with wred := tmod {} t.wred n (fun w => { w with drops := sat (2 ^ 64 - 1) w.drops 1 }) }), d)

/-! ## Change of a gate list (R379, R383) -/

/-- Free the comparator of pending lists when none is pending at its change time any more (R385). -/
def State.settleGateComps (s : State) : State :=
  (List.range 4).foldl (fun t k =>
    if t.holder k = holdGate ∧
        !t.tm.gates.any (fun e => e.2.pend.isSome && tget 0 t.tm.compAt k == e.2.change) then t.setComp k 0 else t) s

/-- The pending list of port `n` becomes operational, at its first entry or where time `now` stands (R379, R383);
event 0x80B names a logical port. -/
def State.gateChange (s : State) (n : Nat) (jump : Bool) : State :=
  match (s.gate n).pend with
  | none => s
  | some l =>
    let s1 := (s.modGate n (fun g =>
      { g with oper := some l, pend := none, pos := if jump then l.entryAt (l.offset s.ptpNow) else 0 })).settleGateComps
    if n < 32 then s1.event 0x80B [0] n else s1

/-- The gate engine takes the entry its list has in force now (R377). -/
def State.gateStep (s : State) (n : Nat) : State :=
  s.modGate n (fun g => match g.oper with | none => g | some l => { g with pos := l.entryAt (l.offset s.ptpNow) })

/-- Comparator for a gate list with change time `t`: one that pending lists with that change time share, else a
free one (R385, R386). -/
def State.gateComp (s : State) (t : Nat) : Option Nat :=
  match (List.range 4).find? (fun k => s.holder k == holdGate && tget 0 s.tm.compAt k == t) with
  | some k => some k
  | none => s.freeComp

/-- Give comparator `k` to gate lists changing at `t`. -/
def State.takeGateComp (s : State) (k t : Nat) : State :=
  (s.setComp k holdGate).modTm (fun x => { x with compAt := tset x.compAt k t })

/-! ## Clock set and step (R383, R387) -/

/-- Land `g` carries the level a PTP output gives it, or is released (R50, R387). -/
def State.driveLand (s : State) (g : Nat) (out level : Bool) : State :=
  { s with lands := { s.lands with gpio := tset s.lands.gpio g { out := out, level := level } } }

/-- An enabled output is low until its first instant at or after `from_` (R387). -/
def PtpOut.replan (o : PtpOut) (from_ : Nat) : PtpOut :=
  { o with firstNs := firstAt (ptpOf o.startSec o.startNs) o.periodNs from_, high := false }

/-- GPIO land of a PTP output. -/
def outLand (k : Nat) : Nat := 28 + k

/-- What a set or a step of the clock brings at once (R383, R387). -/
def State.clockMoved (s : State) : State :=
  let due := (s.tm.gates.filter (fun e => e.2.pend.isSome && decide (e.2.change ≤ s.ptpNow))).map (fun e => e.1)
  let s1 := due.foldl (fun t n => t.gateChange n true) s
  let s2 := (s1.tm.gates.map (fun e => e.1)).foldl (fun t n => t.gateStep n) s1
  (s2.tm.outs.filter (fun e => e.2.enabled)).foldl (fun t e => t.driveLand (outLand e.1) true false)
    (s2.modTm (fun t => { t with outs := tmap t.outs (fun _ o => if o.enabled then o.replan (s2.ptpNow + 1) else o) }))

/-- NET_PTP_CLOCK, 0x0708. -/
def cmdNetPtpClock : Cmd where
  op := 0x0708
  lenOk := lenIs 32
  allowed := onlyZero
  body _ q s :=
    let op := q.u8 0x20
    let ppb := signed 32 (q.u32 0x38)
    let step := signed 64 (q.u64 0x30)
    match firstBad [(0x20, decide (op ≤ 3)), (0x21, q.zero 0x21 3), (0x24, op != 1 || decide (q.u32 0x24 < 1000000000)),
        (0x28, op != 1 || decide (q.u64 0x28 < 2 ^ 48)), (0x38, op != 3 || decide (-500000 ≤ ppb ∧ ppb ≤ 500000)),
        (0x3C, q.zero 0x3C 4)] with
    | some f => bad s f
    | none =>
      let s1 := match op with
        | 1 => (s.setPtp (ptpOf (q.u64 0x28) (q.u32 0x24))).clockMoved
        | 2 => (s.setPtp (((s.ptpNow : Int) + step) % ((2 ^ 48 * 1000000000 : Nat) : Int)).toNat).clockMoved
        | 3 => { s with time := { s.time with ppb := ppb } }
        | _ => s
      ok s1 (leBytes 8 s1.time.ptpSec ++ leBytes 4 s1.time.ptpNs ++ leBytes 4 (BitVec.ofInt 32 s1.time.ppb).toNat)

/-! ## Logical ports present (R325) -/

/-- Logical port `lp` exists in its group's mode (R325). -/
def lportPresent (mode lp : Nat) : Bool := match mode with | 0 => lp % 4 == 0 | 1 => lp % 2 == 0 | _ => true
/-- Mode of the group of `lp`. -/
def State.netMode (s : State) (lp : Nat) : Nat := tget 0 s.net.modes (lp / 4)
/-- Logical port `lp` is present. -/
def State.hasLport (s : State) (lp : Nat) : Bool := decide (lp < 32) && lportPresent (s.netMode lp) lp

/-! ## Commands (R389) -/

/-- TM_SHAPER_SET, 0x0709. -/
def cmdTmShaperSet : Cmd where
  op := 0x0709
  lenOk := lenIs 20
  allowed := onlyZero
  body _ q s :=
    let f := q.u16 0x20
    let en := q.u8 0x22
    let cir := q.u32 0x24
    let pir := q.u32 0x28
    let cbs := q.u32 0x2C
    let pbs := q.u32 0x30
    let on := en == 1
    let burst (b : Nat) : Bool := if on then decide (1518 ≤ b ∧ b < 2 ^ 24) else b == 0
    match firstBad [(0x20, (s.vnic f).isSome), (0x22, decide (en ≤ 1)), (0x23, decide (q.u8 0x23 ≤ 1)),
        (0x24, if on then decide (cir ≤ 400000 ∧ cir ≤ pir) else cir == 0),
        (0x28, if on then decide (1 ≤ pir ∧ pir ≤ 400000) else pir == 0), (0x2C, burst cbs), (0x30, burst pbs)] with
    | some x => bad s x
    | none =>
      let full := q.u8 0x23 == 0
      ok (s.modShaper f (fun _ =>
        { enabled := on, cir := cir, pir := pir, cbs := cbs, pbs := pbs, ct := if full then (200 * cbs : Nat) else 0,
          pt := if full then (200 * pbs : Nat) else 0 }))

/-- TM_SCHED_SET, 0x070A. -/
def cmdTmSchedSet : Cmd where
  op := 0x070A
  lenOk := lenIs 20
  allowed := onlyZero
  body _ q s :=
    let lp := q.u8 0x20
    let strict := q.u8 0x21
    let qs := (List.range 8).map (fun t => q.u16 (0x24 + 2 * t))
    match firstBad ([(0x20, s.hasLport lp), (0x22, q.zero 0x22 2)] ++ (List.range 8).map (fun t =>
        (0x24 + 2 * t, if bit strict t then lget 0 qs t == 0 else decide (1 ≤ lget 0 qs t ∧ lget 0 qs t ≤ 4095)))) with
    | some x => bad s x
    | none => ok (s.modLport lp (fun l => { l with strict := BitVec.ofNat 8 strict, quantum := qs, deficit := [], dwrrIn := false }))

/-- A meter action record is allowed. -/
def actionOk (a : Nat) : Bool :=
  decide (a % 256 ≤ 2) && !bit a 14 && bits a 22 19 == 0 && bits a 31 24 == 0

/-- TM_METER_SET, 0x070B. -/
def cmdTmMeterSet : Cmd where
  op := 0x070B
  lenOk := lenIs 32
  allowed := onlyZero
  body _ q s :=
    let n := q.u16 0x20
    let en := q.u8 0x22
    let m := tget {} s.tm.meters n
    let cir := q.u32 0x24
    let pir := q.u32 0x28
    let burst (b : Nat) : Bool := decide (1518 ≤ b ∧ b < 2 ^ 24)
    let rest := if en = 0xFF then (List.range 29).map (fun i => (0x23 + i, q.u8 (0x23 + i) == 0))
      else [(0x23, decide (q.u8 0x23 ≤ 1)), (0x24, decide (1 ≤ cir ∧ cir ≤ pir)), (0x28, decide (1 ≤ pir ∧ pir ≤ 400000)),
        (0x2C, burst (q.u32 0x2C)), (0x30, burst (q.u32 0x30)), (0x34, actionOk (q.u32 0x34)), (0x38, actionOk (q.u32 0x38)),
        (0x3C, actionOk (q.u32 0x3C))]
    match firstBad ([(0x20, decide (n < 4096)), (0x22, decide (en ≤ 1) || en == 0xFF)] ++ rest) with
    | some x => bad s x
    | none =>
      let out := leBytes 8 m.greenPkts ++ leBytes 8 m.yellowPkts ++ leBytes 8 m.redPkts ++ leBytes 8 m.dropped
      if en = 0xFF then ok s out
      else ok (s.modMeter n (fun _ =>
        { enabled := en == 1, aware := q.u8 0x23 == 1, cir := cir, pir := pir, cbs := q.u32 0x2C, pbs := q.u32 0x30,
          tc := 200 * q.u32 0x2C, tp := 200 * q.u32 0x30, green := BitVec.ofNat 32 (q.u32 0x34),
          yellow := BitVec.ofNat 32 (q.u32 0x38), red := BitVec.ofNat 32 (q.u32 0x3C) })) out

/-- One colour of a TM_WRED_SET request. -/
def wredCol (q : Req) (o : Nat) : WredCol :=
  { minTh := q.u32 o, maxTh := q.u32 (o + 4), maxP := q.u8 (o + 8), weight := q.u8 (o + 9), ecn := bit (q.u8 (o + 10)) 0 }

/-- TM_WRED_SET, 0x070C. -/
def cmdTmWredSet : Cmd where
  op := 0x070C
  lenOk := lenIs 40
  allowed := onlyZero
  body _ q s :=
    let n := q.u8 0x20
    let wr := q.u8 0x21
    let w := tget {} s.tm.wred n
    let cols := [0x24, 0x30, 0x3C]
    let chk := cols.flatMap (fun o =>
      if wr = 0 then [(o, q.zero o 12)]
      else [(o, decide (q.u32 o < q.u32 (o + 4))), (o + 4, decide (q.u32 (o + 4) ≤ 524288)), (o + 9, decide (q.u8 (o + 9) ≤ 15)),
        (o + 10, decide (q.u8 (o + 10) ≤ 1)), (o + 11, q.zero (o + 11) 1)])
    match firstBad ([(0x20, decide (n < 16)), (0x21, decide (wr ≤ 1)), (0x22, q.zero 0x22 2)] ++ chk) with
    | some x => bad s x
    | none =>
      ok (if wr = 1 then s.modTm (fun t => { t with wred := tset t.wred n { w with cols := cols.map (wredCol q) } }) else s)
        (leBytes 8 w.drops ++ leBytes 8 w.marks)

/-- The gate list of a TM_GATE_SET request. -/
def gateListOf (q : Req) : GateList :=
  { cycleNs := q.u32 0x24, baseSec := q.u64 0x28, baseNs := q.u32 0x30,
    entries := (List.range (q.u16 0x22)).map (fun i => (q.u8 (0x38 + 8 * i), q.u32 (0x3C + 8 * i))) }

/-- Offset of the first gate entry at fault. -/
def gateEntryChecks (q : Req) : List (Nat × Bool) :=
  (List.range (q.u16 0x22)).flatMap (fun i =>
    [(0x39 + 8 * i, q.zero (0x39 + 8 * i) 3), (0x3C + 8 * i, decide (1 ≤ q.u32 (0x3C + 8 * i) ∧ q.u32 (0x3C + 8 * i) ≤ 125000000))])

/-- Remove the user schedule of port `n` with any pending list (R378). -/
def State.gateRemove (s : State) (n : Nat) : State :=
  (s.modGate n (fun g => { drops := g.drops })).settleGateComps

/-- TM_GATE_SET, 0x070D. -/
def cmdTmGateSet : Cmd where
  op := 0x070D
  lenOk q := q.length == 24 + 8 * q.u16 0x22
  allowed := onlyZero
  body _ q s :=
    let lp := q.u8 0x20
    let en := q.u8 0x21
    let n := q.u16 0x22
    let l := gateListOf q
    let on := en == 1
    match firstBad ([(0x20, s.hasLport lp), (0x21, decide (en ≤ 1)), (0x22, if on then decide (1 ≤ n ∧ n ≤ 256) else n == 0),
        (0x24, !on || (decide (1000 ≤ l.cycleNs ∧ l.cycleNs ≤ 1000000000) && l.cycleNs % 8 == 0)),
        (0x28, !on || decide (l.baseSec < 2 ^ 48)), (0x30, !on || decide (l.baseNs < 1000000000)), (0x34, q.zero 0x34 4)] ++
        gateEntryChecks q) with
    | some x => bad s x
    | none =>
      if s.iso.strict then failWith s rcBusy
      else if !on then ok (s.gateRemove lp) (List.replicate 16 0)
      else
        let t := firstAt l.base l.cycleNs (s.ptpNow + 10000)
        let s1 := (s.modGate lp (fun g => { g with pend := none })).settleGateComps
        match s1.gateComp t with
        | none => failWith s rcBusy
        | some k =>
          ok ((s1.takeGateComp k t).modGate lp (fun g =>
            { g with pend := some l, changeSec := t / 1000000000, changeNs := t % 1000000000, adjusted := t != l.base }))
            (leBytes 8 (t / 1000000000) ++ leBytes 4 (t % 1000000000) ++ leBytes 1 (b2n (t != l.base)) ++ [0, 0, 0])

/-- TM_GATE_GET, 0x070E. -/
def cmdTmGateGet : Cmd where
  op := 0x070E
  lenOk := lenIs 4
  allowed := onlyZero
  body _ q s :=
    let lp := q.u8 0x20
    let which := q.u8 0x21
    match firstBad [(0x20, s.hasLport lp), (0x21, decide (which ≤ 1)), (0x22, q.zero 0x22 2)] with
    | some x => bad s x
    | none =>
      let g := s.gate lp
      let l := (if which = 0 then g.oper else g.pend).getD {}
      let st := if g.byStrict then 3 else if g.pend.isSome then 2 else if g.oper.isSome then 1 else 0
      let ch := g.pend.isSome
      ok s (leBytes 1 lp ++ leBytes 1 st ++ leBytes 1 (b2n g.adjusted) ++ [0] ++ leBytes 4 l.cycleNs ++ leBytes 8 l.baseSec ++
        leBytes 4 l.baseNs ++ leBytes 4 (if ch then g.changeNs else 0) ++ leBytes 8 (if ch then g.changeSec else 0) ++
        leBytes 4 g.drops ++ leBytes 2 l.entries.length ++ [0, 0] ++
        l.entries.flatMap (fun e =>
          leBytes 1 (if g.byStrict then (if e.1 = 0 then 0 else 255) else e.1) ++ [0, 0, 0] ++ leBytes 4 e.2))

/-- GPIO land of a PTP input. -/
def inLand (k : Nat) : Nat := if k = 0 then 27 else 28 + k

/-- PTP output `k`. -/
def State.ptpOut (s : State) (k : Nat) : PtpOut := tget {} s.tm.outs k
/-- PTP input `k`. -/
def State.ptpIn (s : State) (k : Nat) : PtpIn := tget {} s.tm.ins k

/-- HOLDERS of a PTP_OUT_SET response. -/
def State.holders4 (s : State) : Bytes := (List.range 4).flatMap (fun k => leBytes 1 (s.holder k)) ++ [0, 0, 0, 0]

/-- PTP_OUT_SET, 0x070F. -/
def cmdPtpOutSet : Cmd where
  op := 0x070F
  lenOk := lenIs 32
  allowed := onlyZero
  body _ q s :=
    let k := q.u8 0x20
    let en := q.u8 0x21
    let per := q.u32 0x30
    let wid := q.u32 0x34
    let on := en == 1 && k != 0xFF
    let off := k == 0xFF
    match firstBad [(0x20, decide (k ≤ 2) || off), (0x21, if off then en == 0 else decide (en ≤ 1)), (0x22, q.zero 0x22 2),
        (0x24, if on then decide (q.u64 0x24 < 2 ^ 48) else !off || q.u64 0x24 == 0),
        (0x2C, if on then decide (q.u32 0x2C < 1000000000) else !off || q.u32 0x2C == 0),
        (0x30, if on then decide (1000 ≤ per ∧ per ≤ 1000000000) && per % 8 == 0 else !off || per == 0),
        (0x34, if on then decide (8 ≤ wid ∧ wid + 8 ≤ per) && wid % 8 == 0 else !off || wid == 0), (0x38, q.zero 0x38 8)] with
    | some x => bad s x
    | none =>
      if off then ok s s.holders4
      else if !on then
        let s0 := if (s.ptpOut k).enabled then s.driveLand (outLand k) false false else s
        let s1 := (s0.modTm (fun t => { t with outs := tset t.outs k {} })).dropComp (holdOut k)
        ok s1 s1.holders4
      else if s.tm.slotPower.contains (outLand k) ∨ (k ≠ 0 ∧ (s.ptpIn k).enabled) then failWith s rcConflict
      else
        let old := s.ptpOut k
        let c := if old.enabled then (List.range 4).find? (fun i => s.holder i == holdOut k) else s.freeComp
        match c with
        | none => failWith s rcBusy
        | some i =>
          let o : PtpOut := { enabled := true, startSec := q.u64 0x24, startNs := q.u32 0x2C, periodNs := per, widthNs := wid }
          let s1 := (s.setComp i (holdOut k)).modTm (fun t => { t with outs := tset t.outs k (o.replan (s.ptpNow + 10000)) })
          ok (s1.driveLand (outLand k) true false) s1.holders4

/-- PTP_IN_SET, 0x0710. -/
def cmdPtpInSet : Cmd where
  op := 0x0710
  lenOk := lenIs 4
  allowed := onlyZero
  body _ q s :=
    let k := q.u8 0x20
    let en := q.u8 0x21
    let edge := q.u8 0x22
    match firstBad [(0x20, decide (k ≤ 2)), (0x21, decide (en ≤ 1)), (0x22, if en = 1 then decide (edge ≤ 2) else edge == 0),
        (0x23, decide (q.u8 0x23 ≤ 1))] with
    | some x => bad s x
    | none =>
      if en = 0 then ok (s.modTm (fun t => { t with ins := tmod {} t.ins k (fun i => { lost := i.lost, lastEv := i.lastEv }) }))
      else if s.tm.slotPower.contains (inLand k) ∨ (k ≠ 0 ∧ (s.ptpOut k).enabled) then failWith s rcConflict
      else ok (s.modTm (fun t => { t with ins := tmod {} t.ins k (fun i =>
        { i with enabled := true, edge := edge, event := q.u8 0x23 == 1 }) }))

/-- PTP_IN_READ, 0x0711. -/
def cmdPtpInRead : Cmd where
  op := 0x0711
  lenOk := lenIs 4
  allowed := onlyZero
  body _ q s :=
    let k := q.u8 0x20
    let n := q.u8 0x21
    match firstBad [(0x20, decide (k ≤ 2)), (0x21, decide (1 ≤ n ∧ n ≤ 64)), (0x22, q.zero 0x22 2)] with
    | some x => bad s x
    | none =>
      let i := s.ptpIn k
      let got := i.queue.take n
      ok (s.modTm (fun t => { t with ins := tset t.ins k { i with queue := i.queue.drop n, lost := 0 } }))
        (leBytes 1 got.length ++ leBytes 1 (i.queue.length - got.length) ++ leBytes 2 i.lost ++ [0, 0, 0, 0] ++
          got.flatMap (fun e => leBytes 8 e.1 ++ leBytes 4 e.2.1 ++ leBytes 1 e.2.2 ++ [0, 0, 0]))

/-! ## PTP events (R387, R388, R560) -/

/-- An enabled output changes its land (R387). -/
def State.ptpOutEdge (s : State) (k : Nat) : State :=
  let o := s.ptpOut k
  if !o.enabled then s
  else
    let s1 := s.modTm (fun t => { t with outs := tset t.outs k { o with high := !o.high } })
    s1.driveLand (outLand k) true (!o.high)

/-- The edge is selected. -/
def PtpIn.selects (i : PtpIn) (falling : Bool) : Bool := i.enabled && (i.edge == 2 || (i.edge == 1) == falling)

/-- An edge on input `k` (R388). -/
def State.ptpInEdge (s : State) (k : Nat) (falling : Bool) : State :=
  let i := s.ptpIn k
  if !i.selects falling then s
  else
    let e := b2n falling
    let i1 := if i.queue.length < 64 then { i with queue := i.queue ++ [(s.time.ptpSec, s.time.ptpNs, e)] }
      else { i with lost := sat 65535 i.lost 1 }
    let tell := i.event && (match i.lastEv with | some t => decide (t + 250 ≤ s.time.ticks) | none => true)
    let i2 := if tell then { i1 with lastEv := some s.time.ticks } else i1
    let s1 := s.modTm (fun t => { t with ins := tset t.ins k i2 })
    let s2 := if tell then s1.event 0x811 [0] (k + e * 4 + s.time.ptpSec % 2 ^ 24 * 256 + s.time.ptpNs * 2 ^ 32) else s1
    if k = 0 ∧ !falling ∧ i.edge ≠ 1 ∧ 1000 < s.time.ptpNs ∧ s.time.ptpNs < 999999000 then s2.raiseAt 0x35 0 else s2

end Sys2Proof.Machine
end

