-- ==== Sys2Proof/Machine/Windows.lean ====
section
/-! DEFINITION. Commands and events of the translation tables: staging (R136, R141, R153), commits and
their checks (R137, R138, R144, R147, R149), sharing of devices (R145) and fences (R151, R152). -/

namespace Sys2Proof.Machine

open Sys2Proof

/-! ## Operation records -/

/-- Frame offset of operation record `i` of WIN_STAGE. -/
def opOff (i : Nat) : Nat := 0x28 + 40 * i

/-- One operation record of WIN_STAGE, as staged at this moment. -/
def opOf (q : Req) (i : Nat) : StagedOp :=
  { table := q.u8 (opOff i), inval := q.u8 (opOff i + 1) == 1, scope := q.u8 (opOff i + 2),
    index := q.u16 (opOff i + 4), entry := BitVec.ofNat 256 (q.field 32 (opOff i + 8)) }

/-- Key of the entry an operation names. -/
def StagedOp.key (o : StagedOp) : Nat := winKey o.table o.scope o.index

/-- The records of a WIN_STAGE request. -/
def opsOf (q : Req) : List StagedOp := (List.range (Nat.min (q.u16 0x20) 101)).map (opOf q)

/-- Partition `p` holds a binding on port `n` (R153). -/
def State.bindsOn (s : State) (p n : Nat) : Bool := (s.boundTo n).any (fun e => e.1 == p)

/-- A host partition may stage this operation (R147, R150, R153): it sets no LOCK, though it may repeat the LOCK of an entry
that has it, which is then refused as LOCKED (R141). -/
def State.mayStage (s : State) (p : Nat) (o : StagedOp) : Bool :=
  let cur := bankGet s.win.bank o.key
  let e := o.entry
  let keeps := !eLock e || eLock cur
  match o.table with
  | 1 => o.scope == p && (o.inval || (eOwner e == p && keeps))
  | 2 => s.bindsOn p o.scope && (!eValid cur || eOwner cur == p) && (o.inval || (eOwner e == p && keeps))
  | 4 => (!eValid cur || ePartHi cur == p) &&
      (o.inval || (ePartHi e == p && keeps && !eApproved e && s.ownsRange p (eIn e) (eSize e)))
  | _ => false

/-- Classes a window of a table may target (R29, R30); `zero`: created by partition 0. -/
def classAllowed (table : Nat) (zero : Bool) (owner : Nat) (a : Word) : Bool :=
  match faClass a with
  | 0 => true
  | 1 => true
  | 2 => true
  | 3 => table != 2
  | 4 => table == 1 && faPart a == owner
  | 5 => zero
  | _ => false

/-- An address of this module resolves to a core port that is present: the pool for class 0x0, a physical
downstream port for class 0x1 (R25, R29, R284). -/
def State.faPortOk (s : State) (a : Word) : Bool :=
  faModule a != s.own ||
    (match faClass a with
     | 0 => s.pool.present
     | 1 => (s.port (faPort a)).role == .downstream
     | _ => true)

/-- Field checks of a window (R128, R131), as (byte of the entry, good). DESIGN CHOICE (log 72): a host window whose OWNER is
not its SCOPE, which only partition 0 could stage, is BAD_FIELD at OWNER. -/
def windowChecks (zero : Bool) (o : StagedOp) : List (Nat × Bool) :=
  let e := o.entry
  let z := eSize e
  [(0, eBits e 2 1 == 0 && eKind e == o.table && decide (12 ≤ z ∧ z ≤ 44)),
   (1, decide (eIn e % 2 ^ z = 0)),
   (8, eBits e 75 67 == 0),
   (9, decide (eOut e % 2 ^ z = 0) && rangeWhole (eOut e) z && classAllowed o.table zero (eOwner e) (BitVec.ofNat 64 (eOut e)) &&
        (!(faClass (BitVec.ofNat 64 (eOut e)) == 4) || faPart (BitVec.ofNat 64 (eOut e + 2 ^ z - 1)) == eOwner e)),
   (16, eBits e 173 129 == 0),
   (23, o.table == 2 || eOwner e == o.scope),
   (26, eBits e 255 208 == 0)]

/-- Field checks of an ID map entry (R129). -/
def idChecks (o : StagedOp) : List (Nat × Bool) :=
  let e := o.entry
  [(0, eBits e 2 1 == 0 && eKind e == 3 && eBits e 15 6 == 0),
   (2, ePmode e == 1 || ePasid e == 0),
   (4, decide (ePmode e ≤ 1)),
   (5, decide (eSpan e ≤ 8) && decide (ePort e < 40)),
   (6, decide (eRid e % 2 ^ eSpan e = 0)),
   (8, eBits e 86 64 == 0),
   (10, ePmode e == 1 || eVpasid e == 0),
   (13, decide (eVrid e % 2 ^ eSpan e = 0)),
   (16, eBits e 191 129 == 0),
   (26, eBits e 255 208 == 0)]

/-- Field checks of a grant (R130, R131). -/
def grantChecks (zero : Bool) (o : StagedOp) : List (Nat × Bool) :=
  let e := o.entry
  let z := eSize e
  [(0, bit e.toNat 2 == false && eKind e == 4 && decide (12 ≤ z ∧ z ≤ 44)),
   (1, rangeWhole (eIn e) z && classAllowed 4 zero (ePartHi e) (BitVec.ofNat 64 (eIn e))),
   (8, eBits e 117 67 == 0),
   (16, eBits e 191 129 == 0),
   (26, eBits e 255 208 == 0)]

/-- Offset, within its record, of the first field of an operation at fault (R126, R131). -/
def State.opFault (s : State) (zero : Bool) (q : Req) (i : Nat) : Option Nat :=
  let o := opOf q i
  let b := opOff i
  let head : List (Nat × Bool) :=
    [(b, decide (1 ≤ o.table ∧ o.table ≤ 4)), (b + 1, decide (q.u8 (b + 1) ≤ 1)),
     (b + 2, match o.table with
       | 1 => decide (o.scope < 32)
       | 2 => decide (o.scope < 40) && (s.port o.scope).role == .downstream
       | _ => o.scope == 0),
     (b + 3, q.zero (b + 3) 1), (b + 4, decide (o.index < winCount o.table)), (b + 6, q.zero (b + 6) 2)]
  let body : List (Nat × Bool) :=
    if o.inval then [(0, o.entry == 0)]
    else match o.table with
      | 3 => idChecks o ++ [(4, (s.port (ePort o.entry)).role == .downstream)]
      | 4 => grantChecks zero o ++ [(1, s.faPortOk (BitVec.ofNat 64 (eIn o.entry)))]
      | _ => windowChecks zero o ++ [(9, s.faPortOk (BitVec.ofNat 64 (eOut o.entry)))]
  match firstBad head with
  | some f => some f
  | none => (firstBad body).map (fun f => b + 8 + f)

/-- Offset of the first field at fault over `n` records. -/
def State.opsFault (s : State) (zero : Bool) (q : Req) : Nat → Option Nat
  | 0 => none
  | n + 1 => match s.opsFault zero q n with
    | some f => some f
    | none => s.opFault zero q n

/-- Stage an operation: a later one on the same entry takes the earlier one's place (R136). -/
def stageOne (stamps : Tab Nat) (zero : Bool) (set : List StagedOp) (o : StagedOp) : List StagedOp :=
  let o1 := { o with stamp := tget 0 stamps o.key, byZero := zero }
  if set.any (fun x => x.key == o.key) then set.map (fun x => if x.key = o.key then o1 else x)
  else set ++ [o1]

/-- WIN_STAGE, 0x0800. -/
def cmdWinStage : Cmd where
  op := 0x0800
  lenOk q := q.length == 8 + 40 * q.u16 0x20
  allowed w q s := w.caller == 0 || (opsOf q).all (s.mayStage w.caller)
  body w q s :=
    let n := q.u16 0x20
    match firstBad [(0x20, decide (1 ≤ n ∧ n ≤ 101)), (0x22, q.zero 0x22 6)] with
    | some f => bad s f
    | none => match s.opsFault (w.caller == 0) q n with
      | some f => bad s f
      | none =>
        let ops := opsOf q
        let lock (o : StagedOp) : Bool :=
          let e := bankGet s.win.bank o.key
          eEmber e || (w.caller != 0 && eLock e)
        if ops.any lock then failWith s rcLocked
        else
          let set := ops.foldl (stageOne s.win.stamps (w.caller == 0)) (tget [] s.win.staging w.subject)
          if 1024 < set.length then failWith s rcBusy
          else ok (s.modWin (fun x => { x with staging := tset x.staging w.subject set }))
            (leBytes 2 set.length ++ List.replicate 6 0)

/-! ## Commit (R137) -/

/-- Why a commit fails: status and DETAIL. -/
abbrev CommitFault := Nat × Nat

/-- What an operation leaves in its entry; an invalidated entry keeps its other fields, LOCK among them
(R141). -/
def StagedOp.result (o : StagedOp) (cur : Entry) : Entry :=
  if o.inval then invalidated cur
  else if o.table = 1 ∨ o.table = 2 then eSet (eSet o.entry 186 174 0) 207 192 0
  else eSet o.entry 207 192 0

/-- The bank with the staged set applied. -/
def applyOps (b : Bank) (ops : List StagedOp) : Bank :=
  ops.foldl (fun b o => tset b o.key (o.result (bankGet b o.key))) b

/-- First operation whose entry another commit has written since it was staged (R138). -/
def staleOp (stamps : Tab Nat) : Nat → List StagedOp → Option Nat
  | _, [] => none
  | i, o :: r => if tget 0 stamps o.key ≠ o.stamp then some i else staleOp stamps (i + 1) r

/-- Two entries' input ranges share a byte. -/
def inTouch (a b : Entry) : Bool := rangesTouch (eIn a) (2 ^ eSize a) (eIn b) (2 ^ eSize b)

/-- Index of the later of two valid windows of one overlap scope, one of them at key `k`, that overlap
(R134). DESIGN CHOICE (log 71): the later one is that of the larger index. -/
def windowOverlap (b : Bank) (k : Nat) : Option Nat :=
  let e := bankGet b k
  let rivals : List (Nat × Entry) :=
    match tableOfKey k with
    | 1 => bankScope b 1 (scopeOfKey k) ++ bankScope b 5 (scopeOfKey k)
    | 2 => (bankScope b 2 (scopeOfKey k)).filter (fun x => eOwner x.2 == eOwner e)
    | _ => []
  if !eValid e then none
  else (rivals.find? (fun x => x.1 != k && inTouch x.2 e)).map (fun x => Nat.max (indexOfKey k) (indexOfKey x.1))

/-- Routing-ID ranges of two ID map entries share an ID. -/
def ridTouch (a b : Entry) : Bool :=
  ePort a == ePort b && rangesTouch (eRid a) (2 ^ eSpan a) (eRid b) (2 ^ eSpan b)

/-- Two ID map entries may not stand together (R144). -/
def idClash (a b : Entry) : Bool :=
  if ePmode a = 0 ∧ ePmode b = 0 then
    ridTouch a b || (ePartHi a == ePartHi b && rangesTouch (eVrid a) (2 ^ eSpan a) (eVrid b) (2 ^ eSpan b))
  else ePmode a == 1 && ePmode b == 1 && ePasid a == ePasid b && ridTouch a b

/-- Index of the later of two ID map entries that clash, one of them at key `k`. -/
def idOverlap (b : Bank) (k : Nat) : Option Nat :=
  let e := bankGet b k
  if tableOfKey k ≠ 3 ∨ !eValid e then none
  else ((bankScope b 3 0).find? (fun x => x.1 != k && idClash x.2 e)).map (fun x =>
    Nat.max (indexOfKey k) (indexOfKey x.1))

/-- A PASID_MODE 1 entry lies within a PASID_MODE 0 entry of its partition and repeats its virtual
routing ID (R144). -/
def idRefines (b : Bank) (e : Entry) : Bool :=
  ePmode e == 0 || (bankScope b 3 0).any (fun x =>
    ePmode x.2 == 0 && ePort x.2 == ePort e && ePartHi x.2 == ePartHi e &&
    decide (eRid x.2 ≤ eRid e ∧ eRid e + 2 ^ eSpan e ≤ eRid x.2 + 2 ^ eSpan x.2) &&
    eVrid e == eVrid x.2 + (eRid e - eRid x.2))

/-- Key of a PASID_MODE 1 entry that breaks R144. -/
def idStray (b : Bank) : Option Nat := ((bankScope b 3 0).find? (fun x => !idRefines b x.2)).map (fun x => x.1)

/-- Position of the operation at fault for the stray entry at key `k` (R137): the one on `k`; else the one on
the entry that now holds it; else the one on the entry that held it before; else the first on the ID map. -/
def strayOp (old new : Bank) (ops : List StagedOp) (k : Nat) : Nat :=
  let e := bankGet new k
  let at_ (f : StagedOp → Bool) : Option Nat := ops.findIdx? (fun o => o.table == 3 && f o)
  ((at_ (fun o => o.key == k)).or <| (at_ (fun o => idHolds (bankGet new o.key) e)).or <|
    (at_ (fun o => idHolds (bankGet old o.key) e)).or <| at_ (fun _ => true)).getD 0

/-- A shared port's owner holds more windows there than its quota (R147). -/
def State.overQuota (s : State) (b : Bank) (o : StagedOp) : Bool :=
  match o.table, (s.port o.scope).mode with
  | 2, .shared _ _ quota =>
    let p := eOwner (bankGet b o.key)
    s.bindsOn p o.scope && decide (quota < (bankScope b 2 o.scope).countP (fun x => eOwner x.2 == p))
  | _, _ => false

/-- The grant that lets `e` reach its output: within one valid grant to its OWNER with its permissions,
approved or from the OWNER itself (R149). -/
def grantFor (b : Bank) (e : Entry) : Option Nat :=
  ((bankScope b 4 0).find? (fun g =>
    eGrantee g.2 == eOwner e && (eApproved g.2 || ePartHi g.2 == eGrantee g.2) &&
    decide (eIn g.2 ≤ eOut e ∧ eOut e + 2 ^ eSize e ≤ eIn g.2 + 2 ^ eSize g.2) &&
    (bitList 3 (ePerm e)).all (fun i => bit (ePerm g.2) i))).map (fun g => indexOfKey g.1)

/-- Check the output of a staged window, recording the grant it uses (R149), and the target of a grant its
grantor staged (R150): none when it is refused. -/
def State.grantCheck (s : State) (b : Bank) (o : StagedOp) : Option Entry :=
  let e := bankGet b o.key
  if o.table = 4 ∧ eValid e ∧ !o.byZero ∧ !s.ownsRange (ePartHi e) (eIn e) (eSize e) then none
  else if (o.table ≠ 1 ∧ o.table ≠ 2) ∨ !eValid e then some e
  else
    let peer := o.table = 2 ∧ faClass (BitVec.ofNat 64 (eOut e)) = 1
    if !peer ∧ s.ownsRange (eOwner e) (eOut e) (eSize e) then some e
    else (grantFor b e).map (fun g => eSet (eSet e 186 186 1) 185 174 g)

/-- Position of the first operation refused under R149, or the bank with the grants recorded. -/
def State.grantAll (s : State) : Nat → List StagedOp → Bank → Nat ⊕ Bank
  | _, [], b => .inr b
  | i, o :: r, b =>
    match s.grantCheck b o with
    | none => .inl i
    | some e => s.grantAll (i + 1) r (tset b o.key e)

/-- Every check of a commit, in the order of R67: R134 and R144, then R138, the handle `free` that a commit
needs and R147, then R149 and R150; answers the bank to be. -/
def State.commitCheck (s : State) (ops : List StagedOp) (free : Bool) : CommitFault ⊕ Bank :=
  let b := applyOps s.win.bank ops
  if ops.isEmpty then .inl (rcBadField, 0xFFFFFFFF)
  else match (ops.filterMap (fun o => windowOverlap b o.key)).head? with
  | some i => .inl (rcOverlap, i)
  | none => match (ops.filterMap (fun o => idOverlap b o.key)).head? with
  | some i => .inl (rcOverlap, i)
  | none => match idStray b with
  | some k => .inl (rcBadField, strayOp s.win.bank b ops k)
  | none => match staleOp s.win.stamps 0 ops with
  | some i => .inl (rcConflict, i)
  | none =>
    if !free ∨ ops.any (s.overQuota b) then .inl (rcBusy, 0)
    else match s.grantAll 0 ops b with
      | .inl i => .inl (rcDenied, i)
      | .inr b1 => .inr b1

/-- A grant operation on which dependent windows are invalidated: anything but its approval (R142, R150). -/
def grantBroken (old new : Bank) (o : StagedOp) : Bool :=
  let a := bankGet old o.key
  let z := bankGet new o.key
  o.table == 4 && eValid a &&
    !(eValid z && eSet (eSet a 207 192 0) 1 1 0 == eSet (eSet z 207 192 0) 1 1 0 && (eApproved z || !eApproved a))

/-- Windows invalidated with the grants a set changes, besides those the set itself writes (R142). -/
def commitDeps (old new : Bank) (ops : List StagedOp) : List Nat :=
  (dependents old ((ops.filter (grantBroken old new)).map (fun o => o.index))).filter (fun k =>
    !ops.any (fun o => o.key == k))

/-- WIN_COMMIT, 0x0801. -/
def cmdWinCommit : Cmd where
  op := 0x0801
  lenOk := lenIs 4
  allowed := anyone
  body w q s :=
    let ops := tget [] s.win.staging w.subject
    let mode := q.u8 0x20
    match firstBad [(0x20, decide (mode ≤ 1)), (0x21, q.zero 0x21 3)] with
    | some f => bad s f
    | none => match s.commitCheck ops (mode == 1 || s.handleFree w.caller) with
      | .inl f => failWith s f.1 f.2
      | .inr b =>
        if mode = 1 then ok s (leBytes 2 (w.shown s.iso.strict s.win.epoch.toNat) ++ List.replicate 6 0)
        else
          let old := s.win.bank
          let deps := commitDeps old b ops
          let ws := ops.map (fun o => (o.key, bankGet b o.key)) ++ deps.map (fun k => (k, invalidated (bankGet b k)))
          let t := s.win.commit ws
          let parts := (ws.flatMap (fun e =>
            (([e.2, bankGet old e.1]).filter eValid).map (entryOwner (tableOfKey e.1)))).eraseDups
          let d : Drain := { tracker := t.1, parts := parts, epoch := BitVec.ofNat 16 (w.shown s.iso.strict t.2.epoch.toNat), applied := ops.length,
                             inval := deps.length, part := w.caller }
          let w1 : Win :=
            { t.2 with
              staging := tdel t.2.staging w.subject
              byZero := (ops.filter (fun o => o.byZero)).map (fun o => o.key) ++
                t.2.byZero.filter (fun k => !ops.any (fun o => o.key == k)) }
          let s1 := ({ s with win := w1 }).tellInvalidated old deps
          if w1.drainDone d then ok (s1.modWin Win.freeTrackers) d.reply
          else
            { status := rcDrainPending, payload := d.reply, wait := some (.drain d.tracker)
              s := s1.modWin (fun x => { x with drains := x.drains ++ [d] }) }

/-- WIN_DISCARD, 0x0802. -/
def cmdWinDiscard : Cmd where
  op := 0x0802
  lenOk := lenIs 0
  allowed := anyone
  body w _ s := ok (s.modWin (fun x => { x with staging := tdel x.staging w.subject }))

/-- WIN_READ, 0x0803. -/
def cmdWinRead : Cmd where
  op := 0x0803
  lenOk := lenIs 8
  allowed := anyone
  body w q s :=
    let t := q.u8 0x20
    let sc := q.u8 0x22
    let first := q.u16 0x24
    let n := q.u16 0x26
    match firstBad [(0x20, decide (1 ≤ t ∧ t ≤ 5)), (0x21, decide (q.u8 0x21 ≤ 1)),
        (0x22, match t with
          | 1 => decide (sc < 32)
          | 5 => decide (sc < 32)
          | 2 => decide (sc < 40) && (s.port sc).role == .downstream
          | _ => sc == 0),
        (0x23, q.zero 0x23 1), (0x24, decide (first < winCount t)),
        (0x26, decide (1 ≤ n ∧ n ≤ 126 ∧ first + n ≤ winCount t))] with
    | some f => bad s f
    | none =>
      let b := if q.u8 0x21 = 1 then applyOps s.win.bank (tget [] s.win.staging w.subject) else s.win.bank
      let one (i : Nat) : Bytes :=
        let e := bankGet b (winKey t sc (first + i))
        if w.caller = 0 ∨ entryOwner t e = w.caller then leBytes 32 e.toNat else List.replicate 32 0
      ok s (leBytes 2 (w.shown s.iso.strict s.win.epoch.toNat) ++ leBytes 2 n ++ [0, 0, 0, 0] ++ (List.range n).flatMap one)

/-! ## Drains and fences -/

/-- The 1 ms wait of a WIN_COMMIT of partition `p` ends: it returns DRAIN_PENDING under a handle (R140). -/
def State.drainWaitOver (s : State) (p : Nat) : State :=
  match (tget ({} : RunCmd) s.ember.running p).wait with
  | .drain t =>
    match s.win.drains.find? (fun d => d.tracker == t && d.handle == 0 && d.part == p) with
    | none => s
    | some d =>
      let h := s.newHandle p 0x0801 .drain
      (h.2.modWin (fun w => { w with drains := w.drains.map (fun x =>
        if x.tracker = t ∧ x.handle = 0 ∧ x.part = p then { x with handle := h.1 } else x) })).finishRun
        p rcDrainPending h.1 d.reply
  | _ => s

/-- The fence time of a function passes: the kept records of its requests go, but for those of another function whose fence
time has not passed, and every handle whose last fence it was ends with OK (R151, R152). -/
def State.fenceOver (s : State) (port fn : Nat) : State :=
  let s1 := s.modWin (fun w => { w with fences := w.fences.filter (fun f => !(f.port == port && f.fn == fn)) })
  let s2 := { s1 with ports := tmap s1.ports (fun _ p =>
    { p with kept := p.kept.filter (fun r => !r.fns.any (fun g => g.1 == port && sameFn g.2 fn) || s1.fenced r.fns) }) }
  let done := s2.ember.handles.filter (fun h => h.running &&
    (match h.work with | .fences fs => !s2.fenced fs | _ => false))
  done.foldl (fun t h => t.endHandle h.id rcOk) s2

/-- A configuration write of Ember's own to function `rid` behind port `n`, from its core port 72 (R115, R145). -/
def State.emberCfg (s : State) (n rid reg : Nat) (w : Option Nat) : State :=
  s.form
    { part := 0, smod := s.own, src := 72, sport := 72, dst := n, dmod := s.own, tc := mapField (s.port n).tcMap 3 0
      data := match w with | some v => leBytes 4 v | none => []
      desc := ({ faddr := faMake s.own 1 (n * 2 ^ 48 + rid * 2 ^ 16 + reg), len := if w.isSome then 4 else 0,
                 opc := if w.isSome then opcCfgWr else opcCfgRd, rid := Config.portRid n, tag := reg, fbe := 15,
                 bcount := if w.isSome then 0 else 4 } : Desc).encode }

/-- Ember sets the VF BARs, NumVFs and VF Enable with VF Memory Space Enable in the SR-IOV capability of the PF of port `n`,
or clears VF Enable and NumVFs when `vfs` is 0 (R32, R145). -/
def State.vfWrites (s : State) (n vfs : Nat) : State :=
  let at_ := sriovAt (Config.extCaps n 0)
  let pf := Config.functionRid n 0
  if at_ = 0 then s
  else if vfs = 0 then (s.emberCfg n pf (at_ + 8) (some 0)).emberCfg n pf (at_ + 0x10) (some 0)
  else
    let s1 := (List.range 6).foldl (fun t bar =>
      if Config.barLog n 1 bar = 0 then t
      else (t.emberCfg n pf (at_ + 0x24 + 4 * bar) (some (barAddr n 1 bar % 2 ^ 32))).emberCfg n pf (at_ + 0x28 + 4 * bar)
        (some (barAddr n 1 bar / 2 ^ 32))) s
    (s1.emberCfg n pf (at_ + 0x10) (some vfs)).emberCfg n pf (at_ + 8) (some 9)

/-- DEV_SHARE, 0x0805. -/
def cmdDevShare : Cmd where
  op := 0x0805
  lenOk := lenIs 8
  allowed := onlyZero
  body w q s :=
    let n := q.u8 0x20
    let p := s.port n
    let mode := q.u8 0x21
    let own := q.u8 0x22
    let vfs := q.u16 0x24
    match firstBad [
        (0x20, decide (n < 40) && p.role == .downstream &&
          (mode == 0 || s.masked (n / 4) || (p.enumerated && !p.unbound && p.dlActive && p.dev.totalVfs != 0))),
        (0x21, decide (mode ≤ 1)),
        (0x22, if mode = 1 then decide (1 ≤ own ∧ own ≤ 31) else own == 0),
        (0x23, q.zero 0x23 1),
        (0x24, if mode = 1 then decide (1 ≤ vfs ∧ (vfs ≤ p.dev.totalVfs ∨ s.masked (n / 4))) else vfs == 0),
        (0x26, decide (q.u16 0x26 ≤ 1024))] with
    | some f => bad s f
    | none =>
      if p.mode = .exclusive ∨ !(s.boundTo n).isEmpty ∨ p.sharePending ∨ (mode = 1 ∧ s.masked (n / 4)) then failWith s rcConflict
      else if !s.handleFree w.caller then failWith s rcBusy
      else
        let h := s.newHandle w.caller 0x0805
        let quota := if q.u16 0x26 = 0 then 64 else q.u16 0x26
        let s1 := (h.2.invalidateRange (faMake s.own 1 (n * 2 ^ 48)).toNat (2 ^ 48)).vfWrites n (if mode = 1 then vfs else 0)
        pend (s1.modPort n (fun x =>
          { x with sharePending := true, reset := some h.1
                   mode := if mode = 1 then .shared own vfs quota else .unassigned })) h.1

/-- The device of port `n` has ended enabling or disabling its VFs (R145). One that failed leaves the port UNASSIGNED, which
again changes its mode (R142). -/
def State.shareDone (s : State) (n : Nat) (good : Bool) : State :=
  let p := s.port n
  if !p.sharePending then s
  else
    let s1 := s.modPort n (fun x =>
      { x with sharePending := false, reset := none, mode := if good then x.mode else .unassigned })
    let s2 := if good ∨ p.mode = .unassigned then s1
      else s1.invalidateRange (faMake s.own 1 (n * 2 ^ 48)).toNat (2 ^ 48)
    match p.reset with
    | some h => s2.endHandle h (if good then rcOk else rcTimeout)
    | none => s2

/-- MIGRATE_FENCE, 0x0806. -/
def cmdMigrateFence : Cmd where
  op := 0x0806
  lenOk := lenIs 8
  allowed := onlyZero
  body w q s :=
    let n := q.u8 0x20
    let whole := q.u8 0x21
    let first := q.u16 0x22
    let cnt := q.u16 0x24
    let p := s.port n
    let vfs := match p.mode with | .shared _ v _ => some v | _ => none
    match firstBad [
        (0x20, decide (n < 40) && p.role == .downstream),
        (0x21, match vfs with | some _ => whole == 0 | none => whole == 1),
        (0x22, match vfs with | some v => decide (first ≤ v) | none => first == 0),
        (0x24, match vfs with | some v => decide (1 ≤ cnt ∧ cnt ≤ 256 ∧ first + cnt ≤ v + 1) | none => cnt == 1),
        (0x26, q.zero 0x26 2)] with
    | some f => bad s f
    | none =>
      let fs : List (Nat × Nat) := if whole = 1 then [(n, 0xFFFF)] else (List.range cnt).map (fun i => (n, first + i))
      let held := s.vdsps.any (fun e => e.2.onPort n && (whole == 1 || e.2.fns.any (fun f => fs.any (fun g => g.1 == n && sameFn g.2 f))))
      if held then failWith s rcConflict
      else if !s.fenced fs then ok s
      else if !s.handleFree w.caller then failWith s rcBusy
      else
        let h := s.newHandle w.caller 0x0806 (.fences fs)
        pend h.2 h.1

end Sys2Proof.Machine
end

