-- ==== Sys2Proof/Machine/Pcie.lean ====
section
/-! DEFINITION. PCIe ports: bring-up (R114, R115), messages of devices (R111, R119), and the port commands
(R118, R124). -/

namespace Sys2Proof.Machine

open Sys2Proof

/-! ## Bring-up (R115) -/

/-- Receiver detection of a downstream port changes (R114, R115). -/
def State.presenceChanged (s : State) (n : Nat) (present : Bool) : State :=
  if (s.port n).role ≠ .downstream ∨ (s.port n).present = present then s
  else
    let s1 := (s.modPort n (fun p => { p with present := present })).event 0x80F [0] (n + b2n present * 256)
    if present then (s1.perstLost n).bringUp n
    else s1.modPort n (fun p => { p with step := 0, enumerated := false })

/-- PERST_N of a downstream port is released (step 1 ends). -/
def State.perstHoldOver (s : State) (n : Nat) : State :=
  if (s.port n).step = 1 then s.modPort n (fun p => { p with step := 2, perst := false, ltssm := 1 }) else s

/-- A port can train at this width and rate: a power of two up to its configured width (R88), a rate up to its target. -/
def Port.canTrain (p : Port) (width rate : Nat) : Bool :=
  [1, 2, 4, 8, 16].contains width && decide (width ≤ p.maxWidth) && decide (1 ≤ rate ∧ rate ≤ p.targetRate)

/-- The data link layer of a port becomes active (step 2 ends). A contained port trains nothing (R120); at 64 GT/s a link is
always in flit mode (R93). -/
def State.dataLinkUp (s : State) (n width rate : Nat) (flit : Bool) : State :=
  let p := s.port n
  if p.role = .absent ∨ p.dpc ∨ p.disabled ∨ s.blockAway (n / 4) ∨ s.boot.stationHeld.contains (n / 4) then s
  else if !p.canTrain width rate then s
  else
    let s1 := s.portUp n width rate (flit || rate == 6)
    if p.step = 2 then s1.modPort n (fun q => { q with step := 3, present := true })
    else if p.role = .downstream ∧ p.step = 0 ∧ p.reset.isNone then s1.vdspLinks n true
    else s1

/-- Step 2 does not end in time: the port reports no device and waits for a presence change. -/
def State.detectOver (s : State) (n : Nat) : State :=
  if (s.port n).step = 2 then s.modPort n (fun p => { p with step := 0, present := false, ltssm := 0 }) else s

/-- The wait before the first configuration request ends (step 3): Ember reads the first register of function 0. -/
def State.configWaitOver (s : State) (n : Nat) : State :=
  if (s.port n).step = 3 then (s.modPort n (fun p => { p with step := 4 })).emberCfg n (Config.functionRid n 0) 0 none else s

/-- Step 4 does not end in time: the device is reported not ready and left unbound. -/
def State.notReadyOver (s : State) (n : Nat) : State :=
  if (s.port n).step = 4 then s.modPort n (fun p => { p with step := 0, notReady := true, unbound := true }) else s

/-- A completion answers Ember's configuration request of step 4: Request Retry Status has it sent again, success begins
enumeration (R96, R115). -/
def State.bringUpCpl (s : State) (n : Nat) (c : Cpl) : State :=
  let s1 := s.modPort n (fun p => { p with tags := p.tags.filter (fun r => r.tag != c.tag) })
  if c.status = 0 then s1.enumerate n c.dev
  else if c.status = 2 then s1.emberCfg n (Config.functionRid n 0) 0 none
  else s1

/-- A completion of a peer request comes back from the root complex that P2P Completion Redirect sent it to (R122). -/
def State.redirCpl (s : State) (n : Nat) (r : TagRec) (c : Cpl) : State :=
  (s.modPort n (fun p => { p with redir := p.redir.filter (fun x => !(x.rid == r.rid && x.origTag == r.origTag)) })).complete
    ((r.req r.redirAt).modDesc (fun d => { d with faddr := BitVec.ofNat 64 c.laddr })) c.status c.data c.ep

/-- A completion arrives: Ember's own at step 4 of bring-up (R115), one redirected to the root complex (R122), or one of a
request outstanding at the port (R96). -/
def State.completionIn (s : State) (n : Nat) (c : Cpl) : State :=
  match (s.port n).tags.find? (fun r => r.tag == c.tag) with
  | some r => if (s.port n).step = 4 ∧ r.src = 72 ∧ !r.stale then s.bringUpCpl n c else s.cplArrives n c
  | none =>
    match (s.port n).redir.find? (fun x => x.rid == c.rid && x.origTag == c.tag) with
    | some r => s.redirCpl n r c
    | none => s.cplArrives n c

/-! ## Messages (R111, R119, R121) -/

/-- SERR# Enable of a Bridge Control register as stored. -/
def serrEnable (t : Tab (BitVec 32)) : Bool := (tget 0 t 0x3C).getLsbD 17

/-- INTx code of a device interrupt swizzled by device number `d` of a vDSP (R111): codes 0x20 to 0x23 assert,
0x24 to 0x27 deassert. -/
def swizzle (code d : Nat) : Nat := code / 4 * 4 + (code % 4 + d) % 4

/-- Virtual routing ID of a function on port `n` (R95, R143). -/
def State.vridOf (s : State) (n rid : Nat) : Nat :=
  match idMatch s.win.bank n rid none with
  | some m => eVrid m + (rid - eRid m)
  | none => rid

/-- The partition and vDSP a device's routing ID belongs to (R119, R143). -/
def State.vdspOfRid (s : State) (n rid : Nat) : Option (Nat × Nat) :=
  match idMatch s.win.bank n rid none with
  | none => none
  | some m =>
    (s.boundTo n).find? (fun e => e.1 == ePartHi m &&
      ((s.vdsp e.1 e.2).kind == 1 || (s.vdsp e.1 e.2).fns.any (fun f => Config.functionRid n f == rid)))

/-- A bridge with these registers forwards an error message: SERR# Enable of its Bridge Control register, and for ERR_NONFATAL
and ERR_FATAL SERR# Enable of its Command register too (R119). -/
def errorPasses (t : Tab (BitVec 32)) (code : Nat) : Bool :=
  serrEnable t && (code == 0x30 || (tget 0 t 4).getLsbD 8)

/-- An error message of the function with virtual routing ID `rid`, received on port `n`: it enters at the vDSP and goes up under
the enables of the vDSP and the upstream bridge (R119). -/
def State.errorUp (s : State) (n p k rid code : Nat) : State :=
  if errorPasses (s.vdsp p k).cfg code ∧ errorPasses (s.vs p).bridge code then s.messageUp p n rid code [] else s

/-- A message of a device on port `n`: ERR_COR 0x30, ERR_NONFATAL 0x31, ERR_FATAL 0x33, INTx 0x20 to
0x27; any other goes to the partition's host as it is. -/
def State.messageIn (s : State) (n rid : Nat) (m : PcieMsg) : State :=
  if (s.port n).role ≠ .downstream then s
  else match s.vdspOfRid n rid with
    | none => if m.code = 0x33 then s.dpcTrigger n else s.ledgerOnly (n / 4)
    | some (p, k) =>
      let v := s.vdsp p k
      let vrid := s.vridOf n rid
      if m.code = 0x33 then (s.errorUp n p k vrid m.code).dpcTrigger n
      else if m.code = 0x31 then
        let s1 := s.errorUp n p k vrid m.code
        if v.dpcEnable ∧ v.dpcNonfatal then s1.dpcVdsp p k else s1
      else if m.code = 0x30 then s.errorUp n p k vrid m.code
      else if 0x20 ≤ m.code ∧ m.code ≤ 0x27 then
        if v.kind = 1 then s.messageUp p n (s.vdspVrid p k) (swizzle m.code (k / 2)) [] else s
      else s.messageUp p n vrid m.code m.data

/-! ## PORT_GET_STATUS, PORT_SET_CONFIG (R124) -/

/-- A host partition names its own upstream port (R124). -/
def State.ownUpstream (s : State) (p n : Nat) : Bool := (s.vs p).up == some n

/-- PARTITION of PORT_GET_STATUS. -/
def State.portPartition (s : State) (n : Nat) : Nat :=
  match (s.port n).role, (s.port n).mode with
  | .upstream, _ => (s.port n).part
  | _, .exclusive => (s.exclusiveOwner n).getD 0xFF
  | _, .shared _ _ _ => 0xFE
  | _, .unassigned => 0xFF

/-- The 32 bytes PORT_GET_STATUS returns. -/
def State.portStatus (s : State) (n : Nat) : Bytes :=
  let p := s.port n
  if !s.portPresent n then leBytes 1 n ++ List.replicate 31 0
  else
    leBytes 1 n ++ leBytes 1 (if p.role = .upstream then 1 else 2) ++ leBytes 1 (s.portPartition n) ++
    leBytes 1 (p.ltssm % 16 + 16 * b2n p.dlActive + 32 * b2n p.flit) ++ leBytes 1 p.width ++ leBytes 1 p.maxWidth ++
    leBytes 1 p.rate ++ leBytes 1 p.targetRate ++ leBytes 2 p.tags.length ++ leBytes 2 p.quar.length ++
    leBytes 4 p.ctoMs ++ leBytes 4 p.lateCpl ++
    leBytes 1 (b2n p.present + 2 * b2n (p.powerOn && p.role == .downstream) + 4 * b2n p.dpc + 8 * b2n p.unbound + 16 * b2n p.notReady) ++
    leBytes 1 p.aspm ++ [0, 0] ++ leBytes 4 p.tcMap.toNat ++ [0, 0, 0, 0]

/-- PORT_GET_STATUS, 0x0300. -/
def cmdPortGetStatus : Cmd where
  op := 0x0300
  lenOk := lenIs 4
  allowed w q s := w.caller == 0 || s.ownUpstream w.caller (q.u8 0x20)
  body _ q s :=
    match firstBad [(0x20, decide (q.u8 0x20 < 40)), (0x21, q.zero 0x21 3)] with
    | some f => bad s f
    | none => ok s (s.portStatus (q.u8 0x20))

/-- A TC map names core classes 0 to 6 in its eight fields (R100). -/
def tcMapOk (m : Nat) : Bool := (List.range 8).all (fun i => decide (bits m (3 * i + 2) (3 * i) ≤ 6)) && bits m 31 24 == 0

/-- PORT_SET_CONFIG, 0x0301. -/
def cmdPortSetConfig : Cmd where
  op := 0x0301
  lenOk := lenIs 16
  allowed w q s := w.caller == 0 || (s.ownUpstream w.caller (q.u8 0x20) && Nat.land (q.u8 0x21) 0xFA == 0)
  body _ q s :=
    let n := q.u8 0x20
    let v := q.u8 0x21
    let rate := q.u8 0x22
    let aspm := q.u8 0x23
    let cto := q.u32 0x24
    let p := s.port n
    match firstBad [(0x20, decide (n < 40) && s.portPresent n), (0x21, decide (v < 16) && v != 0),
        (0x22, !bit v 1 || decide (1 ≤ rate ∧ rate ≤ 6)),
        (0x23, !bit v 3 || aspm == 0 || (aspm == 1 && p.role == .downstream)),
        (0x24, !bit v 0 || decide (1 ≤ cto ∧ cto ≤ 4000)), (0x28, !bit v 2 || tcMapOk (q.u32 0x28)),
        (0x2C, q.zero 0x2C 4)] with
    | some f => bad s f
    | none =>
      if p.reset.isSome ∧ !p.sharePending then failWith s rcConflict
      else ok (s.modPort n (fun p =>
        { p with
          ctoMs := if bit v 0 then cto else p.ctoMs
          ltssm := if bit v 1 ∧ rate ≠ p.targetRate ∧ p.dlActive then 4 else p.ltssm
          targetRate := if bit v 1 then rate else p.targetRate
          tcMap := if bit v 2 then BitVec.ofNat 32 (q.u32 0x28) else p.tcMap
          aspm := if bit v 3 then aspm else p.aspm }))

/-! ## PORT_RESET (R118) -/

/-- What a PORT_RESET of each KIND does at once. One that meets a propagated hot reset on the port is merged with it: the wider
of the two is performed (R118). A PERST_N pulse takes bound vDSPs through target lost (R116). -/
def State.portResetStart (s : State) (n kind : Nat) : State :=
  match kind with
  | 0 => (s.hotResetPort n).vdspLinks n false
  | 1 => ((s.portDrop n 0).perstLost n).bringUp n
  | 2 => ((s.portDrop n 6).modPort n (fun p => { p with disabled := true })).vdspLinks n false
  | 3 => s.modPort n (fun p => { p with disabled := false, ltssm := 0 })
  | 4 => if (s.port n).ltssm = 7 ∧ !(s.port n).dlActive then s
         else (s.modPort n (fun p => { p with ltssm := 4 })).vdspLinks n false
  | _ => s.dpcRelease n

/-- PORT_RESET, 0x0302. -/
def cmdPortReset : Cmd where
  op := 0x0302
  lenOk := lenIs 8
  allowed := onlyZero
  body w q s :=
    let n := q.u8 0x20
    let kind := q.u8 0x21
    let hold := q.u32 0x24
    let p := s.port n
    match firstBad [(0x20, decide (n < 40) && p.role == .downstream && s.portPresent n),
        (0x21, decide (kind ≤ 5) && (kind != 5 || p.dpc)), (0x22, q.zero 0x22 2),
        (0x24, if kind = 1 then decide (150 ≤ hold ∧ hold ≤ 1000) else hold == 0)] with
    | some f => bad s f
    | none =>
      if p.reset.isSome ∨ s.masked (n / 4) then failWith s rcConflict
      else if !s.handleFree w.caller then failWith s rcBusy
      else
        let h := s.newHandle w.caller 0x0302
        pend ((h.2.portResetStart n kind).modPort n (fun p => { p with reset := some h.1 })) h.1

/-- A PORT_RESET ends: with TIMEOUT when the link, unless it was disabled, has not returned. -/
def State.portResetDone (s : State) (n : Nat) (linkUp : Bool) : State :=
  let p := s.port n
  match p.reset with
  | none => s
  | some h =>
    if p.sharePending then s
    else
      let s1 := s.modPort n (fun p =>
        { p with reset := none, ltssm := if linkUp ∧ p.dlActive then 3 else p.ltssm })
      let s2 := if linkUp ∧ p.step = 0 then s1.vdspLinks n true else s1
      s2.endHandle h (if linkUp ∨ p.disabled then rcOk else rcTimeout)

end Sys2Proof.Machine
end

