-- ==== Sys2Proof/Machine/VSwitch.lean ====
section
/-! DEFINITION. The virtual switch: the configuration engine (R106 to R110, R117, R146) and the binding
commands (R112, R124, R125). -/

namespace Sys2Proof.Machine

open Sys2Proof

/-! ## The function a request names -/

/-- The function a configuration request names below an upstream port (R106, R108). -/
inductive CfgTarget where
  /-- The upstream bridge. -/
  | bridge
  /-- The management function. -/
  | mgmt
  /-- Virtual downstream port `k`. -/
  | vdsp (k : Nat)
  /-- Function `fn` below virtual downstream port `k`. -/
  | below (k fn : Nat)
  deriving DecidableEq, Repr, Inhabited

/-- Secondary and subordinate bus number of a bridge with these registers. -/
def busRange (t : Tab (BitVec 32)) : Nat × Nat :=
  let r := (tget 0 t 0x18).toNat
  (bits r 15 8, bits r 23 16)

/-- Where a request goes: type 0 to function 0 or 1 of device 0, the bridge and the management function; type 1 by its bus, to
vDSP `2 * device + function` of the internal bus, or to device 0 on the secondary bus of a vDSP that exists, where ARI gives
functions up to 255 (R106, R107). -/
def State.cfgTarget (s : State) (p : Nat) (r : CfgReq) : Option CfgTarget :=
  let vs := s.vs p
  if r.type0 then
    if r.dev ≠ 0 then none else if r.fn = 0 then some .bridge else if r.fn = 1 then some .mgmt else none
  else
    let b := busRange vs.bridge
    if r.bus < b.1 ∨ b.2 < r.bus ∨ b.1 = 0 then none
    else if r.bus = b.1 then
      if r.fn < 2 ∧ 2 * r.dev + r.fn < vs.vdspCount then some (.vdsp (2 * r.dev + r.fn)) else none
    else ((List.range vs.vdspCount).find? (fun k => (busRange (s.vdsp p k).cfg).1 == r.bus)).map (fun k =>
      .below k (8 * r.dev + r.fn))

/-- Complete a configuration request of partition `p`. -/
def State.cfgDone (s : State) (p : Nat) (r : CfgReq) (status : Nat) (v : BitVec 32) : State :=
  s.emit (.cfgCompletion p r.rid r.tag status v)

/-- A bit of a write that its byte enables carry. -/
def wbit (r : CfgReq) (i : Nat) : Bool := r.value.getLsbD i && r.be.getLsbD (i / 8)

/-! ## The management function -/

/-- Value of a register of the management function (R55, R57). -/
def VSwitch.mgmtRead (v : VSwitch) (reg : Nat) : BitVec 32 :=
  let m := v.mgmt
  let base := cfgStored 1 reg (tlook m.cfg reg)
  if reg = 4 then mergeBits 6 base (BitVec.ofNat 32 (2 * b2n m.memEn + 4 * b2n m.busMaster))
  else if reg = capMsix then
    mergeBits 0xC0000000#32 base (BitVec.ofNat 32 (2 ^ 31 * b2n m.msixEn + 2 ^ 30 * b2n m.msixMask))
  else if reg = capPm + 4 then mergeBits 3 base (if m.d3 then 3 else 0)
  else if capEa ≤ reg ∧ reg < capEa + 0x34 then BitVec.ofNat 32 (v.eaRead reg)
  else base

/-- A write to a register of the management function other than Initiate FLR (R55). -/
def MgmtFn.write (m : MgmtFn) (reg : Nat) (be : BitVec 4) (v : BitVec 32) : MgmtFn :=
  let m1 := { m with cfg := cfgStore 1 m.cfg reg reg be v }
  if reg = 4 ∧ be.getLsbD 0 then { m1 with memEn := v.getLsbD 1, busMaster := v.getLsbD 2 }
  else if reg = capMsix ∧ be.getLsbD 3 then { m1 with msixEn := v.getLsbD 31, msixMask := v.getLsbD 30 }
  else if reg = capPm + 4 ∧ be.getLsbD 0 then { m1 with d3 := v.getLsbD 0 && v.getLsbD 1 }
  else m1

/-- FLR of the management function: its registers and a P reset of the mailbox, nothing below (R86,
R116). -/
def State.mgmtFlr (s : State) (p : Nat) : State := (s.modVs p (fun v => { v with mgmt := {} })).pReset p false

/-! ## vDSP registers -/

/-- Value of a register of a vDSP (R106, R112). -/
def Vdsp.read (v : Vdsp) (reg : Nat) : BitVec 32 :=
  let base := cfgStored 2 reg (tlook v.cfg reg)
  if reg = capPcie + 0x18 then
    mergeBits 0x01490420#32 base (BitVec.ofNat 32 (2 ^ 5 * b2n v.hpInt + 2 ^ 10 * b2n v.powerOff + 2 ^ 16 * b2n v.attention +
      2 ^ 19 * b2n v.presenceChanged + 2 ^ 22 * b2n v.presence + 2 ^ 24 * b2n v.linkChanged))
  else if reg = capPcie + 0x10 then
    mergeBits 0x20000000#32 base (BitVec.ofNat 32 (2 ^ 29 * b2n v.linkActive))
  else if reg = capAer + 4 then v.aerUnc
  else if reg = capDpc + 8 then mergeBits 1 base (BitVec.ofNat 32 (b2n v.dpcStatus))
  else base

/-- A write to the vDSP registers that are plain settings or clear bits. -/
def Vdsp.write (v : Vdsp) (r : CfgReq) : Vdsp :=
  let v1 := { v with cfg := cfgStore 2 v.cfg r.reg r.reg r.be r.value }
  if r.reg = capPcie + 0x18 then
    { v1 with
      hpInt := if r.be.getLsbD 0 then r.value.getLsbD 5 else v.hpInt
      attention := v.attention && !wbit r 16
      presenceChanged := v.presenceChanged && !wbit r 19
      linkChanged := v.linkChanged && !wbit r 24 }
  else if r.reg = capAer + 4 then { v with aerUnc := v.aerUnc &&& ~~~(r.value &&& beMask r.be) }
  else if r.reg = capDpc + 4 ∧ r.be.getLsbD 2 then
    { v1 with dpcEnable := r.value.getLsbD 16 || r.value.getLsbD 17, dpcNonfatal := r.value.getLsbD 17 }
  else if r.reg = capAcs + 4 ∧ r.be.getLsbD 2 then
    { v1 with srcVal := r.value.getLsbD 16, redirect := r.value.getLsbD 18, cplRedirect := r.value.getLsbD 19 }
  else v1

/-- An ID map entry Ember makes for functions on a port (R129, R145). -/
def idEntry (p port rid span vrid : Nat) : Entry :=
  BitVec.ofNat 256 (1 + 3 * 8 + port * 2 ^ 38 + span * 2 ^ 44 + rid % 65536 * 2 ^ 48 + vrid % 65536 * 2 ^ 107 +
    p * 2 ^ 123 + 2 ^ 129)

/-- The ID map entries of what a vDSP binds: the whole bus of a whole device, one entry for each VF. -/
def Vdsp.idEntries (v : Vdsp) (p k : Nat) : List Entry :=
  match v.kind with
  | 1 => [idEntry p v.port (Config.functionRid v.port 0 / 256 * 256) 8 (v.bus p k * 256)]
  | 2 => (List.range v.count).map (fun i =>
      idEntry p v.port (Config.functionRid v.port (v.first + i)) 0 (v.bus p k * 256 + i))
  | _ => []

/-- Indices of the ID map that hold no valid entry. -/
def State.freeIds (s : State) : List Nat :=
  let used := (bankScope s.win.bank 3 0).map (fun e => indexOfKey e.1)
  (List.range 8192).filter (fun i => !used.contains i)

/-- The host changed the bus number below a vDSP: its ID map entries follow, and the PASID entries they contain, in one commit
(R95, R129, R144). -/
def State.renumber (s : State) (p k : Nat) : State :=
  let keys := s.idKeys p k
  let ws := keys.zip ((s.vdsp p k).idEntries p k)
  let b := s.win.bank
  let moved := (strandedIds b keys).filterMap (fun x =>
    (ws.find? (fun w => idHolds w.2 (bankGet b x))).map (fun w =>
      (x, eSet (bankGet b x) 122 107 (eVrid w.2 + (eRid (bankGet b x) - eRid w.2)))))
  if keys.length = ((s.vdsp p k).idEntries p k).length ∧ keys ≠ [] then s.emberCommit (ws ++ moved) else s

/-- Every BAR below a vDSP whose function has Memory Space Enable set and whose value lies in the window
`[lo, hi]` the host has just set is mapped afresh (R109). -/
def State.remapIn (s : State) (p k lo hi : Nat) : State :=
  (s.vdsp p k).bars.foldl (fun t e =>
    if lo ≤ e.2.toNat ∧ e.2.toNat ≤ hi then t.mapBar p k (e.1 / 6) (e.1 % 6) (t.barKeys p k (e.1 / 6) (e.1 % 6)) else t) s

/-- The memory window of a vDSP that register `reg` bounds: the 32-bit one of 0x20, or the 64-bit
prefetchable one of 0x24 to 0x2C. -/
def Vdsp.window (v : Vdsp) (reg : Nat) : Nat × Nat :=
  let g (r : Nat) : Nat := (tget 0 v.cfg r).toNat
  if reg = 0x20 then (bits (g 0x20) 15 4 * 2 ^ 20, bits (g 0x20) 31 20 * 2 ^ 20 + 0xFFFFF)
  else (g 0x28 * 2 ^ 32 + bits (g 0x24) 15 4 * 2 ^ 20, g 0x2C * 2 ^ 32 + bits (g 0x24) 31 20 * 2 ^ 20 + 0xFFFFF)

/-- Secondary Bus Reset is set in a vDSP: the entries of its target go with what is emulated of it, and the target is reset
(R116). -/
def State.secondaryReset (s : State) (p k : Nat) : State :=
  if (s.vdsp p k).bound then ((s.unmapBelow p k).modVdsp p k Vdsp.belowReset).targetReset p k else s

/-- A write to a vDSP register with everything it sets off. -/
def State.vdspWrite (s : State) (p k : Nat) (r : CfgReq) : State :=
  let s1 := s.modVdsp p k (fun v => v.write r)
  if r.reg = capPcie + 0x18 ∧ r.be.getLsbD 1 then s1.powerControl p k (r.value.getLsbD 10)
  else if r.reg = capDpc + 8 ∧ wbit r 0 then s1.dpcClear p k
  else if r.reg = capDpc + 4 ∧ wbit r 22 then s1.dpcVdsp p k
  else if r.reg = 0x18 then s1.renumber p k
  else if r.reg = 0x20 ∨ r.reg = 0x24 ∨ r.reg = 0x28 ∨ r.reg = 0x2C then
    let w := (s1.vdsp p k).window r.reg
    s1.remapIn p k w.1 w.2
  else if r.reg = 0x3C ∧ wbit r 22 then s1.secondaryReset p k
  else s1

/-! ## Functions below a vDSP (R107 to R110, R146) -/

/-- The host writes a BAR of a function below a vDSP; the enumeration entries follow when Memory Space
Enable is set (R109). -/
def State.barWrite (s : State) (p k fn bar : Nat) (value : Word) : State :=
  let v := s.vdsp p k
  let z := s.barSize p v fn bar
  if !v.bound ∨ z = 0 then s
  else
    let old := s.barKeys p k fn bar
    let a : Word := BitVec.ofNat 64 (value.toNat / 2 ^ z * 2 ^ z)
    (s.modVdsp p k (fun v => { v with bars := tset v.bars (fn * 6 + bar) a })).mapBar p k fn bar old

/-- The host writes Memory Space Enable of a function below a vDSP (R109). -/
def State.memEnWrite (s : State) (p k fn : Nat) (en : Bool) : State :=
  let v := s.vdsp p k
  if !v.bound then s
  else
    let s1 := s.modVdsp p k (fun v => { v with memEn := tset v.memEn fn en })
    let s2 := if v.kind = 6 then s1.modVnic v.first (fun x => { x with memEn := en }) else s1
    [0, 1, 2, 3, 4, 5].foldl (fun t bar => t.mapBar p k fn bar (t.barKeys p k fn bar)) s2

/-- A VF of the port is bound to a partition other than PF_OWNER (R146). -/
def State.vfElsewhere (s : State) (n : Nat) : Bool :=
  match (s.port n).mode with
  | .shared own _ _ => (s.boundTo n).any (fun e => e.1 != own && (s.vdsp e.1 e.2).fns.any (fun f => f != 0))
  | _ => false

/-- A write that would reset the PF or disable its VFs is withheld, with an event to partition 0 and to
PF_OWNER (R146). -/
def State.withholdPf (s : State) (n : Nat) : State :=
  match (s.port n).mode with
  | .shared own _ _ => s.event 0x804 (if own = 0 then [0] else [0, own]) n
  | _ => s

/-- FLR of a function below a vDSP: what is emulated of it is reset, and it is forwarded, or the function reset of a module function (R116); an FLR
of a PF others depend on is withheld (R146), and one of a target already in reset is merged (R118). -/
def State.functionFlr (s : State) (p k fn : Nat) : State :=
  let v := s.vdsp p k
  if !v.bound then s
  else match v.kind with
    | 1 => if v.resetPending then s else (s.fnReset p k fn).sendFlr v.port fn
    | 2 =>
      if v.first + fn = 0 ∧ s.vfElsewhere v.port then s.withholdPf v.port
      else if v.resetPending then s else (s.fnReset p k fn).sendFlr v.port (v.first + fn)
    | 3 => if v.resetPending then s else (s.fnReset p k fn).emit (.remoteFlr v.module v.port v.first)
    | 4 => (s.unmapBelow p k).modVdsp p k Vdsp.belowReset
    | 5 => ((s.unmapBelow p k).modVdsp p k Vdsp.belowReset).owe (.retortReset p)
    | _ => ((s.unmapBelow p k).modVdsp p k Vdsp.belowReset).owe (.vnicReset v.first)

/-- A function number exists below a binding (R107). -/
def Vdsp.hasFn (v : Vdsp) (fn : Nat) : Bool :=
  match v.kind with
  | 1 => decide (fn < 256)
  | 2 => decide (fn < v.count)
  | _ => fn == 0

/-- Value of an emulated BAR register: its low bits tell a 64-bit memory BAR. -/
def State.barRead (s : State) (p : Nat) (v : Vdsp) (fn reg : Nat) : BitVec 32 :=
  let i := (reg - 0x10) / 4
  let bar := if s.barSize p v fn i = 0 ∧ i ≠ 0 then i - 1 else i
  if s.barSize p v fn bar = 0 then 0
  else
    let a := (tget 0 v.bars (fn * 6 + bar)).toNat
    if bar = i then BitVec.ofNat 32 (a % 2 ^ 32 + (if v.kind = 4 ∨ v.kind = 5 then 0xC else 4))
    else BitVec.ofNat 32 (a / 2 ^ 32)

/-- A write to an emulated BAR register: the enabled bytes of the half it holds. -/
def State.barHalf (s : State) (p k fn reg : Nat) (be : BitVec 4) (value : BitVec 32) : State :=
  let v := s.vdsp p k
  let i := (reg - 0x10) / 4
  let up := s.barSize p v fn i = 0 ∧ i ≠ 0
  let bar := if up then i - 1 else i
  let a := (tget 0 v.bars (fn * 6 + bar)).toNat
  let w := (mergeBits (beMask be) (BitVec.ofNat 32 (if up then a / 2 ^ 32 else a % 2 ^ 32)) value).toNat
  s.barWrite p k fn bar (BitVec.ofNat 64 (if up then a % 2 ^ 32 + w * 2 ^ 32 else a / 2 ^ 32 * 2 ^ 32 + w))

/-- Module, port and routing ID of the real function `fn` below a vDSP (R107, R108). -/
def State.realFn (s : State) (v : Vdsp) (fn : Nat) : Nat × Nat × Nat :=
  match v.kind with
  | 1 => (s.own, v.port, Config.functionRid v.port fn)
  | 2 => (s.own, v.port, Config.functionRid v.port (v.first + fn))
  | _ => (v.module, v.port, v.first)

/-- Extended capabilities and place of the PCI Express capability of that function. -/
def Vdsp.realCaps (v : Vdsp) (fn : Nat) : List (Nat × Nat × Nat) × Nat :=
  match v.kind with
  | 1 => (Config.extCaps v.port fn, Config.pcieCapAt v.port fn)
  | 2 => (Config.extCaps v.port (v.first + fn), Config.pcieCapAt v.port (v.first + fn))
  | _ => (Config.extCaps (64 * (v.module + 1) + v.port) v.first, Config.pcieCapAt (64 * (v.module + 1) + v.port) v.first)

/-- A virtual function of an SR-IOV device: every function of a binding of kind 2 but the PF (R107). -/
def Vdsp.isVf (v : Vdsp) (fn : Nat) : Bool := v.kind == 2 && v.first + fn != 0

/-- Fabric address of register `r.reg` of a target's function `fn` in its port's space (R108). -/
def State.cfgAddr (s : State) (v : Vdsp) (fn : Nat) (r : CfgReq) : Word :=
  let f := s.realFn v fn
  faMake f.1 1 (f.2.1 * 2 ^ 48 + f.2.2 * 2 ^ 16 + r.reg)

/-- The packet that carries a configuration request of partition `p` from its upstream port `u` (R96, R108). -/
def State.cfgPkt (s : State) (p u : Nat) (v : Vdsp) (fn : Nat) (r : CfgReq) : Pkt :=
  { epoch := s.win.epoch.toNat, part := p, smod := s.own, src := u, sport := u, tc := (s.port u).coreTc 0, dmod := (s.realFn v fn).1
    data := if r.write then leBytes 4 r.value.toNat else []
    desc := ({ faddr := s.cfgAddr v fn r, len := if r.write then 4 else 0, opc := if r.write then opcCfgWr else opcCfgRd, rid := r.rid,
               tag := r.tag, fbe := r.be.toNat, bcount := if r.write then 0 else 4 } : Desc).encode }

/-- Forward a configuration request to the real function: a non-posted packet from the partition's upstream port to the
function's port, on this module or another, whose completion returns to the upstream port. A function that cannot be reached
answers as R33 has it (R96, R102, R108). -/
def State.cfgForward (s : State) (p : Nat) (v : Vdsp) (fn : Nat) (r : CfgReq) : State :=
  match (s.vs p).up with
  | none => s
  | some u => (s.sendOne (s.cfgPkt p u v fn r) (s.cfgAddr v fn r)).getD (s.cfgDone p r csUr 0)

/-- Kind of emulated function of a module binding. -/
def Vdsp.cfgKind (v : Vdsp) : Nat := v.kind - 1

/-- MSI-X control of a bound vNIC function (R335). -/
def State.vnicMsixCtl (s : State) (v : Vdsp) (r : CfgReq) : State :=
  if v.kind = 6 ∧ r.reg = capMsix ∧ r.be.getLsbD 3 then
    s.modVnic v.first (fun x => { x with msixEn := r.value.getLsbD 31, msixMask := r.value.getLsbD 30 })
  else if v.kind = 6 ∧ r.reg = capPm + 4 ∧ r.be.getLsbD 0 then
    s.modVnic v.first (fun x => { x with d3 := r.value.getLsbD 0 && r.value.getLsbD 1 })
  else s

/-- A configuration write to function `fn` below vDSP `k`: Initiate FLR of a real function is taken as its FLR, a write to a
structure the host does not see is dropped, and one that would disable the VFs of a PF others depend on is withheld (R107,
R116, R146). -/
def State.belowWrite (s : State) (p k fn : Nat) (r : CfgReq) : State :=
  let v := s.vdsp p k
  let real := decide (v.kind ≤ 3)
  if 0x10 ≤ r.reg ∧ r.reg ≤ 0x24 then (s.barHalf p k fn r.reg r.be r.value).cfgDone p r 0 0
  else if r.reg = 4 then
    let s1 := if r.be.getLsbD 0 then s.memEnWrite p k fn (r.value.getLsbD 1) else s
    if !real then
      (s1.modVdsp p k (fun x => { x with cfg := cfgStore v.cfgKind x.cfg (belowKey fn 4) 4 r.be r.value })).cfgDone p r 0 0
    else if v.kind = 2 ∧ v.first + fn = 0 ∧ r.be.getLsbD 0 ∧ !r.value.getLsbD 2 ∧ s.vfElsewhere v.port then
      (s1.withholdPf v.port).cfgDone p r 0 0
    else s1.cfgForward p v fn r
  else if real then
    let c := v.realCaps fn
    if r.reg = c.2 + 8 ∧ wbit r 15 then (s.functionFlr p k fn).cfgDone p r 0 0
    else if writeHidden (v.isVf fn) c.1 r.reg then s.cfgDone p r 0 0
    else if v.kind = 2 ∧ v.first + fn = 0 ∧ sriovAt c.1 ≠ 0 ∧ r.reg = sriovAt c.1 + 8 ∧ r.be.getLsbD 0 ∧ !r.value.getLsbD 0 ∧
        s.vfElsewhere v.port then (s.withholdPf v.port).cfgDone p r 0 0
    else s.cfgForward p v fn r
  else if r.reg = capPcie + 8 ∧ wbit r 15 then (s.functionFlr p k fn).cfgDone p r 0 0
  else
    ((s.modVdsp p k (fun x =>
      { x with cfg := cfgStore v.cfgKind x.cfg (belowKey fn r.reg) r.reg r.be r.value })).vnicMsixCtl v r).cfgDone p r 0 0

/-- A configuration read of function `fn` below vDSP `k`: a VF has the identity of R107, and the structures of R94 and R107 are
not seen. -/
def State.belowRead (s : State) (p k fn : Nat) (r : CfgReq) : State :=
  let v := s.vdsp p k
  if 0x10 ≤ r.reg ∧ r.reg ≤ 0x24 then s.cfgDone p r 0 (s.barRead p v fn r.reg)
  else if v.kind ≤ 3 then
    let c := v.realCaps fn
    let m := shownBits (v.isVf fn) (c.2 + 0x24) c.1 r.reg
    if r.reg = 0 ∧ v.isVf fn then s.cfgDone p r 0 (Config.vfIdentity v.port)
    else if m.1 = 0 then s.cfgDone p r 0 m.2
    else if m = (0xFFFFFFFF#32, 0#32) then s.cfgForward p v fn r
    else (s.modVs p (fun x => { x with cfgOut := x.cfgOut ++ [{ rid := r.rid, tag := r.tag, keep := m.1, put := m.2 }] })).cfgForward
      p v fn r
  else s.cfgDone p r 0 (cfgStored v.cfgKind r.reg (tlook v.cfg (belowKey fn r.reg)))

/-- A configuration write of type 0 gives the upstream link's bus number (R106). -/
def State.captureBus (s : State) (p : Nat) (r : CfgReq) : State :=
  if r.write ∧ r.type0 then s.modVs p (fun v => { v with bus := r.bus }) else s

/-- Value of a register of the upstream bridge: its link's width and rate are those of the port (R93). -/
def State.bridgeRead (s : State) (p reg : Nat) : BitVec 32 :=
  let base := cfgStored 0 reg (tlook (s.vs p).bridge reg)
  match (s.vs p).up with
  | none => base
  | some u =>
    let q := s.port u
    if reg = capPcie + 0x0C then mergeBits 0x3F0#32 base (BitVec.ofNat 32 (q.maxWidth * 16))
    else if reg = capPcie + 0x10 then
      mergeBits 0x23FF0000#32 base (BitVec.ofNat 32 ((q.rate + q.width * 16 + 0x2000 * b2n q.dlActive) * 2 ^ 16))
    else base

/-- Value of a register of vDSP `k`: bit 23 of the header type tells that its device has two functions (R106). -/
def State.vdspRead (s : State) (p k reg : Nat) : BitVec 32 :=
  if reg = 0x0C then
    mergeBits 0x800000#32 ((s.vdsp p k).read reg)
      (if k / 2 * 2 + 1 < (s.vs p).vdspCount then 0x800000#32 else 0)
  else (s.vdsp p k).read reg

/-- A configuration request of partition `p` (R56, R108, R117). -/
def State.cfgRequest (s0 : State) (p : Nat) (r : CfgReq) : State :=
  let vs := s0.vs p
  let s := s0.captureBus p r
  if vs.up.isNone ∨ vs.inReset then s0
  else if !s.ember.fwReady ∧ s.boot.phase ≠ .hostDownload then s.cfgDone p r 2 0
  else match s.cfgTarget p r with
    | none => s.cfgDone p r csUr 0
    | some t =>
      if (s.ember.smoulder ∨ s.boot.phase = .hostDownload) ∧ (p ≠ (s.port 0).part ∨ t ≠ .mgmt) then s.cfgDone p r csUr 0
      else match t with
        | .bridge =>
          if vs.rrs then s.cfgDone p r 2 0
          else if r.write then
            (s.modVs p (fun v => { v with bridge := cfgStore 0 v.bridge r.reg r.reg r.be r.value })).cfgDone p r 0 0
          else s.cfgDone p r 0 (s.bridgeRead p r.reg)
        | .mgmt =>
          if vs.rrs then s.cfgDone p r 2 0
          else if !r.write then s.cfgDone p r 0 ((s.vs p).mgmtRead r.reg)
          else if r.reg = capPcie + 8 ∧ wbit r 15 then (s.mgmtFlr p).cfgDone p r 0 0
          else (s.modVs p (fun v => { v with mgmt := v.mgmt.write r.reg r.be r.value })).cfgDone p r 0 0
        | .vdsp k =>
          if r.write then (s.vdspWrite p k r).cfgDone p r 0 0
          else s.cfgDone p r 0 (s.vdspRead p k r.reg)
        | .below k fn =>
          let v := s.vdsp p k
          if (v.st ≠ .present ∧ v.st ≠ .unplug) ∨ !v.linkActive ∨ !v.hasFn fn then s.cfgDone p r csUr 0
          else if r.write then s.belowWrite p k fn r
          else s.belowRead p k fn r

/-! ## VDSP_BIND, VDSP_UNBIND, VDSP_GET -/

/-- The vDSP holds a running VDSP_UNBIND or is being removed. -/
def Vdsp.leavingNow (v : Vdsp) : Bool := v.unbind.isSome || v.st == .removing

/-- The vDSPs that hold the target a binding names. -/
def State.holders (s : State) (p kind port first count : Nat) : List (Nat × Nat) :=
  match kind with
  | 1 => s.boundTo port
  | 2 => (s.boundTo port).filter (fun e =>
      (s.vdsp e.1 e.2).fns.any (fun f => decide (first ≤ f ∧ f < first + count)))
  | 6 => s.vdspsWhere (fun v => v.bound && v.kind == 6 && v.first == first)
  | 3 => []
  | _ => (s.vdspsWhere (fun v => v.bound && v.kind == kind)).filter (fun e => e.1 == p)

/-- The target a binding names can be bound once nobody holds it; the frame offset of the field at fault
otherwise (R125, R145, R267, R321, R335). -/
def State.bindFault (s : State) (p kind port first count : Nat) : Option Nat :=
  let q := s.port port
  match kind with
  | 1 => if q.mode != .unassigned || q.sharePending || !q.enumerated || q.unbound || q.notReady then some 0x24 else none
  | 2 =>
    match q.mode with
    | .shared own vfs _ =>
      if q.sharePending then some 0x24
      else if first = 0 then if p = own ∧ count = 1 then none else some 0x26
      else if first + count - 1 ≤ vfs then none else some 0x26
    | _ => some 0x24
  | 4 => if (s.poolSods p).isEmpty then some 0x22 else none
  | 5 => if (tget {} s.rt.blocks p).gcount = 0 then some 0x22 else none
  | 6 => match s.vnic first with
    | some v => if v.part = p then none else some 0x26
    | none => some 0x26
  | _ => none

/-- Offset of the field that names the target of a kind. -/
def targetField (kind : Nat) : Nat := if kind = 1 then 0x24 else if kind = 2 ∨ kind = 6 then 0x26 else 0x22

/-- The move of a vDSP from EMPTY to PRESENT, with the ID map entries of what it binds (R112, R145). -/
def State.bind (s : State) (p k kind port module first count : Nat) : State :=
  let s1 := s.modVdsp p k (fun v =>
    { v with st := .present, kind := kind, port := port, module := module, first := first, count := count,
             linkActive := true, linkChanged := true, presence := true, presenceChanged := true,
             resetPending := false })
  let es := (s1.vdsp p k).idEntries p k
  let keys := (s.freeIds.take es.length).map (fun i => winKey 3 0 i)
  let s2 := if es.isEmpty then s1 else s1.emberCommit (keys.zip es)
  let s3 := if kind = 1 then s2.modPort port (fun q => { q with mode := .exclusive }) else s2
  s3.hpNotify p k

/-- VDSP_BIND, 0x0303. -/
def cmdVdspBind : Cmd where
  op := 0x0303
  lenOk := lenIs 16
  allowed := onlyZero
  body _ q s :=
    let p := q.u8 0x20
    let k := q.u8 0x21
    let kind := q.u8 0x22
    let port := q.u8 0x24
    let m := q.u8 0x25
    let first := q.u16 0x26
    let count := q.u16 0x28
    match firstBad [
        (0x20, decide (1 ≤ p ∧ p ≤ 31)),
        (0x21, decide (k < (s.vs p).vdspCount) && (s.vdsp p k).st == .empty),
        (0x22, decide (1 ≤ kind ∧ kind ≤ 6)), (0x23, q.zero 0x23 1),
        (0x24, if kind ≤ 2 then decide (port < 40) && (s.port port).role == .downstream
               else if kind = 3 then decide (port < 40) else port == 0xFF),
        (0x25, if kind = 3 then decide (m < 64) && m != s.own else m == s.own),
        (0x26, kind == 2 || kind == 3 || (if kind = 6 then decide (first < 1024) else first == 0)),
        (0x28, if kind = 2 then decide (1 ≤ count ∧ count ≤ 256) else count == 1),
        (0x2A, q.zero 0x2A 6)] with
    | some f => bad s f
    | none =>
      let hs := s.holders p kind port first count
      let fs : List (Nat × Nat) := match kind with
        | 1 => [(port, 0xFFFF)]
        | 2 => (List.range count).map (fun i => (port, first + i))
        | _ => []
      if hs.any (fun e => !(s.vdsp e.1 e.2).leavingNow) then bad s (targetField kind)
      else if !hs.isEmpty then failWith s rcConflict
      else if (kind ≤ 2 ∧ s.masked (port / 4)) ∨ (kind = 6 ∧ (s.vnic first).any (fun v => s.masked (0x1A + v.lport / 4))) then failWith s rcConflict
      else match s.bindFault p kind port first count with
        | some f => bad s f
        | none =>
          if kind == 6 && (match s.vnic first with | some v => v.destroying.isSome | none => false) then
            failWith s rcConflict
          else if s.fenced fs ∨ (kind = 3 ∧ (s.adm m).st ≠ .admitted) then failWith s rcNotReady
          else if s.freeIds.length < (({ kind := kind, count := count, port := port } : Vdsp).idEntries p k).length then
            failWith s rcBusy
          else ok (s.bind p k kind port m first count)

/-- VDSP_UNBIND, 0x0304. DESIGN CHOICE (log 70): MODE 0 on a CONTAINED vDSP, for which the table of states has no row, acts as
MODE 1. -/
def cmdVdspUnbind : Cmd where
  op := 0x0304
  lenOk := lenIs 8
  allowed w q _ := w.caller == 0 || (q.u8 0x20 == w.caller && q.u8 0x22 == 0)
  body w q s :=
    let p := q.u8 0x20
    let k := q.u8 0x21
    let mode := q.u8 0x22
    let t := q.u32 0x24
    let v := s.vdsp p k
    match firstBad [(0x20, decide (1 ≤ p ∧ p ≤ 31)), (0x21, decide (k < (s.vs p).vdspCount) && v.bound),
        (0x22, decide (mode ≤ 1)), (0x23, q.zero 0x23 1),
        (0x24, if mode = 0 then decide (t ≤ 600) else t == 0)] with
    | some f => bad s f
    | none =>
      if v.st = .unplug ∨ v.st = .removing then failWith s rcConflict
      else if !s.handleFree w.caller then failWith s rcBusy
      else
        let h := s.newHandle w.caller 0x0304
        let s1 := h.2.modVdsp p k (fun v => { v with unbind := some h.1 })
        pend (if mode = 1 ∨ v.st = .contained then s1.surpriseRemoval p k (!s.targetExists v)
          else if v.st = .poweredOff then s1.modVdsp p k (fun v => { v with st := .removing })
          else s1.unplugRequest p k) h.1

/-- The unplug timer of a vDSP expires: the binding is kept, and its handle ends with TIMEOUT (R112). An extraction of this module,
or of the one its target is on, then unbinds it as MODE 1 does (R249). -/
def State.unplugOver (s : State) (p k : Nat) : State :=
  let v := s.vdsp p k
  if v.st = .unplug ∧ v.timer then
    match v.unbind with
    | some h =>
      let s1 := (s.modVdsp p k (fun v => { v with st := .present, timer := false, unbind := none })).endHandle h rcTimeout
      if s.fab.extract.step ≠ 0 ∨ (v.kind = 3 ∧ (s.adm v.module).st = .extracting) then
        s1.surpriseRemoval p k (!s.targetExists v)
      else s1
    | none => s.surpriseRemoval p k (!s.targetExists v)
  else s

/-- The target reset and the drain of a removal have ended (R112). -/
def State.drainOver (s : State) (p k : Nat) : State :=
  if (s.vdsp p k).st = .removing ∧ s.drained p k then s.removeBinding p k else s

/-- STATE of VDSP_GET. -/
def vdspCode : VdspSt → Nat
  | .empty => 0
  | .present => 1
  | .poweredOff => 2
  | .unplug => 3
  | .removing => 4
  | .contained => 5

/-- VDSP_GET, 0x0305. -/
def cmdVdspGet : Cmd where
  op := 0x0305
  lenOk := lenIs 4
  allowed w q _ := w.caller == 0 || q.u8 0x20 == w.caller
  body _ q s :=
    let p := q.u8 0x20
    let k := q.u8 0x21
    match firstBad [(0x20, decide (1 ≤ p ∧ p ≤ 31)), (0x21, decide (k < 48)), (0x22, q.zero 0x22 2)] with
    | some f => bad s f
    | none =>
      let v := s.vdsp p k
      let absent := (s.vs p).vdspCount ≤ k
      ok s (leBytes 1 p ++ leBytes 1 k ++ leBytes 1 (if absent then 0xFF else if v.bound then v.kind else 0) ++
        leBytes 1 (vdspCode v.st) ++ leBytes 1 v.port ++ leBytes 1 v.module ++ leBytes 2 v.first ++ leBytes 2 v.count ++
        leBytes 1 (b2n v.linkActive + 2 * b2n v.presence + 4 * b2n v.dpcStatus) ++ [0] ++ leBytes 4 v.barUnmapped.toNat)

end Sys2Proof.Machine
end

