-- ==== Sys2Proof/Machine/Net.lean ====
section
/-! DEFINITION. Network groups and vNIC functions: logical ports, priority flow control (R349 to R351), interrupts
and registers of vNIC functions (R336), queue pairs in ERROR (R355), DMA, and function reset (R354). -/

namespace Sys2Proof.Machine

open Sys2Proof

/-- A 64-bit network counter advanced by `n`. -/
def up64 (v n : Nat) : Nat := sat (2 ^ 64 - 1) v n

/-- Block of the network group of logical port `lp`. -/
def netBlock (lp : Nat) : Nat := 0x1A + lp / 4

/-- A frame of logical port `lp` is discarded, whatever the cause (R508 code 0x14). -/
def State.netDropped (s : State) (lp : Nat) (part : Option Nat) : State :=
  s.count { block := netBlock lp, event := 0x14, part := part, port := some lp }

/-! ## Staging and priority flow control (R349 to R351) -/

/-- Ingress staging of a logical port, in bytes (R350). -/
def State.stagingSize (s : State) (lp : Nat) : Nat :=
  match s.netMode lp with | 0 => 524288 | 1 => 262144 | _ => 131072

/-- Headroom of one PFC priority at `r` Gb/s (R350). -/
def LPort.headroom (l : LPort) (r : Nat) : Nat :=
  2 * l.maxFrame + ceilDiv (r * (2 * l.cableNs + 300 + l.peerNs)) 8

/-- Headroom of all enabled priorities. -/
def LPort.headrooms (l : LPort) (r : Nat) : Nat := popCount 8 l.pfcEn.toNat * l.headroom r

/-- The shared part of the staging. -/
def State.stagingShared (s : State) (lp : Nat) : Nat :=
  s.stagingSize lp - (s.lport lp).headrooms (s.lportRate lp)

/-- Frames of logical port `lp` that wait for room in the core, with their priorities (R165). -/
def State.staged (s : State) (lp : Nat) : List (Nat × Nat) :=
  (s.core.waiting.filter (fun w => w.pkt.fromWire && w.pkt.inLport == lp)).map (fun w => (w.pkt.prio, w.pkt.data.length))

/-- Staging filled in order: shared first, then the headroom of a frame's own priority. -/
def fillStaging (shared : Nat) (fs : List (Nat × Nat)) : Nat × Tab Nat :=
  fs.foldl (fun (a : Nat × Tab Nat) e =>
    if a.1 + e.2 ≤ shared then (a.1 + e.2, a.2) else (a.1, tmod 0 a.2 e.1 (· + e.2))) (0, [])

/-- A frame of `n` bytes and priority `p` finds staging (R349, R350). -/
def State.stagingRoom (s : State) (lp p n : Nat) : Bool :=
  let l := s.lport lp
  let u := fillStaging (s.stagingShared lp) (s.staged lp)
  decide (u.1 + n ≤ s.stagingShared lp) ||
    (l.pfcEn.getLsbD p && decide (tget 0 u.2 p + n ≤ l.headroom (s.lportRate lp)))

/-- Core TC of a priority at its ingress port (R330). -/
def LPort.ctc (l : LPort) (prio : Nat) : Nat := mapField l.ctcMap 3 prio
/-- Port TC of a priority at its egress port (R330). -/
def LPort.ptc (l : LPort) (prio : Nat) : Nat := mapField l.ptcMap 3 prio

/-- Priority `p` of a logical port ought to be in XOFF (R349). -/
def State.wantsXoff (s : State) (lp p : Nat) : Bool :=
  let l := s.lport lp
  l.linkUp && l.pfcEn.getLsbD p && !s.core.cfg.lossyMask.getLsbD (l.ctc p) &&
    (s.core.waiting.any (fun w => w.why == .room && w.pkt.fromWire && w.pkt.inLport == lp && w.pkt.prio == p) ||
      decide (s.stagingShared lp < (fillStaging (s.stagingShared lp) (s.staged lp)).1 + l.maxFrame))

/-- XOFF and XON of one priority follow its state (R349). -/
def State.pfcPrio (s : State) (lp p : Nat) : State :=
  let l := s.lport lp
  let want := s.wantsXoff lp p
  if want = l.xoff.getLsbD p then s
  else
    let s1 := s.modLport lp (fun l => { l with xoff := if want then l.xoff ||| (1 <<< p : BitVec 8) else l.xoff &&& ~~~(1 <<< p : BitVec 8) })
    if l.linkUp then s1.emit (.pfc lp (2 ^ p) (if want then 0xFFFF else 0)) else s1

/-- XOFF and XON of every logical port follow its state (R349). -/
def State.pfcEval (s : State) : State :=
  s.net.lports.foldl (fun t e =>
    if e.2.pfcEn = 0 ∧ e.2.xoff = 0 then t else (List.range 8).foldl (fun u p => u.pfcPrio e.1 p) t) s

/-- XOFF is refreshed (R349). -/
def State.pfcRefresh (s : State) (lp p : Nat) : State :=
  if (s.lport lp).xoff.getLsbD p ∧ p < 8 ∧ (s.lport lp).linkUp then s.emit (.pfc lp (2 ^ p) 0xFFFF) else s

/-- A PFC frame is received: pauses begin and end (R351). -/
def State.pfcIn (s : State) (lp mask : Nat) (times : List Nat) : State :=
  if !s.hasLport lp ∨ !(s.lport lp).linkUp then s
  else s.modLport lp (fun l =>
    { l with
      pfcRx := up64 l.pfcRx 1
      paused := (bitList 8 mask).foldl (fun t p =>
        if l.pfcEn.getLsbD p then tset t p (decide (0 < lget 0 times p)) else t) l.paused })

/-- The pause of a priority runs out (R351). -/
def State.pauseOver (s : State) (lp p : Nat) : State :=
  if tget false (s.lport lp).paused p then s.modLport lp (fun l => { l with paused := tset l.paused p false }) else s

/-- Port TC `c` is paused: some paused priority maps to it (R351). -/
def LPort.tcPaused (l : LPort) (c : Nat) : Bool :=
  (List.range 8).any (fun p => tget false l.paused p && l.ptc p == c)

/-- A port TC stays paused too long (R351, fault source 7). -/
def State.pauseWatch (s : State) (lp c : Nat) : State :=
  if lp < 32 ∧ (s.lport lp).tcPaused c then s.raiseAt (netBlock lp) 7 none (some (56 + lp / 4)) else s

/-! ## Interrupts of a vNIC function (R335, R336) -/

/-- Routing ID of a vNIC function in its partition: of the vDSP it is bound to (R337). -/
def State.vnicRid (s : State) (f : Nat) : Nat :=
  match s.vdspsWhere (fun v => v.kind == 6 && v.first == f && v.bound) with
  | [] => 0
  | e :: _ => (s.vdsp e.1 e.2).bus e.1 e.2 * 256

/-- Vector `vec` of function `f` leaves its group's core port as an MSI-X message (R95, R335). -/
def State.vnicSend (s : State) (f vec : Nat) : State :=
  match s.vnic f with
  | none => s
  | some v => (s.emit (.vnicMsix f vec)).msixOut v.part (56 + v.lport / 4) (s.vnicRid f) v.msixTable vec

/-- Send vector `vec` of function `f`, or set its pending bit while masked. -/
def State.vnicMsix (s : State) (f vec : Nat) : State :=
  match s.vnic f with
  | none => s
  | some v =>
    if !v.msixEn then s
    else if v.msixMask ∨ (msixDword v.msixTable (4 * vec + 3)).getLsbD 0 then
      s.setVnic f { v with pba := tset v.pba vec true }
    else s.vnicSend f vec

/-- Pending vectors that are no longer masked are sent. -/
def State.vnicUnmask (s : State) (f : Nat) : State :=
  match s.vnic f with
  | none => s
  | some v =>
    if !v.msixEn ∨ v.msixMask then s
    else (List.range 65).foldl (fun t i =>
      if tget false v.pba i ∧ !(msixDword v.msixTable (4 * i + 3)).getLsbD 0 then
        (t.modVnic f (fun x => { x with pba := tset x.pba i false })).vnicSend f i
      else t) s

/-- Change queue pair `q` of function `f`. -/
def State.modQp (s : State) (f q : Nat) (g : Qp → Qp) : State := s.modVnic f (fun v => v.modQp q g)

/-- Queue pair `q` of function `f`. -/
def State.qpOf (s : State) (f q : Nat) : Qp := match s.vnic f with | some v => v.qp q | none => {}

/-- A write-back of queue pair `q` asks for vector `q` (QP_ITR). -/
def State.qpVector (s : State) (f q : Nat) : State :=
  let k := s.qpOf f q
  if !k.intEn then s
  else if k.itr = 0 then s.vnicMsix f q
  else if k.itrWait then s.modQp f q (fun k => { k with itrPend := true })
  else (s.modQp f q (fun k => { k with itrWait := true })).vnicMsix f q

/-- The least interval of a queue pair passes (QP_ITR). -/
def State.itrExpiry (s : State) (f q : Nat) : State :=
  let k := s.qpOf f q
  if !k.itrWait then s
  else if k.itrPend then (s.modQp f q (fun k => { k with itrPend := false })).vnicMsix f q
  else s.modQp f q (fun k => { k with itrWait := false })

/-- A queue pair enters ERROR: FN_EVENT.QP_ERR, vector 64 and the fault source (R355). -/
def State.qpError (s : State) (f q src : Nat) : State :=
  match s.vnic f with
  | none => s
  | some v =>
    let s1 := s.setVnic f { (v.modQp q (fun k => { k with error := true })) with qpErrEv := true }
    (s1.vnicMsix f 64).raiseAt (netBlock v.lport) src (some v.part) (some (56 + v.lport / 4))

/-! ## Registers of a vNIC function (R336) -/

/-- Bits of FN_QP_ERR_LO or FN_QP_ERR_HI. -/
def Vnic.qpErrBits (v : Vnic) (hi : Nat) : Nat := bitsOf 32 (fun i => (v.qp (32 * hi + i)).error)

/-- The register of function `f` at a 4-byte offset of BAR0. -/
def State.vnicReg (s : State) (f : Nat) (v : Vnic) (off : Nat) : Nat :=
  if off = 0x000 then b2n (s.lport v.lport).linkUp + f * 2 + v.lport * 2 ^ 11 + v.nqp * 2 ^ 16
  else if off = 0x004 then b2n v.linkChg + 2 * b2n v.qpErrEv
  else if off = 0x008 then v.qpErrBits 0
  else if off = 0x00C then v.qpErrBits 1
  else if 0x1000 ≤ off ∧ off < 0x1410 then (msixDword v.msixTable ((off - 0x1000) / 4)).toNat
  else if 0x1800 ≤ off ∧ off < 0x1810 then bitsOf 32 (fun i => tget false v.pba ((off - 0x1800) * 8 + i))
  else if 0x40000 ≤ off ∧ off < 0x80000 ∧ (off - 0x40000) / 4096 < v.nqp then
    let k := v.qp ((off - 0x40000) / 4096)
    match off % 4096 with
    | 0x0 => k.txTail
    | 0x4 => k.rxTail
    | 0x8 => k.txHead + k.rxHead * 2 ^ 16
    | 0xC => k.itr + b2n k.intEn * 2 ^ 16
    | _ => 0
  else 0

/-- A value written to QP_TX_TAIL (R337). -/
def State.txTailWrite (s : State) (f q value : Nat) : State :=
  match s.vnic f with
  | none => s
  | some v =>
    if v.nqp ≤ q then s
    else
      let k := v.qp q
      let s1 := s.modQp f q (fun k => { k with txTail := value % 2 ^ 15 })
      if k.enabled ∧ !k.error ∧ 2 ^ k.txLog2 ≤ value % 2 ^ 15 then s1.qpError f q 6 else s1

/-- A value written to QP_RX_TAIL (R337). -/
def State.rxTailWrite (s : State) (f q value : Nat) : State :=
  match s.vnic f with
  | none => s
  | some v =>
    if v.nqp ≤ q then s
    else
      let k := v.qp q
      let s1 := s.modQp f q (fun k => { k with rxTail := value % 2 ^ 15 })
      if k.enabled ∧ !k.error ∧ 2 ^ k.rxLog2 ≤ value % 2 ^ 15 then s1.qpError f q 6 else s1

/-- A value written to a doorbell page. -/
def State.doorbellWrite (s : State) (f q reg value : Nat) : State :=
  match reg with
  | 0x0 => s.txTailWrite f q value
  | 0x4 => s.rxTailWrite f q value
  | 0xC => s.modQp f q (fun k => { k with itr := value % 65536, intEn := bit value 16 })
  | _ => s

/-- A value written to a 4-byte offset of BAR0 of function `f`. -/
def State.vnicRegWrite (s : State) (f off value : Nat) : State :=
  match s.vnic f with
  | none => s
  | some v =>
    if off = 0x004 then
      s.setVnic f { v with linkChg := v.linkChg && !bit value 0, qpErrEv := v.qpErrEv && !bit value 1 }
    else if 0x1000 ≤ off ∧ off < 0x1410 then
      (s.setVnic f { v with msixTable := tset v.msixTable ((off - 0x1000) / 4) (BitVec.ofNat 32 value) }).vnicUnmask f
    else if 0x40000 ≤ off ∧ off < 0x80000 ∧ (off - 0x40000) / 4096 < v.nqp then
      s.doorbellWrite f ((off - 0x40000) / 4096) (off % 4096) value
    else s

/-! ## DMA (R337) -/

/-- A posted write of function `f` to its host (R337). -/
def State.dmaWrite (s : State) (f : Nat) (addr : Nat) (data : Bytes) (ro : Bool) (tc : Nat) : State :=
  match s.vnic f with
  | none => s
  | some v =>
    s.forwardUp (56 + v.lport / 4) v.part tc (s.vnicRid f) none
      { kind := .write, addr := BitVec.ofNat 64 addr, len := data.length, data := data, attr := if ro then 2 else 0 }

/-- A read of function `f` from its host, under a tag that names queue pair `q` (R95, R337). -/
def State.dmaRead (s : State) (f q : Nat) (buffer : Bool) (addr : Word) (len : Nat) : State :=
  match s.vnic f with
  | none => s
  | some v =>
    (s.emit (.dmaRead v.part f addr len)).toHost v.part (56 + v.lport / 4) (s.vnicRid f) opcMRd (q + 64 * b2n buffer) addr len []

/-- A DMA read of the function with routing ID `rid` in partition `p` fails: its queue pair enters ERROR (R355). -/
def State.dmaFailed (s : State) (p rid tag : Nat) : State :=
  match s.net.vnics.find? (fun e => e.2.part == p && s.vnicRid e.1 == rid) with
  | none => s
  | some e => s.qpError e.1 (tag % 64) 5

/-! ## Function reset and removal (R354, R355) -/

/-- No DMA of the function is outstanding (R354 step 2). -/
def Vnic.idle (v : Vnic) : Bool := !v.qps.any (fun e => e.2.fetching)

/-- Steps 1 and 2 of a function reset begin (R354). -/
def State.vnicReset (s : State) (f : Nat) : State :=
  s.modVnic f (fun v =>
    { v with resetting := true, qps := tmap v.qps (fun _ k => { k with enabled := false, tso := [], wb := [] }) })

/-- A function at its creation values: P fields, rings, RX_STRIP and RSS settings (R354 step 3). -/
def Vnic.created (v : Vnic) : Vnic :=
  { part := v.part, lport := v.lport, nqp := v.nqp, mac := v.mac, spoofChk := v.spoofChk, vlanForce := v.vlanForce
    pvid := v.pvid, rssKey := v.rssKey0, rssKey0 := v.rssKey0, rssInd := (List.range 128).map (fun k => k % Nat.max 1 v.nqp)
    destroying := v.destroying }

/-- Ember ends the handles of queue pairs being disabled when their function is reset or removed (R359). -/
def State.endQpHandles (s : State) (v : Vnic) : State :=
  v.qps.foldl (fun t e => match e.2.disabling with | some h => t.endHandle h rcOk | none => t) s

/-- A function reset whose DMA has ended performs step 3 (R354). -/
def State.vnicResetEnd (s : State) (f : Nat) : State :=
  match s.vnic f with
  | none => s
  | some v => if v.resetting ∧ v.idle then (s.setVnic f v.created).endQpHandles v else s

/-- The commit of VNIC_DESTROY: entries, windows, the shaper and the function go (R355, R366). -/
def State.vnicRemove (s : State) (f : Nat) : State :=
  match s.vnic f with
  | none => s
  | some v =>
    match v.destroying with
    | none => s
    | some h =>
      let s1 := (s.modNet (fun n =>
        { n with
          vnics := tdel n.vnics f
          em := n.em.filter (fun e => !(bits e.2.toNat 66 65 == 0 && bits e.2.toNat 76 67 == f)) })).modTm
        (fun t => { t with shapers := tdel t.shapers f })
      (s1.invalidateRange (faMake s.own 3 (f * 2 ^ 44)).toNat (2 ^ 44)).endHandle h rcOk

/-- Resets and removals whose DMA has ended go on. -/
def State.vnicSettle (s : State) : State :=
  (s.net.vnics.filter (fun e => e.2.resetting && e.2.idle)).foldl (fun t e => (t.vnicResetEnd e.1).vnicRemove e.1) s

/-! ## Link state of a logical port (R336, R356, R358) -/

/-- Every function homed on `lp` learns of a change of LINK (R336). -/
def State.tellLink (s : State) (lp : Nat) (up : Bool) : State :=
  (s.net.vnics.filter (fun e => e.2.lport == lp)).foldl (fun t e =>
    (t.modVnic e.1 (fun v => { v with link := up, linkChg := true })).vnicMsix e.1 64) s

/-- A staged frame of a logical port that is down is discarded and counted (R182); one that cuts through is discarded when the core
releases it. -/
def State.flushEgress (s : State) (lp : Nat) : State :=
  (s.lport lp).egress.foldl (fun t p =>
      (if p.more then t else (t.discard p).ledgerOnly (netBlock lp)).netDropped lp (some p.part))
    (s.modLport lp (fun l => { l with egress := [], sending := none }))

/-- The link of a logical port goes up or down. -/
def State.lportLink (s : State) (lp : Nat) (up : Bool) : State :=
  if (s.lport lp).linkUp = up then s
  else
    let s1 := s.modLport lp (fun l => { l with linkUp := up, paused := [], xoff := 0, deficit := [], dwrrIn := false })
    (if up then s1 else s1.flushEgress lp).tellLink lp up

/-- The PHY reports a change of its link (R336, fault source 2). -/
def State.linkChange (s : State) (lp : Nat) (up : Bool) : State :=
  let l := s.lport lp
  if !s.hasLport lp ∨ !l.enabled ∨ l.linkUp = up ∨ (up ∧ (s.boot.etherHeld ∨ s.blockAway (netBlock lp))) then s
  else
    let s1 := s.lportLink lp up
    if up then s1 else s1.raiseAt (netBlock lp) 2 none (some (56 + lp / 4))

/-- Training begun by NET_PORT_SET ends: with the port up, or after its time (R358). -/
def State.trainingEnd (s : State) (lp : Nat) (up : Bool) : State :=
  let s1 := if up then s.linkChange lp true else s
  match (s.lport lp).training with
  | none => s1
  | some h =>
    if up ∧ !(s1.lport lp).linkUp then s1
    else (s1.modLport lp (fun l => { l with training := none })).endHandle h (if up then rcOk else rcTimeout)

end Sys2Proof.Machine
end

