-- ==== Sys2Proof/Machine/NetRx.lean ====
section
/-! DEFINITION. The receive path: MAC checks, ACL, exact-match lookup, meter, function processing and admission
(R327 to R334, R341 to R344), and delivery to receive rings (R340, R345, R347). -/

namespace Sys2Proof.Machine

open Sys2Proof

/-! ## Lookup tables -/

/-- The action word of the first valid ACL entry that matches a key; 0 where none does (R334). -/
def aclAction (acl : Tab AclEnt) (key : Nat) : Nat :=
  match acl.find? (fun e => e.2.valid && (BitVec.ofNat 192 key &&& e.2.mask) == (e.2.key &&& e.2.mask)) with
  | some e => e.2.action.toNat
  | none => 0

/-- The priority after the ACL (R334). -/
def aclPrio (a prio : Nat) : Nat := if bit a 1 then bits a 4 2 else prio

/-- The exact-match key of a frame: LPORT, VID, DMAC (R332). -/
def emKey (lp vid : Nat) (f : Bytes) : Nat := lp * 2 ^ 60 + vid * 2 ^ 48 + beNat (slice f 0 6)

/-- What steps 3 to 5 find for a frame. -/
structure Target where
  /-- ACTION: 0 VNIC_RX, 1 HAIRPIN, 2 drop. -/
  action : Nat := 2
  /-- FUNC. -/
  func : Nat := 0
  /-- OUT_LPORT. -/
  out : Nat := 0
  deriving DecidableEq, Repr, Inhabited

/-- The exact-match result of a frame, or the logical port's DEFAULT (R328 step 5, R333). -/
def State.emLookup (s : State) (lp vid : Nat) (f : Bytes) : Target :=
  match tlook s.net.em (emKey lp vid f) with
  | some r => { action := bits r.toNat 66 65, func := bits r.toNat 76 67, out := bits r.toNat 81 77 }
  | none =>
    let d := (s.lport lp).dflt.toNat
    { action := bits d 1 0, func := bits d 11 2, out := bits d 16 12 }

/-- The target can take the frame: its function or logical port exists (R333). -/
def State.targetOk (s : State) (t : Target) : Bool :=
  match t.action with
  | 0 => (s.vnic t.func).isSome
  | 1 => s.hasLport t.out
  | _ => false

/-- Partition of a target (R333). -/
def State.targetPart (s : State) (t : Target) : Nat :=
  if t.action = 0 then (match s.vnic t.func with | some v => v.part | none => 0) else 0

/-! ## The frame's descriptor (R331) -/

/-- Fields of the PTYPE 3 descriptor. -/
structure FrameDesc where
  /-- Class 0x3 address, or 0. -/
  faddr : Word := 0
  /-- LEN. -/
  len : Nat := 0
  /-- FUNC. -/
  func : Nat := 0
  /-- QP. -/
  qp : Nat := 0
  /-- FROM_WIRE. -/
  fromWire : Bool := false
  /-- IN_PORT. -/
  inPort : Nat := 0
  /-- TCI, when STRIPPED. -/
  tci : Option Nat := none
  /-- L3. -/
  l3 : Nat := 0
  /-- L4. -/
  l4 : Nat := 0
  /-- CSUM. -/
  csum : Nat := 0
  /-- RSS_TYPE. -/
  rssType : Nat := 0
  /-- RSS_HASH. -/
  rssHash : Nat := 0
  /-- TS_REQ. -/
  tsReq : Bool := false
  /-- DESC_IDX. -/
  descIdx : Nat := 0
  deriving DecidableEq, Repr, Inhabited

/-- The 256 bits of the descriptor. -/
def FrameDesc.encode (d : FrameDesc) : BitVec 256 :=
  BitVec.ofNat 256 (d.faddr.toNat * 2 ^ 192 + d.len % 2 ^ 14 * 2 ^ 178 + d.func % 1024 * 2 ^ 160 + d.qp % 64 * 2 ^ 154 +
    b2n d.fromWire * 2 ^ 153 + d.inPort % 32 * 2 ^ 148 + (d.tci.getD 0) % 65536 * 2 ^ 132 + b2n d.tci.isSome * 2 ^ 131 +
    d.l3 % 4 * 2 ^ 129 + d.l4 % 4 * 2 ^ 127 + d.csum % 16 * 2 ^ 123 + d.rssType % 8 * 2 ^ 120 + d.rssHash % 2 ^ 32 * 2 ^ 88 +
    b2n d.tsReq * 2 ^ 87 + d.descIdx % 65536 * 2 ^ 71)

/-- Class 0x3 address of a function. -/
def State.fnAddr (s : State) (f : Nat) : Word := faMake s.own 3 (f * 2 ^ 44)

/-! ## Admission of a received frame -/

/-- A packet would wait at its ingress. -/
def State.wouldWait (s : State) (p : Pkt) (n : Nat) : Bool :=
  s.planesIn.isEmpty || s.core.waiting.any (fun w => voqOf w.pkt == voqOf p) ||
    (match s.verdict p n with | .wait _ => true | _ => false)

/-- A frame that would wait and finds no staging is discarded at the MAC (R349, fault source 3). -/
def State.admitFrame (s : State) (lp : Nat) (p : Pkt) : State :=
  let n := (s.lport lp).frameCells
  if s.wouldWait p n ∧ !s.stagingRoom lp p.prio p.data.length then
    (((s.modLport lp (fun l => { l with rxOverflow := up64 l.rxOverflow 1 })).discard p).netDropped lp (some p.part)).raiseAt
      (netBlock lp) 3 none (some (56 + lp / 4))
  else s.admitN p n

/-- WRED, then admission (R164, R375); a marked frame carries CE. -/
def State.admitLossy (s : State) (lp : Nat) (p : Pkt) : State :=
  if !s.lossy p then s.admitFrame lp p
  else
    let q := parseFrame p.data
    let w := s.wred p (ecnOf p.data q)
    match w.2 with
    | .drop => w.1.dropLossy p false
    | .mark => w.1.admitFrame lp { p with data := setTos p.data q (dscpOf p.data q) 3 }
    | .pass => w.1.admitFrame lp p

/-! ## Function processing (R328 step 6) -/

/-- Type, hash and queue pair RSS gives a frame (R344). -/
def Vnic.rss (v : Vnic) (f : Bytes) (p : Parsed) : Nat × Nat × Nat :=
  let t := rssType p
  if t ≠ 0 ∧ v.rssTypes.getLsbD t then
    let h := toeplitz v.rssKey (rssInput f p)
    (t, h, lget 0 v.rssInd (h % 128))
  else (0, 0, v.rssDef)

/-- The packet of a frame bound for function `t.func` (R331, R333, R343). -/
def State.vnicFrame (s : State) (lp : Nat) (v : Vnic) (t : Target) (p : Parsed) (csum : Nat) (f : Bytes) : Pkt :=
  let strip := v.rxStrip || v.vlanForce
  let tci := if strip then p.tag else none
  let r := v.rss f p
  let data := if tci.isSome then stripTag f else f
  { part := v.part, dst := 56 + v.lport / 4, action := 3, actArg := t.func + r.2.2 * 1024, data := data
    desc := ({ faddr := s.fnAddr t.func, len := data.length, func := t.func, qp := r.2.2, fromWire := true, inPort := lp
               tci := tci, l3 := p.l3, l4 := p.l4, csum := csum, rssType := r.1, rssHash := r.2.1 } : FrameDesc).encode }

/-- The packet of a hairpinned frame (R330, R331, R333). -/
def State.hairpinFrame (s : State) (lp : Nat) (t : Target) (prio : Nat) (p : Parsed) (csum : Nat) (f : Bytes) : Pkt :=
  { part := 0, dst := 56 + t.out / 4, action := 4, actArg := t.out % 4 + 4 * (s.lport t.out).ptc prio, data := f
    desc := ({ len := f.length, fromWire := true, inPort := lp, l3 := p.l3, l4 := p.l4, csum := csum } : FrameDesc).encode }

/-- The frame after its lookup, counted in the open drain tracker (R139, R140), enters the core. -/
def State.frameEnters (s : State) (lp prio tc colour : Nat) (abort : Bool) (p : Pkt) : State :=
  let l := s.lport lp
  let k := { p with
    epoch := s.win.epoch.toNat, smod := s.own, src := 56 + lp / 4, sport := 56 + lp / 4, dmod := s.own, tc := tc
    colour := colour, trk := s.win.openTracker, trkv := true, ptype := 3, abort := abort, prio := prio
    tstamp := if l.tsEn then s.stamp else 0, order := s.core.lookups }
  ((s.modWin (fun w => w.modCount k.trk k.part (· + 1))).modCore (fun c => { c with lookups := c.lookups + 1 })).admitLossy lp k

/-- Steps 3 to 7 of the receive path (R328). -/
def State.frameLookup (s : State) (lp : Nat) (f : Bytes) (abort : Bool) : State :=
  let l := s.lport lp
  let p := parseFrame f
  let prio0 := match p.tag with | some t => t / 8192 % 8 | none => l.defPrio
  let a := aclAction s.net.acl (aclKey f p 0 lp 0 prio0)
  let prio := aclPrio a prio0
  let tc := l.ctc prio
  let t := s.emLookup lp p.vid f
  let part := s.targetPart t
  let s0 := ((s.count { block := netBlock lp, event := 0x10, part := some part, port := some lp, tc := some tc }).count
    { block := netBlock lp, event := 0x12, raw := f.length + 4, unit := 16, part := some part, port := some lp, tc := some tc }).count
    { block := 0x33, event := 0x10, part := some part }
  if bit a 0 then (s0.modLport lp (fun l => { l with aclDrop := up64 l.aclDrop 1 })).netDropped lp (some part)
  else if !s.targetOk t then (s0.modLport lp (fun l => { l with rxMissDrop := up64 l.rxMissDrop 1 })).netDropped lp (some part)
  else
    let yellow := match p.tag with | some g => bit g 12 | none => false
    let m := if bit a 5 then s0.meterFrame (bits a 17 6) yellow f p else (s0, 0, some f)
    match m.2.2 with
    | none => m.1.netDropped lp (some part)
    | some g =>
      let q := parseFrame g
      let c := csumOf f p
      if t.action = 0 then
        match s.vnic t.func with
        | some v => m.1.frameEnters lp prio tc m.2.1 abort (m.1.vnicFrame lp v t q c g)
        | none => m.1
      else m.1.frameEnters lp prio tc m.2.1 abort (m.1.hairpinFrame lp t prio q c g)

/-- A MAC control frame: PFC is consumed, PAUSE and others are counted and discarded (R326, R328). -/
def State.macControl (s : State) (lp : Nat) (f : Bytes) : State :=
  if be16 f 14 = 0x0101 then s.pfcIn lp (be16 f 16) ((List.range 8).map (fun p => be16 f (18 + 2 * p)))
  else s.netDropped lp none

/-- A frame arrives from the wire (R327, R328). `f` runs from the destination MAC to the byte before the FCS. A bad
frame longer than its first cell is already in the core and is aborted (R180). -/
def State.frameIn (s : State) (lp : Nat) (f : Bytes) (fcsOk : Bool) : State :=
  let l := s.lport lp
  if !s.hasLport lp ∨ !l.enabled ∨ !l.linkUp ∨ s.blockAway (netBlock lp) then s
  else
    let long := l.maxFrame < f.length + 4
    if !fcsOk ∨ f.length + 4 < 64 ∨ long then
      let s1 := (s.modLport lp (fun l => { l with rxFcsErr := up64 l.rxFcsErr 1 })).raiseAt (netBlock lp) 0 none (some (56 + lp / 4))
      if f.length ≤ 224 ∨ be16 f 12 = 0x8808 then s1.netDropped lp none
      else s1.frameLookup lp (f.take (l.maxFrame - 4)) true
    else
      let s1 := s.modLport lp (fun l => { l with rxFrames := up64 l.rxFrames 1, rxBytes := up64 l.rxBytes (f.length + 4) })
      if be16 f 12 = 0x8808 then s1.macControl lp f else s1.frameLookup lp f false

/-! ## Delivery to receive rings (R340, R345, R347) -/

/-- Descriptors the host has made ready in a ring of 2^n. -/
def ringAvail (n tail head : Nat) : Nat := (tail + 2 ^ n - head % 2 ^ n) % 2 ^ n

/-- Bytes of one receive buffer. -/
def Qp.bufBytes (k : Qp) : Nat := Nat.max 1 (k.rxBufKib * 1024)
/-- Buffers a frame of `n` bytes fills. -/
def Qp.bufsFor (k : Qp) (n : Nat) : Nat := Nat.max 1 (ceilDiv n k.bufBytes)
/-- Free receive descriptors. -/
def Qp.rxFree (k : Qp) : Nat := ringAvail k.rxLog2 k.rxTail k.rxHead

/-- A frame at egress is discarded for want of its queue pair or of a descriptor (R345, R347). -/
def State.rxDrop (s : State) (w : Pkt) (noDesc : Bool) : State :=
  let lp := s.egressLport w
  let s1 := (((s.modNet (fun n => { n with rxWait := n.rxWait.erase w })).modLport lp
    (fun l => { l with nodescDrop := up64 l.nodescDrop 1 })).discard w).netDropped lp (some w.part)
  if noDesc then s1.raiseAt (netBlock lp) 8 (some w.part) (some w.dst) else s1

/-- The queue pair of a waiting frame takes frames. -/
def State.rxTakes (s : State) (w : Pkt) : Bool :=
  match s.vnic w.func with
  | some v => decide (w.qp < v.nqp) && (v.qp w.qp).enabled && !(v.qp w.qp).error
  | none => false

/-- Descriptors that earlier waiting frames of the same queue pair will fill. -/
def State.rxAhead (s : State) (before : List Pkt) (w : Pkt) : Nat :=
  let k := s.qpOf w.func w.qp
  (before.filter (fun x => x.func == w.func && x.qp == w.qp)).foldl (fun a x => a + k.bufsFor x.data.length) 0

/-- One pass over the frames at egress: those without a queue pair go at once, and lossy ones without a descriptor
(R345, R347). -/
def State.rxSweepFrom (s : State) : List Pkt → List Pkt → State
  | _, [] => s
  | before, w :: r =>
    if !s.rxTakes w then (s.rxDrop w false).rxSweepFrom before r
    else
      let k := s.qpOf w.func w.qp
      if s.lossy w ∧ k.rxFree < s.rxAhead before w + k.bufsFor w.data.length then (s.rxDrop w true).rxSweepFrom before r
      else s.rxSweepFrom (before ++ [w]) r

/-- The frames at egress after any change (R345, R347). -/
def State.rxSweep (s : State) : State := s.rxSweepFrom [] s.net.rxWait

/-- A receive write-back (R340). -/
def rxWriteBack (w : Pkt) (tsEn : Bool) (len : Nat) (eop : Bool) : Bytes :=
  let v := w.desc.toNat
  let status := 1 + 2 * b2n eop + 4 * b2n (bit v 131) + 8 * b2n tsEn + bits v 126 123 * 16 + 256 * b2n w.abort
  leBytes 8 (if tsEn then w.tstamp.toNat else 0) ++ leBytes 4 (bits v 119 88) ++ leBytes 2 len ++
    leBytes 2 (if bit v 131 then bits v 147 132 else 0) ++ leBytes 1 (bits v 130 129 + bits v 128 127 * 4) ++
    leBytes 1 (bits v 122 120) ++ leBytes 2 status ++ leBytes 1 (bits v 152 148) ++ List.replicate 11 0

/-- Buffer `i` of a frame is filled and written back (R340). -/
def State.rxBuffer (s : State) (w : Pkt) (k : Qp) (bufs : List Nat) (n i : Nat) : State :=
  let piece := (w.data.drop (i * k.bufBytes)).take k.bufBytes
  let idx := (k.rxHead + i) % 2 ^ k.rxLog2
  let ts := (s.lport w.inLport).tsEn
  let s1 := s.dmaWrite w.func (lget 0 bufs i) piece k.rxRo w.tc
  let s2 := s1.dmaWrite w.func (k.rxRing.toNat + 32 * idx) (rxWriteBack w ts piece.length (i + 1 == n)) false w.tc
  s2.qpVector w.func w.qp

/-- The oldest frame waiting for queue pair `q` of function `f` fills descriptors of its ring, which name the
buffers `bufs` (R340). -/
def State.vnicReceive (s : State) (f q : Nat) (bufs : List Nat) : State :=
  match s.net.rxWait.find? (fun w => w.func == f && w.qp == q) with
  | none => s
  | some w =>
    let k := s.qpOf f q
    let n := k.bufsFor w.data.length
    if !s.rxTakes w ∨ k.rxFree < n ∨ bufs.length < n then s
    else
      let s1 := (s.modNet (fun x => { x with rxWait := x.rxWait.erase w })).leave w
      let s2 := (List.range n).foldl (fun t i => t.rxBuffer w k bufs n i) s1
      s2.modQp f q (fun k => { k with rxHead := (k.rxHead + n) % 2 ^ k.rxLog2 })

/-- The oldest frame of a queue pair has waited its time for a descriptor (R347). -/
def State.rxTimeout (s : State) (f q : Nat) : State :=
  match s.net.rxWait.find? (fun w => w.func == f && w.qp == q) with
  | none => s
  | some w =>
    let k := s.qpOf f q
    if k.bufsFor w.data.length ≤ k.rxFree then s else s.rxDrop w true

end Sys2Proof.Machine
end

