-- ==== Sys2Proof/Machine/NetTx.lean ====
section
/-! DEFINITION. The transmit path: scheduling (R364), descriptor checks and offloads (R338, R341 to R343, R346),
admission toward the home port (R329), write-backs (R339), and the port TC scheduler at the egress (R367 to R369,
R381). -/

namespace Sys2Proof.Machine

open Sys2Proof

/-! ## Descriptor flags (R337) -/

/-- EOP. -/
def txEop (d : TxDesc) : Bool := d.flags.getLsbD 0
/-- IPCSUM. -/
def txIp (d : TxDesc) : Bool := d.flags.getLsbD 1
/-- L4CSUM. -/
def txL4 (d : TxDesc) : Bool := d.flags.getLsbD 2
/-- TSO. -/
def txTso (d : TxDesc) : Bool := d.flags.getLsbD 3
/-- VLAN_INS. -/
def txVlan (d : TxDesc) : Bool := d.flags.getLsbD 4
/-- TS. -/
def txTs (d : TxDesc) : Bool := d.flags.getLsbD 5

/-- The headers at the places the first descriptor names (R338). -/
def txParse (d : TxDesc) (f : Bytes) : Parsed :=
  let p := parseFrame f
  let v := byteAt f d.l2len / 16
  parseL3 f { tag := p.tag, etype := if v = 4 then 0x0800 else if v = 6 then 0x86DD else 0, l3off := d.l2len }

/-- The L4 header at its place has the length the descriptor names. -/
def txL4Ok (d : TxDesc) (f : Bytes) (p : Parsed) : Bool :=
  match p.l4 with
  | 1 => d.l4len == byteAt f (p.l4off + 12) / 16 * 4 && decide (20 ≤ d.l4len ∧ d.l4len ≤ 60)
  | 2 => d.l4len == 8
  | _ => false

/-- Bytes of the headers. -/
def txHdr (d : TxDesc) : Nat := d.l2len + d.l3len + d.l4len

/-- The offload flags agree with the headers, which lie within the first buffer (R338). -/
def txHeadersOk (d : TxDesc) (f : Bytes) : Bool :=
  let p := txParse d f
  if !(txIp d || txL4 d || txTso d) then true
  else
    decide (14 ≤ d.l2len ∧ d.l2len ≤ 126 ∧ 20 ≤ d.l3len ∧ d.l3len ≤ 512) && p.l3 != 0 && p.l3len == d.l3len &&
      decide (d.l2len + d.l3len ≤ d.len) && (!txIp d || p.l3 == 1) &&
      (!(txL4 d || txTso d) || (txL4Ok d f p && decide (txHdr d ≤ d.len))) && (!txTso d || p.l4 == 1)

/-- Bytes of a packet's buffers, joined (R338). -/
def txBytes (ds : List TxDesc) : Bytes := ds.flatMap (fun d => padTo d.len d.data)

/-- A packet obeys the rules of R338 and R342 on a port of `maxFrame`; `tag` bytes are inserted. -/
def txWellFormed (ds : List TxDesc) (maxFrame tag : Nat) : Bool :=
  match ds with
  | [] => false
  | d :: _ =>
    let f := txBytes ds
    decide (ds.length ≤ 32) && (match ds.getLast? with | some e => txEop e | none => false) &&
      ds.all (fun e => decide (1 ≤ e.len ∧ e.len ≤ 65535) && e.flags.toNat / 64 == 0) && txHeadersOk d f &&
      (if txTso d then
        decide (f.length - txHdr d ≤ 262144 ∧ 64 ≤ d.mss ∧ d.mss ≤ 9000 ∧ txHdr d + d.mss + 4 + tag ≤ maxFrame)
       else decide (f.length + tag ≤ maxFrame - 4))

/-- The packet up to and with its EOP. -/
def uptoEop : List TxDesc → List TxDesc
  | [] => []
  | d :: r => if txEop d then [d] else d :: uptoEop r

/-- TCI of the tag inserted, when one is (R343, R346). -/
def txTag (v : Vnic) (k : Qp) (d : TxDesc) : Option Nat :=
  if v.vlanForce then some (k.defPrio * 8192 + v.pvid) else if txVlan d then some d.tci else none

/-- The frames a well-formed packet becomes: TSO, checksums, tag (R329 step 2). -/
def txFrames (d : TxDesc) (tag : Option Nat) (f : Bytes) : List Bytes :=
  let p := txParse d f
  let fs := if txTso d then tsoFrames (f.take (txHdr d)) p d.mss (f.drop (txHdr d))
    else
      let g := if txIp d then setL3Sum f p.l3off p.l3len else f
      [if txL4 d then setL4Sum g p p.l4 p.l4len else g]
  match tag with
  | some t => fs.map (fun g => insertTag g t)
  | none => fs

/-- The spoof checks of R346. -/
def Vnic.spoofs (v : Vnic) (d : TxDesc) (f : Bytes) : Bool :=
  (v.spoofChk && beNat (slice f 6 6) != v.mac.toNat) || (v.vlanForce && ((parseFrame f).tag.isSome || txVlan d))

/-! ## Sending one frame (R329 steps 4 to 6) -/

/-- Priority of a transmitted frame (R343). -/
def txPrio (k : Qp) (p : Parsed) : Nat := match p.tag with | some t => t / 8192 % 8 | none => k.defPrio

/-- The packet of a transmitted frame (R330, R331, R333). -/
def State.txPkt (s : State) (f q : Nat) (v : Vnic) (prio colour idx : Nat) (ts : Bool) (g : Bytes) : Pkt :=
  let l := s.lport v.lport
  let p := parseFrame g
  { epoch := s.win.epoch.toNat, part := v.part, smod := s.own, src := 56 + v.lport / 4, sport := 56 + v.lport / 4
    dst := 56 + v.lport / 4, dmod := s.own, tc := l.ctc prio, colour := colour, trk := s.win.openTracker, trkv := true
    ptype := 3, action := 2, actArg := v.lport % 4 + 4 * l.ptc prio, order := s.core.lookups, prio := prio, data := g
    desc := ({ faddr := s.fnAddr f, len := g.length, func := f, qp := q, l3 := p.l3, l4 := p.l4, tsReq := ts
               descIdx := idx } : FrameDesc).encode }

/-- ACL, meter and admission of one frame: the state and its ERR_CODE. A frame a meter drops here is not counted
in the meter's DROPPED (R372). -/
def State.txFrame (s : State) (f q idx : Nat) (ts : Bool) (g : Bytes) : State × Nat :=
  match s.vnic f with
  | none => (s, 0)
  | some v =>
    let lp := v.lport
    let p := parseFrame g
    let prio0 := txPrio (v.qp q) p
    let a := aclAction s.net.acl (aclKey g p f lp 1 prio0)
    let prio := aclPrio a prio0
    let s0 := s.count { block := 0x33, event := 0x10, part := some v.part }
    if bit a 0 then ((s0.modLport lp (fun l => { l with aclDrop := up64 l.aclDrop 1 })).netDropped lp (some v.part), 4)
    else
      let n := bits a 17 6
      let m := if bit a 5 then s0.meterFrame n false g p else (s0, 0, some g)
      match m.2.2 with
      | none => (((m.1.modMeter n (fun x => { x with dropped := (tget {} s.tm.meters n).dropped })).netDropped lp
          (some v.part)), 5)
      | some h =>
        let k := s.txPkt f q v prio m.2.1 idx ts h
        (((m.1.modWin (fun w => w.modCount k.trk k.part (· + 1))).modCore (fun c => { c with lookups := c.lookups + 1 })).enterCore k, 0)

/-- Set the ERR_CODE of the write-back record of index `idx` (the latest one). -/
def setErr (idx err : Nat) (l : List Wb) : List Wb :=
  match l.reverse with
  | [] => []
  | w :: r => if w.idx = idx ∧ err ≠ 0 then (r.reverse ++ [{ w with err := err }]) else l

/-- Send the next frame of the packet in progress on a queue pair and charge the shaper (R363, R364). -/
def State.txNext (s : State) (f q : Nat) : State :=
  let k := s.qpOf f q
  match k.tso with
  | [] => s
  | g :: r =>
    let first := match k.wb.getLast? with | some w => w.ts && !k.tsSent | none => false
    let t := s.txFrame f q k.tsoIdx first g
    (t.1.modQp f q (fun k => { k with tso := r, tsSent := true, wb := setErr k.tsoIdx t.2 k.wb })).modShaper f
      (fun h => h.charge k.round (wireLen g.length))

/-- Go on with the packet in progress while the function qualifies for its round (R364). -/
def State.txRun : Nat → State → Nat → Nat → State
  | 0, s, _, _ => s
  | fuel + 1, s, f, q =>
    let k := s.qpOf f q
    if k.tso.isEmpty ∨ !(s.shaper f).qualifies k.round then s else State.txRun fuel (s.txNext f q) f q

/-! ## Scheduling (R364) -/

/-- A queue pair has descriptors ready, or segments of a packet left. -/
def Qp.txReady (k : Qp) : Bool := k.enabled && !k.error && (!k.tso.isEmpty || k.txHead != k.txTail)

/-- A function homed on `lp` has a frame ready and no fetch outstanding. -/
def Vnic.txReady (v : Vnic) (lp : Nat) : Bool :=
  v.lport == lp && !v.resetting && v.idle && v.qps.any (fun e => e.2.txReady)

/-- The next function in round-robin order for a round. -/
def State.pickFn (s : State) (lp start : Nat) (f : Nat → Bool) : Option Nat :=
  firstCyclic 1024 start (fun n => (match s.vnic n with | some v => v.txReady lp | none => false) && f n)

/-- The next queue pair of a function: one with a packet in progress, else in round-robin order. -/
def Vnic.pickQp (v : Vnic) : Option Nat :=
  match (v.qps.find? (fun e => e.2.enabled && !e.2.error && !e.2.tso.isEmpty)) with
  | some e => some e.1
  | none => firstCyclic 64 v.qpRr (fun q => (v.qp q).txReady)

/-- A function has its turn in a round: it goes on with its packet, or fetches descriptors of the next one. -/
def State.txTurn (s : State) (f round : Nat) : State :=
  match s.vnic f with
  | none => s
  | some v =>
    match v.pickQp with
    | none => s
    | some q =>
      let k := v.qp q
      let s1 := s.setVnic f { (v.modQp q (fun k => { k with round := round })) with qpRr := (q + 1) % 64 }
      if !k.tso.isEmpty then State.txRun k.tso.length s1 f q
      else
        (s1.modQp f q (fun k => { k with fetching := true, fetchTo := k.txTail })).dmaRead f q false
          (BitVec.ofNat 64 (k.txRing.toNat + 32 * k.txHead)) 32

/-- The transmit scheduler of logical port `lp` chooses the function that fetches next (R364). -/
def State.txSchedule (s : State) (lp : Nat) : State :=
  let l := s.lport lp
  match s.pickFn lp l.txPtr (fun n => (s.shaper n).qualifies 0) with
  | some f => (s.modLport lp (fun l => { l with txPtr := (f + 1) % 1024 })).txTurn f 0
  | none =>
    match s.pickFn lp l.txPtrX (fun n => (s.shaper n).qualifies 1 || (s.shaper n).qualifies 2) with
    | some f => (s.modLport lp (fun l => { l with txPtrX := (f + 1) % 1024 })).txTurn f (if (s.shaper f).enabled then 1 else 2)
    | none => s

/-! ## A fetch completes (R338) -/

/-- A packet of `n` descriptors that is refused with an ERR_CODE. -/
def State.txRefuse (s : State) (f q idx n err : Nat) : State :=
  s.modQp f q (fun k => { k with wb := k.wb ++ [{ idx := idx, descs := n, err := err }] })

/-- A transmit descriptor read from its bytes, least significant byte first (R11, R337). -/
def TxRaw.decode (r : TxRaw) : TxDesc :=
  { addr := BitVec.ofNat 64 (leNat (slice r.desc 0 8)), len := leNat (slice r.desc 8 2)
    flags := BitVec.ofNat 16 (leNat (slice r.desc 0x0A 2)), tci := leNat (slice r.desc 0x0C 2), mss := leNat (slice r.desc 0x0E 2)
    l2len := leNat (slice r.desc 0x10 1), l4len := leNat (slice r.desc 0x11 1), l3len := leNat (slice r.desc 0x12 2)
    data := r.data }

/-- A whole packet has been read: checks, offloads, and its frames while the function qualifies. -/
def State.txPacket (s : State) (f q : Nat) (v : Vnic) (ds : List TxDesc) (d : TxDesc) : State :=
  let k := v.qp q
  let idx := (k.txHead + ds.length - 1) % 2 ^ k.txLog2
  let s1 := s.modQp f q (fun k => { k with txHead := (k.txHead + ds.length) % 2 ^ k.txLog2 })
  let tag := txTag v k d
  let g := txBytes ds
  if !txWellFormed ds (s.lport v.lport).maxFrame (if tag.isSome then 4 else 0) then
    (s1.txRefuse f q idx ds.length 2).raiseAt (netBlock v.lport) 6 (some v.part) (some (56 + v.lport / 4))
  else if v.spoofs d g then s1.txRefuse f q idx ds.length 3
  else
    let fs := txFrames d tag g
    let s2 := s1.modQp f q (fun k =>
      { k with tso := fs, tsoIdx := idx, tsSent := false, wb := k.wb ++ [{ idx := idx, descs := ds.length, ts := txTs d }] })
    State.txRun fs.length (s2.txNext f q) f q

/-- Descriptors and buffers of a packet have been read, or a read failed (R338, R355). -/
def State.fetchDone (s : State) (f q : Nat) (descs : List TxRaw) (good : Bool) : State :=
  match s.vnic f with
  | none => s
  | some v =>
    let k := v.qp q
    if !k.fetching then s
    else
      let s1 := s.modQp f q (fun k => { k with fetching := false })
      let ds := (uptoEop (descs.map TxRaw.decode)).take (ringAvail k.txLog2 k.fetchTo k.txHead)
      if !k.enabled ∨ k.error then s1
      else if !good then
        let s2 := if ds.isEmpty then s1
          else (s1.modQp f q (fun k => { k with txHead := (k.txHead + ds.length) % 2 ^ k.txLog2 })).txRefuse f q
            ((k.txHead + ds.length - 1) % 2 ^ k.txLog2) ds.length 1
        s2.qpError f q 5
      else match ds with
        | [] => s1
        | d :: _ => (ds.foldl (fun t b => t.dmaRead f q true b.addr b.len) s1).txPacket f q v ds d

/-! ## Write-backs (R339) -/

/-- A transmitted frame's packet. -/
def txIs (f q idx : Nat) (p : Pkt) : Bool :=
  p.ptype == 3 && p.action == 2 && p.func == f && p.qp == q && bits p.desc.toNat 86 71 == idx

/-- The frame that carries a timestamp request is still inside. -/
def State.tsPending (s : State) (f q idx : Nat) : Bool :=
  let m (p : Pkt) : Bool := txIs f q idx p && bit p.desc.toNat 87
  s.core.q.any (fun e => m e.pkt) || s.core.waiting.any (fun w => m w.pkt) || s.net.lports.any (fun l => l.2.egress.any m)

/-- A packet can be written back (R339). -/
def State.wbReady (s : State) (f q : Nat) (k : Qp) (w : Wb) : Bool :=
  !(!k.tso.isEmpty && k.tsoIdx == w.idx) && !s.core.waiting.any (fun e => txIs f q w.idx e.pkt) &&
    (!w.ts || w.stamp.isSome || !s.tsPending f q w.idx)

/-- The 32 bytes of a transmit write-back. -/
def txWriteBack (w : Wb) : Bytes :=
  let v := w.ts && w.stamp.isSome
  leBytes 8 (if v then (w.stamp.getD 0).toNat else 0) ++ leBytes 2 w.descs ++
    leBytes 2 (1 + 2 * b2n v + 4 * b2n (w.err != 0)) ++ leBytes 1 w.err ++ List.replicate 19 0

/-- Write back the packets of a queue pair that are ready, in ring order. -/
def State.writeBacks (f q : Nat) : Nat → State → State
  | 0, s => s
  | fuel + 1, s =>
    let k := s.qpOf f q
    match k.wb with
    | [] => s
    | w :: r =>
      if !s.wbReady f q k w then s
      else
        State.writeBacks f q fuel (((s.modQp f q (fun k => { k with wb := r })).dmaWrite f (k.txRing.toNat + 32 * w.idx) (txWriteBack w)
          false 0).qpVector f q)

/-- Every write-back that is ready is made. -/
def State.allWriteBacks (s : State) : State :=
  s.net.vnics.foldl (fun t e => e.2.qps.foldl (fun u k => State.writeBacks e.1 k.1 k.2.wb.length u) t) s

/-! ## The port TC scheduler (R367 to R369, R381) -/

/-- The first staged frame of port TC `c`. -/
def LPort.head (l : LPort) (c : Nat) : Option Pkt := l.egress.find? (fun p => portTcOf p == c)

/-- Remove the first staged frame of port TC `c`. -/
def LPort.pop (l : LPort) (c : Nat) : LPort :=
  match takeFirst (fun p => portTcOf p == c) l.egress with
  | some (_, r) => { l with egress := r }
  | none => l

/-- Port TC `c` may start its head frame (R368). -/
def State.tcEligible (s : State) (lp c : Nat) : Bool :=
  match (s.lport lp).head c with
  | none => false
  | some p => s.gateFits lp ((s.gate lp).key c p.part) (wireLen p.data.length) (s.lportRate lp) && !(s.lport lp).tcPaused c

/-- A staged frame is discarded; of one that cuts through the core keeps the cells, and discards them as they are released. -/
def State.letGo (s : State) (p : Pkt) : State := if p.more then s else s.discard p

/-- Head frames that fit no window are discarded (R381). -/
def State.gateDrop (lp c : Nat) : Nat → State → State
  | 0, s => s
  | fuel + 1, s =>
    match (s.lport lp).head c with
    | none => s
    | some p =>
      if s.everFits lp ((s.gate lp).key c p.part) (wireLen p.data.length) then s
      else State.gateDrop lp c fuel ((((s.modLport lp (fun l => l.pop c)).letGo p).modGate lp
        (fun g => { g with drops := sat (2 ^ 32 - 1) g.drops 1 })).netDropped lp (some p.part))

/-- The transmit timestamp of a frame whose descriptor asked for one, taken as it starts (R353). -/
def State.frameStamp (s : State) (p : Pkt) : State :=
  if bit p.desc.toNat 87 ∧ p.action = 2 then
    s.modQp p.func p.qp (fun k => { k with wb := k.wb.map (fun w =>
      if w.idx = bits p.desc.toNat 86 71 ∧ w.ts ∧ w.stamp.isNone then { w with stamp := some s.stamp } else w) })
  else s

/-- The last byte of a frame is on the wire: its FCS is inverted when it is aborted, and it is counted (R348, R181). -/
def State.frameSent (s : State) (lp : Nat) (p : Pkt) : State :=
  let n := p.data.length + 4
  let s1 := (s.modLport lp (fun l =>
    { l with txFrames := up64 l.txFrames 1, txBytes := up64 l.txBytes n, stomped := up64 l.stomped (b2n p.abort) })).emit
    (.frame lp p.data p.abort)
  let s2 := (s1.count { block := netBlock lp, event := 0x11, part := some p.part, port := some lp, tc := some p.tc }).count
    { block := netBlock lp, event := 0x13, raw := n, unit := 16, part := some p.part, port := some lp, tc := some p.tc }
  if p.abort then s2.raiseAt (netBlock lp) 4 none (some (56 + lp / 4)) else s2

/-- A frame starts. One that cuts through ends once its last cell has crossed (R178, R179). -/
def State.startFrame (s : State) (lp c : Nat) : State :=
  match (s.lport lp).head c with
  | none => s
  | some p =>
    if p.more then (s.modLport lp (fun l => { (l.pop c) with sending := some p })).frameStamp p
    else (((s.modLport lp (fun l => l.pop c)).frameStamp p).frameSent lp p).leave p

/-- A frame in transmission whose last cell has crossed ends. -/
def State.finishFrame (s : State) (lp : Nat) : State :=
  match (s.lport lp).sending with
  | none => s
  | some p => if p.more then s else ((s.modLport lp (fun l => { l with sending := none })).frameSent lp p).leave p

/-- Every frame in transmission whose last cell has crossed ends (R178). -/
def State.finishFrames (s : State) : State := s.net.lports.foldl (fun t e => t.finishFrame e.1) s

/-- The egress needs a cell of the frame in transmission that has not crossed: underrun. The frame ends with the bytes of the cells
that have, its FCS inverted, and the packet is aborted (R179, R180). -/
def State.underrun (s : State) (lp : Nat) (p : Pkt) : State :=
  let lead := match s.core.q.find? (fun e => samePkt e.pkt p) with
    | some e => e.lead
    | none => 0
  ((s.modLport lp (fun l => { l with sending := none })).abortWhere (fun e => samePkt e.pkt p) 1).frameSent lp
    { p with data := p.data.take (256 * lead - 32), abort := true }

/-- The DWRR loop of R369: the port with its deficits, and the TC that starts. -/
def dwrr (elig : Nat → Bool) : Nat → LPort → LPort × Option Nat
  | 0, l => (l, none)
  | fuel + 1, l =>
    let t := l.dwrrPtr
    let next (l : LPort) : LPort := { l with dwrrPtr := (t + 1) % 8, dwrrIn := false }
    if l.strict.getLsbD t then dwrr elig fuel (next l)
    else match l.head t with
      | none => dwrr elig fuel (next { l with deficit := tset l.deficit t 0 })
      | some p =>
        if !elig t then dwrr elig fuel (next l)
        else
          let d := tget 0 l.deficit t + (if l.dwrrIn then 0 else lget 0 l.quantum t * 64)
          let lw := wireLen p.data.length
          if lw ≤ d then ({ l with deficit := tset l.deficit t (d - lw), dwrrIn := true }, some t)
          else dwrr elig fuel (next { l with deficit := tset l.deficit t d })

/-- The port TC scheduler starts a frame at a frame boundary of a logical port (R369). -/
def State.egressPick (s : State) (lp : Nat) : State :=
    let s1 := (List.range 8).foldl (fun t c => State.gateDrop lp c (t.lport lp).egress.length t) s
    let l := s1.lport lp
    let elig := (List.range 8).map (fun c => s1.tcEligible lp c)
    match [7, 6, 5, 4, 3, 2, 1, 0].find? (fun c => l.strict.getLsbD c && lget false elig c) with
    | some c => s1.startFrame lp c
    | none =>
      if !(List.range 8).any (fun c => !l.strict.getLsbD c && lget false elig c) then s1
      else
        let r := dwrr (fun c => lget false elig c) 1600 l
        match r.2 with
        | none => s1
        | some c => (s1.modLport lp (fun _ => r.1)).startFrame lp c

/-- The egress of a logical port reaches a frame boundary and starts a frame (R369), or in a frame in transmission the next cell,
which has not crossed (R179). -/
def State.egressStart (s : State) (lp : Nat) : State :=
  if !s.hasLport lp ∨ !(s.lport lp).linkUp then s
  else match (s.lport lp).sending with
    | some p => s.underrun lp p
    | none => s.egressPick lp

end Sys2Proof.Machine
end

