-- ==== Sys2Proof/Machine/NetCmd.lean ====
section
/-! DEFINITION. The commands 0x0700 to 0x0707 of the network group (R357 to R359, R332, R334). -/

namespace Sys2Proof.Machine

open Sys2Proof

/-! ## NET_GET_STATUS -/

/-- The caller is partition 0, or `lp` is the home port of one of its functions (R357). -/
def State.homeOf (s : State) (p lp : Nat) : Bool :=
  p == 0 || s.net.vnics.any (fun e => e.2.part == p && e.2.lport == lp)

/-- The caller owns function `f`, or is partition 0 (R357). -/
def State.ownsVnic (s : State) (p f : Nat) : Bool :=
  p == 0 || (match s.vnic f with | some v => v.part == p | none => false)

/-- STATE of a logical port. -/
def LPort.state (l : LPort) : Nat := if !l.enabled then 1 else if l.linkUp then 3 else 2

/-- NET_GET_STATUS, 0x0700; in strict partition mode a host partition reads no counter, pause or XOFF (R426). -/
def cmdNetGetStatus : Cmd where
  op := 0x0700
  lenOk := lenIs 4
  allowed w q s := s.homeOf w.caller (q.u8 0x20)
  body w q s :=
    let lp := q.u8 0x20
    let shown := w.shown s.iso.strict
    match firstBad [(0x20, s.hasLport lp), (0x21, q.zero 0x21 3)] with
    | some x => bad s x
    | none =>
      let l := s.lport lp
      let ctrs := [l.rxFrames, l.rxBytes, l.txFrames, l.txBytes, l.rxFcsErr, l.rxOverflow, l.rxMissDrop, l.aclDrop,
        l.wredDrop, l.stomped, l.nodescDrop, l.pfcRx]
      ok s (leBytes 1 lp ++ leBytes 1 (s.netMode lp) ++ leBytes 1 l.state ++ leBytes 1 l.phy ++ leBytes 1 l.pfcEn.toNat ++
        leBytes 1 (shown (bitsOf 8 (fun p => tget false l.paused p))) ++ leBytes 1 (shown l.xoff.toNat) ++ leBytes 1 (b2n l.tsEn) ++
        leBytes 2 l.maxFrame ++ List.replicate 6 0 ++ ctrs.flatMap (fun c => leBytes 8 (shown c)))

/-! ## NET_PORT_SET -/

/-- The port's settings after the fields VALID names. -/
def portSetOf (q : Req) (l : LPort) : LPort :=
  let v := q.u8 0x21
  let l1 := if bit v 0 then { l with enabled := q.u8 0x22 == 1 } else l
  let l2 := if bit v 2 then { l1 with phy := q.u8 0x24 } else l1
  let l3 := if bit v 3 then { l2 with maxFrame := q.u16 0x28 } else l2
  let l4 := if bit v 4 then
      { l3 with ctcMap := BitVec.ofNat 32 (q.u32 0x30), ptcMap := BitVec.ofNat 32 (q.u32 0x34), defPrio := q.u8 0x25 }
    else l3
  let l5 := if bit v 5 then
      { l4 with pfcEn := BitVec.ofNat 8 (q.u8 0x26), cableNs := q.u16 0x2A,
                peerNs := if q.u16 0x2C = 0 then 1000 else q.u16 0x2C }
    else l4
  let l6 := if bit v 6 then { l5 with dflt := BitVec.ofNat 32 (q.u32 0x38) } else l5
  if bit v 7 then { l6 with tsEn := q.u8 0x27 == 1 } else l6

/-- Every field of a CTC_MAP is 0 to 6 (R330). -/
def ctcOk (m : Nat) : Bool := m / 2 ^ 24 == 0 && (List.range 8).all (fun i => decide (bits m (3 * i + 2) (3 * i) ≤ 6))

/-- A DEFAULT names an action of R332, and for HAIRPIN a present logical port. -/
def State.dfltOk (s : State) (d : Nat) : Bool :=
  d / 2 ^ 17 == 0 && d % 4 != 3 && (d % 4 != 1 || s.hasLport (bits d 16 12))

/-- Logical ports of the group of `lp` are in use: enabled, a home, or named by an entry or a DEFAULT (R358). -/
def State.groupInUse (s : State) (lp : Nat) : Bool :=
  let mine (n : Nat) : Bool := n / 4 == lp / 4
  s.net.lports.any (fun e => mine e.1 && e.2.enabled) || s.net.vnics.any (fun e => mine e.2.lport) ||
    s.net.em.any (fun e => mine (bits e.2.toNat 64 60) || (bits e.2.toNat 66 65 == 1 && mine (bits e.2.toNat 81 77))) ||
    s.net.lports.any (fun e => e.2.dflt.toNat % 4 == 1 && mine (bits e.2.dflt.toNat 16 12))

/-- The shared staging of a present port is at least 2 × MAX_FRAME (R350). -/
def State.stagingFits (s : State) (lp : Nat) : Bool :=
  let l := s.lport lp
  !s.hasLport lp || decide (l.headrooms (s.lportRate lp) + 2 * l.maxFrame ≤ s.stagingSize lp)

/-- Field checks of NET_PORT_SET. -/
def State.portSetChecks (s : State) (q : Req) : List (Nat × Bool) :=
  let v := q.u8 0x21
  let lp := q.u8 0x20
  [(0x20, s.hasLport lp && (!bit v 1 || lp % 4 == 0)), (0x21, v != 0), (0x22, !bit v 0 || decide (q.u8 0x22 ≤ 1)),
   (0x23, !bit v 1 || decide (q.u8 0x23 ≤ 2)), (0x24, !bit v 2 || decide (q.u8 0x24 ≤ 2)),
   (0x25, !bit v 4 || decide (q.u8 0x25 ≤ 7)), (0x27, !bit v 7 || decide (q.u8 0x27 ≤ 1)),
   (0x28, !bit v 3 || decide (1518 ≤ q.u16 0x28 ∧ q.u16 0x28 ≤ 9216)), (0x2A, !bit v 5 || decide (q.u16 0x2A ≤ 1000)),
   (0x2C, !bit v 5 || decide (q.u16 0x2C ≤ 10000)), (0x2E, q.zero 0x2E 2), (0x30, !bit v 4 || ctcOk (q.u32 0x30)),
   (0x34, !bit v 4 || q.u32 0x34 / 2 ^ 24 == 0), (0x38, !bit v 6 || s.dfltOk (q.u32 0x38)), (0x3C, q.zero 0x3C 4)]

/-- NET_PORT_SET, 0x0701. -/
def cmdNetPortSet : Cmd where
  op := 0x0701
  lenOk := lenIs 32
  allowed := onlyZero
  body w q s :=
    match firstBad (s.portSetChecks q) with
    | some x => bad s x
    | none =>
      let v := q.u8 0x21
      let lp := q.u8 0x20
      let l := s.lport lp
      let newMode := bit v 1 && q.u8 0x23 != s.netMode lp
      if l.training.isSome then failWith s rcConflict
      else if newMode ∧ s.groupInUse lp ∨ (bit v 0 ∧ q.u8 0x22 = 1 ∧ s.masked (netBlock lp)) then failWith s rcConflict
      else
        let s1 := if newMode then s.modNet (fun n => { n with modes := tset n.modes (lp / 4) (q.u8 0x23) }) else s
        let s2 := s1.modLport lp (portSetOf q)
        let retrain := newMode || (bit v 0 && (q.u8 0x22 == 1) != l.enabled) || (bit v 2 && q.u8 0x24 != l.phy)
        if !(List.range 4).all (fun i => s2.stagingFits (lp / 4 * 4 + i)) then failWith s rcBusy
        else if !retrain then ok s2
        else if !s.handleFree w.caller then failWith s rcBusy
        else
          let s3 := s2.lportLink lp false
          let h := s3.newHandle w.caller 0x0701
          pend (h.2.modLport lp (fun l => { l with training := some h.1 })) h.1

/-! ## vNIC functions -/

/-- PVID agrees with VLAN_FORCE. -/
def pvidOk (flags pvid : Nat) : Bool := if bit flags 1 then decide (1 ≤ pvid ∧ pvid ≤ 4094) else pvid == 0

/-- Queue pairs allocated on the module. -/
def State.qpsUsed (s : State) : Nat := s.net.vnics.foldl (fun a e => a + e.2.nqp) 0

/-- VNIC_CREATE, 0x0702. -/
def cmdVnicCreate : Cmd where
  op := 0x0702
  lenOk := lenIs 16
  allowed := onlyZero
  body _ q s :=
    let f := q.u16 0x20
    let p := q.u8 0x22
    let lp := q.u8 0x23
    let n := q.u8 0x24
    let fl := q.u8 0x25
    match firstBad [(0x20, decide (f < 1024)), (0x22, decide (p < 32)), (0x23, s.hasLport lp), (0x24, decide (1 ≤ n ∧ n ≤ 64)),
        (0x25, fl / 4 == 0), (0x26, pvidOk fl (q.u16 0x26)), (0x2E, q.zero 0x2E 2)] with
    | some x => bad s x
    | none =>
      if (s.vnic f).isSome then failWith s rcConflict
      else if 32 ≤ s.net.vnics.countP (fun e => e.2.part == p) ∨ 1024 ≤ s.net.vnics.length ∨ 16384 < s.qpsUsed + n then
        failWith s rcBusy
      else
        let k := s.freeBytes 40
        let v : Vnic := { part := p, lport := lp, nqp := n, mac := BitVec.ofNat 48 (beNat (q.bytes 0x28 6)), spoofChk := bit fl 0
                          vlanForce := bit fl 1, pvid := q.u16 0x26, rssKey0 := k.1 }
        let s1 := k.2.setVnic f { v.created with link := (s.lport lp).linkUp }
        ok s1 (leBytes 2 (16384 - s1.qpsUsed) ++ List.replicate 6 0)

/-- Function `f` is bound to a vDSP. -/
def State.vnicBound (s : State) (f : Nat) : Bool := s.vdsps.any (fun e => e.2.bound && e.2.kind == 6 && e.2.first == f)

/-- VNIC_DESTROY, 0x0703. -/
def cmdVnicDestroy : Cmd where
  op := 0x0703
  lenOk := lenIs 4
  allowed := onlyZero
  body w q s :=
    let f := q.u16 0x20
    match firstBad [(0x20, (s.vnic f).isSome), (0x22, q.zero 0x22 2)] with
    | some x => bad s x
    | none =>
      if s.vnicBound f || (match s.vnic f with | some v => v.destroying.isSome | none => false) then failWith s rcConflict
      else if !s.handleFree w.caller then failWith s rcBusy
      else
        let h := s.newHandle w.caller 0x0703
        pend ((h.2.modVnic f (fun v => { v with destroying := some h.1 })).vnicReset f) h.1

/-- VNIC_SET, 0x0704. -/
def cmdVnicSet : Cmd where
  op := 0x0704
  lenOk := lenIs 192
  allowed w q s := s.ownsVnic w.caller (q.u16 0x20) && (w.caller == 0 || !bit (q.u8 0x22) 2)
  body _ q s :=
    let f := q.u16 0x20
    let v := q.u8 0x22
    match s.vnic f with
    | none => bad s 0x20
    | some k =>
      let ind := (List.range 128).map (fun i => q.u8 (0x50 + i))
      match firstBad ([(0x22, v / 8 == 0), (0x23, !bit v 1 || decide (q.u8 0x23 ≤ 1)),
          (0x24, !bit v 0 || (!bit (q.u8 0x24) 0 && !bit (q.u8 0x24) 7)), (0x25, !bit v 0 || decide (q.u8 0x25 < k.nqp)),
          (0x26, q.zero 0x26 2)] ++ (List.range 128).map (fun i => (0x50 + i, !bit v 0 || decide (lget 0 ind i < k.nqp))) ++
          [(0xD6, !bit v 2 || q.u8 0xD6 / 4 == 0), (0xD7, q.zero 0xD7 1), (0xD8, !bit v 2 || pvidOk (q.u8 0xD6) (q.u16 0xD8)),
           (0xDA, q.zero 0xDA 6)]) with
      | some x => bad s x
      | none =>
        if k.destroying.isSome then failWith s rcConflict
        else
        let k1 := if bit v 0 then
            { k with rssTypes := BitVec.ofNat 8 (q.u8 0x24), rssDef := q.u8 0x25, rssKey := q.bytes 0x28 40, rssInd := ind }
          else k
        let k2 := if bit v 1 then { k1 with rxStrip := q.u8 0x23 == 1 } else k1
        let k3 := if bit v 2 then
            { k2 with mac := BitVec.ofNat 48 (beNat (q.bytes 0xD0 6)), spoofChk := bit (q.u8 0xD6) 0,
                      vlanForce := bit (q.u8 0xD6) 1, pvid := q.u16 0xD8 }
          else k2
        ok (s.setVnic f k3)

/-- A queue pair as OP 1 sets it up (R359). -/
def Qp.setUp (k : Qp) (q : Req) : Qp :=
  { enabled := true, itr := k.itr, intEn := k.intEn, itrWait := k.itrWait, itrPend := k.itrPend, txLog2 := q.u8 0x24
    rxLog2 := q.u8 0x25, rxBufKib := q.u8 0x26, rxRo := bit (q.u8 0x27) 0, defPrio := bits (q.u8 0x27) 3 1
    txRing := BitVec.ofNat 64 (q.u64 0x28), rxRing := BitVec.ofNat 64 (q.u64 0x30)
    rxWaitUs := if q.u16 0x38 = 0xFFFF then 100 else q.u16 0x38 }

/-- A queue pair stops: a packet in progress is given up without a write-back. -/
def Qp.stopTx (k : Qp) : Qp :=
  { k with enabled := false, tso := [], wb := if k.tso.isEmpty then k.wb else k.wb.dropLast }

/-- VNIC_QP_SET, 0x0705. -/
def cmdVnicQpSet : Cmd where
  op := 0x0705
  lenOk := lenIs 32
  allowed w q s := s.ownsVnic w.caller (q.u16 0x20)
  body w q s :=
    let f := q.u16 0x20
    let n := q.u8 0x22
    let op := q.u8 0x23
    match s.vnic f with
    | none => bad s 0x20
    | some v =>
      let one := op == 1
      match firstBad [(0x22, decide (n < v.nqp)), (0x23, decide (op ≤ 2)), (0x24, !one || decide (6 ≤ q.u8 0x24 ∧ q.u8 0x24 ≤ 15)),
          (0x25, !one || decide (6 ≤ q.u8 0x25 ∧ q.u8 0x25 ≤ 15)), (0x26, !one || decide (2 ≤ q.u8 0x26 ∧ q.u8 0x26 ≤ 16)),
          (0x27, q.u8 0x27 / 16 == 0), (0x28, !one || q.u64 0x28 % 4096 == 0), (0x30, !one || q.u64 0x30 % 4096 == 0),
          (0x38, decide (q.u16 0x38 ≤ 10000) || q.u16 0x38 == 0xFFFF), (0x3A, q.zero 0x3A 6)] with
      | some x => bad s x
      | none =>
        let k := v.qp n
        if v.destroying.isSome then failWith s rcConflict
        else match op with
        | 1 => if k.enabled ∨ k.error ∨ k.disabling.isSome then failWith s rcConflict
          else ok (s.modQp f n (fun k => k.setUp q))
        | 2 => if !k.error ∨ k.disabling.isSome then failWith s rcConflict
          else ok (s.modQp f n (fun k => { k.stopTx with error := false }))
        | _ =>
          if k.disabling.isSome then failWith s rcConflict
          else if !s.handleFree w.caller then failWith s rcBusy
          else
            let h := s.newHandle w.caller 0x0705
            pend (h.2.modQp f n (fun k => { k.stopTx with disabling := some h.1 })) h.1

/-- No DMA of a queue pair being disabled remains (R359). -/
def State.qpDisabled (s : State) (f q : Nat) : State :=
  let k := s.qpOf f q
  match k.disabling with
  | none => s
  | some h => if k.fetching ∨ !k.wb.isEmpty then s else (s.modQp f q (fun k => { k with disabling := none })).endHandle h rcOk

/-! ## NET_EM_SET, NET_ACL_SET -/

/-- Record `i` of a NET_EM_SET request. -/
def emRecord (q : Req) (i : Nat) : Nat := leNat (q.bytes (0x28 + 16 * i) 16)
/-- Key bits of a record. -/
def emRecKey (r : Nat) : Nat := bits r 64 0

/-- A record's fields are allowed. -/
def State.emRecordOk (s : State) (r : Nat) : Bool :=
  r / 2 ^ 83 == 0 && bits r 66 65 != 3 && s.hasLport (bits r 64 60) && (bits r 66 65 != 1 || s.hasLport (bits r 81 77))

/-- Apply records in order: the table, or the number of the record at fault and whether it is for want of room. -/
def emApply : List (Nat × Nat) → Tab (BitVec 128) → Except (Nat × Bool) (Tab (BitVec 128))
  | [], t => .ok t
  | (i, r) :: rest, t =>
    let k := emRecKey r
    let there := (tlook t k).isSome
    if bit r 82 then
      if !there ∧ 65536 ≤ t.length then .error (i, true) else emApply rest (tset t k (BitVec.ofNat 128 r))
    else if there then emApply rest (tdel t k) else .error (i, false)

/-- NET_EM_SET, 0x0706. -/
def cmdNetEmSet : Cmd where
  op := 0x0706
  lenOk q := q.length == 8 + 16 * q.u16 0x20
  allowed := onlyZero
  body _ q s :=
    let n := q.u16 0x20
    let rs := (List.range n).map (fun i => (i, emRecord q i))
    match firstBad ([(0x20, decide (1 ≤ n ∧ n ≤ 253)), (0x22, q.zero 0x22 6)] ++ rs.map (fun e => (0x28 + 16 * e.1, s.emRecordOk e.2))) with
    | some x => bad s x
    | none =>
      match emApply rs s.net.em with
      | .error (i, full) => if full then failWith s rcBusy else bad s (0x28 + 16 * i)
      | .ok t => ok (s.modNet (fun x => { x with em := t })) (leBytes 4 t.length ++ [0, 0, 0, 0])

/-- The ACL entry of record `i` of a NET_ACL_SET request. -/
def aclRecord (q : Req) (i : Nat) : AclEnt :=
  let o := 0x28 + 64 * i
  { key := BitVec.ofNat 192 (leNat (q.bytes o 24)), mask := BitVec.ofNat 192 (leNat (q.bytes (o + 24) 24))
    action := BitVec.ofNat 64 (q.u64 (o + 0x30)), valid := q.u8 (o + 0x38) == 1 }

/-- Field checks of record `i`. -/
def aclRecordChecks (q : Req) (i : Nat) : List (Nat × Bool) :=
  let o := 0x28 + 64 * i
  [(o + 0x30, q.u64 (o + 0x30) / 2 ^ 18 == 0), (o + 0x38, decide (q.u8 (o + 0x38) ≤ 1)), (o + 0x39, q.zero (o + 0x39) 7)]

/-- NET_ACL_SET, 0x0707. -/
def cmdNetAclSet : Cmd where
  op := 0x0707
  lenOk q := q.length == 8 + 64 * q.u16 0x22
  allowed := onlyZero
  body _ q s :=
    let first := q.u16 0x20
    let n := q.u16 0x22
    match firstBad ([(0x20, decide (first < 4096)), (0x22, decide (1 ≤ n ∧ n ≤ 63 ∧ first + n ≤ 4096)), (0x24, q.zero 0x24 4)] ++
        (List.range n).flatMap (aclRecordChecks q)) with
    | some x => bad s x
    | none => ok (s.modNet (fun x => { x with acl := tfill x.acl first n (fun k => aclRecord q (k - first)) }))

end Sys2Proof.Machine
end

