-- ==== Sys2Proof/Machine/Mailbox.lean ====
section
/-! DEFINITION. The mailbox page (R61 to R64), the registers of BAR0 and the contents of BAR2 (R57, R58, R448,
R449), the download page of Kindling (R469) and the message paths (R75 to R78, R501). -/

namespace Sys2Proof.Machine

open Sys2Proof

/-! ## The page -/

/-- Cluster `c` has a mailbox page: it runs, for a partition (R394). -/
def State.clusterOpen (s : State) (c : Nat) : Bool :=
  decide (c < 4) && (s.cluster c).st != .stopped && decide ((s.cluster c).part < 32)

/-- Page `pg` can be reached. -/
def State.pageOpen (s : State) (pg : Nat) : Bool :=
  if pg < 32 then s.barsOpen pg else s.clusterOpen (pg - 32)

/-- The external interrupt of core 0 of a cluster follows DONE_INT and INT_EN (R394). -/
def State.pageMeip (s : State) (pg : Nat) : State :=
  if pg < 32 then s else s.setMeip (pg - 32) ((s.page pg).doneInt && (s.page pg).intEn)

/-- The partition of S0P0, behind which Kindling presents the management function (R469). -/
def State.dlPart (s : State) : Nat := (s.port 0).part

/-- Kindling ends a download attempt: status in the buffer, STATE DONE (R469). -/
def State.downloadEnd (s : State) (status : Nat) : State :=
  (s.modPage s.dlPart (fun g => { g with st := .done, rspBuf := mwrite 0 g.rspBuf 0 (leBytes 2 status) })).modBoot (fun b =>
    { b with dlStatus := status, dlBusy := false })

/-- GO in host download: IMAGE_ADDR and IMAGE_SIZE are taken and the image is read, unless the size is out of range
or Bus Master Enable is clear (R469). -/
def State.downloadGo (s : State) : State :=
  let g := s.page s.dlPart
  if s.boot.phase ≠ .hostDownload then s
  else if g.st ≠ .idle then s.modPage s.dlPart (fun g => { g with dbErr := true })
  else
    let addr := leNat (mread 0 g.cmdBuf 0 8)
    let size := leNat (mread 0 g.cmdBuf 8 4)
    let s1 := s.modBoot (fun b => { b with dlAddr := BitVec.ofNat 64 addr, dlSize := BitVec.ofNat 32 size })
    if size < 4 ∨ 0x03000000 < size ∨ size % 4 ≠ 0 then s1.downloadEnd rcBadLength
    else if !(s.vs s.dlPart).mgmt.busMaster then s1.downloadEnd rcHwFault
    else ((s1.modPage s.dlPart (fun g => { g with st := .busy })).modBoot (fun b => { b with dlBusy := true })).emit
      (.downloadRead (BitVec.ofNat 64 addr) size)

/-- ACK is written (R62). -/
def State.ackPage (s : State) (pg : Nat) : State :=
  s.modPage pg (fun g => if g.st = .done then { g with st := .idle } else { g with dbErr := true })

/-- GO is written: from IDLE the command is queued, in order of arrival (R62, R72). -/
def State.goPage (s : State) (pg : Nat) : State :=
  if s.boot.phase = .hostDownload then (if pg = s.dlPart then s.downloadGo else s)
  else if (s.page pg).st = .idle then
    (s.modPage pg (fun g => { g with st := .queued, cmdSeen := g.cmdBuf })).modEmber (fun e =>
      { e with arrivals := e.arrivals.filter (fun a => a != pg) ++ [pg] })
  else s.modPage pg (fun g => { g with dbErr := true })

/-- A write of MB_DOORBELL: ACK first, GO second (R574). -/
def State.doorbell (s : State) (pg v : Nat) : State :=
  let s1 := if bit v 1 then s.ackPage pg else s
  if bit v 0 then s1.goPage pg else s1

/-- MB_STATUS (R61). -/
def State.mbStatus (s : State) (pg : Nat) : Nat :=
  let g := s.page pg
  let st := match g.st with
    | .idle => 0
    | .queued => 1
    | .busy => 2
    | .done => 3
    | .resetting => 4
  b2n s.ember.fwReady * 2 ^ 31 + b2n s.ember.smoulder * 2 ^ 30 + g.doneSeq.toNat * 256 + b2n g.orphan * 32 +
    b2n g.dbErr * 16 + b2n g.doneInt * 8 + st

/-- Partition whose handles MB_HANDLE_CNT of page `pg` counts. -/
def State.pagePart (s : State) (pg : Nat) : Nat := if pg < 32 then pg else (s.cluster (pg - 32)).part

/-- The dword at offset `off` of a mailbox page (R61); buffers read as bytes, the rest of the page 0. -/
def State.pageRead (s : State) (pg off : Nat) : Nat :=
  let g := s.page pg
  if off = 0x4 then s.mbStatus pg
  else if off = 0x8 then b2n g.intEn
  else if off = 0xC then (if s.boot.phase = .hostDownload then 0x1000 else 0x00011000)
  else if off = 0x10 then g.orphanTag.toNat
  else if off = 0x14 then g.orphanOp.toNat * 65536 + g.orphanStatus.toNat
  else if off = 0x18 then s.openHandles (s.pagePart pg)
  else if 0x1000 ≤ off ∧ off < 0x2000 then leNat (mread 0 g.cmdBuf (off - 0x1000) 4)
  else if 0x2000 ≤ off ∧ off < 0x3000 then leNat (mread 0 g.rspBuf (off - 0x2000) 4)
  else 0

/-- Bytes stored to the command buffer; while QUEUED Ember may or may not see them (R64). -/
def State.cmdBufWrite (s : State) (pg off : Nat) (d : Bytes) : State :=
  let s1 := s.modPage pg (fun g => { g with cmdBuf := mwrite 0 g.cmdBuf off d })
  if (s.page pg).st = .queued then
    let r := s1.freeBit
    if r.1 then r.2.modPage pg (fun g => { g with cmdSeen := mwrite 0 g.cmdSeen off d }) else r.2
  else s1

/-- A dword written at offset `off` of a mailbox page (R61 to R64). -/
def State.pageWrite (s : State) (pg off v : Nat) : State :=
  if off = 0x0 then s.doorbell pg v
  else if off = 0x4 then
    (s.modPage pg (fun g =>
      { g with orphan := g.orphan && !bit v 5, dbErr := g.dbErr && !bit v 4, doneInt := g.doneInt && !bit v 3 })).pageMeip pg
  else if off = 0x8 then (s.modPage pg (fun g => { g with intEn := bit v 0 })).pageMeip pg
  else if 0x1000 ≤ off ∧ off < 0x2000 then s.cmdBufWrite pg (off - 0x1000) (leBytes 4 v)
  else s

/-! ## Event registers and the MSI-X table -/

/-- Partition `p` can receive event `e` (R447). -/
def receivable (p e : Nat) : Bool :=
  if e < 0x800 then (faultClass e).isSome && (p == 0 || attributable e)
  else if e ≤ 0x806 ∨ e = 0x809 ∨ e = 0x80C then true
  else p == 0 && decide (e ≤ 0x811)

/-- EV_BLOCKS of a partition, 64 bits (R449): partition 0 sees the module map. -/
def State.evBlocks (s : State) (p : Nat) : Nat :=
  bitsOf 64 (fun b => (if p = 0 then tget 0 s.flt.s b else tget 0 s.flt.ps (p * 64 + b)) != 0)

/-- An event register of partition `p`, by BAR0 offset (R449). -/
def State.evRead (s : State) (p off : Nat) : Nat :=
  let g := s.ring p
  if off = 0x4000 then g.prod
  else if off = 0x4004 then g.cons
  else if off = 0x4008 then g.vec * 256 + b2n g.ringInt * 2 + b2n g.ringEn
  else if off = 0x400C then g.lost * 65536 + b2n g.overflow
  else if off = 0x4010 then (if p = 0 ∧ s.flt.armed then 4 + b2n s.pairFault else 0)
  else if off = 0x4018 then s.evBlocks p % 2 ^ 32
  else if off = 0x401C then s.evBlocks p / 2 ^ 32
  else if 0x5000 ≤ off ∧ off < 0x6000 then
    leNat ((List.range 4).map (fun i =>
      let e := off - 0x5000 + i
      BitVec.ofNat 8 (if receivable p e then g.vectorOf e else 0)))
  else 0

/-- A write of an event register (R449). -/
def State.evWrite (s : State) (p off v : Nat) : State :=
  if off = 0x4004 then s.modRing p (fun g => { g with cons := v % 65536 })
  else if off = 0x4008 then s.modRing p (fun g => { g with vec := bits v 13 8, ringInt := bit v 1, ringEn := bit v 0 })
  else if off = 0x400C then s.modRing p (fun g => { g with overflow := g.overflow && !bit v 0 })
  else if 0x5000 ≤ off ∧ off < 0x6000 then
    s.modRing p (fun g => { g with vector := (List.range 4).foldl (fun t i =>
      let e := off - 0x5000 + i
      let b := bits v (8 * i + 7) (8 * i)
      if receivable p e then tset t e (b / 128 * 128 + b % 64) else t) g.vector })
  else s

/-- Send the pending vectors that are no longer masked (R57). -/
def State.mgmtUnmask (s : State) (p : Nat) : State :=
  (List.range 64).foldl (fun t i =>
    let m := (t.vs p).mgmt
    if m.pba.getLsbD i ∧ m.msixEn ∧ !m.msixMask ∧ !(msixDword m.msixTable (4 * i + 3)).getLsbD 0 then
      (t.modVs p (fun v => { v with mgmt := { v.mgmt with pba := v.mgmt.pba &&& ~~~(1 <<< i : BitVec 64) } })).msixSend p i
    else t) s

/-- A write of the MSI-X table: of vector control only the mask bit exists, and a message address is DWORD aligned
(log 5). -/
def State.msixWrite (s : State) (p i v : Nat) : State :=
  let w := if i % 4 = 3 then v % 2 else if i % 4 = 0 then v / 4 * 4 else v
  (s.modVs p (fun x => { x with mgmt := { x.mgmt with msixTable := tset x.mgmt.msixTable i (BitVec.ofNat 32 w) } })).mgmtUnmask p

/-- The dword at BAR0 offset `off` of partition `p` (R57). -/
def State.bar0Dword (s : State) (p off : Nat) : Nat :=
  if off < 0x4000 then s.pageRead p off
  else if off < 0x8000 then s.evRead p off
  else if off < 0x8400 then (msixDword (s.vs p).mgmt.msixTable ((off - 0x8000) / 4)).toNat
  else if off < 0x8408 then bits (s.vs p).mgmt.pba.toNat ((off - 0x8400) * 8 + 31) ((off - 0x8400) * 8)
  else 0

/-- A dword written at BAR0 offset `off` of partition `p` (R57). In host download only the download page of S0P0
exists (R469). -/
def State.bar0Store (s : State) (p off v : Nat) : State :=
  if off < 0x4000 then s.pageWrite p off v
  else if off < 0x8000 then s.evWrite p off v
  else if off < 0x8400 then s.msixWrite p ((off - 0x8000) / 4) v
  else s

/-- An access BAR0 accepts: naturally aligned, 4 bytes (R58). -/
def bar0Fits (off size : Nat) : Bool := size == 4 && off % 4 == 0

/-- A read of BAR0; none for Unsupported Request, which the ledger counts (R58). -/
def State.bar0Read (s : State) (p off size : Nat) : Option Bytes × State :=
  if bar0Fits off size then (some (leBytes 4 (s.bar0Dword p off)), s) else (none, s.ledgerOnly 0x32)

/-- A write of BAR0 (R58). -/
def State.bar0Write (s : State) (p off size v : Nat) : State :=
  if bar0Fits off size then s.bar0Store p off (v % 2 ^ 32) else s.ledgerOnly 0x32

/-! ## BAR2 -/

/-- The 32 bytes of an event record (R448). -/
def EvRec.bytes (r : EvRec) : Bytes :=
  leBytes 2 (r.id + r.cls * 4096) ++ leBytes 1 r.flags ++ leBytes 1 r.part ++ leBytes 4 r.seq ++ leBytes 8 r.time ++
    leBytes 8 r.d0.toNat ++ leBytes 8 r.d1.toNat

/-- The record in ring slot `i`; a slot never written reads zeros. -/
def EvRing.slotBytes (g : EvRing) (i : Nat) : Bytes :=
  match tlook g.ring i with
  | some r => r.bytes
  | none => List.replicate 32 0

/-- Partition `p` sees sweep buffers in BAR2: its stream writes there (R515, R448). -/
def State.sweepShown (s : State) (p : Nat) : Bool :=
  let x : Stream := tget {} s.cnt.streams p
  x.enabled && x.dest == 0 && (p == 0 || (s.partCfg p).perfUser) && s.pool.present && (s.sod s.pool.reserve).st == .reserve

/-- Byte `off` of BAR2 of partition `p` (R448). -/
def State.bar2Byte (s : State) (p off : Nat) : Byte :=
  if off < 0x20000 then ((s.ring p).slotBytes (off / 32)).getD (off % 32) 0
  else if off < 0x100000 ∧ s.sweepShown p then s.pool.byte (poolKey s.pool.reserve (sweepByte p off))
  else 0

/-- `n` bytes of BAR2 (R448). -/
def State.bar2Bytes (s : State) (p off n : Nat) : Bytes := (List.range n).map (fun i => s.bar2Byte p (off + i))

/-! ## Message paths -/

/-- A path that carries messages (R54). -/
def messagePath : Path → Bool
  | .sideband => true
  | .vdm _ => true
  | _ => false

/-- The bus owner has assigned the sideband endpoint its ID, before which only MCTP control is answered (R77). -/
def State.eidReady (s : State) (c : Path) : Bool := c != .sideband || s.ember.sbEid != 0

/-- A command message on a message path: queued, refused when its position is full, or discarded (R76, R78). -/
def State.mctpCommand (s : State) (c : Path) (msgTag : Nat) (whole : Bool) (body : Bytes) : State :=
  if !messagePath c ∨ !s.ember.fwReady ∨ (s.partOf c).isNone then s
  else if !whole ∨ body.length < 36 then s.ledgerOnly 0x32
  else if slice body 0 1 ≠ [0x7E] ∨ beNat (slice body 1 2) ≠ Config.vendorId.toNat ∨ slice body 3 1 ≠ [1] then s
  else if !s.eidReady c then s
  else
    let f := reqOfBytes (body.drop 4)
    let pos := posOf c
    if s.ember.arrivals.contains pos then
      s.respond c msgTag { opcode := f.1, status := rcBusy, tag := f.2.tag }
    else s.modEmber (fun e =>
      { e with msgQ := tset e.msgQ pos { opcode := f.1, req := f.2, msgTag := msgTag }, arrivals := e.arrivals ++ [pos] })

/-- The module answers an MCTP control message on path `c`. -/
def State.mctpAnswers (s : State) (c : Path) : Bool := messagePath c && s.ember.fwReady && (s.partOf c).isSome

/-- Answer of an MCTP control message: command, completion code and data. -/
def State.mctpReply (s : State) (c : Path) (cmd cc : Nat) (d : List Nat) : State :=
  s.emit (.mctp c cmd cc (d.map (BitVec.ofNat 8)))

/-- The endpoint ID of a path (R77). -/
def State.eidOf (s : State) : Path → Nat
  | .vdm p => tget 0 s.ember.vdmEid p
  | _ => s.ember.sbEid

/-- Set Endpoint ID (R75, R77): operations 0 and 1 take an ID other than 0 and 0xFF. -/
def State.setEid (s : State) (c : Path) (op eid : Nat) : State :=
  if !s.mctpAnswers c then s
  else if 1 < op ∨ eid = 0 ∨ 255 ≤ eid then s.mctpReply c 1 2 []
  else
    (s.modEmber (fun e => match c with
      | .vdm p => { e with vdmEid := tset e.vdmEid p eid }
      | _ => { e with sbEid := eid })).mctpReply c 1 0 [0, eid, 0]

/-- Get Endpoint ID (R75). -/
def State.getEid (s : State) (c : Path) : State :=
  if s.mctpAnswers c then s.mctpReply c 2 0 [s.eidOf c, 0, 0] else s

/-- Get MCTP Version Support (R75): version 1.3 for the base and control messages. -/
def State.mctpVersion (s : State) (c : Path) (msgType : Nat) : State :=
  if !s.mctpAnswers c then s
  else if msgType = 0xFF ∨ msgType = 0 then s.mctpReply c 4 0 [1, 0xF1, 0xF3, 0xFF, 0]
  else if msgType = 0x7E ∨ (msgType = 1 ∧ c = .sideband) then s.emit (.mctp c 4 0 (Config.pldmData 4 msgType))
  else s.mctpReply c 4 0x80 []

/-- Get Message Type Support (R75, R76, R501): PLDM on the sideband, vendor-defined messages on both paths. -/
def State.mctpTypes (s : State) (c : Path) : State :=
  if !s.mctpAnswers c then s
  else if c = .sideband then s.mctpReply c 5 0 [2, 1, 0x7E] else s.mctpReply c 5 0 [1, 0x7E]

/-- Get Vendor Defined Message Support (R75, R76): one vendor ID, command set 0x01. -/
def State.mctpVendor (s : State) (c : Path) (selector : Nat) : State :=
  if !s.mctpAnswers c then s
  else if selector = 0 then
    s.mctpReply c 6 0 [0xFF, 0, Config.vendorId.toNat / 256, Config.vendorId.toNat % 256, 0, 1]
  else s.mctpReply c 6 2 []

/-- The bus assigns the sideband's dynamic address (R555). -/
def State.dynamicAddress (s : State) (addr : Nat) : State :=
  { s with lands := { s.lands with dynAddr := some (addr % 128) } }

/-- PLDM messages are answered on the sideband once it has an endpoint ID (R77, R501). -/
def State.pldmAnswers (s : State) : Bool := s.ember.fwReady && s.ember.sbEid != 0

/-- Data of a PLDM response the cited specification lays out (R501, log 41). -/
def State.pldmReply (s : State) (cmd arg : Nat) : State :=
  if s.pldmAnswers then s.emit (.mctp .sideband cmd 0 (Config.pldmData cmd arg)) else s

/-- A PLDM response with data the model lays out. -/
def State.pldmSend (s : State) (cmd cc : Nat) (d : Bytes) : State :=
  if s.pldmAnswers then s.emit (.mctp .sideband cmd cc d) else s

/-- The bytes of a bitfield of `n` bytes in which the bits of `l` are set. -/
def bitField (n : Nat) (l : List Nat) : Bytes := leBytes n (bitsOf (8 * n) (fun i => l.contains i))

/-- Reading of sensor 1 to 16 in its unit (R501). -/
def Tele.reading (t : Tele) (i : Nat) : Option Nat :=
  if i = 0 ∨ 16 < i then none
  else some ((([t.vin, t.vhold, t.iin / 10, t.pin, t.bus12v, t.bus12i, t.vddCore, t.coreI] : List Nat) ++ t.rails ++
    [t.tj, t.tInput]).getD (i - 1) 0)

/-- GetSensorReading (R501): completion code 0x80 for a sensor that does not exist. -/
def State.sensorReading (s : State) (i : Nat) : State :=
  match s.pwr.tele.reading i with
  | some v => s.pldmSend 0x11 0 (leBytes 2 v)
  | none => s.pldmSend 0x11 0x80 []

end Sys2Proof.Machine
end

