-- ==== Sys2Proof/Machine/HearthOps.lean ====
section
/-! DEFINITION. Shared operations of the Hearth cores: the physical map (R393), the MPU and address translation
(R390, R395 to R400), traps (R411), the control block (R394, R414), the store buffer and accesses through the fabric
aperture (R401, R405 to R408). -/

namespace Sys2Proof.Machine

open Sys2Proof

/-! ## The physical map -/

/-- What a physical address reaches (R393). -/
inductive HPlace where
  /-- Local space. -/
  | loc (off : Nat)
  /-- A byte of the pool, by key. -/
  | sod (key : Nat)
  /-- An input address of the partition's host windows. -/
  | aperture (a : Nat)
  /-- Nothing. -/
  | nothing
  deriving DecidableEq, Repr, Inhabited

/-- What physical address `pa` reaches from cluster `c` (R393). -/
def State.hPlace (s : State) (c pa : Nat) : HPlace :=
  if pa < 0x04000000 then .loc pa
  else if 0x080000000000 ≤ pa ∧ pa < 0x100000000000 then
    match s.sodAt c pa with
    | some a => .sod a
    | none => .nothing
  else if 0x1000000000000 ≤ pa ∧ pa < 0x2000000000000 then .aperture (pa - 0x1000000000000)
  else .nothing

/-! ## Kinds of access -/

/-- Kinds of access (R398, R411). -/
inductive HKind where
  /-- Instruction fetch. -/
  | fetch
  /-- Load, LR. -/
  | load
  /-- Store, SC, AMO. -/
  | store
  deriving DecidableEq, Repr, Inhabited

/-- Access fault of a kind (R411). -/
def HKind.access : HKind → Nat
  | .fetch => 1
  | .load => 5
  | .store => 7
/-- Page fault of a kind. -/
def HKind.page : HKind → Nat
  | .fetch => 12
  | .load => 13
  | .store => 15
/-- MPU overlap of a kind (R411). -/
def HKind.overlap : HKind → Nat
  | .fetch => 24
  | .load => 25
  | .store => 26
/-- Place of a kind's bit among the three permission bits R, W, X. -/
def HKind.perm : HKind → Nat
  | .fetch => 2
  | .load => 0
  | .store => 1

/-! ## MPU -/

/-- The 16 regions of a core's table. -/
def mpuList (t : Tab Mpu) : List Mpu := (List.range 16).map (fun i => tget {} t i)
/-- The 32 entries of a core's attribute table. -/
def attrList (t : Tab Attr) : List Attr := (List.range 32).map (fun i => tget {} t i)

/-- First address of a region. -/
def Mpu.base (m : Mpu) : Nat := bits m.addr.toNat 55 6 * 64
/-- SIZE. -/
def Mpu.size (m : Mpu) : Nat := bits m.cfg.toNat 13 8
/-- EN. -/
def Mpu.en (m : Mpu) : Bool := bit m.cfg.toNat 14
/-- L. -/
def Mpu.locked (m : Mpu) : Bool := bit m.cfg.toNat 15

/-- An enabled region covers physical address `a` (R397). -/
def Mpu.covers (m : Mpu) (a : Nat) : Bool :=
  m.en && decide (6 ≤ m.size ∧ m.size ≤ 56) && m.base % 2 ^ m.size == 0 && decide (m.base ≤ a ∧ a < m.base + 2 ^ m.size)

/-- The default map of S-mode and M-mode (R395). -/
def State.hDefault (s : State) (c : Nat) (kind : HKind) (pa : Nat) : Bool :=
  match s.hPlace c pa with
  | .loc off => off / 2 ^ 20 == c && kind != .fetch
  | .sod _ => true
  | .aperture _ => kind != .fetch
  | .nothing => false

/-- The check of one access by its first byte: the cause it raises, if any (R398). -/
def State.mpuCheck (s : State) (regs : List Mpu) (c : Nat) (mode : HMode) (kind : HKind) (pa : Nat) : Option Nat :=
  match regs.filter (fun m => m.covers pa) with
  | [] => if mode ≠ .u ∧ s.hDefault c kind pa then none else some kind.access
  | [m] =>
    if mode = .m ∧ !m.locked then none
    else if bit m.cfg.toNat ((if mode = .u then 0 else 3) + kind.perm) then none else some kind.access
  | _ => some kind.overlap

/-- The rules an access is checked under; between a write and the fence after it, old or new (R400). -/
def State.mpuInForce (s : State) (c k : Nat) : List Mpu × State :=
  let h := s.hcore c k
  if h.mpu = h.mpuEff then (mpuList h.mpuEff, s)
  else
    let r := s.freeBit
    (mpuList (if r.1 then h.mpu else h.mpuEff), r.2)

/-! ## Address translation -/

/-- A fault: its cause, and whether poisoned data was consumed. -/
abbrev HFault := Nat × Bool

/-- CSR `n` of a core, as kept by number. -/
def HCore.csrAt (h : HCore) (n : Nat) : Nat := (tget 0 h.csr n).toNat
/-- mstatus. -/
def HCore.mstatus (h : HCore) : Nat := h.csrAt 0x300

/-- A leaf entry permits the access (R390). -/
def leafOk (h : HCore) (mode : HMode) (kind : HKind) (pte : Nat) : Bool :=
  let user := bit pte 4
  (match mode with
   | .u => user
   | _ => !user || (kind != .fetch && bit h.mstatus 18)) &&
  (match kind with
   | .fetch => bit pte 3
   | .load => bit pte 1 || (bit pte 3 && bit h.mstatus 19)
   | .store => bit pte 2) &&
  bit pte 6 && (kind != .store || bit pte 7)

/-- The Sv48 walk from the table at `table`, `lvl + 1` levels to go: entries are read as S-mode reads, and a fault
takes the kind of the access (R390, R398). -/
def State.walk (s : State) (c : Nat) (regs : List Mpu) (h : HCore) (mode : HMode) (kind : HKind) (va : Nat) :
    Nat → Nat → Except HFault Nat
  | 0, _ => .error (kind.page, false)
  | lvl + 1, table =>
    let pa := table + bits va (20 + 9 * lvl) (12 + 9 * lvl) * 8
    match s.mpuCheck regs c .s .load pa, s.hPlace c pa with
    | some cause, _ => .error (if cause = 25 then kind.overlap else kind.access, false)
    | none, .sod key =>
      if s.pool.tainted key 8 then .error (kind.access, true)
      else
        let pte := leNat (s.pool.bytes key 8)
        let ppn := bits pte 53 10
        if !bit pte 0 ∨ (!bit pte 1 ∧ bit pte 2) ∨ bits pte 63 54 ≠ 0 then .error (kind.page, false)
        else if bit pte 1 ∨ bit pte 3 then
          if ppn % 2 ^ (9 * lvl) ≠ 0 ∨ !leafOk h mode kind pte then .error (kind.page, false)
          else .ok (ppn * 4096 + va % 2 ^ (12 + 9 * lvl))
        else if bit pte 4 ∨ bit pte 6 ∨ bit pte 7 then .error (kind.page, false)
        else State.walk s c regs h mode kind va lvl (ppn * 4096)
    | none, _ => .error (kind.access, false)

/-- The mode a core's access runs in: MPRV lends M-mode loads and stores the mode of MPP. -/
def HCore.accessMode (h : HCore) (kind : HKind) : HMode :=
  if kind ≠ .fetch ∧ h.mode = .m ∧ bit h.mstatus 17 then
    match bits h.mstatus 12 11 with
    | 0 => .u
    | 1 => .s
    | _ => .m
  else h.mode

/-- Translation of a virtual address (R390). -/
def State.translate (s : State) (c : Nat) (regs : List Mpu) (h : HCore) (kind : HKind) (va : Nat) : Except HFault Nat :=
  let mode := h.accessMode kind
  let satp := h.csrAt 0x180
  if mode = .m ∨ bits satp 63 60 ≠ 9 then
    if 2 ^ 56 ≤ va then .error (kind.access, false) else .ok va
  else if bits va 63 47 ≠ 0 ∧ bits va 63 47 ≠ 2 ^ 17 - 1 then .error (kind.page, false)
  else s.walk c regs h mode kind va 4 (bits satp 43 0 * 4096)

/-- One piece of a split access: virtual address, physical address, length (R399). -/
structure HPiece where
  /-- Virtual address. -/
  va : Nat
  /-- Physical address. -/
  pa : Nat
  /-- Bytes. -/
  n : Nat
  deriving DecidableEq, Repr, Inhabited

/-- The pieces of an access at 64-byte boundaries (R399). -/
def cut64 (va size : Nat) : List (Nat × Nat) :=
  let n := Nat.min size (64 - va % 64)
  if n = size then [(va, size)] else [(va, n), ((va + n) % 2 ^ 64, size - n)]

/-- Every piece translated and checked; the first that fails gives the cause and its address (R398, R399). -/
def State.checkPieces (s : State) (c : Nat) (regs : List Mpu) (h : HCore) (kind : HKind) :
    List (Nat × Nat) → Except (HFault × Nat) (List HPiece)
  | [] => .ok []
  | (va, n) :: r =>
    match s.translate c regs h kind va with
    | .error e => .error (e, va)
    | .ok pa =>
      match s.mpuCheck regs c (h.accessMode kind) kind pa with
      | some cause => .error ((cause, false), va)
      | none =>
        if s.hPlace c pa = .nothing then .error ((kind.access, false), va)
        else match State.checkPieces s c regs h kind r with
          | .error e => .error e
          | .ok ps => .ok ({ va := va, pa := pa, n := n } :: ps)

/-! ## Issue slots (R512, R521) -/

/-- Count `n` of an event of core `k` of cluster `c` (R508). -/
def State.coreEvent (s : State) (c k event n : Nat) : State :=
  s.count { block := 0x2E + c, event := event, raw := n, part := some (s.cluster c).part, core := some k }

/-- A counter CSR of the base architecture advanced by `n`, unless its bit of mcountinhibit is set (R521). -/
def HCore.ctrCsr (h : HCore) (csr n : Nat) : HCore :=
  if bit (tget 0 h.csr 0x320).toNat (csr % 16) then h
  else { h with csr := tset h.csr csr (BitVec.ofNat 64 ((tget 0 h.csr csr).toNat + n)) }

/-- An instruction of core `k` retires: its slot is a retired one (R512). -/
def State.retire (s : State) (c k : Nat) : State :=
  (s.modHcore c k (fun h => { (h.ctrCsr 0xB02 1) with slots := h.slots + 1 })).coreEvent c k 0x11 1

/-- An instruction of core `k` is squashed: its slot is a wasted one (R512). -/
def State.squash (s : State) (c k : Nat) : State :=
  (s.modHcore c k (fun h => { h with slots := h.slots + 1 })).coreEvent c k 0x12 1

/-- A free number at most `m`. -/
def State.freeUpTo (s : State) (m : Nat) : Nat × State :=
  let r := s.freeNat
  (r.1 % (m + 1), r.2)

/-- The slots of one tick that no instruction of the table's rows fills: retired, wasted, back-starved and front-starved. The
instructions the table has no row for and the state of the issue queue decide, and the four are free (log 87). -/
def State.classSlots (s : State) (c k n : Nat) : State :=
  let a := s.freeUpTo n
  let b := a.2.freeUpTo (n - a.1)
  let d := b.2.freeUpTo (n - a.1 - b.1)
  ((((d.2.modHcore c k (fun h => h.ctrCsr 0xB02 a.1)).coreEvent c k 0x11 a.1).coreEvent c k 0x12 b.1).coreEvent c k 0x14 d.1).coreEvent
    c k 0x13 (n - a.1 - b.1 - d.1)

/-- The issue handshakes of core `k` in one tick and their four slots each (R512, R541). How many there are follows the speed of
the die and the core's waiting for an interrupt, and is free (log 87). A system-scope fence that waits leaves every
slot back-starved. -/
def State.issueTick (s : State) (c k : Nat) : State :=
  if !(s.hcore c k).running then s
  else
    let r := s.freeUpTo 1023
    let n := r.1 * (8 - s.age.throttle) / 8
    let filled := Nat.min (4 * n) (s.hcore c k).slots
    let s1 := (r.2.modHcore c k (fun h => { (h.ctrCsr 0xB00 n) with slots := h.slots - filled })).coreEvent c k 0x10 n
    match (s.hcore c k).wait with
    | some (.fence _) => (s1.coreEvent c k 0x14 (4 * n - filled)).coreEvent c k 0x16 n
    | _ => s1.classSlots c k (4 * n - filled)

/-- An access of core `k` to the sod region may miss the L2: caches hold no state of the model, and a free bit says (log 87). -/
def State.l2Access (s : State) (c k : Nat) : State :=
  let r := s.freeBit
  if r.1 then r.2.coreEvent c k 0x15 1 else r.2

/-! ## Traps -/

/-- Replace bits `[hi:lo]` of a number. -/
def setBits (v hi lo x : Nat) : Nat := v - bits v hi lo * 2 ^ lo + x % 2 ^ (hi + 1 - lo) * 2 ^ lo

/-- Set CSR `n`. -/
def HCore.setCsr (h : HCore) (n v : Nat) : HCore := { h with csr := tset h.csr n (BitVec.ofNat 64 v) }

/-- Number of a mode as mstatus holds it. -/
def HMode.code : HMode → Nat
  | .u => 0
  | .s => 1
  | .m => 3

/-- Where a trap goes. -/
def trapPc (tvec cause : Nat) (intr : Bool) : Nat :=
  tvec / 4 * 4 + (if intr ∧ tvec % 4 = 1 then 4 * cause else 0)

/-- A core takes a trap: saved pc, cause and value, mode and interrupt stack, and the handler's address, in S-mode
where it is delegated; the reservation is lost and any wait abandoned (R409, R410, R411). -/
def HCore.trap (h : HCore) (cause : Nat) (intr : Bool) (epc tval : Nat) : HCore :=
  let m := h.mstatus
  let code := cause + (if intr then 2 ^ 63 else 0)
  let deleg := (intr ∧ cause = 16) ∨ bit (h.csrAt (if intr then 0x303 else 0x302)) cause
  let h0 : HCore := { h with reservation := none, wait := none }
  if h.mode ≠ .m ∧ deleg then
    let m1 := setBits (setBits (setBits m 8 8 (if h.mode = .s then 1 else 0)) 5 5 (bits m 1 1)) 1 1 0
    { ((((h0.setCsr 0x300 m1).setCsr 0x141 epc).setCsr 0x142 code).setCsr 0x143 tval) with
        mode := .s
        pc := BitVec.ofNat 64 (trapPc (h.csrAt 0x105) cause intr) }
  else
    let m1 := setBits (setBits (setBits m 12 11 h.mode.code) 7 7 (bits m 3 3)) 3 3 0
    { ((((h0.setCsr 0x300 m1).setCsr 0x341 epc).setCsr 0x342 code).setCsr 0x343 tval) with
        mode := .m
        pc := BitVec.ofNat 64 (trapPc (h.csrAt 0x305) cause intr) }

/-- Core `k` of cluster `c` takes an exception at its pc, and its instruction is squashed (R512). -/
def State.hTrap (s : State) (c k cause tval : Nat) : State :=
  (s.squash c k).modHcore c k (fun h => h.trap cause false h.pc.toNat tval)

/-- Core `k` takes the exception of a failed access, with source 2 when it consumed poisoned data (R411, R412). A load or store is
squashed; a fetch has filled no slot (R512). -/
def State.hFault (s : State) (c k : Nat) (e : HFault) (epc va : Nat) : State :=
  let s0 := if [1, 12, 24].contains e.1 then s else s.squash c k
  let s1 := if e.2 then s0.raiseAt (0x2E + c) 2 (some (s.cluster c).part) (some 73) else s0
  s1.modHcore c k (fun h => h.trap e.1 false epc va)

/-- An illegal instruction; xtval holds 0 or the instruction word, as implementations may choose (log 43). -/
def State.hIllegal (s : State) (c k word : Nat) : State :=
  let r := s.freeBit
  r.2.hTrap c k 2 (if r.1 then word else 0)

/-! ## Interrupts -/

/-- Set or clear bit `b` of `mip` of a core. -/
def State.setMip (s : State) (c k b : Nat) (on : Bool) : State :=
  s.modHcore c k (fun h => h.setCsr 0x344 (setBits (h.csrAt 0x344) b b (b2n on)))

/-- Interrupts pending and enabled at a core, 64 bits; bit 16 is the fence watch (R409). -/
def HCore.pendingIrq (h : HCore) : Nat :=
  Nat.land (setBits (h.csrAt 0x344) 16 16 (b2n h.sip16)) (h.csrAt 0x304)

/-- The interrupt a core takes now: machine level first, each level in the order of the privileged architecture, the
custom ones last. A core that waits takes only the fence watch (R409). -/
def HCore.takes (h : HCore) : Option Nat :=
  let p := h.pendingIrq
  let isS (i : Nat) : Bool := i == 16 || bit (h.csrAt 0x303) i
  let mOn : Bool := h.mode != .m || bit h.mstatus 3
  let sOn : Bool := h.mode == .u || (h.mode == .s && bit h.mstatus 1)
  let order := [11, 3, 7, 9, 1, 5, 17, 16]
  let may (i : Nat) : Bool := bit p i && (h.wait.isNone || i == 16)
  match order.find? (fun i => may i && !isS i && mOn) with
  | some i => some i
  | none => order.find? (fun i => may i && isS i && sOn)

/-- Core `k` takes the interrupt it must; a fence or load that waits is abandoned (R409, R512). -/
def State.coreInterrupt (s : State) (c k : Nat) : State :=
  let h := s.hcore c k
  if !h.running then s
  else match h.takes with
    | none => s
    | some i => (if h.wait.isSome then s.squash c k else s).modHcore c k (fun h => h.trap i true h.pc.toNat 0)

/-- Every running core takes the interrupt it must (R394, R409, R414). -/
def State.hInterrupts (s : State) : State :=
  s.hearth.clusters.foldl (fun t e =>
    if e.2.st = .running then e.2.cores.foldl (fun u k => u.coreInterrupt e.1 k.1) t else t) s

/-! ## The control block -/

/-- Count and treat an access the control block does not accept (R394, R412). -/
def State.blockMisuse (s : State) (c : Nat) (attr : Option Nat) : State := s.raiseAt (0x2E + c) 5 attr (some 73)

/-- HC_ALARM_CTL (R414). -/
def Cluster.alarmCtl (x : Cluster) : Nat :=
  (x.alarmComp.getD 15) * 2 ^ 28 + b2n x.alarmFired * 2 ^ 18 + x.alarmStatus

/-- REQUEST: the lowest free comparator, two for Hearth in all (R385, R386, R414). -/
def State.alarmRequest (s : State) (c : Nat) : State :=
  if (s.cluster c).alarmComp.isSome then s
  else match s.freeComp with
    | some n =>
      if s.hearthComps < 2 then
        (s.setComp n (holdHearth c)).modCluster c (fun x => { x with alarmComp := some n, alarmStatus := rcOk })
      else s.modCluster c (fun x => { x with alarmStatus := rcBusy })
    | none => s.modCluster c (fun x => { x with alarmStatus := rcBusy })

/-- RELEASE (R414). -/
def State.alarmRelease (s : State) (c : Nat) : State :=
  (s.dropComp (holdHearth c)).modCluster c (fun x => { x with alarmComp := none })

/-- The counter has reached HC_ALARM_CMP while the comparator is held (R414). -/
def State.alarmFire (s : State) (c : Nat) : State :=
  let x := s.cluster c
  if x.alarmComp.isSome ∧ x.alarmCmp.toNat ≤ s.time.frcNs then
    (s.modCluster c (fun x => { x with alarmFired := true })).setMip c 0 17 true
  else s

/-- A write of HC_ALARM_CTL: FIRED, then RELEASE, then REQUEST. -/
def State.alarmWrite (s : State) (c v : Nat) : State :=
  let s1 := if bit v 18 then (s.modCluster c (fun x => { x with alarmFired := false })).setMip c 0 17 false else s
  let s2 := if bit v 17 then s1.alarmRelease c else s1
  if bit v 16 then s2.alarmRequest c else s2

/-- MTIMECMP of core `k` as read; all ones until written (R394). -/
def Cluster.cmpOf (x : Cluster) (k : Nat) : Nat := (tget 0xFFFFFFFFFFFFFFFF#64 x.mtimecmp k).toNat

/-- Half `hi` of a 64-bit register written. -/
def putHalf (old : Nat) (hi : Bool) (v : Nat) : BitVec 64 :=
  BitVec.ofNat 64 (if hi then setBits old 63 32 v else setBits old 31 0 v)

/-- MTIMECMP written: the timer interrupt falls while MTIME is below it. -/
def State.cmpWrite (s : State) (c k : Nat) (hi : Bool) (v : Nat) : State :=
  let s1 := s.modCluster c (fun x => { x with mtimecmp := tset x.mtimecmp k (putHalf (x.cmpOf k) hi v) })
  if s1.time.ticks < (s1.cluster c).cmpOf k then s1.setMip c k 7 false else s1

/-- MSIP of core `k` written: the software interrupt follows it (R394). -/
def State.msipWrite (s : State) (c k v : Nat) : State :=
  (s.modCluster c (fun x => { x with msip := BitVec.ofNat 8 (setBits x.msip.toNat k k v) })).setMip c k 3 (bit v 0)

/-- The dword at offset `o` of the control block of cluster `c` (R394). -/
def State.ctlDword (s : State) (c o : Nat) : Nat :=
  let x := s.cluster c
  if o < 0x4000 then (if s.clusterOpen c then s.pageRead (32 + c) o else 0)
  else if o = 0x4000 then x.alarmCtl
  else if o = 0x4008 then x.alarmCmp.toNat % 2 ^ 32
  else if o = 0x400C then x.alarmCmp.toNat / 2 ^ 32
  else if o = 0x5000 then s.time.ticks % 2 ^ 32
  else if o = 0x5004 then s.time.ticks / 2 ^ 32 % 2 ^ 32
  else if 0x5008 ≤ o ∧ o < 0x5048 then x.cmpOf ((o - 0x5008) / 8) / (if o % 8 = 0 then 1 else 2 ^ 32) % 2 ^ 32
  else if 0x6000 ≤ o ∧ o < 0x6020 then b2n (x.msip.getLsbD ((o - 0x6000) / 4))
  else 0

/-- A dword written at offset `o` of the control block of cluster `c` (R394). -/
def State.ctlStore (s : State) (c o v : Nat) : State :=
  if o < 0x4000 then (if s.clusterOpen c then s.pageWrite (32 + c) o v else s)
  else if o = 0x4000 then s.alarmWrite c v
  else if o = 0x4008 then s.modCluster c (fun x => { x with alarmCmp := putHalf x.alarmCmp.toNat false v })
  else if o = 0x400C then s.modCluster c (fun x => { x with alarmCmp := putHalf x.alarmCmp.toNat true v })
  else if 0x5008 ≤ o ∧ o < 0x5048 then s.cmpWrite c ((o - 0x5008) / 8) (o % 8 == 4) v
  else if 0x6000 ≤ o ∧ o < 0x6020 then s.msipWrite c ((o - 0x6000) / 4) v
  else s

/-- Local space accepts the access: naturally aligned, 4 or 8 bytes (R394). -/
def localFits (off size : Nat) : Bool := (size == 4 || size == 8) && off % size == 0

/-- A read of local space; none when the block does not accept it. Beyond the four blocks reads are 0. -/
def State.localRead (s : State) (off size : Nat) : Option Nat :=
  let c := off / 2 ^ 20
  if !localFits off size then none
  else if 4 ≤ c then some 0
  else
    let o := off % 2 ^ 20
    some (s.ctlDword c o + (if size = 8 then s.ctlDword c (o + 4) * 2 ^ 32 else 0))

/-- A write of local space; none when the block does not accept it. -/
def State.localWrite (s : State) (off size v : Nat) : Option State :=
  let c := off / 2 ^ 20
  if !localFits off size then none
  else if 4 ≤ c then some s
  else
    let o := off % 2 ^ 20
    let s1 := s.ctlStore c o (v % 2 ^ 32)
    some (if size = 8 then s1.ctlStore c (o + 4) (v / 2 ^ 32 % 2 ^ 32) else s1)

/-! ## Through the fabric aperture -/

/-- The lookup of core port 73: the window, when the access may pass; the ROM window is never matched (R393, R132,
R133, R112). The state holds what a refusal raises. -/
def State.apertureLookup (s : State) (p a n need : Nat) : Option Entry × State :=
  match ((bankScope s.win.bank 1 p).find? (fun e => winHit e.2 a)).map (fun e => e.2) with
  | none => (none, s)
  | some e =>
    if !winHolds e a (Nat.max 1 n) then (none, s.ledgerOnly 0x33)
    else if !bit (ePerm e) need then (none, s.raiseAt 0x33 3 (some p) (some 73) (BitVec.ofNat 64 a))
    else if s.belowClosed p e (winFaddr e a) ∨ s.portClosed (winFaddr e a) then (none, s)
    else (some e, s)

/-- The class Hearth's packets travel in (log 42). -/
def hearthTc : Nat := Config.hearthTc % 7

/-- A request of core `k` of cluster `c` to input address `a` under tag `tag`; none where it is refused or finds no
route. `code` 1 forbids early acknowledgement (R405). -/
def State.apertureSend (s : State) (c k a tag code : Nat) (kind : MemKind) (n : Nat) (d : Bytes) : Option State × State :=
  let p := (s.cluster c).part
  let r := s.apertureLookup p a n kind.need
  match r.1 with
  | none => (none, r.2)
  | some e =>
    let f := winFaddr e a
    let q : MemReq := { kind := kind, addr := BitVec.ofNat 64 a, len := n, data := d, tag := tag }
    let k := (r.2.requestPkt 73 p hearthTc (c * 8 + k) none f q).modDesc (fun x => { x with msgcode := code })
    match r.2.sendOne k f with
    | some t => (some t, t)
    | none => (none, if faModule f = s.own then r.2.raiseAt 0x33 2 else r.2.ledgerOnly 0x33)

/-- The number of the next fabric access of Hearth, 14 bits. -/
def State.hNumber (s : State) : Nat × State :=
  (s.hearth.writeSeq % 2 ^ 14, s.modHearth (fun h => { h with writeSeq := h.writeSeq + 1 }))

/-- Attributes of a fabric-aperture access, by its first byte: device, early acknowledgement forbidden (R405, R406). -/
def Attr.covers (t : Attr) (pa : Nat) : Bool :=
  let size := bits t.cfg.toNat 8 3
  let base := bits t.addr.toNat 55 12 * 4096
  bit t.cfg.toNat 0 && decide (12 ≤ size ∧ size ≤ 48) && base % 2 ^ size == 0 && decide (base ≤ pa ∧ pa < base + 2 ^ size)

/-- Attributes of an access to physical address `pa` under table `ts`. -/
def State.hAttr (s : State) (ts : List Attr) (c pa : Nat) : Bool × Bool :=
  match s.hPlace c pa with
  | .loc _ => (true, true)
  | .aperture _ =>
    match ts.find? (fun t => t.covers pa) with
    | some t => (bit t.cfg.toNat 1, bit t.cfg.toNat 2)
    | none => (false, false)
  | _ => (false, false)

/-- The attribute table an access is taken under (R406). -/
def State.attrInForce (s : State) (c k : Nat) : List Attr × State :=
  let h := s.hcore c k
  if h.attr = h.attrEff then (attrList h.attrEff, s)
  else
    let r := s.freeBit
    (attrList (if r.1 then h.attr else h.attrEff), r.2)

/-! ## The store buffer -/

/-- A store that fails is recorded when it forbids early acknowledgement (R408). -/
def State.storeLost (s : State) (c k : Nat) (e : SbEnt) : State := if e.noEack then s.recordStore c k e.addr else s

/-- A store leaves through the aperture (R405): a refusal at the lookup is recorded whatever its attributes (R408). -/
def State.storeOut (s : State) (c k a : Nat) (e : SbEnt) : State :=
  let n := s.hNumber
  let p := (s.cluster c).part
  let r := n.2.apertureSend c k a n.1 (b2n e.noEack) .write e.data.length e.data
  match r.1 with
  | some t =>
    if e.noEack ∨ t.core.waiting.any (fun w => w.pkt.src == 73 && w.pkt.d.tag == n.1 && w.pkt.d.opc == opcMWr) then
      t.modHcore c k (fun h => { h with unacked := h.unacked ++ [{ e with id := n.1 }] })
    else t
  | none =>
    if (n.2.apertureLookup p a e.data.length 1).1.isNone then r.2.recordStore c k e.addr else r.2.storeLost c k e

/-- One store leaves the buffer (R401). -/
def State.drainOne (s : State) (c k : Nat) (e : SbEnt) : State :=
  match s.hPlace c e.addr with
  | .sod key =>
    let mine := (s.hcore c k).reservation
    ((s.l2Access c k).poolWrite key e.data false (fun _ => true)).modHcore c k (fun h => { h with reservation := mine })
  | .loc off =>
    (match s.localWrite off e.data.length (leNat e.data) with
     | some t => t
     | none => (s.blockMisuse (localBlock off) (some (s.cluster c).part)).recordStore c k e.addr)
  | .aperture a => s.storeOut c k a e
  | .nothing => s.storeLost c k e

/-- The oldest store of a core leaves its buffer. -/
def State.drainStep (s : State) (c k : Nat) : State :=
  match (s.hcore c k).sb with
  | [] => s
  | e :: r =>
    ((s.modHcore c k (fun h => { h with sb := r })).modPool (fun p => { p with fences := p.fences.map (fun f =>
      { f with stores := f.stores.map (fun x => if x.1 = c ∧ x.2.1 = k then (c, k, x.2.2 - 1) else x) }) })).drainOne c k e

/-- Every store of a core leaves its buffer, in program order (R401, R403). -/
def State.drainAll (s : State) (c k : Nat) : State :=
  (s.hcore c k).sb.foldl (fun t _ => t.drainStep c k) s

/-- A byte as the core sees it: the youngest store of its buffer, else memory (R401). -/
def State.hByte (s : State) (h : HCore) (pa key : Nat) : Byte :=
  match h.sb.reverse.find? (fun e => decide (e.addr ≤ pa ∧ pa < e.addr + e.data.length)) with
  | some e => e.data.getD (pa - e.addr) 0
  | none => s.pool.byte key

/-- `n` bytes as the core sees them. -/
def State.hBytes (s : State) (h : HCore) (pa key n : Nat) : Bytes :=
  (List.range n).map (fun i => s.hByte h (pa + i) (key + i))

/-- The early-acknowledged writes the core has now admitted are no longer awaited (R405). -/
def State.hAdmitted (s : State) : State :=
  { s with hearth := { s.hearth with clusters := tmap s.hearth.clusters (fun _ cl =>
      { cl with cores := tmap cl.cores (fun _ h =>
          { h with unacked := h.unacked.filter (fun e => e.noEack || s.core.waiting.any (fun w =>
              w.pkt.src == 73 && w.pkt.d.tag == e.id && w.pkt.d.opc == opcMWr)) }) }) } }

end Sys2Proof.Machine
end

