-- ==== Sys2Proof/Machine/Hearth.lean ====
section
/-! DEFINITION. What the Hearth cores do (R398 to R410), the debug module (R415), starting and stopping a cluster
(R413, R416, R417). -/

namespace Sys2Proof.Machine

open Sys2Proof

/-- Core `k` of cluster `c` issues instructions: its oldest one waits for nothing (R392, R407). -/
def State.hRuns (s : State) (c k : Nat) : Bool :=
  (s.cluster c).st == .running && (s.hcore c k).running && (s.hcore c k).wait.isNone

/-- Set integer register `r`; x0 stays 0. -/
def HCore.setX (h : HCore) (r : Nat) (v : Word) : HCore := if r = 0 then h else { h with x := tset h.x r v }

/-! ## Loads and fetches -/

/-- A load or fetch (`rd` 32) has all its bytes; a fetch moves the pc to its address. -/
def State.loadEnd (s : State) (c k rd size : Nat) (sgn : Bool) (start : Nat) (got : Bytes) : State :=
  if rd = 32 then s.modHcore c k (fun h => { h with wait := none, pc := BitVec.ofNat 64 start })
  else (s.modHcore c k (fun h => ({ h with wait := none }).setX rd (extend sgn size (leNat got)))).retire c k

/-- Kind of an access that writes `rd`; 32 stands for a fetch. -/
def rdKind (rd : Nat) : HKind := if rd = 32 then .fetch else .load

/-- The pc a fault of a load or fetch saves: a fetch faults at its own address. -/
def State.faultPc (s : State) (c k rd start : Nat) : Nat := if rd = 32 then start else (s.hcore c k).pc.toNat

/-- A load or fetch takes its pieces in order: from the pool, from local space, or by a read through the aperture for
which the core waits (R399, R401, R405, R411). -/
def State.loadGo (c k rd size : Nat) (sgn : Bool) (start : Nat) : Eccs → State → Bytes → List HPiece → State
  | _, s, got, [] => s.loadEnd c k rd size sgn start got
  | ecc, s, got, p :: r =>
    let part := (s.cluster c).part
    let cause := (rdKind rd).access
    match s.hPlace c p.pa with
    | .sod key =>
      let s1 := (s.l2Access c k).eccAt key p.n ecc (some part)
      if s1.pool.tainted key p.n then s1.hFault c k (cause, true) (s.faultPc c k rd start) p.va
      else State.loadGo c k rd size sgn start (ecc.drop (linesOf key p.n).length) s1
        (got ++ (if rd = 32 then s1.pool.bytes key p.n else s1.hBytes (s1.hcore c k) p.pa key p.n)) r
    | .loc off =>
      (match s.localRead off p.n with
       | some v => State.loadGo c k rd size sgn start ecc s (got ++ leBytes p.n v) r
       | none => (s.blockMisuse (localBlock off) (some part)).hFault c k (cause, false) (s.faultPc c k rd start) p.va)
    | .aperture a =>
      let n := (s.drainAll c k).hNumber
      (match n.2.apertureSend c k a n.1 0 .read p.n [] with
       | (some t, _) => t.modHcore c k (fun h =>
           { h with wait := some (.load rd size sgn got n.1 (BitVec.ofNat 64 p.va) p.n (r.map (fun q => (q.va, q.pa, q.n)))) })
       | (none, t) => t.hFault c k (cause, false) (s.faultPc c k rd start) p.va)
    | .nothing => s.hFault c k (cause, false) (s.faultPc c k rd start) p.va

/-- A load or fetch of `size` bytes at virtual address `addr` (R398, R399). -/
def State.hRead (s : State) (c k rd : Nat) (addr : Word) (size : Nat) (sgn : Bool) (ecc : Eccs) : State :=
  if !s.hRuns c k then s
  else
    let g := s.mpuInForce c k
    match g.2.checkPieces c g.1 (s.hcore c k) (rdKind rd) (cut64 addr.toNat size) with
    | .error e => g.2.hFault c k e.1 (s.faultPc c k rd addr.toNat) e.2
    | .ok ps => State.loadGo c k rd size sgn addr.toNat ecc g.2 [] ps

/-- The completion of a read through the aperture reaches the core that waits for it under that tag; any other is
discarded (R407, R409, R411). -/
def State.hCompletion (s : State) (p : Pkt) : State :=
  let c := cplRequester p / 8 % 4
  let k := cplRequester p % 8
  match (s.hcore c k).wait with
  | some (.load rd size sgn got tag va n rest) =>
    if tag ≠ p.d.tag then s
    else
      let start := (va.toNat + 2 ^ 64 - got.length) % 2 ^ 64
      if p.d.cstat ≠ 0 ∨ p.d.ep ∨ p.abort then
        s.hFault c k ((rdKind rd).access, p.d.ep) (s.faultPc c k rd start) va.toNat
      else
        let s1 := s.modHcore c k (fun h => { h with wait := none })
        State.loadGo c k rd size sgn start [] s1 (got ++ padTo n p.data)
          (rest.map (fun q => { va := q.1, pa := q.2.1, n := q.2.2 }))
  | _ => s

/-! ## Stores -/

/-- A store buffer entry of one piece; `d` its bytes. -/
def sbEntry (at_ : Bool × Bool) (p : HPiece) (d : Bytes) : SbEnt := { addr := p.pa, data := d, device := at_.1, noEack := at_.2 }

/-- Place one entry; a full buffer first gives up its oldest (R401). -/
def State.sbPush (s : State) (c k : Nat) (e : SbEnt) : State :=
  let s1 := if 32 ≤ (s.hcore c k).sb.length then s.drainStep c k else s
  s1.modHcore c k (fun h => { h with sb := h.sb ++ [e] })

/-- The pieces of a checked store enter the buffer in order. -/
def State.storePieces (c k : Nat) (ts : List Attr) : State → Bytes → List HPiece → State
  | s, _, [] => s
  | s, d, p :: r => State.storePieces c k ts (s.sbPush c k (sbEntry (s.hAttr ts c p.pa) p (d.take p.n))) (d.drop p.n) r

/-- A store of `size` bytes: checked whole, then placed in the store buffer (R399, R401). -/
def State.hStore (s : State) (c k : Nat) (addr : Word) (size : Nat) (value : Word) : State :=
  if !s.hRuns c k then s
  else
    let g := s.mpuInForce c k
    match g.2.checkPieces c g.1 (s.hcore c k) .store (cut64 addr.toNat size) with
    | .error e => g.2.hFault c k e.1 (s.hcore c k).pc.toNat e.2
    | .ok ps =>
      let a := g.2.attrInForce c k
      (State.storePieces c k a.1 a.2 (leBytes size value.toNat) ps).retire c k

/-! ## LR, SC and AMO -/

/-- The sod byte an aligned LR, SC or AMO reaches, after its checks; it raises the misaligned exception first and an
access fault outside the sod region (R390, R398, R410). -/
def State.atomicAt (s : State) (c k : Nat) (kind : HKind) (addr : Word) (size : Nat) : State ⊕ (State × Nat) :=
  if addr.toNat % size ≠ 0 then .inl (s.hTrap c k (if kind = .load then 4 else 6) addr.toNat)
  else
    let g := s.mpuInForce c k
    match g.2.checkPieces c g.1 (s.hcore c k) kind [(addr.toNat, size)] with
    | .error e => .inl (g.2.hFault c k e.1 (s.hcore c k).pc.toNat e.2)
    | .ok ps =>
      match (ps.map (fun p => g.2.hPlace c p.pa)).head? with
      | some (.sod key) => .inr ((g.2.drainAll c k).l2Access c k, key)
      | _ => .inl (g.2.hTrap c k kind.access addr.toNat)

/-- LR: the value, and a reservation of the 64-byte granule (R410). -/
def State.hLr (s : State) (c k rd : Nat) (addr : Word) (size : Nat) (ecc : Eccs) : State :=
  if !s.hRuns c k then s
  else match s.atomicAt c k .load addr size with
    | .inl t => t
    | .inr (t, key) =>
      let t1 := t.eccAt key size ecc (some (s.cluster c).part)
      if t1.pool.tainted key size then t1.hFault c k (5, true) (s.hcore c k).pc.toNat addr.toNat
      else (t1.modHcore c k (fun h =>
        ({ h with reservation := some (key / 64) }).setX rd (extend true size (leNat (t1.pool.bytes key size))))).retire c k

/-- SC: it writes and answers 0 while the reservation stands, else answers 1; the reservation is gone either way
(R410). -/
def State.hSc (s : State) (c k rd : Nat) (addr : Word) (size : Nat) (value : Word) (spurious : Bool) : State :=
  if !s.hRuns c k then s
  else match s.atomicAt c k .store addr size with
    | .inl t => t
    | .inr (t, key) =>
      let okay := (t.hcore c k).reservation == some (key / 64) && !spurious
      let t1 := if okay then t.poolWrite key (leBytes size value.toNat) false (fun _ => true) else t
      (t1.modHcore c k (fun h => ({ h with reservation := none }).setX rd (if okay then 0 else 1))).retire c k

/-- What an AMO leaves in memory, on `8 * size` bits. -/
def amoResult (op : AmoOp) (size old v : Nat) : Nat :=
  let w := 8 * size
  let a := old % 2 ^ w
  let b := v % 2 ^ w
  match op with
  | .swap => b
  | .add => (a + b) % 2 ^ w
  | .xor => Nat.xor a b
  | .and => Nat.land a b
  | .or => Nat.lor a b
  | .min => if signed w a ≤ signed w b then a else b
  | .max => if signed w a ≤ signed w b then b else a
  | .minu => Nat.min a b
  | .maxu => Nat.max a b

/-- AMO: the old value to `rd`, the result to memory (R410). -/
def State.hAmo (s : State) (c k : Nat) (op : AmoOp) (rd : Nat) (addr : Word) (size : Nat) (value : Word) (ecc : Eccs) : State :=
  if !s.hRuns c k then s
  else match s.atomicAt c k .store addr size with
    | .inl t => t
    | .inr (t, key) =>
      let t1 := t.eccAt key size ecc (some (s.cluster c).part)
      if t1.pool.tainted key size then t1.hFault c k (7, true) (s.hcore c k).pc.toNat addr.toNat
      else
        let old := leNat (t1.pool.bytes key size)
        let mine := (t1.hcore c k).reservation
        ((t1.poolWrite key (leBytes size (amoResult op size old value.toNat)) false (fun _ => true)).modHcore c k (fun h =>
          ({ h with reservation := mine }).setX rd (extend true size old))).retire c k

/-! ## Fences -/

/-- Every write of the predecessor set has been acknowledged (R403, R405). -/
def HCore.fenceMet (h : HCore) (pred : Nat) : Bool :=
  h.unacked.all (fun e => !bit pred (if e.device then 2 else 0))

/-- A system-scope fence retires; KSTERR.V raises the store error at the instruction after it (R408). -/
def HCore.fenceRetire (h : HCore) : HCore :=
  let h1 : HCore := { h with wait := none }
  if h.ksterrV then h1.trap 27 false (h.pc + 4).toNat h.ksterrAddr else h1

/-- A system-scope fence: the buffer drains, then it retires or waits (R403, R407). -/
def State.sysFence (s : State) (c k pred : Nat) : State :=
  let s1 := (s.drainAll c k).hAdmitted
  if (s1.hcore c k).fenceMet pred then (s1.retire c k).modHcore c k HCore.fenceRetire
  else s1.modHcore c k (fun h => { h with wait := some (.fence pred) })

/-- FENCE and FENCE.TSO (R403). -/
def State.hFence (s : State) (c k pred : Nat) : State := if s.hRuns c k then s.sysFence c k (pred % 16) else s

/-- FENCE.I: the core's stores come before its later fetches (R403). -/
def State.hFenceI (s : State) (c k : Nat) : State := if s.hRuns c k then (s.drainAll c k).retire c k else s

/-- A KFENCE encoding that R402 defines. -/
def kfenceOk (w : Nat) : Bool :=
  bits w 6 0 == 11 && bits w 11 7 == 0 && bits w 14 12 == 0 && bits w 19 15 == 0 && bits w 31 30 == 0 && bits w 29 28 != 3

/-- KFENCE: it completes the MPU and attribute changes, and orders within its scope (R400, R402, R403, R406). -/
def State.hKfence (s : State) (c k w : Nat) : State :=
  if !s.hRuns c k then s
  else if !kfenceOk w then s.hIllegal c k w
  else
    let s1 := s.modHcore c k (fun h => { h with mpuEff := h.mpu, attrEff := h.attr })
    match bits w 29 28 with
    | 0 => s1.retire c k
    | 1 => (s1.drainAll c k).retire c k
    | _ => s1.sysFence c k (bits w 27 24)

/-- A waiting fence whose writes have all been acknowledged or dropped retires (R407). -/
def State.hFenceRetire (s : State) (c k : Nat) : State :=
  match (s.hcore c k).wait with
  | some (.fence pred) =>
    if (s.hcore c k).fenceMet pred ∧ (s.cluster c).st = .running then (s.retire c k).modHcore c k HCore.fenceRetire else s
  | _ => s

/-- The fence-watch timer reaches its period: bit 16 of sip, and the trap when it is enabled (R409). -/
def State.fenceWatch (s : State) (c k : Nat) : State :=
  let h := s.hcore c k
  if (s.cluster c).st = .running ∧ h.running ∧ h.wait.isSome ∧ h.kfwatch ≠ 0 then
    (s.modHcore c k (fun h => { h with sip16 := true })).hInterrupts
  else s

/-- MTIME has reached MTIMECMP of core `k` (R394). -/
def State.timerIrq (s : State) (c k : Nat) : State :=
  if (s.cluster c).cmpOf k ≤ s.time.ticks then (s.setMip c k 7 true).hInterrupts else s

/-! ## Machine-mode CSRs -/

/-- MPUADDRn or MPUCFGn written by M-mode software: ignored while locked (R396, R397). -/
def HCore.mpuWrite (h : HCore) (n : Nat) (cfg : Bool) (v : Nat) : HCore :=
  let m := tget {} h.mpu n
  if m.locked then h
  else if cfg then
    let w := bits v 14 8 * 256 + bits v 5 0 + (if bit v 15 ∧ bit v 14 then 2 ^ 15 else 0)
    { h with mpu := tset h.mpu n { m with cfg := BitVec.ofNat 64 w } }
  else { h with mpu := tset h.mpu n { m with addr := BitVec.ofNat 64 (bits v 55 6 * 64) } }

/-- KATTRSEL, KATTRADDR or KATTRCFG written by M-mode software (R406). -/
def HCore.attrWrite (h : HCore) (csr v : Nat) : HCore :=
  if csr = 0x7E0 then { h with attrSel := v % 32 }
  else
    let t := tget {} h.attr h.attrSel
    if csr = 0x7E1 then { h with attr := tset h.attr h.attrSel { t with addr := BitVec.ofNat 64 (bits v 55 12 * 4096) } }
    else { h with attr := tset h.attr h.attrSel { t with cfg := BitVec.ofNat 64 (v % 512) } }

/-- KSTERR written: 0 in V clears it whole (R408). -/
def HCore.ksterrWrite (h : HCore) (v : Nat) : HCore :=
  if bit v 63 then { h with ksterrV := true } else { h with ksterrV := false, ksterrCount := 0, ksterrAddr := 0 }

/-- A CSR write by software in a mode that may make it, else an illegal instruction. -/
def State.csrWrite (s : State) (c k : Nat) (may : HMode → Bool) (f : HCore → HCore) : State :=
  if !s.hRuns c k then s
  else if may (s.hcore c k).mode then (s.modHcore c k f).retire c k
  else s.hIllegal c k 0

/-- M-mode only. -/
def machineOnly (x : HMode) : Bool := x == .m
/-- S-mode and M-mode. -/
def notUser (x : HMode) : Bool := x != .u

/-! ## Debug -/

/-- Lifecycle state in force: what at least two fuse copies hold (R525). -/
def State.lifecycle (s : State) : Nat :=
  match s.nv.lifeCopies with
  | [a, b, c] => if a = b ∨ a = c then a else b
  | _ => 1

/-- Debug restrictions apply: PRODUCTION (R415). -/
def State.debugLocked (s : State) : Bool := s.lifecycle == 1

/-- The fuse shadow in the debugger's map (R415). -/
def fuseShadow (a : Nat) : Bool := decide (0x00FF00000000 ≤ a ∧ a ≤ 0x00FF0000FFFF)

/-- In PRODUCTION a debugger may not reach these addresses (R415). -/
def State.debugRefused (s : State) (c a : Nat) : Bool :=
  s.debugLocked &&
  (fuseShadow a ||
   (List.range 32).any (fun i => (mpuList (s.hcore (i / 8) (i % 8)).mpu).any (fun m => m.locked && m.covers a)) ||
   (match s.hPlace c a with
    | .aperture x => (bankScope s.win.bank 1 (s.cluster c).part).any (fun e => winHit e.2 x && eLock e.2)
    | _ => false))

/-- A debugger's access ends: error code of an abstract command or of the system bus (R415). -/
def State.debugEnd (s : State) (abs : Bool) (err : Nat) : State :=
  s.modHearth (fun h => if abs then { h with cmderr := err } else { h with sberror := err })

/-- Code for an access that cannot be made. -/
def debugError (abs : Bool) : Nat := if abs then 3 else 2

/-- A read by the debugger (R415). -/
def State.debugRead (s : State) (abs : Bool) (c k a size : Nat) : State :=
  let give (t : State) (v : Nat) : State := (t.modHearth (fun h => { h with dbgData := BitVec.ofNat 64 v })).debugEnd abs 0
  if fuseShadow a then give s (leNat ((List.range size).map (fun i => Config.fuseByte (a + i - 0x00FF00000000))))
  else match s.hPlace c a with
    | .sod key =>
      if s.pool.tainted key size then s.debugEnd abs (debugError abs)
      else give s (leNat (if abs then s.hBytes (s.hcore c k) a key size else s.pool.bytes key size))
    | .loc off =>
      (match s.localRead off size with
       | some v => give s v
       | none => (s.blockMisuse (localBlock off) none).debugEnd abs (debugError abs))
    | .aperture x =>
      let n := s.hNumber
      (match n.2.apertureSend c k x n.1 0 .read size [] with
       | (some t, _) => t.modHearth (fun h => { h with dbgTag := some n.1, dbgAbs := abs })
       | (none, t) => t.debugEnd abs (debugError abs))
    | .nothing => s.debugEnd abs (debugError abs)

/-- A write by the debugger (R415). -/
def State.debugWrite (s : State) (abs : Bool) (c k a size v : Nat) : State :=
  let d := leBytes size v
  match s.hPlace c a with
  | .sod key => (s.poolWrite key d false (fun _ => true)).debugEnd abs 0
  | .loc off =>
    (match s.localWrite off size v with
     | some t => t.debugEnd abs 0
     | none => (s.blockMisuse (localBlock off) none).debugEnd abs (debugError abs))
  | .aperture x =>
    let n := s.hNumber
    (match n.2.apertureSend c k x n.1 0 .write size d with
     | (some t, _) => t.debugEnd abs 0
     | (none, t) => t.debugEnd abs (debugError abs))
  | .nothing => s.debugEnd abs (debugError abs)

/-- A memory access of the debugger, refused or performed (R415). -/
def State.debugAccess (s : State) (abs : Bool) (c k : Nat) (write : Bool) (a size v : Nat) : State :=
  if s.debugRefused c a then (s.raiseAt (0x2E + c) 4 (some (s.cluster c).part) (some 73)).debugEnd abs (debugError abs)
  else if write then s.debugWrite abs c k a size v
  else s.debugRead abs c k a size

/-- Bits of mstatus that sstatus shows. -/
def sstatusMask : Nat := 0x80000003000DE762

/-- CSR `n` as read (R390, R396, R406, R408, R409, R521). -/
def State.csrRead (s : State) (c k n : Nat) : Nat :=
  let h := s.hcore c k
  let ctr (i : Nat) : Nat := (tget {} s.cnt.ctrs ((0x2E + c) * 8 + i)).value
  if 0x7C0 ≤ n ∧ n < 0x7D0 then (tget {} h.mpu (n - 0x7C0)).addr.toNat
  else if 0x7D0 ≤ n ∧ n < 0x7E0 then (tget {} h.mpu (n - 0x7D0)).cfg.toNat
  else if n = 0x7E0 then h.attrSel
  else if n = 0x7E1 then (tget {} h.attr h.attrSel).addr.toNat
  else if n = 0x7E2 then (tget {} h.attr h.attrSel).cfg.toNat
  else if n = 0x5C0 then b2n h.ksterrV * 2 ^ 63 + h.ksterrCount * 2 ^ 56 + h.ksterrAddr
  else if n = 0x5C1 then h.kfwatch
  else if n = 0x100 then Nat.land h.mstatus sstatusMask
  else if n = 0x104 then Nat.land (h.csrAt 0x304) (Nat.lor (h.csrAt 0x303) 65536)
  else if n = 0x144 then Nat.land (setBits (h.csrAt 0x344) 16 16 (b2n h.sip16)) (Nat.lor (h.csrAt 0x303) 65536)
  else if 0x3A0 ≤ n ∧ n < 0x3F0 then 0
  else if n = 0xC01 then s.time.ticks
  else if (0xB03 ≤ n ∧ n ≤ 0xB0A) ∨ (0xC03 ≤ n ∧ n ≤ 0xC0A) then ctr (n % 256 - 3)
  else if (0xB0B ≤ n ∧ n ≤ 0xB1F) ∨ (0xC0B ≤ n ∧ n ≤ 0xC1F) ∨ (0x323 ≤ n ∧ n ≤ 0x33F) then 0
  else if n = 0x320 then Nat.land (h.csrAt n) 5
  else if n = 0xC00 ∨ n = 0xC02 then h.csrAt (n - 0x100)
  else if 0xF11 ≤ n ∧ n ≤ 0xF15 then (Config.csrFixed n).toNat
  else h.csrAt n

/-- CSR `n` written by the debugger, which has the rights of M-mode (R415). -/
def HCore.csrPut (h : HCore) (n v : Nat) : HCore :=
  if 0x7C0 ≤ n ∧ n < 0x7D0 then h.mpuWrite (n - 0x7C0) false v
  else if 0x7D0 ≤ n ∧ n < 0x7E0 then h.mpuWrite (n - 0x7D0) true v
  else if 0x7E0 ≤ n ∧ n ≤ 0x7E2 then h.attrWrite n v
  else if n = 0x5C0 then h.ksterrWrite v
  else if n = 0x5C1 then { h with kfwatch := v % 65536 }
  else if n = 0x100 then h.setCsr 0x300 (Nat.lor (Nat.land h.mstatus (2 ^ 64 - 1 - sstatusMask)) (Nat.land v sstatusMask))
  else if n = 0x104 then
    let m := Nat.lor (h.csrAt 0x303) 65536
    h.setCsr 0x304 (Nat.lor (Nat.land (h.csrAt 0x304) (2 ^ 64 - 1 - m)) (Nat.land v m))
  else if n = 0x144 then { h with sip16 := bit v 16 }
  else if n = 0x344 then { (h.setCsr 0x344 (setBits (setBits (setBits (h.csrAt 0x344) 1 1 (bits v 1 1)) 5 5 (bits v 5 5)) 9 9 (bits v 9 9))) with
    sip16 := bit v 16 }
  else if n = 0x180 then (if bits v 63 60 = 0 ∨ bits v 63 60 = 9 then h.setCsr n v else h)
  else if (0x3A0 ≤ n ∧ n < 0x3F0) ∨ (0xB03 ≤ n ∧ n ≤ 0xB1F) ∨ (0x323 ≤ n ∧ n ≤ 0x33F) ∨ 0xC00 ≤ n then h
  else h.setCsr n v

/-- An abstract command on core `k` (R415). -/
def State.abstractCmd (s : State) (c k : Nat) (a : DbgCmd) : State :=
  let give (v : Word) : State := (s.modHearth (fun h => { h with dbgData := v })).debugEnd true 0
  match a with
  | .readX r => give (if r % 32 = 0 then 0 else tget 0 (s.hcore c k).x (r % 32))
  | .writeX r v => (s.modHcore c k (fun h => h.setX (r % 32) v)).debugEnd true 0
  | .readF r => give (tget 0 (s.hcore c k).f (r % 32))
  | .writeF r v => (s.modHcore c k (fun h => { h with f := tset h.f (r % 32) v })).debugEnd true 0
  | .readCsr n => give (BitVec.ofNat 64 (s.csrRead c k n))
  | .writeCsr n v => ((s.modHcore c k (fun h => h.csrPut n v.toNat)).debugEnd true 0).hInterrupts
  | .readMem a size => s.debugAccess true c k false a.toNat size 0
  | .writeMem a size v => s.debugAccess true c k true a.toNat size v.toNat

/-- A completion at core port 73: for a core, or for the debugger (R415). -/
def State.hearthCpl (s : State) (p : Pkt) : State :=
  if s.hearth.dbgTag = some p.d.tag then
    let s1 := s.modHearth (fun h => { h with dbgTag := none })
    if p.d.cstat ≠ 0 ∨ p.d.ep ∨ p.abort then s1.debugEnd s.hearth.dbgAbs (debugError s.hearth.dbgAbs)
    else (s1.modHearth (fun h => { h with dbgData := BitVec.ofNat 64 (leNat (p.data.take 8)) })).debugEnd s.hearth.dbgAbs 0
  else s.hCompletion p

/-- A request to class 0x5 delivered at core port 73 (R29, R394): only a write or a read a control block accepts has an
effect. -/
def State.hearthRequest (s : State) (p : Pkt) : State :=
  let off := bits p.d.faddr.toNat 25 0
  if p.d.opc = opcMWr then
    match s.localWrite off p.data.length (leNat p.data) with
    | some t => if p.d.ep then s.leave p else t.leave p
    | none => (s.blockMisuse (localBlock off) none).discard p
  else if p.d.opc = opcMRd then
    match s.localRead off p.d.bcount with
    | some v => (s.leave p).complete p 0 (leBytes p.d.bcount v) false
    | none => (((s.blockMisuse (localBlock off) none)).leave p).complete p csUr [] false
  else (s.leave p).complete p csUr [] false

/-! ## Starting and stopping a cluster -/

/-- Clear the counters of a block: values, flags and configurations (R519). -/
def State.clearCounters (s : State) (b : Nat) : State :=
  s.modCnt (fun t => { t with ctrs := t.ctrs.filter (fun e => e.1 / 8 != b) })

/-- Every packet the module holds anywhere: in the core, at the ports and on the links (R139). -/
def State.insidePkts (s : State) : List Pkt :=
  s.allPkts ++ s.ports.flatMap (fun e => e.2.npWait ++ e.2.egress ++ e.2.unacked) ++
    s.links.flatMap (fun e => e.2.replay.flatMap (fun r => r.pkts ++ r.cuts))

/-- An access of cluster `c` remains inside the module (R417). -/
def State.clusterBusy (s : State) (c : Nat) : Bool :=
  s.insidePkts.any (fun p => p.smod == s.own && p.sport == 73 && p.ptype == 0 && p.d.rid / 8 == c) ||
  (s.cluster c).cores.any (fun e => !e.2.unacked.isEmpty || !e.2.sb.isEmpty)

/-- A stopped cluster: its cores reset and its partition cleared; the registers of its control block stay (R417, log 44),
but for a block reset, which restores every W field (R21, R453). -/
def Cluster.stopped (x : Cluster) : Cluster :=
  if x.blockReset then {} else
  { alarmStatus := x.alarmStatus, alarmFired := x.alarmFired, alarmCmp := x.alarmCmp, mtimecmp := x.mtimecmp, msip := x.msip }

/-- `mip` of core `k` as its cluster's registers raise it at a start (R394, R414). -/
def State.mipAt (s : State) (c k : Nat) : Nat :=
  let x := s.cluster c
  b2n (x.msip.getLsbD k) * 8 + (if x.cmpOf k ≤ s.time.ticks then 128 else 0) + (if k = 0 ∧ x.alarmFired then 2 ^ 17 else 0)

/-- A block reset discards a cache line that holds an uncorrectable error: where the line was not yet written back, the pool keeps
what it held before, which the model, whose caches hold no state, gives as free bytes (R413, log 88). -/
def State.dropLine (s : State) (c : Nat) (a : Word) : State :=
  let n := bits a.toNat 43 30
  let r := s.freeBit
  if (s.hearthSods c).contains n ∧ r.1 then
    let b := r.2.freeBytes 64
    b.2.poolWrite (poolKey n (bits a.toNat 29 0 / 64 * 64)) b.1 false (fun _ => true)
  else r.2

/-- Steps 3 and 4: caches written back, cores reset, alarm and page released, partition cleared; a handle ends with OK
(R417, R414, R394). -/
def State.clusterStopped (s : State) (c : Nat) : State :=
  let x := s.cluster c
  let s0 := if x.blockReset then x.badLines.foldl (fun t a => t.dropLine c a) s else s
  let s1 := (((s0.alarmRelease c).modCluster c Cluster.stopped).pagePReset (32 + c)).clearCounters (0x2E + c)
  let s2 := if x.blockReset then s1.event 0x80E [0] c else s1
  match x.stopHandle with
  | some id => s2.endHandle id rcOk
  | none => s2

/-- The stop begins: the cores issue nothing more, their stores leave (R417). -/
def State.clusterStop (s : State) (c : Nat) (handle : Option Nat) : State :=
  let s1 := (List.range 8).foldl (fun t k => t.drainAll c k) s
  s1.hAdmitted.modCluster c (fun x =>
    { x with
      st := .stopping
      stopHandle := handle
      cores := tmap x.cores (fun _ h => { h with running := false, wait := none }) })

/-- CLUSTER_STOP_COMPLETE (R417). -/
def State.clusterStopDone (s : State) (c : Nat) : State :=
  if (s.cluster c).st = .stopping ∧ !s.clusterBusy c then s.clusterStopped c else s

/-- A block reset stops the cluster as HEARTH_CTL does; it stays STOPPED, and partition 0 is told (R413). One that is
STOPPED already has no access left to wait for. -/
def State.clusterReset (s : State) (c : Nat) : State :=
  let t := s.modCluster c (fun x => { x with blockReset := true })
  match (s.cluster c).st with
  | .stopped => t.clusterStopped c
  | .stopping => t
  | .running => t.clusterStop c none

/-- A physical address within the cluster's sods (R416). -/
def State.pcOk (s : State) (c a : Nat) : Bool :=
  a % 2 == 0 && (match s.hPlace c a with | .sod _ => true | _ => false)

/-- State of a cluster as HEARTH_CTL answers it. -/
def State.clusterState (s : State) (c : Nat) : Bytes :=
  let x := s.cluster c
  let st := match x.st with
    | .stopped => 0
    | .running => 1
    | .stopping => 2
  leBytes 1 c ++ leBytes 1 st ++ leBytes 1 (if x.st = .stopped then 255 else x.part) ++
    leBytes 1 (bitsOf 8 (fun k => (tget {} x.cores k).running)) ++ leBytes 2 (s.hearthSods c).length ++
    leBytes 1 (x.alarmComp.getD 255) ++ leBytes 1 0 ++ leBytes 8 (if x.st = .stopped then 0 else x.resetPc.toNat) ++ leBytes 8 0

/-- OP 1: the cluster starts for `p`, its named cores in M-mode at `pc`, every region and entry disabled (R416). -/
def State.clusterStart (s : State) (c p cores pc : Nat) : State :=
  (s.clearCounters (0x2E + c)).modCluster c (fun x =>
    { x with st := .running, part := p, resetPc := BitVec.ofNat 64 pc,
             cores := (bitList 8 cores).map (fun k =>
               (k, HCore.setCsr { running := true, pc := BitVec.ofNat 64 pc } 0x344 (s.mipAt c k))) })

/-- HEARTH_CTL (R416). -/
def cmdHearthCtl : Cmd where
  op := 0x0106
  lenOk := lenIs 16
  allowed := onlyZero
  body := fun w q s =>
    let c := q.u8 0x20
    let o := q.u8 0x21
    let start := o == 1
    match firstBad [(0x20, decide (c < 4)), (0x21, decide (o ≤ 2)),
        (0x22, if start then decide (q.u8 0x22 < 32) else q.u8 0x22 == 0),
        (0x23, if start then q.u8 0x23 != 0 else q.u8 0x23 == 0), (0x24, q.zero 0x24 4),
        (0x28, if start then s.pcOk c (q.u64 0x28) else q.u64 0x28 == 0)] with
    | some off => bad s off
    | none =>
      match o, (s.cluster c).st with
      | 0, _ => ok s (s.clusterState c)
      | 1, .stopped =>
        if s.masked (0x2E + c) then failWith s rcConflict else
        let s1 := s.clusterStart c (q.u8 0x22) (q.u8 0x23) (q.u64 0x28)
        ok s1 (s1.clusterState c)
      | 1, _ => failWith s rcConflict
      | _, .stopped => ok s (s.clusterState c)
      | _, .stopping => failWith s rcConflict
      | _, .running =>
        if !s.handleFree w.caller then failWith s rcBusy
        else
          let h := s.newHandle w.caller 0x0106
          let s1 := h.2.clusterStop c (some h.1)
          pend s1 h.1 (s1.clusterState c)

end Sys2Proof.Machine
end

