-- ==== Sys2Proof/Machine/RegOps.lean ====
section
/-! DEFINITION. Accesses to the module's registers: through the management function's ranges (R57, R58, R60, R448), a
vNIC function's BAR0 (R336), the mailbox and event space of class 0x4 (R29) and Hearth's control blocks (R394); and the
memory requests of hosts and devices (R94, R110, R135). -/

namespace Sys2Proof.Machine

open Sys2Proof

/-! ## Register spaces -/

/-- A write of a vNIC function's BAR0: naturally aligned, 4 bytes; any other is discarded and counted (R336). -/
def State.vnicStore (s : State) (f off size v : Nat) : State :=
  if bar0Fits off size then s.vnicRegWrite f off (v % 2 ^ 32) else s.ledgerOnly 0x39

/-- A read of a vNIC function's BAR0; none for Unsupported Request (R336). -/
def State.vnicLoad (s : State) (f off size : Nat) : Option Bytes × State :=
  match s.vnic f with
  | none => (none, s)
  | some v => if bar0Fits off size then (some (leBytes 4 (s.vnicReg f v off)), s) else (none, s.ledgerOnly 0x39)

/-- A write of one of the module's register spaces, while the space decodes (R57, R335, R394). -/
def State.regWrite (s : State) (sp : RegSpace) (off size v : Nat) : State :=
  match sp with
  | .bar0 p => if s.barsOpen p ∧ off < 0x20000 then s.bar0Write p off size v else s
  | .bar2 _ => s
  | .rom _ => s
  | .vnic f =>
    (match s.vnic f with
     | some x => if x.memEn ∧ !x.d3 then s.vnicStore f off size v else s
     | none => s)
  | .cluster c =>
    if 4 ≤ c ∨ 2 ^ 20 ≤ off then s
    else match s.localWrite (c * 2 ^ 20 + off) size v with
      | some t => t
      | none => s.blockMisuse c none

/-- GO, with ACK in the same write or without (R62, R574). -/
def State.goWrite (s : State) (pg : Nat) (ack : Bool) : State :=
  if s.pageOpen pg then s.doorbell pg (1 + 2 * b2n ack) else s

/-- ACK (R62). -/
def State.ackWritten (s : State) (pg : Nat) : State := if s.pageOpen pg then s.doorbell pg 2 else s

/-! ## Requests from hosts -/

/-- The range of the management function an address falls in: 0 BAR0, 1 BAR2, 2 expansion ROM, with the offset
(R57). -/
def State.mgmtRange (s : State) (p a : Nat) : Option (Nat × Nat) :=
  let v := s.vs p
  if !s.barsOpen p then none
  else if v.bar0.toNat ≤ a ∧ a < v.bar0.toNat + 0x20000 then some (0, a - v.bar0.toNat)
  else if v.bar2.toNat ≤ a ∧ a < v.bar2.toNat + 0x100000 then some (1, a - v.bar2.toNat)
  else if v.rom.toNat ≤ a ∧ a < v.rom.toNat + 0x100000 then some (2, a - v.rom.toNat)
  else none

/-- Every byte of a request is enabled. -/
def MemReq.whole (r : MemReq) : Bool := r.fbe == 15 && (r.lbe == 15 || decide (r.len ≤ 4))

/-- A host request into BAR0 (R58). -/
def State.bar0Request (s : State) (n p off : Nat) (r : MemReq) : State :=
  if r.kind = .write then
    if MemReq.whole r ∧ !r.ep then s.bar0Write p off r.data.length (leNat r.data) else s.ledgerOnly 0x32
  else if r.kind = .read ∧ MemReq.whole r then
    match s.bar0Read p off r.len with
    | (some d, t) => t.answerAt n r 0 d
    | (none, t) => t.refuseAt n r
  else (s.ledgerOnly 0x32).refuseAt n r

/-- A host request into BAR2: reads answer its contents, writes are discarded (R448, R518). -/
def State.bar2Request (s : State) (n p off : Nat) (r : MemReq) : State :=
  if r.kind = .write then s
  else if r.kind = .read then s.answerAt n r 0 (s.bar2Bytes p off r.len)
  else s.refuseAt n r

/-- A host request into the expansion ROM range while no copy exists: reads answer all ones (R60). -/
def State.romRequest (s : State) (n : Nat) (r : MemReq) : State :=
  if r.kind = .write then s
  else if r.kind = .read then s.answerAt n r 0 (List.replicate r.len 0xFF)
  else s.refuseAt n r

/-- A memory request arrives from the host on upstream port `n` (R110, R135); it needs a credit of its kind (R97, R165). -/
def State.hostRequest (s : State) (n : Nat) (r : MemReq) : State :=
  let q := s.port n
  if q.role ≠ .upstream ∨ !q.dlActive ∨ s.noCredit n r.kind.asks then s
  else
    let p := q.part
    let s1 := s.stationCount n true (some p) (q.coreTc r.ptc) r.data.length
    match s1.mgmtRange p r.addr.toNat with
    | some (0, off) => s1.bar0Request n p off r
    | some (1, off) => s1.bar2Request n p off r
    | some (_, _) =>
      if s.ember.romCopy ∧ r.kind ≠ .write then
        (s1.count { block := 0x33, event := 0x10, part := some p }).hostLookup n r
      else s1.romRequest n r
    | none => (s1.count { block := 0x33, event := 0x10, part := some p }).hostLookup n r

/-- A memory request arrives from the device on downstream port `n` (R94, R143); it needs a credit of its kind (R97, R165). -/
def State.deviceRequest (s : State) (n : Nat) (r : MemReq) : State :=
  let q := s.port n
  if q.role ≠ .downstream ∨ !q.dlActive ∨ q.dpc ∨ s.noCredit n r.kind.asks then s
  else
    let part := (idMatch s.win.bank n r.rid r.pasid).map ePartHi
    let s1 := s.stationCount n true part (q.coreTc r.ptc) r.data.length
    (s1.count { block := 0x33, event := 0x10, part := part }).deviceLookup n r

/-- A completion arrives at port `n` (R96, R508). -/
def State.cplReceived (s : State) (n : Nat) (c : Cpl) : State :=
  let t := (s.port n).tags.find? (fun r => r.tag == c.tag)
  (s.stationCount n true (t.map (fun r => r.part)) ((t.map (fun r => r.tc)).getD 0) c.data.length).completionIn n c

/-! ## Register spaces reached through the core -/

/-- The register access a packet asks for: `rd` reads `n` bytes, `wr` writes. -/
def State.regPkt (s : State) (p : Pkt) (rd : State → Nat → Option Bytes × State) (wr : State → Nat → Nat → State) : State :=
  let d := p.d
  if d.opc = opcMWr then (if d.ep then s else wr s p.data.length (leNat p.data)).leave p
  else if d.opc = opcMRd then
    match rd s d.bcount with
    | (some b, t) => (t.leave p).complete p 0 b false
    | (none, t) => (t.leave p).complete p csUr [] false
  else (s.leave p).complete p csUr [] false

/-- A packet delivered to a network group for a vNIC function's registers (R29, R335). -/
def State.vnicPkt (s : State) (p : Pkt) : State :=
  let f := faFn p.d.faddr
  let off := p.d.faddr.toNat % 2 ^ 44
  if p.ptype = 1 then
    let t := s.leave p
    if p.d.cstat = 0 ∧ !p.d.ep then t else t.dmaFailed p.part (cplRequester p) p.d.tag
  else if p.ptype ≠ 0 then s.leave p
  else s.regPkt p (fun t n => t.vnicLoad f off n) (fun t n v => t.vnicStore f off n v)

/-- A packet delivered to Ember: class 0x4 is the partition's BAR0 map (R29, log 45); a completion of Ember's own needs
nothing more. -/
def State.emberPkt (s : State) (p : Pkt) : State :=
  let part := faPart p.d.faddr
  let off := p.d.faddr.toNat % 2 ^ 49
  if p.ptype ≠ 0 then s.leave p
  else if faClass p.d.faddr = 4 ∧ (s.vs part).up.isSome ∧ off < 0x20000 then
    s.regPkt p (fun t n => t.bar0Read part off n) (fun t n v => t.bar0Write part off n v)
  else s.regPkt p (fun t _ => (none, t)) (fun t _ _ => t)

/-- A packet delivered to core port 73. -/
def State.hearthPkt (s : State) (p : Pkt) : State :=
  if p.ptype = 1 then (s.leave p).hearthCpl p else s.hearthRequest p

/-- The packets the core has released to attachment `n` are taken by `f`, oldest first. -/
def State.takeDelivered (s : State) (n : Nat) (f : State → Pkt → State) : State :=
  (tget [] s.core.delivered n).foldl f (s.modCore (fun k => { k with delivered := tdel k.delivered n }))

/-- Network groups, Ember and Hearth take what the core has released to them. -/
def State.takeRegisters (s : State) : State :=
  let s1 := (List.range 8).foldl (fun t i => t.takeDelivered (56 + i) State.vnicPkt) s
  (s1.takeDelivered 72 State.emberPkt).takeDelivered 73 State.hearthPkt

end Sys2Proof.Machine
end

