-- ==== Sys2Proof/Machine/DevCmd.lean ====
section
/-! DEFINITION. The device group 0x01xx (R79, R80) and the firmware group 0x0Cxx (R81 to R85). -/

namespace Sys2Proof.Machine

open Sys2Proof

/-! ## Device group -/

/-- NOP: the payload comes back (R66). -/
def cmdNop : Cmd where
  op := 0x0100
  lenOk := fun _ => true
  allowed := anyone
  body := fun _ q s => ok s (q.bytes 0x20 q.length)

/-- "KV9660-PC" or "KV9660-PE" (R5). -/
def partName (ordering : Nat) : Bytes :=
  ascii ([0x4B, 0x56, 0x39, 0x36, 0x36, 0x30, 0x2D, 0x50] ++ [if ordering = 1 then 0x45 else 0x43])

/-- PERF_USER of partition `p`; always 1 for partition 0 (R519). -/
def State.perfUser (s : State) (p : Nat) : Bool := p == 0 || (s.partCfg p).perfUser

/-- BOOT_CAUSE (R454). -/
def State.bootCause (s : State) : Nat := s.boot.cause + s.boot.subCause * 16

/-- Seconds since the last module reset (R572). -/
def State.uptime (s : State) : Nat := s.time.ticks / 25000000

/-- DEVICE_INFO. -/
def cmdDeviceInfo : Cmd where
  op := 0x0101
  lenOk := lenIs 0
  allowed := anyone
  body := fun w _ s =>
    ok s (padTo 16 (partName s.nv.ordering) ++ leBytes 16 Config.serial.toNat ++ leBytes 2 0x00B0 ++
      leBytes 1 s.lifecycle ++ leBytes 1 s.own ++ leBytes 4 s.boot.fwVersion.toNat ++ leBytes 1 s.boot.fwSource ++
      leBytes 1 (b2n s.ember.smoulder) ++ leBytes 1 w.caller ++
      leBytes 1 (b2n (s.isAdmin w.caller) + 2 * b2n (s.perfUser w.caller)) ++ leBytes 4 s.uptime ++
      leBytes 1 s.bootCause ++ leBytes 1 32 ++ (List.range 4).flatMap (fun i => leBytes 2 (lget 0 s.boot.romMachines i)) ++
      leBytes 6 0)

/-- GET_OP_STATUS (R69, R70). -/
def cmdGetOpStatus : Cmd where
  op := 0x0102
  lenOk := lenIs 8
  allowed := anyone
  body := fun w q s =>
    let n := q.u32 0x20
    match s.ember.handles.find? (fun h => handleNumber h.id == n && h.part == w.subject) with
    | none => bad s 0x20
    | some h =>
      if !q.zero 0x24 4 then bad s 0x24
      else
        let st := leBytes 4 n ++ leBytes 1 (b2n (!h.running)) ++
          leBytes 1 (if h.running then Nat.min 100 (Config.progress s.free) else 100) ++
          leBytes 2 (if h.running then rcPending else h.final) ++ leBytes 2 h.opcode ++ leBytes 2 0 ++
          leBytes 4 (if h.running then 0 else h.detail)
        ok { s with free := s.free + 1 } st

/-- WARM_RESET: announced to every partition, performed after DELAY_MS (R80). -/
def cmdWarmReset : Cmd where
  op := 0x0103
  lenOk := lenIs 8
  allowed := onlyZero
  body := fun _ q s =>
    let d := q.u32 0x20
    if d < 10 ∨ 10000 < d then bad s 0x20
    else ok (((s.modKept (fun k => { k with bkp1 := BitVec.ofNat 32 (q.u32 0x24) })).modBoot (fun b =>
      { b with pendingReset := some 1, announce := some d })))

/-! ## Image slots -/

/-- Image slot `n`: 0 A, 1 B. -/
def Nv.slot (v : Nv) (n : Nat) : Slot := if n = 0 then v.slotA else v.slotB
/-- Change image slot `n`. -/
def Nv.modSlot (v : Nv) (n : Nat) (f : Slot → Slot) : Nv :=
  if n = 0 then { v with slotA := f v.slotA } else { v with slotB := f v.slotB }
/-- Code of a slot's state. -/
def SlotSt.code : SlotSt → Nat
  | .invalid => 0
  | .valid => 1
  | .opened => 2

/-- LAST_OP and LAST_STATUS of FW_GET_STATUS. -/
def State.fwDone (s : State) (op status : Nat) : State := s.modNv (fun v => { v with lastOp := op, lastStatus := status })

/-- The slot that holds the running image, when one does (R81). -/
def State.runningSlot (s : State) : Option Nat := if s.boot.fwSource ≤ 1 then some s.boot.fwSource else none

/-- FAILED_STARTS and FAILED_LIMIT of BKP0 (R475). -/
def Retained.failedStarts (k : Retained) : Nat := bits k.bkp0.toNat 26 24
/-- FAILED_LIMIT. -/
def Retained.failedLimit (k : Retained) : Nat := bits k.bkp0.toNat 29 27

/-- FW_GET_STATUS. -/
def cmdFwGetStatus : Cmd where
  op := 0x0C00
  lenOk := lenIs 0
  allowed := anyone
  body := fun _ _ s =>
    let a := s.nv.slotA
    let b := s.nv.slotB
    let shown (o : Slot) (v : Nat) : Nat := if o.st = .invalid then 0 else v
    ok s (leBytes 1 s.boot.fwSource ++ leBytes 1 (s.nv.activation.getD 0xFF) ++ leBytes 1 s.kept.failedStarts ++
      leBytes 1 s.kept.failedLimit ++ leBytes 1 a.st.code ++ leBytes 1 b.st.code ++ leBytes 2 0 ++
      leBytes 4 (shown a a.version.toNat) ++ leBytes 4 (shown b b.version.toNat) ++ leBytes 2 (shown a a.svn) ++
      leBytes 2 (shown b b.svn) ++ leBytes 2 s.nv.svnFuse ++ leBytes 2 s.nv.lastOp ++ leBytes 2 s.nv.lastStatus ++
      leBytes 2 0 ++ leBytes 4 ((s.ember.xfer.map (fun x => x.ptr)).getD 0))

/-- The transfer a new FW_BEGIN abandons leaves its slot INVALID (R84). -/
def State.abandonXfer (s : State) : State :=
  match s.ember.xfer with
  | none => s
  | some x => (s.modNv (fun v => v.modSlot x.slot (fun o => { o with st := .invalid, good := false }))).modEmber (fun e =>
      { e with xfer := none })

/-- Sectors of 64 KiB an image of `n` bytes needs (R84). -/
def eraseSectors (n : Nat) : Nat := ceilDiv n 65536

/-- FW_BEGIN: the slot is OPEN and its erase begins (R81, R84). -/
def cmdFwBegin : Cmd where
  op := 0x0C01
  lenOk := lenIs 8
  allowed := onlyZero
  body := fun w q s =>
    let slot := q.u8 0x20
    let size := q.u32 0x24
    match firstBad [(0x20, decide (slot ≤ 1)), (0x21, q.zero 0x21 3),
        (0x24, decide (4 ≤ size ∧ size ≤ 0x03000000) && size % 4 == 0)] with
    | some off => bad s off
    | none =>
      if s.runningSlot = some slot then failWith s rcLocked
      else if s.ember.xfer.any (fun x => x.owner != w.caller || x.path != w.path || x.op != .none) then failWith s rcConflict
      else if !s.handleFree w.caller then failWith s rcBusy
      else
        let h := s.abandonXfer.newHandle w.caller 0x0C01
        pend ((h.2.modNv (fun v => v.modSlot slot (fun o =>
          { st := .opened, size := size, data := mclear o.data 0 (eraseSectors size * 65536) }))).modEmber (fun e =>
            { e with xfer := some { slot := slot, size := size, owner := w.caller, path := w.path, op := .erase, handle := h.1 } })) h.1

/-- A P reset that arrived while an operation of the transfer ran closes it once that has ended (R82). -/
def State.closeIfDue (s : State) : State :=
  match s.ember.xfer with
  | some x => if x.closeDue ∧ x.op = .none then s.closeXfer else s
  | none => s

/-- The erase ends (R84). -/
def State.eraseDone (s : State) (good : Bool) : State :=
  match s.ember.xfer with
  | none => s
  | some x =>
    if x.op ≠ .erase then s
    else if good then
      (((s.modEmber (fun e => { e with xfer := some { x with erased := true, op := .none } })).fwDone 0x0C01 rcOk).endHandle
        x.handle rcOk).closeIfDue
    else ((s.abandonXfer.raiseAt 0x3A 2).fwDone 0x0C01 rcHwFault).endHandle x.handle rcHwFault

/-- The open transfer, checked against its slot and its owner: the status that refuses, if any. DESIGN CHOICE (log 62):
with no open transfer no SLOT can name its slot, so the answer is BAD_FIELD at 0x20. DESIGN CHOICE (log 68): while the erase
still runs FW_FINISH answers NOT_READY, as FW_WRITE does (R84). -/
def State.xferFault (s : State) (w : Who) (slot : Nat) : Option Xfer × Ans :=
  match s.ember.xfer with
  | none => (none, bad s 0x20)
  | some x => (some x, if x.slot ≠ slot then bad s 0x20
      else if x.owner ≠ w.caller ∨ x.path ≠ w.path ∨ x.op = .verify then failWith s rcConflict
      else if !x.erased then failWith s rcNotReady
      else ok s)

/-- FW_WRITE: bytes at WRITE_PTR (R84, R575). -/
def cmdFwWrite : Cmd where
  op := 0x0C02
  lenOk := fun q => q.length == 16 + q.u32 0x28
  allowed := onlyZero
  body := fun w q s =>
    let n := q.u32 0x28
    match s.xferFault w (q.u8 0x20) with
    | (none, a) => a
    | (some x, a) =>
      match firstBad [(0x20, x.slot == q.u8 0x20), (0x21, q.zero 0x21 3), (0x24, q.u32 0x24 == x.ptr),
          (0x28, decide (4 ≤ n ∧ n ≤ 4048) && n % 4 == 0 && decide (q.u32 0x24 + n ≤ x.size)), (0x2C, q.zero 0x2C 4)] with
      | some off => bad s off
      | none =>
        if a.status ≠ rcOk then a
        else
          let r := s.freeBit
          if r.1 then { status := rcHwFault, s := (r.2.raiseAt 0x3A 2).fwDone 0x0C02 rcHwFault }
          else
            let s1 := (r.2.modNv (fun v => v.modSlot x.slot (fun o => { o with data := mwrite 0xFF o.data x.ptr (q.bytes 0x30 n) }))).modEmber
              (fun e => { e with xfer := some { x with ptr := x.ptr + n } })
            ok (s1.fwDone 0x0C02 rcOk) (leBytes 4 (x.ptr + n) ++ leBytes 4 0)

/-- FW_FINISH: the verification begins (R83, R576). -/
def cmdFwFinish : Cmd where
  op := 0x0C03
  lenOk := lenIs 4
  allowed := onlyZero
  body := fun w q s =>
    match s.xferFault w (q.u8 0x20) with
    | (none, a) => a
    | (some x, a) =>
      if x.slot ≠ q.u8 0x20 then bad s 0x20
      else if !q.zero 0x21 3 then bad s 0x21
      else if a.status ≠ rcOk then a
      else if !s.handleFree w.caller then failWith s rcBusy
      else
        let h := s.newHandle w.caller 0x0C03
        pend (h.2.modEmber (fun e => { e with xfer := some { x with op := .verify, handle := h.1 } })) h.1

/-- What verification finds of an image: final status and detail (R83). DESIGN CHOICE (log 63): where several checks fail
the first of write pointer, signature, format and security version is reported. -/
def Nv.verdict (v : Nv) (b : Bytes) (whole : Bool) : Nat × Nat :=
  if !whole then (rcBadField, 1)
  else if !Config.imageSigned b then (rcBadField, 2)
  else if !Config.imageKnown b then (rcBadField, 3)
  else if Config.imageSvn b % 65536 < v.svnFuse then (rcDenied, 0)
  else (rcOk, 0)

/-- The verification ends: every final status closes the transfer, and OK alone leaves the slot VALID (R83). -/
def State.verifyDone (s : State) (good : Bool) : State :=
  match s.ember.xfer with
  | none => s
  | some x =>
    if x.op ≠ .verify then s
    else
      let b := (s.nv.slot x.slot).image
      let r := if good then s.nv.verdict b (x.ptr == x.size) else (rcHwFault, 0)
      let s1 := (s.modEmber (fun e => { e with xfer := none })).modNv (fun v => v.modSlot x.slot (fun o =>
        if r.1 = rcOk then { o with st := .valid, good := true, version := Config.imageVersion b, svn := Config.imageSvn b % 65536 }
        else { o with st := .invalid, good := false }))
      let s2 := if good then s1 else s1.raiseAt 0x3A 2
      (s2.fwDone 0x0C03 r.1).endHandle x.handle r.1 r.2

/-- FW_ACTIVATE (R85, R474). -/
def cmdFwActivate : Cmd where
  op := 0x0C04
  lenOk := lenIs 4
  allowed := onlyZero
  body := fun _ q s =>
    let slot := q.u8 0x20
    let st := (s.nv.slot slot).st
    match firstBad [(0x20, slot == 0xFF || (decide (slot ≤ 1) && st != .invalid)), (0x21, decide (q.u8 0x21 ≤ 1)),
        (0x22, decide (q.u8 0x22 ≤ 1)), (0x23, q.zero 0x23 1)] with
    | some off => bad s off
    | none =>
      if slot ≠ 0xFF ∧ st = .opened then failWith s rcConflict
      else
        let r := s.freeBit
        if r.1 then { status := rcHwFault, s := (r.2.raiseAt 0x3A 2).fwDone 0x0C04 rcHwFault }
        else
          let s1 := (r.2.modNv (fun v => { v with activation := if slot = 0xFF then none else some slot })).fwDone 0x0C04 rcOk
          let s2 := if q.u8 0x22 = 1 then
              s1.modKept (fun k => { k with bkp0 := k.bkp0 &&& ~~~0x07000000#32 }) else s1
          ok (if q.u8 0x21 = 1 then s2.modBoot (fun b => { b with pendingReset := some 2 }) else s2)

end Sys2Proof.Machine
end

