-- ==== Sys2Proof/Machine/CoreCmd.lean ====
section
/-! DEFINITION. The switch core's iteration count (R175 to R177), the spill engine's readback (R185, R189) and the core
commands (R192, R193). -/

namespace Sys2Proof.Machine

open Sys2Proof

/-- N takes a new value: each plane takes it over at its next cell boundary, and partition 0 is told (R176, R177). -/
def State.setN (s : State) (n : Nat) : State :=
  (s.modCore (fun c => { c with n := n, iterChanges := sat 65535 c.iterChanges 1 })).event 0x80A [0] n

/-- Ember reads the planes' mean cell times, in ps, and lowers N when one exceeds 4.90 ns (R176). -/
def State.iterMeasure (s : State) (ps : List Nat) : State :=
  let s1 := (List.range 4).foldl (fun t k => t.modPlane k (fun p => { p with meanPs := lget p.meanPs ps k })) s
  if s.ember.fwReady ∧ 2 < s.core.n ∧ ps.any (fun t => decide (4900 < t)) then s1.setN (s.core.n - 1) else s1

/-- The planes lower N without Ember (R176, source 1 of the plane). -/
def State.iterFast (s : State) (k : Nat) : State :=
  if 2 < s.core.n then (s.setN (s.core.n - 1)).raiseAt (0x22 + k % 4) 1 else s

/-- A packet of `n` cells can return from the spill region (R161, R183). -/
def State.spillRoom (s : State) (o n : Nat) : Bool :=
  decide (n ≤ s.sharedFree) && (!s.heldOut o || decide (s.heldSram o + n ≤ s.holdQuota o)) && !s.planesIn.isEmpty

/-- The oldest spilled packet of a VOQ returns to SRAM, striped afresh; an uncorrectable error aborts it, and poisons a
line of the region (R185, R189, R275, log 46). -/
def State.spillBack (s : State) (i o tc : Nat) (ue : Bool) : State :=
  let mine (e : QPkt) : Bool := e.place == .spilled && e.pkt.src == i && e.pkt.dst == o && e.pkt.tc == tc
  match s.core.q.find? mine with
  | none => s
  | some e =>
    if !s.spillRoom o e.n then s
    else
      let ps := stripe s.planesIn (tget 0 s.core.rot i) e.pkt.formedCells
      let e1 : QPkt :=
        { e with
          place := if s.heldOut o then .held else .shared
          planes := ps
          pkt := { e.pkt with spilled := true, abort := e.pkt.abort || ue, abortCause := if ue then 2 else e.pkt.abortCause } }
      let rec put : List QPkt → List QPkt
        | [] => []
        | x :: r => if mine x then e1 :: r else x :: put r
      let s1 := (s.modCore (fun k =>
        { k with
          q := put k.q
          rot := match ps.getLast? with | some l => tset k.rot i ((l + 1) % 4) | none => k.rot })).count
        { block := 0x38, event := 0x11, raw := e.n }
      if ue then
        let r := (s1.raiseAt 0x38 0).freeNat
        let n := r.1 % Nat.max 1 s.pool.spillSods
        r.2.lineBad (poolKey n (r.1 / Nat.max 1 s.pool.spillSods % 2 ^ 30)) 1 none
      else s1

/-- VOQs whose packets wait for spill space (R186). -/
def State.blockedVoqs (s : State) : Nat :=
  ((s.core.waiting.filter (fun w => w.why == .spill)).map (fun w => voqOf w.pkt)).eraseDups.length

/-- CORE_GET_STATUS. -/
def cmdCoreGetStatus : Cmd where
  op := 0x0104
  lenOk := lenIs 0
  allowed := onlyZero
  body := fun _ _ s =>
    let g := s.core.cfg
    ok s (leBytes 1 s.core.n ++ leBytes 1 (bitsOf 4 (fun k => (s.plane k).inService)) ++ leBytes 2 s.core.iterChanges ++
      (List.range 4).flatMap (fun k => leBytes 2 (Nat.min 65535 (s.plane k).meanPs)) ++
      leBytes 4 (s.charged (fun e => e.place != .spilled)) ++ leBytes 4 s.sharedFree ++ leBytes 4 s.spillUsed ++
      leBytes 4 s.spillCap ++ leBytes 4 s.cplSpillUsed ++ leBytes 2 (bitsOf 16 (fun l => s.countsHeld (40 + l))) ++
      leBytes 2 s.blockedVoqs ++ leBytes 1 g.lossyMask.toNat ++ leBytes 1 g.holdQuota ++ leBytes 1 g.holdTotal ++ leBytes 1 0 ++
      leBytes 4 g.alpha.toNat ++ (List.range 8).flatMap (fun c => leBytes 1 (lget 0 g.weight c)) ++
      (List.range 8).flatMap (fun c => leBytes 1 (lget 255 g.drop c)) ++ leBytes 4 s.core.aborts ++ leBytes 4 s.core.heldDrops ++
      leBytes 4 s.core.withdrawn ++ leBytes 4 0)

/-- The bytes of a field that VALID names pass `f`; of any other they are 0 (CORE_SET_CONFIG, log 47). -/
def namedOk (named : Bool) (v : Nat) (good : Bool) : Bool := if named then good else v == 0

/-- CORE_SET_CONFIG (R192). -/
def cmdCoreSetConfig : Cmd where
  op := 0x0105
  lenOk := lenIs 32
  allowed := onlyZero
  body := fun _ q s =>
    let v := q.u16 0x20
    let w := (List.range 8).map (fun c => q.u8 (0x28 + c))
    let d := (List.range 8).map (fun c => q.u8 (0x30 + c))
    let hq := q.u8 0x38
    let ht := q.u8 0x39
    match firstBad ([(0x20, decide (v < 32) && v != 0), (0x22, namedOk (bit v 0) (q.u8 0x22) (decide (q.u8 0x22 < 128))),
        (0x23, q.zero 0x23 1), (0x24, namedOk (bit v 1) (q.u32 0x24) (decide (q.u32 0x24 < 2 ^ 24)))] ++
        (List.range 8).map (fun c => (0x28 + c, namedOk (bit v 2) (lget 0 w c) (if c = 7 then lget 0 w c == 0 else lget 0 w c != 0))) ++
        (List.range 8).map (fun c => (0x30 + c, namedOk (bit v 3) (lget 0 d c)
          (lget 0 d c == 255 || (c != 7 && decide (lget 0 d c < 16))))) ++
        [(0x38, namedOk (bit v 4) hq (decide (1 ≤ hq ∧ hq ≤ 32))), (0x39, namedOk (bit v 4) ht (decide (hq ≤ ht ∧ ht ≤ 48))),
         (0x3A, q.zero 0x3A 6)]) with
    | some off => bad s off
    | none =>
      ok (s.modCore (fun c => { c with cfg :=
        { c.cfg with
          lossyMask := if bit v 0 then BitVec.ofNat 8 (q.u8 0x22) else c.cfg.lossyMask
          alpha := if bit v 1 then BitVec.ofNat 32 (q.u32 0x24) else c.cfg.alpha
          weight := if bit v 2 then w else c.cfg.weight
          drop := if bit v 3 then d else c.cfg.drop
          holdQuota := if bit v 4 then hq else c.cfg.holdQuota
          holdTotal := if bit v 4 then ht else c.cfg.holdTotal } }))

end Sys2Proof.Machine
end

