-- ==== Sys2Proof/Machine/Isolation.lean ====
section
/-! DEFINITION. Partition settings, the isolation conditions and strict partition mode (R418 to R429). -/

namespace Sys2Proof.Machine

open Sys2Proof

/-! ## Isolation conditions (R419) -/

/-- The partition a table entry names: OWNER, GRANTEE or PARTITION (R419). -/
def entryNames (k : Nat) (e : Entry) : Nat := if tableOfKey k = 4 then eGrantee e else entryOwner (tableOfKey k) e

/-- Entries partition 0 staged for another partition that carry no LOCK (R419 bit 2). -/
def State.unlocked (s : State) : Nat :=
  s.win.byZero.countP (fun k =>
    let e := bankGet s.win.bank k
    eValid e && entryNames k e != 0 && !eLock e)

/-- Some partition other than 0 holds FABRIC_ADMIN. -/
def State.otherAdmin (s : State) : Bool := (List.range 32).any (fun p => p != 0 && (s.partCfg p).fabricAdmin)

/-- The module is in fabric mode (R419 bit 7). -/
def State.fabricMode (s : State) : Bool :=
  (List.range 16).any (fun l => (s.link l).enabled) || (List.range 64).any (fun m => (s.adm m).st != .unknown)

/-- R255 as far as this module's own records show it: every module they know is ADMITTED, without FORCE and with
firmware 3.0 or later (log 48). -/
def State.fabricHolds (s : State) : Bool :=
  !s.fab.forced && !s.otherAdmin && (List.range 64).all (fun m =>
    let a := s.adm m
    m == s.own || a.st == .unknown || a.st == .withdrawn ||
      (a.st == .admitted && !a.force && (!a.verified || decide (3 ≤ a.fwVersion.toNat / 2 ^ 24))))

/-- CONDITIONS of ISO_GET_STATUS (R419). -/
def State.isoConditions (s : State) : Nat :=
  b2n (s.lifecycle == 1) + 2 * b2n (!s.iso.debugWritten) + 4 * b2n (s.unlocked == 0) + 8 +
    16 * b2n (s.pool.sods.all (fun e => e.2.st != .assigned || e.2.freed)) +
    32 * b2n (s.ports.all (fun e => (match e.2.mode with | .shared _ _ _ => e.2.dev.acs | _ => true))) +
    64 * b2n (!s.otherAdmin) + 128 * b2n (!s.fabricMode || s.fabricHolds)

/-- Sum of STRICT_SLOTS. -/
def State.slotsGiven (s : State) : Nat := ((List.range 32).map (fun p => (s.partCfg p).strictSlots)).sum

/-! ## Strict partition mode (R424 to R427) -/

/-- Gates of slot `k` of the list of port `n`: the partition of the slot (R425, log 37). -/
def State.strictMask (s : State) (n k : Nat) : Nat :=
  if k = 0 then (if n < 32 then 1 else 0)
  else match s.sharedCalendar[k - 1]? with
    | some p => 2 ^ p
    | none => 0

/-- The list Ember builds for port `n`: 32 entries of STRICT_GATE_NS (R425). -/
def State.strictList (s : State) (n : Nat) : GateList :=
  { cycleNs := 32 * s.iso.gateNs, entries := (List.range 32).map (fun k => (s.strictMask n k, s.iso.gateNs / 8)) }

/-- The gate engines strict partition mode holds: configured logical ports and fabric links (R425). -/
def State.strictPorts (s : State) : List Nat := (List.range 32).filter s.hasLport ++ (List.range 16).map (32 + ·)

/-- The lists of strict partition mode become pending with one change time and one comparator; none when no
comparator can be given (R379, R385, R425). -/
def State.layStrict (s : State) : Option State :=
  let t := firstAt 0 (32 * s.iso.gateNs) (s.ptpNow + 10000)
  let s1 := (s.strictPorts.foldl (fun x n => x.modGate n (fun g => { g with pend := none })) s).settleGateComps
  (s1.gateComp t).map (fun k =>
    (s.strictPorts.foldl (fun x n => x.modGate n (fun g =>
      { g with
        pend := some (s.strictList n)
        changeSec := t / 1000000000, changeNs := t % 1000000000, adjusted := t != 0, byStrict := true }))
      (s1.takeGateComp k t)).modIso (fun i => { i with strict := true, strictPend := true }))

/-- A change of STRICT_SLOTS while strict mode is enabled: the lists are laid afresh, at once where no comparator is
free (R427, log 37). -/
def State.relayStrict (s : State) : State :=
  match s.layStrict with
  | some t => t
  | none => s.strictPorts.foldl (fun x n => x.modGate n (fun g => { g with oper := some (s.strictList n), pend := none })) s

/-- Running STRICT_SET handles end (R429). -/
def State.strictDone (s : State) : State :=
  s.iso.handles.foldl (fun t h => t.endHandle h rcOk) (s.modIso (fun i => { i with strictPend := false, handles := [] }))

/-- Strict mode ends: every gate engine is all-open at once (R427). -/
def State.strictOff (s : State) : State :=
  (s.strictPorts.foldl (fun t n => t.gateRemove n) (s.modIso (fun i => { i with strict := false }))).strictDone

/-- The change time of port `n`'s pending list: a list of strict mode changes with all of its kind (R379, R425). -/
def State.gateTime (s : State) (n : Nat) : State :=
  let g := s.gate n
  if g.pend.isNone then s
  else if g.byStrict then (s.strictPorts.foldl (fun t k => t.gateChange k false) s).strictDone
  else s.gateChange n false

/-! ## Partition command group -/

/-- The sweep stream of a partition is disabled with a cause (R518). -/
def State.streamStop (s : State) (p cause : Nat) : State :=
  if (tget {} s.cnt.streams p).enabled then
    s.modCnt (fun c => { c with streams := tmod {} c.streams p (fun x => { x with enabled := false, cause := cause, due := none }) })
  else s

/-- Change the settings of partition `p`. -/
def State.modPart (s : State) (p : Nat) (f : PartCfg → PartCfg) : State := s.modIso (fun i => { i with parts := tmod {} i.parts p f })

/-- PART_GET, 0x0200. -/
def cmdPartGet : Cmd where
  op := 0x0200
  lenOk := lenIs 4
  allowed w q _ := w.caller == 0 || q.u8 0x20 == w.caller
  body _ q s :=
    let p := q.u8 0x20
    match firstBad [(0x20, decide (p < 32)), (0x21, q.zero 0x21 3)] with
    | some f => bad s f
    | none =>
      let v := s.vs p
      let g : RtBlock := tget {} s.rt.blocks p
      ok s (leBytes 1 p ++ leBytes 1 (b2n (s.allParts.contains p) + 2 * b2n (s.isAdmin p) + 4 * b2n (s.perfUser p)) ++
        leBytes 1 (v.up.getD 0xFF) ++ leBytes 1 v.vdspCount ++ leBytes 1 (s.partCfg p).strictSlots ++
        leBytes 1 (bitsOf 4 (fun c => (s.cluster c).part == p)) ++ leBytes 2 (s.sodsHeld 1 p + s.sodsHeld 2 p) ++
        leBytes 2 (s.net.vnics.countP (fun e => e.2.part == p)) ++ leBytes 2 g.gbase ++ leBytes 2 g.gcount ++ leBytes 2 0)

/-- PART_SET, 0x0201. -/
def cmdPartSet : Cmd where
  op := 0x0201
  lenOk := lenIs 4
  allowed := onlyZero
  body _ q s :=
    let p := q.u8 0x20
    let v := q.u8 0x21
    let f := q.u8 0x22
    let n := q.u8 0x23
    match firstBad [(0x20, decide (p < 32) && (p != 0 || v % 4 == 0)), (0x21, decide (1 ≤ v ∧ v < 8)), (0x22, decide (f < 4)),
        (0x23, !bit v 2 || decide (n < 32))] with
    | some x => bad s x
    | none =>
      if bit v 2 ∧ 31 < s.slotsGiven - (s.partCfg p).strictSlots + n then failWith s rcBusy
      else
        let s1 := s.modPart p (fun c =>
          { fabricAdmin := if bit v 0 then bit f 0 else c.fabricAdmin
            perfUser := if bit v 1 then bit f 1 else c.perfUser
            strictSlots := if bit v 2 then n else c.strictSlots })
        let s2 := if bit v 1 ∧ !bit f 1 then s1.streamStop p 3 else s1
        ok (if bit v 2 ∧ s.iso.strict then s2.relayStrict else s2)

/-- ISO_GET_STATUS, 0x0202. -/
def cmdIsoGetStatus : Cmd where
  op := 0x0202
  lenOk := lenIs 0
  allowed := anyone
  body w _ s :=
    let c := s.isoConditions
    ok s (leBytes 1 c ++ leBytes 1 (b2n (c == 255)) ++ leBytes 1 (if !s.iso.strict then 0 else if s.iso.strictPend then 2 else 1) ++
      leBytes 1 s.slotsGiven ++ leBytes 2 (if w.caller = 0 then Nat.min 65535 s.unlocked else 0) ++ leBytes 2 0 ++
      leBytes 4 s.iso.gateNs ++ leBytes 4 0)

/-- A port has a user schedule (R384, R427). -/
def State.userSchedule (s : State) : Bool :=
  s.tm.gates.any (fun e => (e.2.oper.isSome || e.2.pend.isSome) && !e.2.byStrict)

/-- STRICT_SET, 0x0203. -/
def cmdStrictSet : Cmd where
  op := 0x0203
  lenOk := lenIs 8
  allowed := onlyZero
  body w q s :=
    let en := q.u8 0x20
    let raw := q.u32 0x24
    let g := if raw = 0 then 10000 else raw
    match firstBad [(0x20, decide (en ≤ 1)), (0x21, q.zero 0x21 3),
        (0x24, en == 0 || (decide (1000 ≤ g ∧ g ≤ 100000) && g % 8 == 0))] with
    | some f => bad s f
    | none =>
      if en = 0 then ok (if s.iso.strict then s.strictOff else s)
      else if s.iso.strict ∧ s.iso.gateNs = g then ok s
      else if s.userSchedule ∨ !s.handleFree w.caller then failWith s rcBusy
      else match (s.modIso (fun i => { i with gateNs := g })).layStrict with
        | none => failWith s rcBusy
        | some t =>
          let h := t.newHandle w.caller 0x0203
          pend (h.2.modIso (fun i => { i with handles := h.1 :: i.handles })) h.1

end Sys2Proof.Machine
end

