-- ==== Sys2Proof/Machine/Links.lean ====
section
/-! DEFINITION. Fabric links: flits received (R205 to R215), training (R217 to R221), and the commands
LINK_GET_STATUS, LINK_SET and LINK_RESET (R226, R227). -/

namespace Sys2Proof.Machine

open Sys2Proof

/-! ## Flits received -/

/-- A framing error is found on link `l` (R202). -/
def State.framing (s : State) (l : Nat) : State := (s.framingCore l).linkLeft l

/-- A packet is whole: the core already has its head, as number `id` of the stream, or it enters now (R178, R201). -/
def State.packetDone (s : State) (l id : Nat) (entered : Bool) (e : Nat × List (BitVec 128)) : State :=
  let p := pktOfUnits e.2 e.1 false
  if entered ∧ e.1 = id then s.endPkt (40 + l) id p.data else s.fabricIn l p

/-- The packet in progress on a VC has its head, which enters the core, or more of its data (R178, R220). A request that is
split at the blocks of a wide sod waits until it is whole (R264). -/
def State.packetGoesOn (s : State) (l vc id : Nat) (entered : Bool) (us : List (BitVec 128)) : State :=
  if us.length < 3 then s
  else
    let p := pktOfUnits us id true
    if entered then s.growPkt (40 + l) id p.data
    else if 1 < (s.arrivals p).length then s
    else (s.modLink l (fun k => { k with rx := tmod {} k.rx vc (fun x => { x with entered := true }) })).fabricIn l p

/-- A sequenced flit that takes slot kind `sh` of its VC is accepted: EXP advances (R205, R212). -/
def State.takeSlot (s : State) (l : Nat) (f : Flit) (sh : Bool) (ids : List Nat) (g : RxVc → RxVc) : State :=
  s.modLink l (fun k =>
    { k with exp := k.exp + 1, accepted := true, nakOut := false, nakDue := false
             rx := tmod {} k.rx f.vc (fun x => g { x with slots := x.slots ++ [{ shared := sh, flit := f, ids := ids }] }) })

/-- A DATA flit is accepted: its units join the stream of its VC, and packets go on into the core as they come (R205, R211). -/
def State.acceptFlit (s : State) (l : Nat) (f : Flit) (sh : Bool) (a : Parse) : State :=
  let x := (s.link l).rxVc f.vc
  let goesOn := x.entered && a.id == x.id && !a.cur.isEmpty
  let s1 := (s.takeSlot l f sh a.ids (fun x => { x with units := a.cur, id := a.id, entered := goesOn })).modLink l
    (fun k => { k with rxCount := a.count })
  let s2 := a.done_.foldl (fun t e => t.packetDone l x.id x.entered e) (s1.linkCount l 0x11)
  (s2.packetGoesOn l f.vc a.id goesOn a.cur).rxRefresh l

/-- An ABORT flit is accepted: the packet in progress on its VC ends and is bad, as for an ingress link error (R180, R203). -/
def State.acceptAbort (s : State) (l : Nat) (f : Flit) (sh : Bool) : State :=
  let x := (s.link l).rxVc f.vc
  let s1 := s.takeSlot l f sh [x.id] (fun x => { x with units := [], entered := false })
  (if x.entered then s1.cutPkt (40 + l) x.id 1 else s1).rxRefresh l

/-- A DATA or ABORT flit that passed its CRC (R202, R203, R205, R212). -/
def State.seqFlit (s : State) (l : Nat) (f : Flit) : State :=
  let k := s.link l
  let d := (f.seq - k.exp).toNat
  if 32768 ≤ d then s
  else if d ≠ 0 then s.owesNak l
  else match k.slotFor f.vc with
    | none =>
      ((s.modLink l (fun k => { k with overruns := sat (2 ^ 32 - 1) k.overruns 1 })).linkFault l 8).owesNak l
    | some sh =>
      let x := k.rxVc f.vc
      if f.ftype = 2 then
        if x.units.isEmpty then s.framing l else s.acceptAbort l f sh
      else
        let a := parseFlit x k.rxCount f
        if a.broken then s.framing l else s.acceptFlit l f sh a

/-- The 256 bytes of a flit arrive on link `l`: whether its codewords decoded, and the symbols corrected; its CRC is
checked here (R196, R197, R198, R205, R207, R215). In NEGOTIATE only the XOFF map is acted on: the record of a TRAIN flit is a
command of its own. -/
def State.flitIn (s : State) (l : Nat) (raw : Bytes) (decoded : Bool) (corrected : Nat) : State :=
  let f := flitOf raw
  let crcOk := flitCrcOk raw
  let s0 := (s.rxRefresh l).modLink l (fun k =>
    { k with fecCorr := if decoded then sat (2 ^ 32 - 1) k.fecCorr corrected else k.fecCorr })
  let bad (k : Link) : Link := { k with crcErrs := sat (2 ^ 32 - 1) k.crcErrs 1 }
  let map (k : Link) : Link :=
    if crcOk then { k with xoffRx := f.xoff, xoffSeen := f.xoff } else { k with xoffRx := k.xoffRx ||| f.xoff }
  if (s.link l).st = .negotiate then (if decoded then s.modLink l map else s)
  else if (s.link l).st ≠ .up then s
  else if !decoded then
    (((s0.modLink l (fun k => { bad k with fecUncorr := sat (2 ^ 32 - 1) k.fecUncorr 1 })).linkFault l 1).linkFault l
      0).owesNak l
  else if !crcOk then
    ((s0.modLink l (fun k => bad (map k))).linkFault l 0).owesNak l
  else
    let s1 := s0.modLink l map
    let s2 := if f.ackv then s1.linkAck l f.ack else s1
    match f.ftype with
    | 0 => s2
    | 1 => s2.seqFlit l f
    | 2 => s2.seqFlit l f
    | 3 => (s2.nakIn l f).linkLeft l
    | 4 => s2.linkReset l 2
    | 5 => s2
    | _ => s2.framing l

/-- REPLAY_TO passes (R207). -/
def State.replayTo (s : State) (l : Nat) : State := (s.replayTimeout l).linkLeft l

/-! ## Training (R217 to R219) -/

/-- 1 µs of LRESET flits ends. -/
def State.lresetOver (s : State) (l : Nat) : State :=
  if (s.link l).st = .lreset then s.linkTo l (fun k => { k with st := .idle }) else s

/-- 10 µs of electrical idle end. -/
def State.idleOver (s : State) (l : Nat) : State :=
  if (s.link l).st = .idle then s.toDetect l else s

/-- A beacon of the peer arrives in DETECT (R217, R218). -/
def State.beaconIn (s : State) (l : Nat) (r : TrainRec) : State :=
  if (s.link l).st ≠ .detect ∨ s.boot.fabricHeld ∨ !s.lands.frefOk then s
  else s.linkTo l (fun k =>
    { k with st := .equalize, peerRec := some r, peerModule := r.module, peerLink := r.link,
             leader := decide (s.own < r.module) })

/-- No beacon within 10 ms: the own beacon goes on. -/
def State.detectTimeout (s : State) (l : Nat) : State :=
  if (s.link l).st = .detect then s.beacon l else s

/-- Lanes have adapted (R217, R218). -/
def State.equalized (s : State) (l lanes : Nat) : State :=
  if (s.link l).st ≠ .equalize ∨ lanes % 16 = 0 then s
  else s.linkTo l (fun k => { k with st := .align, lanesOk := BitVec.ofNat 4 lanes })

/-- A training attempt fails with a cause: the link waits, or returns to DETECT at once (R217, R225). -/
def State.trainFail (s : State) (l cause : Nat) : State :=
  let s1 := (s.modLink l (fun k => { k with lastCause := cause, cause := cause })).linkFault l (if cause = 9 then 10 else 11)
  if cause = 12 then s1.toDetect l else s1.linkTo l (fun k => { k with st := .retry })

/-- No lane adapts within 50 ms. -/
def State.equalizeTimeout (s : State) (l : Nat) : State :=
  if (s.link l).st = .equalize then s.trainFail l 11 else s

/-- The selected lanes lock and deskew, as their pairs show (R196). -/
def State.aligned (s : State) (l : Nat) (rx : List LaneRx) : State :=
  let k := s.link l
  if k.st = .align ∧ lanesAlign k.lanesOk rx then
    s.linkTo l (fun k =>
      { k with st := .negotiate, aligned := true, trainDue := k.leader, laneOrder := rx.map LaneRx.lane })
  else s

/-- The lanes do not lock within 1 ms. -/
def State.alignTimeout (s : State) (l : Nat) : State :=
  if (s.link l).st = .align then s.trainFail l 12 else s

/-- The wait after a failed attempt ends. -/
def State.retryOver (s : State) (l : Nat) : State :=
  if (s.link l).st = .retry then s.toDetect l else s

/-- Resend after a reset with streams kept: the peer's RX_LAST frees slots, the rest is renumbered from 0 and
goes first (R220). -/
def State.resend (s : State) (l : Nat) (r : TrainRec) : State :=
  let s1 := if r.rxLastV then s.linkAck l r.rxLast else s
  s1.modLink l (fun k =>
    let rs := k.replay.zipIdx.map (fun e => { e.1 with flit := { e.1.flit with seq := BitVec.ofNat 16 e.2 } })
    { k with replay := rs, seq := BitVec.ofNat 16 rs.length, replayAt := if rs.isEmpty then none else some 0 })

/-- The admission record of the peer of link `l`, which enters UP (R243). -/
def State.peerUp (s : State) (l : Nat) : State :=
  let m := (s.link l).peerModule
  if (s.adm m).st = .unknown ∨ (s.adm m).st = .withdrawn then s.modAdm m (fun a => { a with st := .quarantined }) else s

/-- The records of both ends agree: link `l` enters UP (R216 to R222, R227, R241). -/
def State.enterUp (s : State) (l : Nat) (r : TrainRec) (rtt width rate : Nat) (lanes : BitVec 4) : State :=
  let k := s.link l
  let lost := k.streamReset || r.streamReset
  let own := s.trainRec l
  let s1 := if r.streamReset ∧ (r.cause = 6 ∨ r.framing) then s.linkFault l 13 else s
  let s2 := if lost then s1.resolveFailure l else s1.resend l r
  let h := headroom rtt width rate
  let slots := slotsFor h
  let quar := lost || (s.adm r.module).st != .admitted
  let s3 := s2.linkTo l (fun k =>
    { k with st := .up, width := width, rate := rate, lanesUse := lanes, rttNs := rtt, h := h, p := slots.1,
             sharedSlots := slots.2, seq := if lost then 0 else k.seq, streamReset := false, framing := false,
             failed := false, quarantined := quar, vcMapUp := k.vcMap, upTick := s.time.ticks, wasUp := true,
             spdmTries := 0, spdmOk := false, spdmRun := false, cause := 0, rxLastV := false, rxLast := 0,
             upRec := own, handle := none })
  let s4 := if width < k.maxWidth then s3.linkFault l 5 else s3
  let s5 := if rate < k.maxRate then s4.linkFault l 6 else s4
  let s6 := s5.peerUp l
  let s7 := if quar then s6.spdmStart l else s6.pathsBack l
  match k.handle with
  | some x => s7.endHandle x rcOk
  | none => s7

/-- A TRAIN record arrives in NEGOTIATE, `interval` ns after the ECHO_REQ it answers (R217, R218). -/
def State.trainIn (s : State) (l : Nat) (r : TrainRec) (interval : Nat) : State :=
  let k := s.link l
  if k.st = .up then
    (if r.echoReq then s.modLink l (fun k => { k with trainDue := true, peerRec := some r, echoTick := s.time.ticks }) else s)
  else if k.st ≠ .negotiate then s
  else
    let s1 := s.modLink l (fun k =>
      { k with peerRec := some r, peerModule := r.module, peerLink := r.link, trainDue := k.trainDue || r.echoReq,
               echoTick := if r.echoReq then s.time.ticks else k.echoTick, leader := decide (s.own < r.module) })
    if r.module = s.own then s1.trainFail l 9
    else if !r.echoRsp then s1
    else
      let rtt := interval - r.turnNs
      let w := trainWidth (k.lanesOk &&& r.lanesOk) (Nat.min k.reqWidth r.reqWidth)
      let rate := Nat.min k.reqRate r.reqRate
      if w.1 = 0 then s1
      else if 80 < headroom rtt w.1 rate then
        (s1.modLink l (fun k => { k with rttNs := rtt, h := headroom rtt w.1 rate })).trainFail l 10
      else s1.enterUp l r rtt w.1 rate w.2

/-- A lane in use loses lock, as its latest pairs show (R196, R220). -/
def State.lockLost (s : State) (l lane : Nat) (ps : List PairRx) : State :=
  if (s.link l).lanesUse.getLsbD lane ∧ laneUnlocks ps then s.linkReset l 4 else s

/-- A lane in use has no signal for 1 µs (R220). -/
def State.signalLost (s : State) (l lane : Nat) : State :=
  if (s.link l).lanesUse.getLsbD lane then s.linkReset l 5 else s

/-- FREFCLK stops while links are UP (R562). -/
def State.frefLost (s : State) : State :=
  (List.range 16).foldl (fun t l => t.linkReset l 4) { s with lands := { s.lands with frefOk := false } }

/-- A block reset of link `l`: from UP a link reset with cause BLOCK_RESET, during training a restart at
DETECT; STREAM_RESET is set when an uncorrectable error in the buffers is its cause (R221, R222, R437). -/
def State.linkBlockReset (s : State) (l : Nat) : State :=
  let s1 := s.modLink l (fun k => { k with streamReset := k.streamReset || k.bufLost, bufLost := false })
  match (s1.link l).st with
  | .disabled => s1
  | .up => s1.linkReset l 7
  | _ => s1.toDetect l

/-! ## Commands (R226, R227) -/

/-- Response payload of LINK_GET_STATUS; `shown` hides what reflects the traffic of every partition (R426). -/
def State.linkStatus (s : State) (shown : Nat → Nat) (l : Nat) : Bytes :=
  let k := s.link l
  let up := k.st = .up
  leBytes 1 l ++ leBytes 1 k.code ++ leBytes 1 (if up then k.width else 0) ++ leBytes 1 (if up then k.rate else 0) ++
    leBytes 1 ((if up then k.lanesUse.toNat else 0) + 16 * k.lanesOk.toNat) ++
    leBytes 1 (b2n (s.countsHeld (40 + l)) + 2 * b2n k.streamReset + 4 * b2n k.leader + 8 * b2n k.quarantined +
      16 * shown (b2n (256 ≤ k.replay.length)) + 32 * shown (b2n (48 < k.p))) ++
    leBytes 1 k.peerModule ++ leBytes 1 k.peerLink ++ leBytes 2 k.rttNs ++ leBytes 1 k.h ++ leBytes 1 k.lastCause ++
    leBytes 2 k.sharedSlots ++ leBytes 2 (shown k.replay.length) ++ leBytes 1 (shown k.xoffTx.toNat) ++
    leBytes 1 (shown k.xoffSeen.toNat) ++
    leBytes 1 k.maxWidth ++ leBytes 1 k.maxRate ++ leBytes 4 k.vcMap.toNat ++ leBytes 2 k.shCap ++ [0, 0] ++
    leBytes 4 k.crcErrs ++ leBytes 4 k.fecCorr ++ leBytes 4 k.fecUncorr ++ leBytes 4 (shown k.replays) ++ leBytes 4 k.resets ++
    leBytes 4 (shown k.lost) ++ leBytes 4 (shown k.overruns) ++
    leBytes 4 (if up then (s.time.ticks - k.upTick) * 40 / 1000000 else 0)

/-- LINK_GET_STATUS, 0x0400. -/
def cmdLinkGetStatus : Cmd where
  op := 0x0400
  lenOk := lenIs 4
  allowed := fabricAdmins
  body w q s :=
    match firstBad [(0x20, decide (q.u8 0x20 < 16)), (0x21, q.zero 0x21 3)] with
    | some f => bad s f
    | none => ok s (s.linkStatus (w.shown s.iso.strict) (q.u8 0x20))

/-- VC_MAP of LINK_SET: VC 0 to 6 for TC0 to TC6, VC7 for TC7. -/
def vcMapOk (m : Nat) : Bool :=
  (List.range 7).all (fun t => decide (bits m (3 * t + 2) (3 * t) ≤ 6)) && bits m 23 21 == 7 && bits m 31 24 == 0

/-- The link with the fields LINK_SET names (R227). -/
def Link.set (k : Link) (v : Nat) (q : Req) : Link :=
  { k with
    enabled := if bit v 0 then q.u8 0x22 == 1 else k.enabled
    maxWidth := if bit v 1 then q.u8 0x23 else k.maxWidth
    maxRate := if bit v 2 then q.u8 0x24 else k.maxRate
    reqWidth := if bit v 1 then q.u8 0x23 else k.reqWidth
    reqRate := if bit v 2 then q.u8 0x24 else k.reqRate
    vcMap := if bit v 3 then BitVec.ofNat 32 (q.u32 0x28) else k.vcMap
    shCap := if bit v 4 then q.u16 0x26 else k.shCap }

/-- What LINK_SET starts on link `l`, already changed from `old` to its new settings, under a new handle of the
caller (R227). -/
def State.linkStart (s : State) (l caller op : Nat) (go : State → State) : Ans :=
  if !s.handleFree caller then failWith s rcBusy
  else
    let h := s.newHandle caller op
    pend (go (h.2.modLink l (fun k => { k with handle := some h.1 }))) h.1

/-- A link reset with cause COMMAND: of a link that is not UP, a training that begins anew at DETECT with the cause and count of a
reset (R217, R220, R227). -/
def State.linkRestart (s : State) (l : Nat) : State :=
  if (s.link l).st = .up then s.linkReset l 1
  else (s.modLink l (fun k => { k with cause := 1, lastCause := 1, resets := sat (2 ^ 32 - 1) k.resets 1 })).toDetect l

/-- LINK_SET, 0x0401. -/
def cmdLinkSet : Cmd where
  op := 0x0401
  lenOk := lenIs 16
  allowed := fabricAdmins
  body w q s :=
    let l := q.u8 0x20
    let v := q.u8 0x21
    match firstBad [(0x20, decide (l < 16)), (0x21, decide (v < 32) && v != 0), (0x22, !bit v 0 || decide (q.u8 0x22 ≤ 1)),
        (0x23, !bit v 1 || q.u8 0x23 == 1 || q.u8 0x23 == 2 || q.u8 0x23 == 4),
        (0x24, !bit v 2 || q.u8 0x24 == 1 || q.u8 0x24 == 2), (0x25, q.zero 0x25 1),
        (0x26, !bit v 4 || decide (16 ≤ q.u16 0x26 ∧ q.u16 0x26 ≤ 256)), (0x28, !bit v 3 || vcMapOk (q.u32 0x28)),
        (0x2C, q.zero 0x2C 4)] with
    | some f => bad s f
    | none =>
      let k := s.link l
      let n := k.set v q
      let s1 := s.modLink l (fun _ => n)
      if k.handle.isSome ∨ (n.enabled ∧ s.masked (0x0A + l)) then failWith s rcConflict
      else if !n.enabled then
        if k.st = .disabled then ok s1 else ok ((s1.makeFailed l).failover l)
      else if k.st = .disabled then
        match s1.linkStart l w.caller 0x0401 (fun t => t.toDetect l) with
        | a => if a.status = rcBusy then failWith s rcBusy else a
      else if k.maxWidth ≠ n.maxWidth ∨ k.maxRate ≠ n.maxRate ∨ k.vcMap ≠ n.vcMap then
        match s1.linkStart l w.caller 0x0401 (fun t => t.linkRestart l) with
        | a => if a.status = rcBusy then failWith s rcBusy else a
      else ok s1

/-- LINK_RESET, 0x0402. -/
def cmdLinkReset : Cmd where
  op := 0x0402
  lenOk := lenIs 4
  allowed := fabricAdmins
  body w q s :=
    let l := q.u8 0x20
    let kind := q.u8 0x21
    match firstBad [(0x20, decide (l < 16)), (0x21, decide (kind ≤ 1)), (0x22, q.zero 0x22 2)] with
    | some f => bad s f
    | none =>
      let k := s.link l
      if k.handle.isSome then failWith s rcConflict
      else if k.st = .disabled then failWith s rcNotReady
      else s.linkStart l w.caller 0x0402 (fun t =>
        if kind = 1 then t.makeFailed l else t.linkRestart l)

/-- 1 s has passed for the handle of link `l`, which has not entered UP (R227). -/
def State.linkHandleOver (s : State) (l : Nat) : State :=
  match (s.link l).handle with
  | some h =>
    if (s.link l).st = .up then s else (s.modLink l (fun k => { k with handle := none })).endHandle h rcTimeout
  | none => s

end Sys2Proof.Machine
end

