-- ==== Sys2Proof/Machine/RetortMath.lean ====
section
/-! DEFINITION. Element formats and exact arithmetic of the Retort engines (R296 to R299) and the compact long
format of partials (R311). -/

namespace Sys2Proof.Machine

open Sys2Proof

/-! ## Formats (R296) -/

/-- An element format. -/
structure ElFmt where
  /-- Element bytes. -/
  bytes : Nat
  /-- Exponent bits; 0 for INT32. -/
  exp : Nat
  /-- Mantissa bits. -/
  man : Nat
  /-- Log2 of the least subnormal in units of the accumulator's LSB weight. -/
  shift : Nat
  /-- The format has infinities. -/
  inf : Bool
  /-- G for OP 0. -/
  granules : Nat
  /-- Canonical NaN. -/
  qnan : Nat
  /-- Largest finite. -/
  maxFin : Nat
  deriving DecidableEq, Repr, Inhabited

/-- Format of code FMT. -/
def fmtOf (n : Nat) : ElFmt :=
  match n with
  | 0 => { bytes := 4, exp := 8, man := 23, shift := 0, inf := true, granules := 5, qnan := 0x7FC00000, maxFin := 0x7F7FFFFF }
  | 1 => { bytes := 2, exp := 8, man := 7, shift := 16, inf := true, granules := 10, qnan := 0x7FC0, maxFin := 0x7F7F }
  | 2 => { bytes := 2, exp := 5, man := 10, shift := 0, inf := true, granules := 2, qnan := 0x7E00, maxFin := 0x7BFF }
  | 3 => { bytes := 1, exp := 4, man := 3, shift := 0, inf := false, granules := 2, qnan := 0x7F, maxFin := 0x7E }
  | 4 => { bytes := 1, exp := 5, man := 2, shift := 0, inf := true, granules := 4, qnan := 0x7E, maxFin := 0x7B }
  | _ => { bytes := 4, exp := 0, man := 31, shift := 0, inf := false, granules := 1, qnan := 0, maxFin := 0x7FFFFFFF }

/-- Elements of a whole chunk of 4 KiB. -/
def ElFmt.perChunk (f : ElFmt) : Nat := 4096 / f.bytes

/-- The format is INT32. -/
def ElFmt.isInt (f : ElFmt) : Bool := f.exp == 0

/-- Magnitude bits of a floating-point element. -/
def ElFmt.mag (f : ElFmt) (raw : Nat) : Nat := raw % 2 ^ (f.exp + f.man)
/-- Sign of an element. -/
def ElFmt.neg (f : ElFmt) (raw : Nat) : Bool := bit raw (f.exp + f.man)

/-- The magnitude code of infinity; above it lie the NaNs. -/
def ElFmt.infCode (f : ElFmt) : Nat := (2 ^ f.exp - 1) * 2 ^ f.man

/-- The element is a NaN. -/
def ElFmt.isNan (f : ElFmt) (raw : Nat) : Bool :=
  !f.isInt && (if f.inf then decide (f.infCode < f.mag raw) else decide (f.maxFin < f.mag raw))

/-- The element is infinite. -/
def ElFmt.isInf (f : ElFmt) (raw : Nat) : Bool := !f.isInt && f.inf && f.mag raw == f.infCode

/-- Magnitude of a finite floating-point code, in units of the LSB weight. -/
def ElFmt.value (f : ElFmt) (m : Nat) : Nat :=
  let e := m / 2 ^ f.man
  let x := m % 2 ^ f.man
  (if e = 0 then x else (2 ^ f.man + x) * 2 ^ (e - 1)) * 2 ^ f.shift

/-- One contributed element as an accumulator (R297). -/
def ElFmt.elem (f : ElFmt) (raw : Nat) : AccEl :=
  if f.isInt then { sum := signed 32 raw, allNegZ := false }
  else if f.isNan raw then { nan := true, allNegZ := false }
  else if f.isInf raw then
    if f.neg raw then { ninf := true, allNegZ := false } else { pinf := true, allNegZ := false }
  else
    let v : Int := (f.value (f.mag raw) : Nat)
    { sum := if f.neg raw then -v else v, allNegZ := f.neg raw && f.mag raw == 0 }

/-- Two accumulators added exactly (R297). -/
def AccEl.add (a b : AccEl) : AccEl :=
  { a with sum := a.sum + b.sum, nan := a.nan || b.nan, pinf := a.pinf || b.pinf, ninf := a.ninf || b.ninf,
           allNegZ := a.allNegZ && b.allNegZ }

/-! ## Rounding (R297, R298) -/

/-- A result element: its bits, and the flags NAN and OVF. -/
structure Rounded where
  /-- Element bits. -/
  raw : Nat
  /-- NAN flag of R298. -/
  nan : Bool := false
  /-- OVF flag of R298. -/
  ovf : Bool := false
  deriving DecidableEq, Repr, Inhabited

/-- `m` divided by 2^`q`: to nearest with ties to even, or toward zero when `rz`. -/
def roundShift (rz : Bool) (m q : Nat) : Nat :=
  let k := m / 2 ^ q
  let r := m % 2 ^ q
  if rz ∨ q = 0 then k
  else if 2 ^ (q - 1) < r ∨ (r = 2 ^ (q - 1) ∧ k % 2 = 1) then k + 1 else k

/-- A magnitude rounded once to the format's precision, exponents unbounded, in units of the LSB weight. -/
def ElFmt.roundMag (f : ElFmt) (rz : Bool) (m : Nat) : Nat :=
  let q := Nat.max f.shift (Nat.log2 m - f.man)
  roundShift rz m q * 2 ^ q

/-- The code of a representable magnitude. -/
def ElFmt.code (f : ElFmt) (v : Nat) : Nat :=
  let u := v / 2 ^ f.shift
  if u < 2 ^ f.man then u
  else
    let e := Nat.log2 u - f.man
    (e + 1) * 2 ^ f.man + (u / 2 ^ e - 2 ^ f.man)

/-- The element with a sign. -/
def ElFmt.signed (f : ElFmt) (neg : Bool) (m : Nat) : Nat := m + b2n neg * 2 ^ (f.exp + f.man)

/-- A finite nonzero sum rounded (R298, rows from "Rounded magnitude" on). -/
def ElFmt.roundFinite (f : ElFmt) (rz sat : Bool) (sum : Int) : Rounded :=
  let neg := decide (sum < 0)
  let r := f.roundMag rz sum.natAbs
  if r ≤ f.value f.maxFin then { raw := f.signed neg (f.code r) }
  else if !f.inf then { raw := if sat then f.qnan else f.signed neg f.maxFin, ovf := true }
  else { raw := f.signed neg (if rz then f.maxFin else f.infCode), ovf := true }

/-- The result of an INT32 sum (R298). -/
def roundInt (sum : Int) : Rounded :=
  if 0x7FFFFFFF < sum then { raw := 0x7FFFFFFF, ovf := true }
  else if sum < -0x80000000 then { raw := 0x80000000, ovf := true }
  else { raw := (BitVec.ofInt 32 sum).toNat }

/-- The result element of an accumulator for OP 0, in the order of the rows of R298. -/
def ElFmt.round (f : ElFmt) (rz sat : Bool) (a : AccEl) : Rounded :=
  if f.isInt then roundInt a.sum
  else if a.nan then { raw := f.qnan }
  else if a.pinf ∧ a.ninf then { raw := f.qnan, nan := true }
  else if a.pinf then { raw := f.infCode }
  else if a.ninf then { raw := f.signed true f.infCode }
  else if a.sum = 0 then { raw := f.signed a.allNegZ 0 }
  else f.roundFinite rz sat a.sum

/-! ## Least and greatest (R299) -/

/-- Place of an element in the ordering −Inf < finite < +Inf with −0 below +0. -/
def ElFmt.rank (f : ElFmt) (raw : Nat) : Int :=
  if f.isInt then Machine.signed 32 raw
  else if f.neg raw then -((f.mag raw : Nat) : Int) - 1 else (f.mag raw : Nat)

/-- Take element `raw` into the extreme of OP 1 (least) or OP 2 (greatest). -/
def ElFmt.extreme (f : ElFmt) (greatest : Bool) (raw : Nat) (a : AccEl) : AccEl :=
  if f.isNan raw then { a with nan := true }
  else match a.best with
    | none => { a with best := some (BitVec.ofNat 32 raw) }
    | some b =>
      let better := if greatest then decide (f.rank b.toNat < f.rank raw) else decide (f.rank raw < f.rank b.toNat)
      if better then { a with best := some (BitVec.ofNat 32 raw) } else a

/-- The result element for OP 1 and OP 2 (R299). An element never written reads 0. -/
def ElFmt.extremeOut (f : ElFmt) (a : AccEl) : Nat :=
  if a.nan then f.qnan else match a.best with | some b => b.toNat | none => 0

/-! ## Compact long format (R311) -/

/-- Lowest set bit of a magnitude below 2^320. -/
def lowBit (m : Nat) : Nat := ((List.range 320).find? (fun i => bit m i)).getD 0

/-- NW: magnitude words from the lowest set bit upward. -/
def magWords (m : Nat) : Nat := if m = 0 then 0 else (Nat.log2 m - lowBit m) / 64 + 1

/-- SPEC of an accumulator. -/
def AccEl.spec (a : AccEl) : Nat :=
  if a.nan ∨ (a.pinf ∧ a.ninf) then 1 else if a.pinf then 2 else if a.ninf then 3
  else if a.sum = 0 ∧ a.allNegZ then 4 else 0

/-- Magnitude an element carries: none unless SPEC is 0. -/
def AccEl.carried (a : AccEl) : Nat := if a.spec = 0 then a.sum.natAbs else 0

/-- Element header. -/
def AccEl.header (a : AccEl) : Nat :=
  let m := a.carried
  (if m = 0 then 0 else lowBit m) * 128 + magWords m * 16 + b2n (decide (a.spec = 0 ∧ a.sum < 0)) * 8 + a.spec

/-- Bytes of the header array of `n` elements. -/
def headerBytes (n : Nat) : Nat := ceilDiv (2 * n) 8 * 8

/-- Elements in compact long format. -/
def encodeEls (els : List AccEl) : Bytes :=
  padTo (headerBytes els.length) (els.flatMap (fun a => leBytes 2 a.header)) ++
    els.flatMap (fun a => leBytes (8 * magWords a.carried) (a.carried / 2 ^ (lowBit a.carried)))

/-- The element of a header and its magnitude words. -/
def elOf (h : Nat) (words : Bytes) : AccEl :=
  let m := leNat words * 2 ^ (bits h 15 7)
  let v : Int := (m % 2 ^ 320 : Nat)
  match bits h 2 0 with
  | 1 => { nan := true, allNegZ := false }
  | 2 => { pinf := true, allNegZ := false }
  | 3 => { ninf := true, allNegZ := false }
  | 4 => { allNegZ := true }
  | _ => { sum := if bit h 3 then -v else v, allNegZ := false }

/-- The `n` elements from header offset `i` on, their words beginning at `off`. -/
def decodeFrom (d : Bytes) : Nat → Nat → Nat → List AccEl
  | 0, _, _ => []
  | n + 1, i, off =>
    let h := leNat (slice d (2 * i) 2)
    let w := bits h 6 4
    elOf h (slice d off (8 * w)) :: decodeFrom d n (i + 1) (off + 8 * w)

/-- `n` elements read from compact long format. -/
def decodeEls (n : Nat) (d : Bytes) : List AccEl := decodeFrom d n 0 (headerBytes n)

/-- Cut a partial into packets at element boundaries, each as full as 16,352 bytes allow (R311). -/
def cutPartial : List AccEl → List AccEl → Nat → List (List AccEl)
  | [], cur, _ => if cur.isEmpty then [] else [cur.reverse]
  | a :: r, cur, w =>
    let k := magWords a.carried
    if headerBytes (cur.length + 1) + 8 * (w + k) ≤ 16352 then cutPartial r (a :: cur) (w + k)
    else cur.reverse :: cutPartial r [a] k

end Sys2Proof.Machine
end

