-- ==== Sys2Proof/Machine/Retort.lean ====
section
/-! DEFINITION. The Retort reduction engines: instances (R289 to R296), contributions (R300 to R303), the chunk
pipeline and doorbells (R305 to R307), packets between engines (R309 to R311), failure (R312 to R315), moves
(R316 to R318), and the commands of group 0x06 (R321 to R324). -/

namespace Sys2Proof.Machine

open Sys2Proof

/-! ## Fields of an instance (group descriptor) -/

/-- Bits `[hi:lo]` of the group descriptor. -/
def RtInst.fld (i : RtInst) (hi lo : Nat) : Nat := bits i.desc.toNat hi lo
/-- OWNER. -/
def RtInst.owner (i : RtInst) : Nat := i.fld 16 12
/-- ROLE: 0 SINGLE, 1 ROOT, 2 LEAF. -/
def RtInst.role (i : RtInst) : Nat := i.fld 20 19
/-- ROOT_MODULE. -/
def RtInst.root (i : RtInst) : Nat := i.fld 26 21
/-- Element format. -/
def RtInst.fmt (i : RtInst) : ElFmt := fmtOf (i.fld 29 27)
/-- OP: 0 sum, 1 min, 2 max. -/
def RtInst.op (i : RtInst) : Nat := i.fld 31 30
/-- RND: round toward zero. -/
def RtInst.rz (i : RtInst) : Bool := i.fld 32 32 == 1
/-- SAT_NAN. -/
def RtInst.satNan (i : RtInst) : Bool := i.fld 33 33 == 1
/-- RESULT_RO. -/
def RtInst.resultRo (i : RtInst) : Bool := i.fld 34 34 == 1
/-- 2^DB_INTERVAL. -/
def RtInst.interval (i : RtInst) : Nat := 2 ^ i.fld 37 35
/-- 2^INFLIGHT. -/
def RtInst.window (i : RtInst) : Nat := 2 ^ i.fld 41 38
/-- NLOCAL. -/
def RtInst.nlocal (i : RtInst) : Nat := i.fld 50 42
/-- TC. -/
def RtInst.tc (i : RtInst) : Nat := i.fld 63 61
/-- OP_ELEMS. -/
def RtInst.opElems (i : RtInst) : Nat := i.fld 95 64
/-- LEAF_MASK as a list of modules. -/
def RtInst.leafList (i : RtInst) : List Nat := bitList 64 (i.fld 255 192)

/-- Granules one chunk takes (R292, R296). -/
def granulesOf (fmt op : Nat) : Nat := if op = 0 then (fmtOf fmt).granules else 1
/-- Granules the instance reserves on an engine (R292). -/
def RtInst.granules (i : RtInst) : Nat := i.window * granulesOf (i.fld 29 27) i.op

/-- CPO for OP_ELEMS elements of a format (R296). -/
def cpoOf (f : ElFmt) (elems : Nat) : Nat := ceilDiv elems f.perChunk
/-- CPO. -/
def RtInst.cpo (i : RtInst) : Nat := cpoOf i.fmt i.opElems

/-- How far chunk number `c` lies ahead of CDONE, modulo 2^32. -/
def RtInst.ahead (i : RtInst) (c : Nat) : Nat := (c + 2 ^ 32 - i.cdone) % 2 ^ 32
/-- Place of chunk `c` in its operation: c mod CPO (R306). -/
def RtInst.place (i : RtInst) (c : Nat) : Nat := (i.opPos + i.ahead c) % Nat.max 1 i.cpo
/-- Bytes of chunk `c` (R296). -/
def RtInst.chunkLen (i : RtInst) (c : Nat) : Nat :=
  if i.place c + 1 = i.cpo then (i.opElems - (i.cpo - 1) * i.fmt.perChunk) * i.fmt.bytes else 4096
/-- Elements of chunk `c`. -/
def RtInst.chunkEls (i : RtInst) (c : Nat) : Nat := i.chunkLen c / i.fmt.bytes

/-- Chunk `c` in flight. -/
def RtInst.chunk (i : RtInst) (c : Nat) : Chunk := tget {} i.chunks c
/-- Change chunk `c`. -/
def RtInst.modChunk (i : RtInst) (c : Nat) (f : Chunk → Chunk) : RtInst := { i with chunks := tmod {} i.chunks c f }

/-- Participant entry of slot `k`. -/
def RtInst.part (i : RtInst) (k : Nat) : BitVec 128 := (tget {} i.parts k).entry
/-- PULL of an entry. -/
def entPull (e : BitVec 128) : Bool := e.getLsbD 64
/-- RES_ADDR of an entry. -/
def entRes (e : BitVec 128) : Nat := bits e.toNat 63 12 * 4096
/-- DB_ADDR of an entry. -/
def entDb (e : BitVec 128) : Nat := bits e.toNat 127 67 * 8
/-- Slots defined so far. -/
def RtInst.defined (i : RtInst) : Nat := i.parts.countP (fun e => e.2.defined)
/-- Slots below NLOCAL. -/
def RtInst.slots (i : RtInst) : List Nat := List.range i.nlocal
/-- Slots that post their contributions. -/
def RtInst.posting (i : RtInst) : List Nat := i.slots.filter (fun k => !entPull (i.part k))
/-- Slots that are read. -/
def RtInst.pulled (i : RtInst) : List Nat := i.slots.filter (fun k => entPull (i.part k))

/-- The instance takes contributions and packets. -/
def RtInst.live (i : RtInst) : Bool := (i.st == .active || i.st == .moving) && !i.destroying

/-- Engine that holds chunk `c`: during a move the old one below the cutover chunk (R316). -/
def RtInst.engineFor (i : RtInst) (c : Nat) : Nat :=
  match i.moveFrom with
  | some old => if !i.oldDone ∧ i.ahead c < i.ahead i.cutover then old else i.engine
  | none => i.engine

/-- STATE as registers show it. -/
def rtStCode : RtSt → Nat
  | .defining => 0
  | .active => 1
  | .failed => 2
  | .moving => 3

/-- The descriptor in force: as staged, with its read-only fields. -/
def RtInst.descNow (i : RtInst) : BitVec 256 :=
  let v := i.desc.toNat
  BitVec.ofNat 256 (bits v 16 0 + i.engine * 2 ^ 17 + bits v 57 19 * 2 ^ 19 + rtStCode i.st * 2 ^ 58 + bits v 127 61 * 2 ^ 61 +
    i.cdone * 2 ^ 128 + i.opseq * 2 ^ 160 + i.gen * 2 ^ 184 + bits v 255 192 * 2 ^ 192)

/-- Change the instance of group `g`. -/
def State.modInst (s : State) (g : Nat) (f : RtInst → RtInst) : State :=
  match s.inst g with
  | some i => s.setInst g (f i)
  | none => s

/-- Change engine `e`. -/
def State.modEngine (s : State) (e : Nat) (f : RtEngine → RtEngine) : State :=
  s.modRt (fun r => { r with engines := tmod {} r.engines e f })

/-! ## What an engine sends -/

/-- A posted write of engine `e` for an instance, without a translation lookup (R306, R307). -/
def State.engineWrite (s : State) (i : RtInst) (e a : Nat) (d : Bytes) (ro ep : Bool) : State :=
  let w : Word := BitVec.ofNat 64 a
  let r : MemReq := { kind := .write, addr := w, len := d.length, data := d, attr := if ro then 2 else 0, ep := ep }
  let p : Pkt := { s.requestPkt (68 + e) i.owner i.tc 0 none w r with trkv := false }
  (s.piecesOf p w r).foldl (fun t c =>
    match t.attachment c.2 with
    | some o => t.submit { c.1 with dst := o }
    | none => t) s

/-- Address of area 0b10 of the group's window on module `m` (R309). -/
def engineArea (m g : Nat) : Word := faMake m 2 (g * 2 ^ 30 + 2 ^ 29)

/-- Descriptor of a PTYPE 5 packet (R309). -/
def engDesc (a : Word) (k : EngPkt) : BitVec 256 :=
  BitVec.ofNat 256 (a.toNat * 2 ^ 192 + k.data.length % 2 ^ 14 * 2 ^ 178 + k.group % 4096 * 2 ^ 158 + k.chunk % 2 ^ 32 * 2 ^ 126 +
    k.pkind % 4 * 2 ^ 124 + k.first % 4096 * 2 ^ 112 + k.nelem % 8192 * 2 ^ 99 + k.fmt % 8 * 2 ^ 96 + k.op % 4 * 2 ^ 94 +
    b2n k.poison * 2 ^ 93 + b2n k.ovf * 2 ^ 92 + b2n k.nan * 2 ^ 91 + b2n k.last * 2 ^ 90 + k.gen % 256 * 2 ^ 82 +
    k.cause % 256 * 2 ^ 74)

/-- The PTYPE 5 packet a descriptor and its data spell (R309). -/
def engOf (p : Pkt) : EngPkt :=
  let v := p.desc.toNat
  { group := bits v 169 158, chunk := bits v 157 126, pkind := bits v 125 124, first := bits v 123 112, nelem := bits v 111 99,
    fmt := bits v 98 96, op := bits v 95 94, poison := bit v 93, ovf := bit v 92, nan := bit v 91, last := bit v 90,
    gen := bits v 89 82, cause := bits v 81 74, smod := p.smod, data := p.data }

/-- Send a PTYPE 5 packet of engine `e` to module `m` (R309); without a route it is dropped and counted (R33). -/
def State.engineSend (s : State) (i : RtInst) (e m : Nat) (k : EngPkt) : State :=
  let a := engineArea m k.group
  let p : Pkt := { epoch := s.win.epoch.toNat, part := i.owner, smod := s.own, src := 68 + e, sport := 68 + e, tc := i.tc, ptype := 5,
                   desc := engDesc a k, data := k.data, fhash := fhash s.own (68 + e) m i.tc (destKey a) }
  match s.routePkt p m with
  | some (p1, s1) => s1.submit p1
  | none => s.ledgerOnly 0x33

/-! ## Doorbells (R307) -/

/-- The doorbell value. -/
def RtInst.doorbell (i : RtInst) (opEnd : Bool) : Nat :=
  i.cdone + i.opseq * 2 ^ 32 + b2n opEnd * 2 ^ 56 + b2n i.dbOvf * 2 ^ 57 + b2n i.dbNan * 2 ^ 58 +
    b2n (i.st == .failed && i.failCause == 1) * 2 ^ 59 + b2n i.dbPoison * 2 ^ 60 +
    b2n (i.st == .failed && i.failCause != 1) * 2 ^ 61

/-- RES_ADDR and DB_ADDR reach one egress core port (R307). -/
def sameEgress (e : BitVec 128) : Bool :=
  let r : Word := BitVec.ofNat 64 (entRes e)
  let d : Word := BitVec.ofNat 64 (entDb e)
  (faClass r == 0 && faClass d == 0) || (faClass r == 1 && faClass d == 1 && faPort r == faPort d)

/-- Write a doorbell of value `v` to slot `k` (R307). -/
def State.writeDoorbell (s : State) (i : RtInst) (e k v : Nat) : State :=
  s.engineWrite i e (entDb (i.part k)) (leBytes 8 v) false false

/-- The zero-length read of RES_ADDR behind the results of slot `k` (R307): its completion comes back under the group and the slot. -/
def State.flushRead (s : State) (g : Nat) (i : RtInst) (e k : Nat) (a : Word) : State :=
  let r : MemReq := { kind := .read, addr := a, len := 1, tag := k, rid := g, fbe := 0, lbe := 0 }
  let t := s.emit (.engineRead e a 0)
  match t.attachment a with
  | some o => t.submit { (t.requestPkt (68 + e) i.owner i.tc g none a r) with trkv := false, dst := o }
  | none => t

/-- The doorbell of slot `k`: written at once, or withheld until its results are visible (R307). -/
def State.ringOne (s : State) (g : Nat) (i : RtInst) (e v k : Nat) : State :=
  if sameEgress (i.part k) then s.writeDoorbell i e k v
  else
    let s1 := s.modInst g (fun j => { j with flushes := j.flushes ++ [{ slot := k, value := BitVec.ofNat 64 v }] })
    let a : Word := BitVec.ofNat 64 (entRes (i.part k))
    if faClass a = 1 then s1.flushRead g i e k a else s1

/-- Doorbells to every participant that is not PULL; what a doorbell tells of earlier chunks begins anew. -/
def State.ringAll (s : State) (g e : Nat) (opEnd : Bool) : State :=
  match s.inst g with
  | none => s
  | some i =>
    (i.posting.foldl (fun t k => t.ringOne g i e (i.doorbell opEnd) k) s).modInst g (fun j =>
      { j with dbPoison := false, dbNan := false, dbOvf := false })

/-! ## Failure (R312 to R314) -/

/-- Fault source index of a failure cause; none where R320 names none. -/
def failSource (cause : Nat) (notice : Bool) : Option Nat :=
  if notice then some 6
  else match cause with
    | 1 => some 1
    | 2 => some 2
    | 7 => some 7
    | _ => none

/-- Slots that have not completed chunk `c` (R313). -/
def RtInst.missingSlots (i : RtInst) (c : Nat) : List Nat := i.slots.filter (fun k => tget 0 (i.chunk c).recv k != i.chunkLen c)
/-- Leaves whose partial for chunk `c` is missing (R313). -/
def RtInst.missingLeaf (i : RtInst) (c : Nat) : List Nat := i.leafList.filter (fun m => !(i.chunk c).leaves.contains m)

/-- The instance as its failure leaves it (R313 steps 1 to 3): chunks in flight give no result. -/
def RtInst.failedWith (i : RtInst) (cause : Nat) (c : Option Nat) : RtInst :=
  { i with
    st := .failed, failCause := cause, failChunk := c.getD 0
    missing := (c.map i.missingSlots).getD []
    missingLeaves := BitVec.ofNat 64 (((c.map i.missingLeaf).getD []).foldl (fun a m => a + 2 ^ m) 0)
    stTimeout := i.stTimeout || cause == 1, stErr := i.stErr || cause != 1
    chunks := [], flushes := [] }

/-- Modules that receive the failure notice (R310). -/
def RtInst.peers (i : RtInst) : List Nat := if i.role = 2 then [i.root] else if i.role = 1 then i.leafList else []

/-- A vDSP of partition `p` is bound to a target of kind `k`. -/
def State.boundKind (s : State) (p k : Nat) : Bool := s.vdsps.any (fun e => e.1 / 64 == p && e.2.bound && e.2.kind == k)

/-- The Retort function of partition `p` sends its vector, where its host has enabled MSI-X and not masked it (R321). -/
def State.retortVector (s : State) (p e : Nat) : State :=
  match s.vdsps.find? (fun x => x.1 / 64 == p && x.2.bound && x.2.kind == 5) with
  | none => s
  | some x =>
    let c := (tget 0 x.2.cfg (belowKey 0 capMsix)).toNat
    if bit c 31 ∧ !bit c 30 then
      (s.emit (.retortMsix p)).toHost p (68 + e) (x.2.bus p (x.1 % 64) * 256) opcMWr 0 (Config.retortMsi p 0) 4
        (leBytes 4 (Config.retortMsi p 1).toNat)
    else s

/-- The failure is reported: source, event 0x806, the Retort function's vector, and counts (R313, R320, R321). -/
def State.rtReport (s : State) (g : Nat) (i : RtInst) (cause : Nat) (notice : Bool) : State :=
  let e := i.engine
  let s1 := (s.modEngine e (fun x => { x with failures := sat (2 ^ 32 - 1) x.failures 1 })).count
    { block := 0x2A + e, event := 0x12, part := some i.owner }
  let s2 := match failSource cause notice with
    | some x => s1.raiseAt (0x2A + e) x (some i.owner) (some (68 + e))
    | none => s1
  let s3 := s2.event 0x806 [i.owner] (g + cause * 2 ^ 16)
  s3.retortVector i.owner e

/-- Instance `g` fails with a cause, at chunk `c` where one is concerned (R313). The cause recorded first stays
(R315). -/
def State.rtFail (s : State) (g cause : Nat) (c : Option Nat) (notice : Bool := false) : State :=
  match s.inst g with
  | none => s
  | some i =>
    if !i.live then s
    else
      let j := i.failedWith cause c
      let s1 := (s.setInst g j).rtReport g i cause notice
      let s2 := i.posting.foldl (fun t k => t.writeDoorbell i i.engine k (j.doorbell false)) s1
      let s3 := s2.modInst g (fun j => { j with dbPoison := false, dbNan := false, dbOvf := false })
      i.peers.foldl (fun t m => t.engineSend i i.engine m
        { group := g, chunk := c.getD i.cdone, pkind := 3, fmt := i.fld 29 27, op := i.op, gen := i.gen, cause := cause }) s3

/-- A packet of the instance is discarded and counted against its engine (R294, R300, R310, R313). -/
def State.rtDiscard (s : State) (g : Nat) : State :=
  match s.inst g with
  | none => s
  | some i =>
    ((s.setInst g { i with discards := sat (2 ^ 32 - 1) i.discards 1 }).modEngine i.engine (fun x =>
      { x with discards := sat (2 ^ 32 - 1) x.discards 1 })).raiseAt (0x2A + i.engine) 5 none (some (68 + i.engine))

/-! ## Delivering chunks (R305 to R307) -/

/-- Pool key of byte `off` of the buffer of slot `k`. -/
def RtInst.pullKey (i : RtInst) (k off : Nat) : Nat := entRes (i.part k) % 2 ^ 43 + off

/-- Write one granule of a result back conditionally, under a reservation of the engine (R283, R303); `none` when
the write fails. -/
def State.condWrite (s : State) (e a : Nat) (d : Bytes) (ep : Bool) : Option State :=
  let m := s.poolPort (a / 2 ^ 30) (a % 2 ^ 30)
  match s.pool.resv.find? (fun (r : Reservation) => r.agent == 68 + e && r.port == m && r.granule == a / 256 && r.valid) with
  | none => none
  | some r =>
    if (s.sod (a / 2 ^ 30)).st ≠ .assigned then none
    else
      let s1 := s.poolWrite a d ep (fun _ => true)
      some ((s1.modPool (fun p => p.dropResv r)).poolCount m 0x11 (linesOf a d.length).length none)

/-- Write a result back to a PULL slot, granule by granule; the flag tells that a write failed (R303). -/
def State.writeBack (s : State) (i : RtInst) (e k off : Nat) (d : Bytes) (ep : Bool) : State × Bool :=
  (List.range (ceilDiv d.length 256)).foldl (fun (a : State × Bool) n =>
    match a.1.condWrite e (i.pullKey k (off + 256 * n)) ((d.drop (256 * n)).take 256) ep with
    | some t => (t, a.2)
    | none => (a.1, true)) (s, false)

/-- Write the result of chunk `c` to every participant, slot 0 first (R306); the flag tells that a conditional
write failed. -/
def State.writeResult (s : State) (i : RtInst) (c : Nat) (d : Bytes) (ep : Bool) : State × Bool :=
  let e := i.engineFor c
  let off := i.place c * 4096
  i.slots.foldl (fun (a : State × Bool) k =>
    let p := i.part k
    if entPull p then
      let r := a.1.writeBack i e k off d ep
      (r.1, a.2 || r.2)
    else
      let w : Word := BitVec.ofNat 64 (entRes p)
      (a.1.engineWrite i e (entRes p + off) d (i.resultRo && faClass w == 1) ep, a.2)) (s, false)

/-- CDONE passes the chunk it stands at, when that is DONE (R307). -/
def RtInst.passOne (i : RtInst) : Option (Bool × RtInst) :=
  let k := i.chunk i.cdone
  if k.st ≠ .done then none
  else
    let cd := (i.cdone + 1) % 2 ^ 32
    let fin := decide (i.cpo ≤ i.opPos + 1)
    some (fin,
      { i with
        chunks := tdel i.chunks i.cdone, cdone := cd, opPos := if fin then 0 else i.opPos + 1
        opseq := if fin then (i.opseq + 1) % 2 ^ 24 else i.opseq
        dbPoison := i.dbPoison || k.poison, dbNan := i.dbNan || k.nan, dbOvf := i.dbOvf || k.ovf
        oldDone := i.oldDone || (i.moveFrom.isSome && cd == i.cutover) })

/-- CDONE advances over the contiguous chunks that are DONE, with a doorbell at each interval and at the end of an
operation (R305, R307). -/
def State.advance : Nat → State → Nat → State
  | 0, s, _ => s
  | fuel + 1, s, g =>
    match s.inst g with
    | none => s
    | some i =>
      match i.passOne with
      | none => s
      | some (fin, j) =>
        let s1 := s.setInst g j
        let s2 := if fin ∨ j.cdone % i.interval = 0 then s1.ringAll g (i.engineFor i.cdone) fin else s1
        State.advance fuel s2 g

/-- EMIT: the result `d` of chunk `c` goes to every participant and, from a ROOT, to every leaf; the chunk is DONE
(R305, R306). -/
def State.emitChunk (s : State) (g c : Nat) (d : Bytes) : State :=
  match s.inst g with
  | none => s
  | some i =>
    let k := i.chunk c
    let e := i.engineFor c
    let w := s.writeResult i c d k.poison
    let s1 := if i.role = 1 then
        i.leafList.foldl (fun t m => t.engineSend i e m
          { group := g, chunk := c, pkind := 1, nelem := d.length / i.fmt.bytes, fmt := i.fld 29 27, op := i.op, poison := k.poison,
            ovf := k.ovf, nan := k.nan, last := true, gen := i.gen, data := d }) w.1
      else w.1
    let s2 := s1.modInst g (fun j =>
      { (j.modChunk c (fun k => { st := .done, poison := k.poison, nan := k.nan, ovf := k.ovf, recv := k.recv, leaves := k.leaves })) with
        stPoison := j.stPoison || k.poison, stNan := j.stNan || k.nan, stOvf := j.stOvf || k.ovf })
    if w.2 then s2.rtFail g 2 (some c)
    else State.advance 256 (s2.count { block := 0x2A + e, event := 0x11, part := some i.owner }) g

/-- Result elements of chunk `c`, each rounded once (R297 to R299). -/
def RtInst.resultEls (i : RtInst) (c : Nat) : List Rounded :=
  let k := i.chunk c
  (List.range (i.chunkEls c)).map (fun n =>
    let a := tget {} k.acc n
    if i.op = 0 then i.fmt.round i.rz i.satNan a else { raw := i.fmt.extremeOut a })

/-- The partial of chunk `c` goes to the root (R305, R311). -/
def State.sendPartial (s : State) (g c : Nat) (i : RtInst) : State :=
  let k := i.chunk c
  let els := (List.range (i.chunkEls c)).map (fun n => tget ({} : AccEl) k.acc n)
  let nan := k.nan || (i.op == 0 && els.any (fun a => a.pinf && a.ninf && !a.nan))
  let groups := if i.op = 0 then cutPartial els [] 0 else [els]
  (groups.foldl (fun (a : State × Nat) (part : List AccEl) =>
    let d := if i.op = 0 then encodeEls part else part.flatMap (fun x => leBytes i.fmt.bytes (i.fmt.extremeOut x))
    (a.1.engineSend i (i.engineFor c) i.root
      { group := g, chunk := c, pkind := 0, first := a.2, nelem := part.length, fmt := i.fld 29 27, op := i.op, poison := k.poison,
        nan := nan, last := a.2 + part.length == els.length, gen := i.gen, data := d },
     a.2 + part.length)) (s, 0)).1

/-- Every local slot has completed chunk `c`, and at a ROOT every leaf (R303, R305). -/
def RtInst.complete (i : RtInst) (c : Nat) : Bool :=
  (i.missingSlots c).isEmpty && (i.role != 1 || (i.missingLeaf c).isEmpty)

/-- A chunk that is OPEN and complete is emitted, or its partial sent (R305). -/
def State.chunkStep (s : State) (g c : Nat) : State :=
  match s.inst g with
  | none => s
  | some i =>
    if (i.chunk c).st ≠ .opened ∨ !i.complete c then s
    else if i.role = 2 then (s.modInst g (fun j => j.modChunk c (fun k => { k with st := .await }))).sendPartial g c i
    else
      let els := i.resultEls c
      (s.modInst g (fun j => j.modChunk c (fun k =>
        { k with nan := k.nan || els.any (fun r => r.nan), ovf := k.ovf || els.any (fun r => r.ovf) }))).emitChunk g c
        (els.flatMap (fun r => leBytes i.fmt.bytes r.raw))

/-- Chunk `c` opens: its timer starts and its PULL slots are read (R303, R305). -/
def State.openChunk (s : State) (g c : Nat) : State :=
  match s.inst g with
  | none => s
  | some i =>
    if (i.chunk c).st ≠ .idle then s
    else
      i.pulled.foldl (fun t k =>
        t.emit (.engineRead (i.engineFor c) (BitVec.ofNat 64 (entRes (i.part k) + i.place c * 4096)) (i.chunkLen c)))
        (s.setInst g (i.modChunk c (fun k => { k with st := .opened, timer := true })))

/-- Add the elements of `d` into chunk `c` from element `first` on (R297, R299). -/
def RtInst.addEls (i : RtInst) (c first : Nat) (d : Bytes) : RtInst :=
  let n := d.length / i.fmt.bytes
  i.modChunk c (fun k =>
    { k with acc := (List.range n).foldl (fun t x =>
        let raw := leNat (slice d (x * i.fmt.bytes) i.fmt.bytes)
        tmod {} t (first + x) (fun a => if i.op = 0 then a.add (i.fmt.elem raw) else i.fmt.extreme (i.op == 2) raw a)) k.acc })

/-! ## Contributions (R300) -/

/-- Count the bytes an engine ingests (R508). -/
def State.rtIngest (s : State) (i : RtInst) (e n : Nat) : State :=
  s.count { block := 0x2A + e, event := 0x10, raw := n, unit := 16, part := some i.owner }

/-- The chunk number a chunk slot names (R300). -/
def RtInst.chunkOfSlot (i : RtInst) (cs : Nat) : Nat := (i.cdone + (cs + 256 - i.cdone % 256) % 256) % 2 ^ 32

/-- A contribution of slot `k` to chunk slot `cs`, from byte `byte` of the chunk (R300). -/
def State.contribute (s : State) (g k cs byte : Nat) (d : Bytes) (ep : Bool) : State :=
  match s.inst g with
  | none => s.raiseAt 0x33 2
  | some i =>
    let c := i.chunkOfSlot cs
    let n := d.length
    let b := i.fmt.bytes
    if !i.live then s.rtDiscard g
    else if i.nlocal ≤ k ∨ entPull (i.part k) ∨ byte % b ≠ 0 ∨ n % b ≠ 0 ∨ i.window ≤ i.ahead c ∨ i.chunkLen c < byte + n ∨
        (i.chunk c).st = .done ∨ i.chunkLen c < tget 0 (i.chunk c).recv k + n then
      s.rtFail g 2 (some c)
    else
      let s1 := (s.openChunk g c).modInst g (fun j =>
        (j.addEls c (byte / b) d).modChunk c (fun x => { x with recv := tmod 0 x.recv k (· + n), poison := x.poison || ep }))
      let s2 := s1.rtIngest i (i.engineFor c) n
      let s3 := if ep then s2.raiseAt (0x2A + i.engine) 3 (some i.owner) (some (68 + i.engine)) else s2
      s3.chunkStep g c

/-- The read of PULL slot `k` for chunk `c` completes: the pool gives its bytes, with a reservation on each granule
(R283, R303). -/
def State.pullRead (s : State) (g c k : Nat) (ecc : Eccs) : State :=
  match s.inst g with
  | none => s
  | some i =>
    let e := i.engineFor c
    let n := i.chunkLen c
    let a := i.pullKey k (i.place c * 4096)
    if !i.live ∨ (i.chunk c).st ≠ .opened ∨ i.nlocal ≤ k ∨ !entPull (i.part k) ∨ tget 0 (i.chunk c).recv k = n then s
    else if !agentAdmits (.retort e) (s.sod (a / 2 ^ 30)) (a % 2 ^ 30) .reserve then
      (s.raiseAt (0x26 + s.poolPort (a / 2 ^ 30) (a % 2 ^ 30)) 5 none none (faMake s.own 0 a)).rtFail g 2 (some c)
    else
      let s1 := s.eccAt a n ecc none
      let s2 := (List.range (ceilDiv n 256)).foldl (fun t x =>
        let b := a + 256 * x
        let m := t.poolPort (b / 2 ^ 30) (b % 2 ^ 30)
        (t.modPool (fun p => p.addResv { agent := 68 + e, port := m, granule := b / 256 })).poolCount m 0x10 4 none) s1
      let bad := s2.pool.tainted a n
      let s3 := s2.modInst g (fun j =>
        (j.addEls c 0 (s2.pool.bytes a n)).modChunk c (fun x => { x with recv := tset x.recv k n, poison := x.poison || bad }))
      let s4 := if bad then s3.raiseAt (0x2A + e) 3 (some i.owner) (some (68 + e)) else s3
      s4.chunkStep g c

/-! ## Packets between engines (R310, R311) -/

/-- A partial from leaf `k.smod` for chunk `k.chunk` (R305, R310, R311). -/
def State.partialIn (s : State) (g : Nat) (i : RtInst) (k : EngPkt) : State :=
  let c := k.chunk
  let x := i.chunk c
  let got := tget 0 x.leafEls k.smod
  if x.leaves.contains k.smod ∨ i.chunkEls c < k.first + k.nelem ∨ i.chunkEls c < got + k.nelem then s.rtFail g 2 (some c)
  else
    let whole := decide (got + k.nelem = i.chunkEls c)
    let s1 := (s.openChunk g c).modInst g (fun j =>
      let j1 := if i.op = 0 then
          j.modChunk c (fun y =>
            { y with acc := ((List.range k.nelem).zip (decodeEls k.nelem k.data)).foldl (fun t e =>
                tmod {} t (k.first + e.1) (fun a => a.add e.2)) y.acc })
        else j.addEls c k.first (padTo (k.nelem * i.fmt.bytes) k.data)
      j1.modChunk c (fun y =>
        { y with leafEls := tset y.leafEls k.smod (got + k.nelem), leaves := if whole then y.leaves ++ [k.smod] else y.leaves,
                 poison := y.poison || k.poison, nan := y.nan || k.nan, ovf := y.ovf || k.ovf }))
    (s1.rtIngest i (i.engineFor c) k.data.length).chunkStep g c

/-- A result packet from the root (R305, R310). -/
def State.resultIn (s : State) (g : Nat) (i : RtInst) (k : EngPkt) : State :=
  let c := k.chunk
  let x := i.chunk c
  let b := i.fmt.bytes
  if x.st ≠ .await ∨ i.chunkEls c < k.first + k.nelem then s.rtDiscard g
  else
    let res := tfill x.result k.first k.nelem (fun n => BitVec.ofNat 32 (leNat (slice k.data ((n - k.first) * b) b)))
    let got := x.resEls + k.nelem
    let s1 := s.modInst g (fun j => j.modChunk c (fun y =>
      { y with result := res, resEls := got, poison := y.poison || k.poison, nan := y.nan || k.nan, ovf := y.ovf || k.ovf }))
    if got < i.chunkEls c then s1
    else s1.emitChunk g c ((List.range (i.chunkEls c)).flatMap (fun n => leBytes b (tget 0 res n).toNat))

/-- A PTYPE 5 packet reaches an instance (R310). -/
def State.enginePkt (s : State) (k : EngPkt) : State :=
  let g := k.group
  match s.inst g with
  | none => s.raiseAt 0x33 2
  | some i =>
    if !i.live ∨ k.gen ≠ i.gen ∨ i.window ≤ i.ahead k.chunk then s.rtDiscard g
    else if k.pkind = 3 then
      s.rtFail g (if k.cause = 0 then 5 else k.cause) (if (i.chunk k.chunk).st = .idle then none else some k.chunk) true
    else if k.pkind = 0 then
      if i.role ≠ 1 ∨ !i.leafList.contains k.smod then s.rtDiscard g else s.partialIn g i k
    else if k.pkind = 1 then
      if i.role ≠ 2 ∨ k.smod ≠ i.root then s.rtDiscard g else s.resultIn g i k
    else if k.smod ≠ s.own ∨ i.moveFrom.isNone then s.rtDiscard g
    else s.contribute g (bits k.nelem 12 5) (k.chunk % 256) k.first k.data k.poison

/-! ## Events -/

/-- Every result write of slot `k` has left the module: what the pool ports report, and what a flush read passes
behind (R307). -/
def State.resultsOut (s : State) (i : RtInst) (k : Nat) : Bool :=
  let base := entRes (i.part k)
  let mine (p : Pkt) : Bool :=
    decide (68 ≤ p.src ∧ p.src < 72) && p.smod == s.own && p.ptype == 0 && p.d.opc == opcMWr &&
      decide (base ≤ p.d.faddr.toNat ∧ p.d.faddr.toNat < base + i.cpo * 4096)
  !s.allPkts.any mine && !s.ports.any (fun e => e.2.egress.any mine)

/-- The oldest withheld doorbell of slot `k` is written once its results are visible, or its flush read has failed
(R307). -/
def State.flushDone (s : State) (g k : Nat) (good : Bool) : State :=
  match s.inst g with
  | none => s
  | some i =>
    match takeFirst (fun (f : Flush) => f.slot == k) i.flushes with
    | none => s
    | some (f, rest) =>
      let a : Word := BitVec.ofNat 64 (entRes (i.part k))
      if !i.live ∨ !s.resultsOut i k then s
      else if !good ∧ faClass a = 1 then s.rtFail g 7 none
      else (s.setInst g { i with flushes := rest }).writeDoorbell i i.engine k f.value.toNat

/-- The timer of chunk `c` fires (R305, R312). -/
def State.chunkTimer (s : State) (g c : Nat) : State :=
  match s.inst g with
  | none => s
  | some i => if (i.chunk c).timer ∧ ((i.chunk c).st = .opened ∨ (i.chunk c).st = .await) then s.rtFail g 1 (some c) else s

/-- A packet for group `g` is still on its way to an engine (R317, RT_GROUP_DESTROY). -/
def State.groupTraffic (s : State) (g : Nat) : Bool :=
  s.allPkts.any (fun p => decide (68 ≤ p.dst ∧ p.dst < 72) && p.ptype != 1 && faGroup p.d.faddr == g)

/-- The move of group `g` ends (R317, R318). -/
def State.moveOver (s : State) (g : Nat) : State :=
  match s.inst g with
  | none => s
  | some i =>
    if i.moveFrom.isNone ∨ !(i.oldDone ∨ i.st = .failed) ∨ s.groupTraffic g then s
    else
      (s.setInst g { i with moveFrom := none, oldDone := false, handle := 0, st := if i.st = .moving then .active else i.st }).endHandle
        i.handle rcOk

/-- The instance of group `g` is gone; the last one gives the coarse timer's comparator back (R312). -/
def State.dropInst (s : State) (g : Nat) : State :=
  let s1 := s.modRt (fun r => { r with inst := tdel r.inst g })
  if s1.rt.inst.isEmpty then (s1.modRt (fun r => { r with timer := false })).dropComp holdRetort else s1

/-- RT_GROUP_DESTROY of group `g` ends (R291). -/
def State.destroyOver (s : State) (g : Nat) : State :=
  match s.inst g with
  | none => s
  | some i => if !i.destroying ∨ s.groupTraffic g then s else (s.dropInst g).endHandle i.handle rcOk

/-- A function reset of partition `p`'s Retort function (R314). -/
def State.retortFnReset (s : State) (p : Nat) : State :=
  (s.rt.inst.filter (fun e => e.2.owner == p && e.2.live)).foldl (fun t e => t.rtFail e.1 4 none) s

/-! ## Targets of an instance (R149, R314) -/

/-- The `n` bytes from `base` are reachable for partition `p` with the permissions `perm`: owned, or within one
valid grant (R149). -/
def State.mayReach (s : State) (p base n perm : Nat) : Bool :=
  ((List.range (ceilDiv (base % 4096 + n) 4096)).all (fun k => s.ownsRange p (base / 4096 * 4096 + 4096 * k) 12)) ||
    (bankScope s.win.bank 4 0).any (fun g =>
      eGrantee g.2 == p && (eApproved g.2 || ePartHi g.2 == p) && decide (eIn g.2 ≤ base ∧ base + n ≤ eIn g.2 + 2 ^ eSize g.2) &&
      (bitList 3 perm).all (fun i => bit (ePerm g.2) i))

/-- A participant entry an instance of `owner` may hold (participant entry table, R323). -/
def State.entryOk (s : State) (owner cpo : Nat) (e : BitVec 128) : Bool :=
  let r : Word := BitVec.ofNat 64 (entRes e)
  let d : Word := BitVec.ofNat 64 (entDb e)
  let pull := entPull e
  bits e.toNat 11 0 == 0 && bits e.toNat 66 65 == 0 && faModule r == s.own && decide (faClass r ≤ 1) && faWellFormed r &&
    s.mayReach owner (entRes e) (cpo * 4096) (if pull then 3 else 2) &&
    (if pull then faClass r == 0 && entDb e == 0
     else faModule d == s.own && decide (faClass d ≤ 1) && faWellFormed d && s.mayReach owner (entDb e) 8 2 &&
       (sameEgress e || faClass r == 0 || s.mayReach owner (entRes e) (cpo * 4096) 1))

/-- Every target of the instance is still reachable for its owner. -/
def State.instReaches (s : State) (i : RtInst) : Bool := i.slots.all (fun k => s.entryOk i.owner i.cpo (i.part k))

/-- Instances whose targets have left their owner, or lost a grant, fail with cause 3 (R314). -/
def State.rtTargets (s : State) : State :=
  (s.rt.inst.filter (fun e => e.2.live && !s.instReaches e.2)).foldl (fun t e => t.rtFail e.1 3 none) s

/-! ## Packets delivered to an engine (R293 to R295) -/

/-- GR_STATUS (R295). -/
def RtInst.status (i : RtInst) : Nat :=
  rtStCode i.st * 65536 + i.failCause * 256 + b2n i.stPoison * 16 + b2n i.stNan * 8 + b2n i.stOvf * 4 + b2n i.stTimeout * 2 + b2n i.stErr

/-- Bytes of the control page (R295). -/
def RtInst.page (i : RtInst) (off n : Nat) : Bytes :=
  slice (leBytes 4 i.status ++ leBytes 4 i.cdone ++ leBytes 4 (i.opseq + i.gen * 2 ^ 24)) off n

/-- First enabled byte of a write (R158 FBE). -/
def firstEnabled (fbe : Nat) : Nat := ((List.range 4).find? (fun i => bit fbe i)).getD 0
/-- Enabled bytes a write of `n` bytes at `a` carries between its first and last (R158 FBE, LBE). -/
def enabledSpan (fbe lbe a n : Nat) : Nat × Nat :=
  let lo := if bit fbe (a % 4) then 0 else ((List.range n).find? (fun i => enabled fbe lbe a n (a + i))).getD 0
  let hi := (((List.range n).reverse).find? (fun i => enabled fbe lbe a n (a + i))).getD 0
  (lo, if n = 0 then 0 else hi + 1 - lo)

/-- While a move runs, what concerns a chunk that the other engine holds is forwarded to it (R317): the other engine of chunk `c`
for a packet that engine `e` has received, if there is one. -/
def RtInst.otherEngine (i : RtInst) (e c : Nat) : Option Nat :=
  if i.moveFrom.isSome ∧ i.live ∧ i.engineFor c ≠ e then some (i.engineFor c) else none

/-- Engine `e` forwards a contribution to engine `o`: PKIND 2 (R309, R317). -/
def State.forwardPart (s : State) (i : RtInst) (g e o c slot byte : Nat) (d : Bytes) (ep : Bool) : State :=
  let k : EngPkt :=
    { group := g, chunk := c, pkind := 2, first := byte, nelem := slot * 32, fmt := i.fld 29 27, op := i.op, poison := ep
      last := true, gen := i.gen, data := d }
  s.submit
    { epoch := s.win.epoch.toNat, part := i.owner, smod := s.own, src := 68 + e, sport := 68 + e, dst := 68 + o, dmod := s.own,
      tc := i.tc, ptype := 5, desc := engDesc (engineArea s.own g) k, data := d }

/-- A PTYPE 5 packet reaches engine `e`: a partial for a chunk of the other engine goes on to that one (R317). -/
def State.engineArrival (s : State) (i : RtInst) (e : Nat) (p : Pkt) : State :=
  let k := engOf p
  match (if k.pkind = 0 then i.otherEngine e k.chunk else none) with
  | some o => s.submit { p with src := 68 + e, dst := 68 + o, trkv := false }
  | none => s.enginePkt k

/-- A posted write to the contribution area reaches engine `e` (R293, R300, R317). -/
def State.contribArrival (s : State) (i : RtInst) (g e : Nat) (p : Pkt) : State :=
  let d := p.d
  let o := faByte d.faddr
  let x := enabledSpan d.fbe d.lbe o p.data.length
  let data := (p.data.drop x.1).take x.2
  let byte := bits o 11 0 + x.1
  let c := i.chunkOfSlot (bits o 19 12)
  match i.otherEngine e c with
  | some n => s.forwardPart i g e n c (bits o 27 20) byte data d.ep
  | none => s.contribute g (bits o 27 20) (bits o 19 12) byte data d.ep

/-- A packet delivered to a Retort engine: it has left the module's switch (R139). A completion ends a flush read (R307). -/
def State.retortPkt (s0 : State) (p : Pkt) : State :=
  let s := s0.leave p
  let d := p.d
  let o := faByte d.faddr
  let g := faGroup d.faddr
  if p.ptype = 1 then s.flushDone (cplRequester p) d.tag (d.cstat == 0 && !p.abort)
  else match s.inst g with
    | none => (if p.nonPosted then s.complete p csUr [] false else s).raiseAt 0x33 2 none (some p.src) d.faddr
    | some i =>
      if p.ptype = 5 then if bits o 29 28 = 2 then s.engineArrival i (p.dst - 68) p else s.rtDiscard g
      else if d.opc = opcMWr ∧ bits o 29 28 = 0 then s.contribArrival i g (p.dst - 68) p
      else if d.opc = opcMRd ∧ bits o 29 28 = 0 then s.complete p 0 (List.replicate d.bcount 0) false
      else if d.opc = opcMRd ∧ bits o 29 28 = 3 ∧ bits o 27 12 = 0 then s.complete p 0 (i.page (bits o 11 0) d.bcount) false
      else (if p.nonPosted then s.complete p csUr [] false else s).rtDiscard g

/-- The pool ports have executed the results of a slot in the pool: its withheld doorbell is written (R307). -/
def State.poolFlushes (s : State) : State :=
  s.rt.inst.foldl (fun t e => e.2.flushes.foldl (fun u f =>
    if faClass (BitVec.ofNat 64 (entRes (e.2.part f.slot))) = 0 then u.flushDone e.1 f.slot true else u) t) s

/-- The engines take what the core has delivered to them. -/
def State.retortTake (s : State) : State :=
  [0, 1, 2, 3].foldl (fun t e =>
    (tget [] t.core.delivered (68 + e)).foldl (fun u p => u.retortPkt p)
      (t.modCore (fun k => { k with delivered := tdel k.delivered (68 + e) }))) s

/-! ## Commands (R322 to R324) -/

/-- Granules instances have reserved on engine `e` (R292, R316). -/
def State.usedGranules (s : State) (e : Nat) : Nat :=
  (s.rt.inst.filter (fun x => x.2.engine == e || x.2.moveFrom == some e)).foldl (fun a x => a + x.2.granules) 0
/-- Instances on engine `e`. -/
def State.instsOn (s : State) (e : Nat) : Nat := s.rt.inst.countP (fun x => x.2.engine == e || x.2.moveFrom == some e)
/-- Total of NLOCAL on the module. -/
def State.participants (s : State) : Nat := s.rt.inst.foldl (fun a x => a + x.2.nlocal) 0

/-- Engine `e` can take an instance of `n` granules (R291, R316). -/
def State.engineTakes (s : State) (e n : Nat) : Bool :=
  !s.masked (0x2A + e) && decide (s.instsOn e < 128 ∧ s.usedGranules e + n ≤ 1280)

/-- The engine Ember chooses: most free granules, the lowest number on a tie (R323). -/
def State.chooseEngine (s : State) (n : Nat) : Option Nat :=
  ([0, 1, 2, 3].filter (fun e => s.engineTakes e n)).foldl (fun (a : Option Nat) e =>
    match a with
    | none => some e
    | some b => if s.usedGranules e < s.usedGranules b then some e else some b) none

/-- RT_GET_STATUS, 0x0600; to a host partition as R426 has it. -/
def cmdRtGetStatus : Cmd where
  op := 0x0600
  lenOk := lenIs 0
  allowed := fabricAdmins
  body w _ s :=
    let shown := w.shown s.iso.strict
    ok s (leBytes 2 (shown s.rt.inst.length) ++ leBytes 2 (shown s.participants) ++ leBytes 1 (b2n s.rt.timer) ++ [0, 0, 0] ++
      [0, 1, 2, 3].flatMap (fun e =>
        let x := tget {} s.rt.engines e
        let open_ := (s.rt.inst.filter (fun i => i.2.engine == e)).foldl (fun a i =>
          a + i.2.chunks.countP (fun c => c.2.st == .opened || c.2.st == .await)) 0
        leBytes 1 (b2n (s.masked (0x2A + e))) ++ [0] ++ leBytes 2 (shown (s.instsOn e)) ++
          leBytes 2 (shown (1280 - s.usedGranules e)) ++ leBytes 2 (shown open_) ++ leBytes 4 (shown x.failures) ++
          leBytes 4 (shown x.discards)))

/-- Two group blocks share a group. -/
def blocksTouch (b1 n1 b2 n2 : Nat) : Bool := decide (0 < n1 ∧ 0 < n2) && rangesTouch b1 n1 b2 n2

/-- RT_PART_SET, 0x0601. -/
def cmdRtPartSet : Cmd where
  op := 0x0601
  lenOk := lenIs 8
  allowed := fabricAdmins
  body _ q s :=
    let p := q.u8 0x20
    let base := q.u16 0x24
    let n := q.u16 0x26
    match firstBad [(0x20, decide (1 ≤ p ∧ p < 32)), (0x21, q.zero 0x21 3),
        (0x24, decide (base < 4096) && (if n = 0 then base == 0 else base % n == 0)),
        (0x26, decide (n ≤ 64 ∧ base + n ≤ 4096) && (n == 0 || isPow2 n))] with
    | some f => bad s f
    | none =>
      if s.rt.blocks.any (fun e => e.1 != p && blocksTouch base n e.2.gbase e.2.gcount) then
        failWith s rcOverlap
          (if s.rt.blocks.any (fun e => e.1 != p && decide (e.2.gbase ≤ base ∧ base < e.2.gbase + e.2.gcount)) then 0x24
           else 0x26)
      else if s.boundKind p 5 ∨ s.rt.inst.any (fun e => e.2.owner == p && !decide (base ≤ e.1 ∧ e.1 < base + n)) then
        failWith s rcConflict
      else ok (s.modRt (fun r => { r with blocks := tset r.blocks p { gbase := base, gcount := n } }))

/-- Group `g` lies in partition `p`'s block. -/
def State.inBlock (s : State) (p g : Nat) : Bool :=
  let b := tget {} s.rt.blocks p
  decide (b.gbase ≤ g ∧ g < b.gbase + b.gcount)

/-- Fields of a descriptor at creation, each with its offset in the frame (R291, R296, R307). -/
def State.descChecks (s : State) (d : Nat) : List (Nat × Bool) :=
  let role := bits d 20 19
  let root := bits d 26 21
  let infl := bits d 41 38
  let dbi := bits d 37 35
  let mask := bits d 255 192
  [(0x2A, decide (role ≤ 2) && ((root == s.own) != (role == 2))),
   (0x2B, decide (bits d 29 27 ≤ 5 ∧ bits d 31 30 ≤ 2)),
   (0x2C, (!bit d 33 || bits d 29 27 == 3) && decide (infl ≤ 8) && (if infl = 0 then dbi == 0 else decide (2 * 2 ^ dbi ≤ 2 ^ infl))),
   (0x2D, decide (bits d 50 42 ≤ 256)), (0x2E, bits d 57 51 == 0), (0x2F, decide (bits d 63 61 ≤ 6)),
   (0x30, decide (0 < bits d 95 64)), (0x36, bits d 127 112 == 0), (0x38, bits d 159 128 == 0), (0x3C, bits d 183 160 == 0),
   (0x40, if role = 1 then !bit mask s.own else mask == 0)]

/-- Entry `k` of the frame. -/
def entryAt (q : Req) (k : Nat) : BitVec 128 := BitVec.ofNat 128 (leNat (q.bytes (0x48 + 16 * k) 16))

/-- Whether a caller may issue RT_GROUP_CREATE with this descriptor: partition 0 always, a partition with
fabric-administration rights for ROLE 1 and ROLE 2, a host partition within its block (R74, R322). -/
def State.mayCreate (s : State) (w : Who) (q : Req) : Bool :=
  let d := leNat (q.bytes 0x28 32)
  let g := bits d 11 0
  let role := if q.u8 0x20 = 1 then (match s.inst g with | some i => i.role | none => 0) else bits d 20 19
  w.caller == 0 || (s.isAdmin w.caller && (role == 1 || role == 2)) ||
    (s.inBlock w.caller g &&
      (if q.u8 0x20 = 1 then (match s.inst g with | some i => i.owner == w.caller | none => true)
       else bits d 20 19 == 0 && bits d 16 12 == w.caller))

/-- The instance an RT_GROUP_CREATE works on: a new one, or the one in DEFINING that it adds slots to. -/
def State.creating (s : State) (q : Req) : Option RtInst :=
  let d := leNat (q.bytes 0x28 32)
  if q.u8 0x20 = 0 then some { desc := BitVec.ofNat 256 d }
  else match s.inst (bits d 11 0) with
    | some i => if i.st = .defining ∧ !i.destroying then some i else none
    | none => none

/-- The instance with the entries of the frame added; ACTIVE once every slot is defined (R323). -/
def RtInst.withEntries (i : RtInst) (q : Req) : RtInst :=
  let n := q.u16 0x24
  let j := { i with parts := (List.range n).foldl (fun t k => tset t (q.u16 0x22 + k) { entry := entryAt q k, defined := true }) i.parts }
  { j with st := if j.defined = j.nlocal then .active else .defining }

/-- First entry that cannot be added, as its frame offset (R323). -/
def State.entryFault (s : State) (i : RtInst) (q : Req) : Option Nat :=
  ((List.range (q.u16 0x24)).find? (fun k =>
    (tget {} i.parts (q.u16 0x22 + k)).defined || !s.entryOk i.owner i.cpo (entryAt q k))).map (fun k => 0x48 + 16 * k)

/-- Checks of RT_GROUP_CREATE by rising offset. -/
def State.createChecks (s : State) (q : Req) : List (Nat × Bool) :=
  let d := leNat (q.bytes 0x28 32)
  let mode := q.u8 0x20
  let nlocal := match s.creating q with | some i => i.nlocal | none => 256
  [(0x20, decide (mode ≤ 1)), (0x21, q.u8 0x21 == 0xFF || (mode == 0 && decide (q.u8 0x21 < 4))),
   (0x22, decide (q.u16 0x22 ≤ nlocal)), (0x24, decide (q.u16 0x24 ≤ 251 ∧ q.u16 0x22 + q.u16 0x24 ≤ nlocal)),
   (0x26, q.zero 0x26 2), (0x28, mode == 0 || (s.creating q).isSome)] ++
  (if mode = 0 then s.descChecks d
   else (List.range 31).map (fun b => (0x29 + b, if b = 0 then bits d 15 12 == 0 else bits d (8 * b + 15) (8 * b + 8) == 0)))

/-- RT_GROUP_CREATE, 0x0602. -/
def cmdRtGroupCreate : Cmd where
  op := 0x0602
  lenOk q := q.length == 40 + 16 * q.u16 0x24
  allowed w q s := s.mayCreate w q
  body _ q s :=
    match firstBad (s.createChecks q), s.creating q with
    | some f, _ => bad s f
    | none, none => bad s 0x28
    | none, some i0 =>
      let g := bits (leNat (q.bytes 0x28 32)) 11 0
      let i := i0.withEntries q
      match s.entryFault i0 q with
      | some f => bad s f
      | none =>
        if i.st = .active ∧ i.posting.isEmpty ∧ !(i.role = 1 ∧ !i.leafList.isEmpty) then bad s 0x2D
        else if q.u8 0x20 = 1 then
          ok (s.setInst g i) (leBytes 1 i.engine ++ leBytes 1 (rtStCode i.st) ++ leBytes 2 i.defined ++ [0, 0, 0, 0])
        else if (s.inst g).isSome then failWith s rcConflict
        else
          let e := if q.u8 0x21 = 0xFF then s.chooseEngine i.granules
            else if s.engineTakes (q.u8 0x21) i.granules then some (q.u8 0x21) else none
          match e with
          | none => failWith s rcBusy
          | some e =>
            let first := s.rt.inst.isEmpty
            if 512 ≤ s.rt.inst.length ∨ 256 < s.participants + i.nlocal ∨ (first ∧ s.freeComp.isNone) then failWith s rcBusy
            else
              let s1 := if first then (s.setComp (s.freeComp.getD 0) holdRetort).modRt (fun r => { r with timer := true }) else s
              ok (s1.setInst g { i with engine := e })
                (leBytes 1 e ++ leBytes 1 (rtStCode i.st) ++ leBytes 2 i.defined ++ [0, 0, 0, 0])

/-- Partition 0 and the instance's owner; of a group without an instance, the partition whose block it lies in (R322). -/
def ownInstance (w : Who) (q : Req) (s : State) : Bool :=
  w.caller == 0 || (match s.inst (q.u16 0x20) with | some i => i.owner == w.caller | none => s.inBlock w.caller (q.u16 0x20))

/-- RT_GROUP_DESTROY, 0x0603. -/
def cmdRtGroupDestroy : Cmd where
  op := 0x0603
  lenOk := lenIs 4
  allowed := ownInstance
  body w q s :=
    let g := q.u16 0x20
    match s.inst g with
    | none => bad s 0x20
    | some i =>
      if !q.zero 0x22 2 then bad s 0x22
      else if i.moveFrom.isSome ∨ i.destroying then failWith s rcConflict
      else if !s.handleFree w.caller then failWith s rcBusy
      else
        let h := s.newHandle w.caller 0x0603
        pend ((h.2.setInst g { i with destroying := true, handle := h.1, chunks := [], flushes := [] }).invalidateRange
          (faMake s.own 2 (g * 2 ^ 30)).toNat (2 ^ 30)) h.1

/-- RT_GROUP_READ, 0x0604. -/
def cmdRtGroupRead : Cmd where
  op := 0x0604
  lenOk := lenIs 8
  allowed := ownInstance
  body _ q s :=
    let first := q.u16 0x22
    let n := q.u16 0x24
    match s.inst (q.u16 0x20) with
    | none => bad s 0x20
    | some i =>
      match firstBad [(0x22, decide (first ≤ i.nlocal)), (0x24, decide (n ≤ 245 ∧ first + n ≤ i.nlocal)), (0x26, q.zero 0x26 2)] with
      | some f => bad s f
      | none =>
        ok s (leBytes 32 i.descNow.toNat ++ leBytes 1 i.failCause ++ [0, 0, 0] ++ leBytes 4 i.failChunk ++
          leBytes 32 (i.missing.foldl (fun a k => a + 2 ^ k) 0) ++ leBytes 8 i.missingLeaves.toNat ++ leBytes 4 i.discards ++
          leBytes 2 i.defined ++ List.replicate 10 0 ++
          (List.range n).flatMap (fun k => leBytes 16 (i.part (first + k)).toNat))

/-- RT_GROUP_RESET, 0x0605. -/
def cmdRtGroupReset : Cmd where
  op := 0x0605
  lenOk := lenIs 4
  allowed := ownInstance
  body _ q s :=
    let g := q.u16 0x20
    let gen := q.u8 0x22
    match s.inst g with
    | none => bad s 0x20
    | some i =>
      match firstBad [(0x22, gen != i.gen), (0x23, q.zero 0x23 1)] with
      | some f => bad s f
      | none =>
        if (i.st ≠ .active ∧ i.st ≠ .failed) ∨ i.moveFrom.isSome ∨ i.destroying then failWith s rcConflict
        else
          let cd := i.opseq * i.cpo % 2 ^ 32
          ok (s.setInst g
            { i with
              chunks := [], flushes := [], cdone := cd, opPos := 0, gen := gen, st := .active, failCause := 0, failChunk := 0
              missing := [], missingLeaves := 0, stPoison := false, stNan := false, stOvf := false, stTimeout := false
              stErr := false, dbPoison := false, dbNan := false, dbOvf := false }) (leBytes 4 cd ++ [0, 0, 0, 0])

/-- The cutover chunk K: above every chunk for which something has arrived (R316). -/
def RtInst.cutoverNow (i : RtInst) : Nat :=
  (i.cdone + i.chunks.foldl (fun a c => if c.2.st = .idle then a else Nat.max a (i.ahead c.1 + 1)) 0) % 2 ^ 32

/-- RT_GROUP_MOVE, 0x0606. -/
def cmdRtGroupMove : Cmd where
  op := 0x0606
  lenOk := lenIs 4
  allowed := ownInstance
  body w q s :=
    let g := q.u16 0x20
    let e := q.u8 0x22
    match s.inst g with
    | none => bad s 0x20
    | some i =>
      match firstBad [(0x22, decide (e < 4) && e != i.engine), (0x23, q.zero 0x23 1)] with
      | some f => bad s f
      | none =>
        if i.st = .failed ∨ i.moveFrom.isSome ∨ i.destroying then failWith s rcConflict
        else if !s.engineTakes e i.granules then failWith s rcBusy
        else if i.st = .defining then ok (s.setInst g { i with engine := e })
        else if !s.handleFree w.caller then failWith s rcBusy
        else
          let h := s.newHandle w.caller 0x0606
          let k := i.cutoverNow
          pend (h.2.setInst g
            { i with st := .moving, moveFrom := some i.engine, engine := e, cutover := k, oldDone := k == i.cdone, handle := h.1 }) h.1

end Sys2Proof.Machine
end

