-- ==== Sys2Proof/Machine/Faults.lean ====
section
/-! DEFINITION. Block reset (R437), detections from outside the model's own detectors (R434, R451), the Ash ledger's
flash record (R446) and the fault command group 0x0Axx (R452). -/

namespace Sys2Proof.Machine

open Sys2Proof

/-! ## Block reset (R437) -/

/-- The logical ports of a network group drop their links, and every frame in ingress or egress staging is discarded and counted,
those that wait for a receive descriptor too. -/
def State.netGroupReset (s : State) (g : Nat) : State :=
  let s0 := (List.range 4).foldl (fun t i => t.lportLink (4 * g + i) false) s
  let s1 := (s0.net.rxWait.filter (fun w => w.dst == 56 + g)).foldl (fun t w =>
    ((t.discard w).ledgerOnly (0x1A + g)).netDropped (t.egressLport w) (some w.part))
    (s0.modNet (fun n => { n with rxWait := n.rxWait.filter (fun w => w.dst != 56 + g) }))
  let mine (p : Pkt) : Bool := p.fromWire && p.inLport / 4 == g
  let gone := (s1.core.waiting.map (fun w => w.pkt)).filter mine
  gone.foldl (fun t p => ((t.discard p).ledgerOnly (0x1A + g)).netDropped p.inLport (some p.part))
    (s1.modCore (fun c => { c with waiting := c.waiting.filter (fun w => !mine w.pkt) }))

/-- The link of port `n` goes down with its station's block reset and retrains once the block is ready: an upstream
port acts as in the data link layer down row of R116, and a downstream port is not contained (R437, log 61). -/
def State.stationPortDown (s : State) (n : Nat) : State :=
  if !(s.port n).dlActive then s
  else match (s.port n).role with
    | .upstream => (s.portDrop n 0).upstreamReset n
    | .downstream => (s.portDrop n 0).vdspLinks n false
    | .absent => s.portDrop n 0

/-- Block reset of block `b`, by the block reset table; a block outside it is not reset. The ports of a station release CLKREQ_N
(R91). -/
def State.blockReset (s : State) (b : Nat) : State :=
  match blockKind b with
  | .station => (List.range 4).foldl (fun t i =>
      (t.stationPortDown (4 * b + i)).modPort (4 * b + i) (fun p => { p with clkreq := false })) s
  | .link => s.linkBlockReset (b - 0x0A)
  | .net => s.netGroupReset (b - 0x1A)
  | .plane => s.planeLeave (b - 0x22) 1
  | .pool => s.modPool (fun p => { p with resv := p.resv.filter (fun r => r.port != b - 0x26) })
  | .hearth => s.clusterReset (b - 0x2E)
  | _ => s

/-- A block under block reset is ready: its reaction shadow goes on for 1 µs more. A plane is ready once the cells
assigned to it have crossed (R437, R440). -/
def State.blockReady (s : State) (b : Nat) : State :=
  if !s.flt.handling.any (fun h => h.block == b && h.resetting) ∨ (blockKind b = .plane ∧ (s.plane (b - 0x22)).leaving) ∨
      (blockKind b = .hearth ∧ (s.cluster (b - 0x2E)).st ≠ .stopped) then s
  else
    let s1 := s.modFlt (fun f => { f with handling := f.handling.map (fun h => if h.block = b then { h with resetting := false } else h) })
    if blockKind b = .plane ∧ (s.plane (b - 0x22)).leaveFor = 1 then s1.planeReturn (b - 0x22) else s1

/-- The reaction shadow of block `b` ends (R438, R440). -/
def State.shadowEnd (s : State) (b : Nat) : State :=
  s.modFlt (fun f => { f with handling := f.handling.filter (fun h => h.block != b || h.resetting) })

/-! ## Detections -/

/-- The main die runs: its detectors report (R453, R460). -/
def State.dieUp (s : State) : Bool :=
  match s.boot.phase with
  | .off => false
  | .railsOff => false
  | .ramp => false
  | .held => false
  | _ => true

/-- The data path is in service: the main die runs, no orderly stop has shed its load, and no extraction has asserted READY_REMOVE_N
(R250, R460, R496). -/
def State.inService (s : State) : Bool := s.dieUp && !s.pwr.stopping && s.fab.extract.step != 7

/-- Steps 6 and 7 of an extraction: after READY_REMOVE_N only Ember and the sideband remain in service, so that the PCIe and the
logical ports go down as the fabric links have (R249, R250). -/
def State.leaveService (s : State) : State :=
  let s1 := (List.range 40).foldl (fun t n => if (t.port n).dlActive then t.portDrop n 0 else t) s.extractEnd
  (List.range 32).foldl (fun t lp => t.lportLink lp false) s1

/-- Change the AER of port `n`. -/
def State.modAer (s : State) (n : Nat) (f : Aer → Aer) : State := s.modPort n (fun p => { p with aer := f p.aer })

/-- What a link error of a downstream port leaves in its AER, in which bits the PCI Express specification says and
this one does not; an uncorrectable one is Surprise Down in every bound vDSP (R119, log 50). -/
def State.aerLog (s : State) (src : Nat) (port : Option Nat) : State :=
  match port with
  | none => s
  | some n =>
    if (s.port n).role ≠ .downstream ∨ src / 32 ≠ n / 4 then s
    else
      let r := s.freeNat
      if src % 32 = 0 then r.2.modAer n (fun a => { a with corStatus := a.corStatus ||| BitVec.ofNat 32 r.1 })
      else if src % 32 = 1 then
        (r.2.modAer n (fun a => { a with uncStatus := a.uncStatus ||| BitVec.ofNat 32 r.1 })).surpriseDown n
      else s

/-- An uncorrectable error in the accumulator SRAM of engine `e` fails an instance with accumulators there with cause 6 (R313): which
one the detection does not name, so a free number chooses it (log 86). -/
def State.accStruck (s : State) (e : Nat) : State :=
  let on := s.rt.inst.filter (fun x => x.2.engine == e && x.2.live)
  let r := s.freeNat
  match on[r.1 % on.length]? with
  | none => s
  | some x => r.2.rtFail x.1 6 none

/-- What a detection does to the traffic concerned: an error in a cell aborts its packet (R155, R180), an uncorrectable error in
the buffers of a link loses their contents (R222), one in an accumulator SRAM fails an instance (R313), and one in a cache of a
cluster waits for the cluster's block reset (R413). -/
def State.detectedIn (s : State) (src : Nat) (addr : Word) : State :=
  if src = 0x34 * 32 + 1 ∨ src = 0x34 * 32 + 2 then s.cellStruck (src % 32)
  else if blockKind (src / 32) = .link ∧ src % 32 = 12 then
    s.modLink (src / 32 - 0x0A) (fun k => { k with bufLost := true })
  else if 0x2A ≤ src / 32 ∧ src / 32 < 0x2E ∧ src % 32 = 4 then s.accStruck (src / 32 - 0x2A)
  else if 0x2E ≤ src / 32 ∧ src / 32 < 0x32 ∧ src % 32 = 1 then
    s.modCluster (src / 32 - 0x2E) (fun x => { x with badLines := x.badLines ++ [addr] })
  else s

/-- A detector raises source `src`; one whose SRAM an injection corrupted finds that corruption (R434, R451). -/
def State.detected (s0 : State) (src : Nat) (attr port : Option Nat) (addr : Word) : State :=
  if !s0.dieUp then s0
  else
    let s := s0.detectedIn src addr
    match s.flt.corrupt.find? (fun e => e.1 == src) with
    | some e =>
      ((s.modFlt (fun f => { f with corrupt := f.corrupt.erase e })).aerLog src port).raise src attr port addr true
    | none => (s.aerLog src port).raise src attr port addr false

/-! ## The ledger's flash record (R446) -/

/-- The ledger is copied to flash. -/
def State.flashCopy (s : State) : State :=
  if !s.ember.fwReady then s
  else { s with nv := { s.nv with ledger := some s.flt.ledger }, flt := { s.flt with flashAge := 0 } }

/-- The flash record of a cleared ledger has been rewritten, or its rewriting has failed (FLT_LEDGER_CLEAR). -/
def State.flashCleared (s : State) (good : Bool) : State :=
  match s.flt.flashWait with
  | [] => s
  | h :: r =>
    let s1 := s.modFlt (fun f => { f with flashWait := r })
    if good then
      ({ s1 with nv := { s1.nv with ledger := some [] }, flt := { s1.flt with flashAge := 0 } }).endHandle h rcOk
    else
      let b := s1.freeBit
      ((b.2.modNv (fun v => { v with ledger := if b.1 then none else v.ledger })).raiseAt 0x3A 2).endHandle h rcHwFault

/-- The ledger's class: the highest with a counter that is not zero (R446). -/
def State.ledgerClass (s : State) : Option Nat :=
  [3, 2, 1, 0].find? (fun c => s.flt.ledger.any (fun e => e.1 % 8 / 2 == c && e.2 != 0))

/-! ## Maps -/

/-- S bits of block `b` in the map partition `p` acts on: 0 the module map (R452). -/
def State.sBits (s : State) (p b : Nat) : BitVec 32 := if p = 0 then tget 0 s.flt.s b else tget 0 s.flt.ps (p * 64 + b)
/-- M bits of block `b` in that map. -/
def State.mBits (s : State) (p b : Nat) : BitVec 32 := if p = 0 then tget 0 s.flt.m b else tget 0 s.flt.pm (p * 64 + b)

/-- Highest class with an S bit set in a map. -/
def State.highest (s : State) (p : Nat) : Nat :=
  (([3, 2, 1, 0].find? (fun c => (List.range 64).any (fun b =>
    (bitList 32 (s.sBits p b).toNat).any (fun i => faultClassOf b i == some c))))).getD 0xFF

/-- S and M bits of a block cleared in a map, the other maps unchanged (FLT_CLEAR). -/
def State.clearBits (s : State) (p b : Nat) (mask : BitVec 32) : State :=
  let f (v : BitVec 32) : BitVec 32 := v &&& ~~~mask
  s.modFlt (fun x =>
    if p = 0 then { x with s := tmod 0 x.s b f, m := tmod 0 x.m b f }
    else { x with ps := tmod 0 x.ps (p * 64 + b) f, pm := tmod 0 x.pm (p * 64 + b) f })

/-! ## Commands -/

/-- FLT_GET_SUMMARY, 0x0A00. -/
def cmdFltGetSummary : Cmd where
  op := 0x0A00
  lenOk := lenIs 0
  allowed := anyone
  body w _ s :=
    let p := w.subject
    let pair := if p ≠ 0 then 0xFF else if !s.flt.armed then 2 else b2n s.pairFault
    ok s (leBytes 8 (bitsOf 64 (fun b => s.sBits p b != 0)) ++ leBytes 1 pair ++ leBytes 1 (s.highest p) ++ leBytes 2 0 ++
      leBytes 4 (s.ring p).lost)

/-- FLT_READ, 0x0A01. -/
def cmdFltRead : Cmd where
  op := 0x0A01
  lenOk := lenIs 4
  allowed := anyone
  body w q s :=
    let a := q.u8 0x20
    let n := q.u8 0x21
    match firstBad [(0x20, decide (a < 64)), (0x21, decide (1 ≤ n ∧ n ≤ 64 ∧ a + n ≤ 64)), (0x22, q.zero 0x22 2)] with
    | some f => bad s f
    | none =>
      ok s ((List.range n).flatMap (fun i => leBytes 4 (s.sBits w.subject (a + i)).toNat ++ leBytes 4 (s.mBits w.subject (a + i)).toNat))

/-- FLT_CLEAR, 0x0A02. -/
def cmdFltClear : Cmd where
  op := 0x0A02
  lenOk := lenIs 8
  allowed := anyone
  body w q s :=
    let b := q.u8 0x20
    match firstBad [(0x20, decide (b < 64)), (0x21, q.zero 0x21 3)] with
    | some f => bad s f
    | none =>
      let s1 := s.clearBits w.subject b (BitVec.ofNat 32 (q.u32 0x24))
      ok s1 (leBytes 4 (s1.sBits w.subject b).toNat ++ leBytes 4 0)

/-- A reaction byte that R434 and R436 allow in the row of block `b` and class `c`, privileges apart. -/
def reactionValid (b c r : Nat) : Bool :=
  bit r 0 && !bit r 7 && (c != 3 || reactPair r) && (!reactDpc r || blockKind b == .station) &&
    (!reactBlock r || blockResetAllowed b)

/-- A reaction byte R436 denies in that row. -/
def reactionDenied (b c r : Nat) : Bool :=
  ((reactBlock r || reactWarm r) && rowAttributable b c && blockKind b != .hearth) || (b == 0x32 && c == 3 && !reactWarm r)

/-- FLT_SET_REACTION, 0x0A03. -/
def cmdFltSetReaction : Cmd where
  op := 0x0A03
  lenOk := lenIs 4
  allowed := onlyZero
  body _ q s :=
    let b := q.u8 0x20
    let c := q.u8 0x21
    let r := q.u8 0x22
    let all := b == 0xFF
    match firstBad [(0x20, decide (b < 64) || all), (0x21, if all then c == 0 else decide (c < 4)),
        (0x22, if all then decide (r ≤ 1) else reactionValid b c r), (0x23, q.zero 0x23 1)] with
    | some f => bad s f
    | none =>
      if all then ok (s.modFlt (fun f => { f with sbAlert := r == 1 }))
      else if reactionDenied b c r then deny s
      else ok (s.modFlt (fun f => { f with react := tset f.react (b * 4 + c) r }))

/-- FLT_GET_REACTION, 0x0A04. -/
def cmdFltGetReaction : Cmd where
  op := 0x0A04
  lenOk := lenIs 0
  allowed := onlyZero
  body _ _ s :=
    ok s ((List.range 256).flatMap (fun i => leBytes 1 (s.reaction (i / 4) (i % 4))) ++ leBytes 1 (b2n s.flt.sbAlert) ++ leBytes 3 0)

/-- FLT_LEDGER_READ, 0x0A05. -/
def cmdFltLedgerRead : Cmd where
  op := 0x0A05
  lenOk := lenIs 0
  allowed := onlyZero
  body _ _ s :=
    ok s (leBytes 1 (s.ledgerClass.getD 0xFF) ++ leBytes 1 s.flt.ledgerSrc ++ leBytes 2 0 ++
      leBytes 4 (Nat.min (2 ^ 32 - 1) (s.flt.flashAge / 25000000)) ++
      (List.range 512).flatMap (fun i => leBytes 2 (tget 0 s.flt.ledger i)))

/-- FLT_LEDGER_CLEAR, 0x0A06: in FACTORY or RMA. -/
def cmdFltLedgerClear : Cmd where
  op := 0x0A06
  lenOk := lenIs 0
  allowed := onlyZero
  body w _ s :=
    if s.lifecycle ≠ 0 ∧ s.lifecycle ≠ 2 then deny s
    else if !s.handleFree w.caller then failWith s rcBusy
    else
      let h := s.newHandle w.caller 0x0A06
      pend ((h.2.modFlt (fun f => { f with ledger := [], flashWait := f.flashWait ++ [h.1] })).modKept (fun k =>
        { k with ledgerShadow := [] })) h.1

/-- A source raised `n` times back to back (FLT_INJECT MODE 0). -/
def State.raiseTimes (s : State) (src : Nat) (attr : Option Nat) : Nat → State
  | 0 => s
  | n + 1 => (s.raise src attr none 0 true).raiseTimes src attr n

/-- FLT_INJECT, 0x0A07: in FACTORY with TEST_MODE sampled high (R451). -/
def cmdFltInject : Cmd where
  op := 0x0A07
  lenOk := lenIs 8
  allowed w _ s := w.caller == 0 && s.lifecycle == 0 && s.boot.straps.testMode
  body _ q s :=
    let src := q.u16 0x20
    let mode := q.u8 0x22
    let p := q.u8 0x23
    let n := q.u8 0x24
    let free := p == 0xFF || (mode == 0 && attributable src && decide (1 ≤ p ∧ p < 32))
    match firstBad [(0x20, (faultClass src).isSome), (0x22, decide (mode ≤ 2) && (mode == 0 || sramSource src)), (0x23, free),
        (0x24, if mode = 0 then n != 0 else n == 1), (0x25, q.zero 0x25 3)] with
    | some f => bad s f
    | none =>
      if mode = 0 then ok (s.raiseTimes src (if p = 0xFF then none else some p) n)
      else ok (s.modFlt (fun f => { f with corrupt := f.corrupt ++ [(src, mode, p)] }))

/-- FLT_AER_READ, 0x0A08 (R119). -/
def cmdFltAerRead : Cmd where
  op := 0x0A08
  lenOk := lenIs 4
  allowed := onlyZero
  body _ q s :=
    let n := q.u8 0x20
    let c := q.u8 0x21
    let a := (s.port n).aer
    match firstBad [(0x20, decide (n < 40) && (s.port n).role == .downstream), (0x21, decide (c ≤ 1)), (0x22, q.zero 0x22 2)] with
    | some f => bad s f
    | none =>
      ok (if c = 1 then s.modAer n (fun x => { x with uncStatus := 0, corStatus := 0 }) else s)
        (leBytes 4 a.uncStatus.toNat ++ leBytes 4 a.uncMask.toNat ++ leBytes 4 a.uncSev.toNat ++ leBytes 4 a.corStatus.toNat ++
          leBytes 4 a.corMask.toNat ++ leBytes 4 a.capCtl.toNat ++ leBytes 16 a.hdrLog.toNat)

/-- EV_POP, 0x0A09 (R450). -/
def cmdEvPop : Cmd where
  op := 0x0A09
  lenOk := lenIs 4
  allowed := onlyZero
  body _ q s :=
    let n := q.u8 0x20
    match firstBad [(0x20, decide (1 ≤ n ∧ n ≤ 126)), (0x21, q.zero 0x21 3)] with
    | some f => bad s f
    | none =>
      let got := s.flt.sb.take n
      let left := s.flt.sb.drop n
      ok (s.modFlt (fun f => { f with sb := left, sbLost := 0 }))
        (leBytes 1 got.length ++ leBytes 1 (Nat.min 255 left.length) ++ leBytes 2 s.flt.sbLost ++ leBytes 4 0 ++
          got.flatMap EvRec.bytes)

end Sys2Proof.Machine
end

