-- ==== Sys2Proof/Machine/Counters.lean ====
section
/-! DEFINITION. Counter configuration and access (R507 to R510, R519 to R524), sweeps (R511, R514) and sweep streams
(R515 to R518). -/

namespace Sys2Proof.Machine

open Sys2Proof

/-! ## Events (R508) -/

/-- The filters an event lists: PART, PORT, TC, CORES. -/
structure Filters where
  /-- PART with PART_V. -/
  part : Bool := false
  /-- PORT with PORT_V. -/
  port : Bool := false
  /-- TCMASK. -/
  tc : Bool := false
  /-- CORES. -/
  cores : Bool := false
  deriving DecidableEq, Repr

/-- The filters of event `e` of block `b`; none for a code the event table does not list. -/
def eventFilters (b e : Nat) : Option Filters :=
  if e ≤ 1 then some {}
  else if 0x3B ≤ b then none
  else if e = 2 then some {}
  else match blockKind b with
    | .station =>
      if 0x10 ≤ e ∧ e ≤ 0x13 then some { part := true, port := true, tc := true }
      else if e = 0x14 then some { part := true, port := true }
      else if e = 0x15 ∨ e = 0x16 then some { port := true }
      else none
    | .link => if 0x10 ≤ e ∧ e ≤ 0x14 then some {} else if e = 0x15 then some { tc := true } else none
    | .net =>
      if 0x10 ≤ e ∧ e ≤ 0x13 then some { part := true, port := true, tc := true }
      else if e = 0x14 then some { part := true, port := true }
      else if e = 0x15 then some { port := true }
      else none
    | .plane => if e = 0x10 then some {} else if 0x11 ≤ e ∧ e ≤ 0x14 then some { port := true } else none
    | .pool => if 0x10 ≤ e ∧ e ≤ 0x12 then some { part := true } else none
    | .retort => if 0x10 ≤ e ∧ e ≤ 0x12 then some { part := true } else none
    | .hearth => if 0x10 ≤ e ∧ e ≤ 0x16 then some { cores := true } else none
    | _ =>
      if b = 0x32 ∧ e = 0x10 then some { part := true }
      else if b = 0x33 ∧ e = 0x10 then some { part := true }
      else if b = 0x34 ∧ 0x10 ≤ e ∧ e ≤ 0x12 then some { tc := true }
      else if b = 0x38 ∧ (e = 0x10 ∨ e = 0x11) then some {}
      else none

/-- Filter fields that the event does not list are 0, and the reserved bits are 0 (R507, R508). -/
def filtersOk (b g : Nat) : Bool :=
  match eventFilters b (bits g 7 0) with
  | none => false
  | some f =>
    bits g 63 43 == 0 && (f.part || bits g 13 8 == 0) && (f.port || bits g 21 14 == 0) && (f.tc || bits g 29 22 == 0) &&
      (f.cores || bits g 37 30 == 0)

/-! ## Owners (R519) -/

/-- Owner of the counters of cluster `c`: its partition while RUNNING, else partition 0. -/
def State.clusterOwner (s : State) (c : Nat) : Nat := if (s.cluster c).st = .running then (s.cluster c).part else 0

/-- Owner of counter `id`. -/
def State.ctrOwner (s : State) (id : Nat) : Nat :=
  if blockKind (id / 8) = .hearth then s.clusterOwner (id / 8 - 0x2E) else (tget {} s.cnt.ctrs id).owner

/-- Configuration of a counter as it reads, with OWNER in force. -/
def withOwner (g owner : Nat) : Nat := g % 2 ^ 38 + owner % 32 * 2 ^ 38

/-- Blocks whose counters a host partition may own (R519). -/
def ownableBlock (b : Nat) : Bool := blockKind b == .station || blockKind b == .net || blockKind b == .retort || b == 0x32

/-- A configuration partition 0 may give counter `id`, the owner being `cur` before (R519, log 51). -/
def zeroConfigOk (id g cur : Nat) : Bool :=
  let o := bits g 42 38
  let e := bits g 7 0
  if blockKind (id / 8) = .hearth then o == cur
  else o == 0 || (ownableBlock (id / 8) &&
    (e == 1 || (e == 0 && o == cur) || (bit g 8 && bits g 13 9 == o && ((eventFilters (id / 8) e).getD {}).part)))

/-- A configuration host partition `p` may give a counter it owns: outside a Hearth cluster it counts only events of `p`, or
is off, or chains (R519, R522, R524, log 51). -/
def hostConfigOk (id g p : Nat) : Bool :=
  let e := bits g 7 0
  bits g 42 38 == p &&
    (blockKind (id / 8) == .hearth || decide (e ≤ 1) ||
      (((eventFilters (id / 8) e).getD {}).part && bit g 8 && bits g 13 9 == p))

/-! ## CNT_SET (R509, R510, R524) -/

/-- Offset of record `i`. -/
def ctrOff (i : Nat) : Nat := 0x28 + 24 * i

/-- A record of CNT_SET by itself obeys R507, R508 and R519. -/
def State.ctrRecordOk (s : State) (caller : Nat) (q : Req) (i : Nat) : Bool :=
  let o := ctrOff i
  let id := q.u16 o
  let f := q.u8 (o + 2)
  let g := q.u64 (o + 8)
  decide (id < 512) && decide (1 ≤ f ∧ f < 4) && q.zero (o + 3) 5 && decide (q.u64 (o + 16) < 2 ^ 48) &&
    (!bit f 0 || (filtersOk (id / 8) g && (bits g 7 0 != 1 || id % 8 != 0) &&
      (if caller = 0 then zeroConfigOk id g (s.ctrOwner id) else hostConfigOk id g caller)))

/-- A counter takes a record: a change of OWNER clears it, a written value stands (R510, R519, R524). -/
def Ctr.set (c : Ctr) (hearth : Bool) (f g v : Nat) : Ctr :=
  let g1 := if hearth then g % 2 ^ 38 else g
  let c1 : Ctr := if bit f 0 then
      (if !hearth ∧ bits g 42 38 ≠ c.owner then { cfg := BitVec.ofNat 64 g1 } else { c with cfg := BitVec.ofNat 64 g1, rem := 0 })
    else c
  if bit f 1 then { c1 with value := v, ovf := false, wrcoll := false, rem := 0 } else c1

/-- The counters once every record has been applied, at one instant. -/
def setCounters (t : Tab Ctr) (q : Req) : Tab Ctr :=
  (List.range (q.u16 0x20)).foldl (fun t i =>
    let o := ctrOff i
    let id := q.u16 o
    tmod {} t id (fun c => c.set (blockKind (id / 8) == .hearth) (q.u8 (o + 2)) (q.u64 (o + 8)) (q.u64 (o + 16)))) t

/-- Counter `id` chains with the one before it only under the same owner (R509). -/
def chainOk (t : Tab Ctr) (id : Nat) : Bool :=
  (tget {} t id).event != 1 || (tget {} t id).owner == (tget {} t (id - 1)).owner

/-- After the records, counter `id` and the one after it obey R509. -/
def chainsOk (t : Tab Ctr) (id : Nat) : Bool := chainOk t id && (id % 8 == 7 || chainOk t (id + 1))

/-- CNT_READ, 0x0900. -/
def cmdCntRead : Cmd where
  op := 0x0900
  lenOk := lenIs 4
  allowed := anyone
  body w q s :=
    let a := q.u16 0x20
    let n := q.u16 0x22
    match firstBad [(0x20, decide (a < 512)), (0x22, decide (1 ≤ n ∧ n ≤ 253 ∧ a + n ≤ 512))] with
    | some f => bad s f
    | none =>
      let one (id : Nat) : Bytes :=
        let c : Ctr := tget {} s.cnt.ctrs id
        let o := s.ctrOwner id
        if w.caller = 0 ∨ o = w.caller then
          leBytes 8 (withOwner c.cfg.toNat o) ++ leBytes 8 (c.value + b2n c.ovf * 2 ^ 48 + b2n c.wrcoll * 2 ^ 49)
        else List.replicate 16 0
      ok s (leBytes 2 a ++ leBytes 2 n ++ leBytes 4 0 ++ (List.range n).flatMap (fun i => one (a + i)))

/-- CNT_SET, 0x0901. -/
def cmdCntSet : Cmd where
  op := 0x0901
  lenOk q := q.length == 8 + 24 * q.u16 0x20
  allowed w q s := w.caller == 0 || (List.range (Nat.min 169 (q.u16 0x20))).all (fun i => s.ctrOwner (q.u16 (ctrOff i)) == w.caller)
  body w q s :=
    let n := q.u16 0x20
    let t := setCounters s.cnt.ctrs q
    match firstBad ([(0x20, decide (1 ≤ n ∧ n ≤ 169)), (0x22, q.zero 0x22 6)] ++
        (List.range (Nat.min 169 n)).map (fun i => (ctrOff i, s.ctrRecordOk w.caller q i && chainsOk t (q.u16 (ctrOff i))))) with
    | some f => bad s f
    | none => ok (s.modCnt (fun c => { c with ctrs := t }))

/-! ## Sweeps (R511, R514, R517) -/

/-- A stream can write: DEST 0 needs the pool, DEST 1 Bus Master Enable and an upstream port (R515, R517). -/
def State.streamWrites (s : State) (p : Nat) (x : Stream) : Bool :=
  match x.dest with
  | 0 => s.pool.present && (s.sod s.pool.reserve).st == .reserve
  | 1 => (s.vs p).up.isSome && (s.vs p).mgmt.busMaster && !(s.vs p).mgmt.d3
  | _ => s.pool.present

/-- A stream passes over `n` sweeps. -/
def Stream.skip (x : Stream) (n : Nat) : Stream :=
  { x with skipped := sat (2 ^ 32 - 1) x.skipped n, skipSlot := sat 65535 x.skipSlot n }

/-- A sweep reaches a stream: every DIVIDER-th is due, and the newest due takes the place of an older one (R515, R517). -/
def Stream.take (x : Stream) (can : Bool) (r : SwRec) : Stream :=
  if !x.enabled then x
  else
    let x1 := { x with since := x.since + 1 }
    if x.since % Nat.max 1 x.divider ≠ 0 then x1
    else
      let old := b2n x.due.isSome
      if can then { x1.skip old with due := some r } else { x1.skip (old + 1) with due := none }

/-- Every block latches its counters as the sweep token passes, and the sweep is due to its streams (R511, R514). -/
def State.sweep (s : State) (span : Nat) : State :=
  if !s.dieUp then s
  else
    let n := (s.cnt.seq + 1) % 2 ^ 32
    let r : SwRec :=
      { seq := n, time := s.time.ticks, ptpSec := s.time.ptpSec, ptpNs := s.time.ptpNs, span := span % 65536
        owners := (List.range 4).map s.clusterOwner, ctrs := s.cnt.ctrs }
    s.modCnt (fun c => { c with seq := n, streams := tmap c.streams (fun p x => x.take (s.streamWrites p x) r) })

/-- SLOTS of a stream. -/
def Stream.slots (x : Stream) : Nat := if x.dest = 0 then 112 else 2 ^ x.slotsLog2

/-- Sweep record of counter `id` for partition `p` (R515, R519). -/
def SwRec.record (r : SwRec) (p id : Nat) : Nat :=
  let c : Ctr := tget {} r.ctrs id
  let o := if blockKind (id / 8) = .hearth then lget 0 r.owners (id / 8 - 0x2E) else c.owner
  if p = 0 ∨ o = p then
    c.value % 2 ^ 48 + b2n c.ovf * 2 ^ 48 + b2n c.wrcoll * 2 ^ 49 + 2 ^ 50 + c.event * 2 ^ 56
  else 0

/-- The 64 bytes of a slot's header (R515). -/
def State.sweepHeader (s : State) (p w : Nat) (x : Stream) (r : SwRec) : Bytes :=
  leBytes 4 w ++ leBytes 4 r.seq ++ leBytes 8 r.time ++ leBytes 8 r.ptpSec ++ leBytes 4 r.ptpNs ++ leBytes 2 r.span ++
    leBytes 2 x.skipSlot ++ leBytes 1 (b2n s.iso.strict + 2 * b2n (s.perfUser p)) ++ leBytes 31 0

/-- The 512 records of a slot, as partition `p` may see them (R516, R518). -/
def SwRec.records (r : SwRec) (p : Nat) : Bytes := (List.range 512).flatMap (fun id => leBytes 8 (r.record p id))

/-- The gatherer writes `d` at key `a` of this module's pool for the stream of partition `p`, each line at the pool port that has
it; what the sod does not admit is discarded with its port's source 5 (R270, R515). -/
def State.sweepStore (s : State) (p a : Nat) (d : Bytes) : State :=
  let n := a / 2 ^ 30
  let m := s.poolPort n (a % 2 ^ 30)
  if !agentAdmits (.gatherer p) (s.sod n) (a % 2 ^ 30) (.write d false) then
    s.raiseAt (0x26 + m) 5 (some p) (some (64 + m)) (faMake s.own 0 a)
  else
    (linesOf a d.length).foldl (fun t l => t.poolCount (t.poolPort (l / 2 ^ 24) (l * 64 % 2 ^ 30)) 0x11 1 (some p))
      (s.poolWrite a d false (fun _ => true))

/-- One posted write of a stream into its buffer (R515, R516). -/
def State.sweepPut (s : State) (p : Nat) (x : Stream) (off : Nat) (d : Bytes) : State :=
  match x.dest with
  | 0 => s.sweepStore p (poolKey s.pool.reserve (sweepByte p (0x20000 + off))) d
  | 1 =>
    let a := x.addr + BitVec.ofNat 64 off
    (s.emit (.hostWrite p a d)).toHost p 72 (s.mgmtVrid p) opcMWr 0 a 0 d
  | _ =>
    let a := x.addr + BitVec.ofNat 64 off
    s.sweepStore p (poolKey (faSod a) (faByte a)) d

/-- The three writes of a slot at byte `off`: WCOUNT as 0, the records, then the header (R516). -/
def State.slotPut (s : State) (p : Nat) (x : Stream) (off : Nat) (records header : Bytes) : State :=
  ((s.sweepPut p x off (leBytes 4 0)).sweepPut p x (off + 0x40) records).sweepPut p x off header

/-- The sweep stream of partition `p` writes the sweep due to it into its next slot, WCOUNT as 0, the records, then
the header (R516). -/
def State.slotWrite (s : State) (p : Nat) : State :=
  let x : Stream := tget {} s.cnt.streams p
  match x.due with
  | none => s
  | some r =>
    if !x.enabled ∨ !s.streamWrites p x then s
    else
      let w := (x.wcount + 1) % 2 ^ 32
      let at_ := x.wcount % x.slots * 8192
      (s.slotPut p x at_ (r.records p) (s.sweepHeader p w x r)).modCnt (fun c =>
        { c with streams := tmod {} c.streams p (fun y => { y with wcount := w, skipSlot := 0, due := none }) })

/-- A KIND 1 sod of partition 0 under every slot of a DEST 2 buffer (R515). -/
def State.sweepRangeOk (s : State) (a : Word) (log : Nat) : Bool :=
  let lo := poolKey (faSod a) (faByte a)
  let hi := lo + 8192 * 2 ^ log - 1
  faModule a == s.own && faClass a == 0 && faWellFormed a && a.toNat % 8192 == 0 && decide (hi / 2 ^ 30 < 8192) &&
    (List.range (hi / 2 ^ 30 - lo / 2 ^ 30 + 1)).all (fun i =>
      let d := s.sod (lo / 2 ^ 30 + i)
      d.st == .assigned && d.kind == 1 && d.target == 0)

/-- A stream whose buffer has lost a sod is disabled (R518). -/
def State.checkStreams (s : State) : State :=
  (s.cnt.streams.filter (fun e => e.2.enabled && e.2.dest == 2 && !s.sweepRangeOk e.2.addr e.2.slotsLog2)).foldl
    (fun t e => t.streamStop e.1 4) s

/-- CNT_SWEEP_SET, 0x0902. -/
def cmdCntSweepSet : Cmd where
  op := 0x0902
  lenOk := lenIs 24
  allowed w q s := w.caller == 0 || (s.perfUser w.caller && !bit (q.u8 0x20) 0 && (!bit (q.u8 0x20) 1 || q.u8 0x22 == 0))
  body w q s :=
    let v := q.u8 0x20
    let en := q.u8 0x21
    let d := q.u8 0x22
    let k := q.u8 0x23
    let a := BitVec.ofNat 64 (q.u64 0x28)
    let on := bit v 1 && en == 1
    let us := q.u32 0x24
    match firstBad [(0x20, decide (1 ≤ v ∧ v < 4)), (0x21, !bit v 1 || decide (en ≤ 1)), (0x22, !on || decide (d ≤ 2)),
        (0x23, !on || (if d = 0 then k == 0 else decide (1 ≤ k ∧ k ≤ 16))),
        (0x24, !bit v 0 || decide (1 ≤ us ∧ us ≤ 1000000)),
        (0x28, !on || (if d = 0 then a == 0 else if d = 1 then a.toNat % 8192 == 0 else s.sweepRangeOk a k)),
        (0x30, !on || q.u16 0x30 != 0), (0x32, q.zero 0x32 6)] with
    | some f => bad s f
    | none =>
      if on ∧ d = 0 ∧ !s.pool.present then failWith s rcNotReady
      else
        let s1 := if bit v 0 then s.modCnt (fun c => { c with periodUs := us }) else s
        let x : Stream := tget {} s.cnt.streams w.subject
        let y : Stream :=
          if en = 1 then
            { enabled := true, dest := d, slotsLog2 := k, addr := a, divider := q.u16 0x30, cause := x.cause }
          else { x with enabled := false, cause := 1, due := none }
        ok (if bit v 1 then s1.modCnt (fun c => { c with streams := tset c.streams w.subject y }) else s1)

/-- CNT_SWEEP_GET, 0x0903. -/
def cmdCntSweepGet : Cmd where
  op := 0x0903
  lenOk := lenIs 0
  allowed := anyone
  body w _ s :=
    let x : Stream := tget {} s.cnt.streams w.subject
    ok s (leBytes 4 s.cnt.periodUs ++ leBytes 4 s.cnt.seq ++ leBytes 1 (b2n x.enabled) ++ leBytes 1 x.dest ++ leBytes 1 x.slotsLog2 ++
      leBytes 1 x.cause ++ leBytes 2 x.divider ++ leBytes 2 0 ++ leBytes 4 x.wcount ++ leBytes 4 x.skipped ++ leBytes 8 x.addr.toNat)

end Sys2Proof.Machine
end

