-- ==== Sys2Proof/Machine/TestAge.lean ====
section
/-! DEFINITION. Lifecycle (R525 to R529), built-in self-test (R530 to R535), the Char monitor and margin re-planning
(R536 to R549). -/

namespace Sys2Proof.Machine

open Sys2Proof

/-! ## Built-in self-test -/

/-- Blocks BIST_RUN can test (R531). -/
def bistKind (b : Nat) : Bool :=
  match blockKind b with
  | .station => true
  | .link => true
  | .net => true
  | .plane => true
  | .retort => true
  | .hearth => true
  | _ => false

/-- Expected signatures depend on the block's kind: its place among the kinds (R530). -/
def kindCode (b : Nat) : Nat :=
  match blockKind b with
  | .station => 0
  | .link => 1
  | .net => 2
  | .plane => 3
  | .pool => 4
  | .retort => 5
  | .hearth => 6
  | _ => b

/-- The precondition of a test: OK, CONFLICT or BUSY_RESOURCE (R531). -/
def State.bistReady (s : State) (b : Nat) : Nat :=
  let good (x : Bool) : Nat := if x then rcOk else rcConflict
  match blockKind b with
  | .station => good ((List.range 4).all (fun i =>
      let n := 4 * b + i
      (s.port n).role != .upstream && (match (s.port n).mode with | .shared _ _ _ => false | _ => true) && (s.boundTo n).isEmpty))
  | .link => good ((s.link (b - 0x0A)).st == .disabled)
  | .net => good (!s.groupInUse (4 * (b - 0x1A)))
  | .plane => good ((List.range 4).all (fun k => k == b - 0x22 || (s.plane k).inService))
  | .retort => if s.instsOn (b - 0x2A) = 0 then rcOk else rcBusy
  | .hearth => good ((s.cluster (b - 0x2E)).st == .stopped)
  | _ => rcBadField

/-- Blocks now in test (R533). -/
def State.inTest (s : State) : List Nat := (s.bist.filter (fun e => e.2.st == 1)).map (fun e => e.1)

/-- A downstream port of a station under test is held in reset (R532). -/
def State.portTested (s : State) (n : Nat) : State :=
  if (s.port n).role ≠ .downstream then s
  else
    let s1 := if (s.port n).dlActive then s.portDrop n 0 else s
    s1.modPort n (fun p => { p with perst := true, step := 0, enumerated := false, ltssm := 0 })

/-- Block `b` goes OFFLINE for a test under handle `h` (R532). -/
def State.bistBegin (s : State) (b kind h : Nat) : State :=
  let s1 := s.modBist b (fun t => { t with st := 1, kind := kind, handle := h, boot := false })
  match blockKind b with
  | .station => (List.range 4).foldl (fun t i => t.portTested (4 * b + i)) s1
  | .plane => s1.planeLeave (b - 0x22) 2
  | _ => s1

/-- A tested block is reset: what it held is gone, its settings stay (R532, log 91). -/
def State.bistReset (s : State) (b : Nat) : State :=
  match blockKind b with
  | .link => s.modLink (b - 0x0A) (fun k =>
      { enabled := k.enabled, maxWidth := k.maxWidth, maxRate := k.maxRate, vcMap := k.vcMap, vcMapUp := k.vcMapUp, shCap := k.shCap })
  | .net => s.netGroupReset (b - 0x1A)
  | .retort => s.modEngine (b - 0x2A) (fun _ => {})
  | .hearth => s.modCluster (b - 0x2E) (fun _ => {})
  | _ => s

/-- A block that passed returns to service: a station brings its ports up, a plane rejoins (R532). -/
def State.bistReturn (s : State) (b : Nat) : State :=
  match blockKind b with
  | .station => (List.range 4).foldl (fun t i =>
      if (t.port (4 * b + i)).role = .downstream ∧ (t.port (4 * b + i)).present then t.bringUp (4 * b + i) else t) s
  | .plane => s.planeReturn (b - 0x22)
  | _ => s

/-- Expected signature of a test, 0 MBIST or 1 LBIST, of a block: from the option records when they hold one for its kind, else from
fuses (R530). -/
def State.misrOf (s : State) (b test : Nat) : BitVec 32 :=
  match tlook s.boot.opt.misr (2 * kindCode b + test) with
  | some v => BitVec.ofNat 32 v
  | none => Config.misrExpected (kindCode b) test

/-- RESULT of a run: 1 pass, 2 pass with new repair, 3 MISR mismatch, 4 unrepairable macro (R530, R534). -/
def State.bistResult (s : State) (b kind mMisr lMisr repairs : Nat) (spare : Bool) : Nat :=
  let ok (test v : Nat) : Bool := !bit kind test || BitVec.ofNat 32 v == s.misrOf b test
  if bit kind 0 ∧ !spare then 4
  else if !ok 0 mMisr ∨ !ok 1 lMisr then 3
  else if bit kind 0 ∧ repairs ≠ 0 then 2
  else 1

/-- New repairs are logged in flash, one fault event each (R534). -/
def State.logRepairs (s : State) (b : Nat) : Nat → State
  | 0 => s
  | n + 1 => ((s.modNv (fun v => { v with repairs := tmod 0 v.repairs b (· + 1) })).raiseAt 0x37 3).logRepairs b n

/-- The fast march of step 3 repairs a macro of block `b`: a spare is taken for this start, without an entry in the flash log (R534). -/
def State.marchRepair (s : State) (b : Nat) : State := (s.modBist b (fun t => { t with soft := t.soft + 1 })).raiseAt 0x37 3

/-- The test of block `b` ends (R532): it returns to service, or stays OFFLINE_FAILED. A plane's test begins only once
its cells have crossed. -/
def State.bistDone (s : State) (b mMisr lMisr repairs : Nat) (spare : Bool) (ms : Nat) : State :=
  let t := s.bistOf b
  if t.st ≠ 1 ∨ (blockKind b = .plane ∧ (s.plane (b - 0x22)).leaving) then s
  else
    let r := s.bistResult b t.kind mMisr lMisr repairs spare
    let pass := decide (r ≤ 2)
    let s1 := (s.modBist b (fun t =>
      { t with
        st := if pass then 0 else 2
        result := r
        mMisr := if bit t.kind 0 then BitVec.ofNat 32 mMisr else t.mMisr
        lMisr := if bit t.kind 1 then BitVec.ofNat 32 lMisr else t.lMisr
        lastMs := ms % 2 ^ 32, runs := sat 65535 t.runs 1, fails := sat 65535 t.fails (b2n !pass), handle := 0 })).bistReset b
    let s2 := if bit t.kind 0 then s1.logRepairs b repairs else s1
    let s3 := if bit t.kind 0 ∧ !spare then s2.raiseAt 0x37 4 else s2
    if pass then (s3.bistReturn b).endHandle t.handle rcOk
    else (s3.raiseAt 0x37 1).endHandle t.handle rcHwFault

/-- A block that fails boot BIST stays out of service: its link is DISABLED, its plane does not rejoin (R535). -/
def State.bootFailed (s : State) (b : Nat) : State :=
  match blockKind b with
  | .link => s.modLink (b - 0x0A) (fun k => { k with enabled := false, st := .disabled })
  | .plane => s.modPlane (b - 0x22) (fun p => { p with inService := false, leaving := false, leaveFor := 2 })
  | _ => s

/-- Boot BIST (R535): every block is tested; one that fails stays OFFLINE_FAILED. -/
def State.bootBist (s : State) (fails : List Nat) : State :=
  let all := (List.range 0x3B).filter (fun b => blockKind b != .reserved)
  all.foldl (fun t b =>
    let failed := fails.contains b
    let t1 := t.modBist b (fun x =>
      { x with
        st := if failed then 2 else 0
        kind := 3
        result := if failed then 3 else 1
        boot := failed, runs := sat 65535 x.runs 1, fails := sat 65535 x.fails (b2n failed) })
    if failed then (t1.bootFailed b).raiseAt 0x37 2 else t1) s

/-- BIST_RUN, 0x0B00. -/
def cmdBistRun : Cmd where
  op := 0x0B00
  lenOk := lenIs 4
  allowed := onlyZero
  body w q s :=
    let b := q.u8 0x20
    let k := q.u8 0x21
    match firstBad [(0x20, bistKind b), (0x21, decide (1 ≤ k ∧ k ≤ 3)), (0x22, q.zero 0x22 2)] with
    | some f => bad s f
    | none =>
      let r := s.bistReady b
      if (s.bistOf b).st = 1 ∨ r = rcConflict then failWith s rcConflict
      else if r ≠ rcOk ∨ 8 ≤ s.inTest.length ∨ (blockKind b = .plane ∧ s.inTest.any (fun x => blockKind x == .plane)) ∨
          !s.handleFree w.caller then failWith s rcBusy
      else
        let h := s.newHandle w.caller 0x0B00
        pend (h.2.bistBegin b k h.1) h.1

/-- BIST_GET, 0x0B01. -/
def cmdBistGet : Cmd where
  op := 0x0B01
  lenOk := lenIs 4
  allowed := onlyZero
  body _ q s :=
    let b := q.u8 0x20
    let t := s.bistOf b
    let st := if blockKind b = .reserved then 4 else if t.st = 0 ∧ !bistKind b then 3 else t.st
    let used := tget 0 s.nv.repairs b + t.soft
    match firstBad [(0x20, decide (b < 64)), (0x21, q.zero 0x21 3)] with
    | some f => bad s f
    | none =>
      ok s (leBytes 1 b ++ leBytes 1 st ++ leBytes 1 t.kind ++ leBytes 1 t.result ++ leBytes 4 t.mMisr.toNat ++
        leBytes 4 (s.misrOf b 0).toNat ++ leBytes 4 t.lMisr.toNat ++ leBytes 4 (s.misrOf b 1).toNat ++ leBytes 2 used ++ leBytes 2 (Config.spares b - used) ++
        leBytes 4 t.lastMs ++ leBytes 2 t.runs ++ leBytes 2 t.fails)

/-! ## Lifecycle -/

/-- LC_ADVANCE, 0x0B02: the new state takes effect at the warm reset that follows (R526). -/
def cmdLcAdvance : Cmd where
  op := 0x0B02
  lenOk := lenIs 4
  allowed := onlyZero
  body _ q s :=
    if q.u32 0x20 ≠ 0xA5C3 then bad s 0x20
    else if s.lifecycle ≠ 0 ∨ s.boot.straps.testMode then deny s
    else
      let r := s.freeBit
      if r.1 then { status := rcHwFault, s := r.2 }
      else ok ((r.2.modBoot (fun b => { b with nextLifecycle := some 1, pendingReset := some 1 })).modKept (fun k => { k with bkp1 := 0 }))

/-- RMA_CHALLENGE, 0x0B03: a fresh nonce (R527, R529). -/
def cmdRmaChallenge : Cmd where
  op := 0x0B03
  lenOk := lenIs 0
  allowed := onlyZero
  body _ _ s :=
    if s.lifecycle ≠ 1 ∨ 3 ≤ s.ember.rmaRejects then deny s
    else
      let r := s.freeNat
      let n := r.1 % 2 ^ 256
      ok (r.2.modEmber (fun e => { e with rmaNonce := some n })) (leBytes 32 n ++ leBytes 16 Config.serial.toNat)

/-- A token is rejected: source 9 of block 0x37, and one of three rejections (R529). -/
def State.rmaReject (s : State) : State :=
  (s.modEmber (fun e => { e with rmaRejects := e.rmaRejects + 1 })).raiseAt 0x37 9

/-- RMA_UNLOCK, 0x0B04 (R527, R528). -/
def cmdRmaUnlock : Cmd where
  op := 0x0B04
  lenOk := lenIs 160
  allowed := onlyZero
  body _ q s :=
    let used := s.modEmber (fun e => { e with rmaNonce := none })
    if s.lifecycle ≠ 1 then deny s
    else match firstBad [(0x20, q.u32 0x20 == 0x4B56524D), (0x24, q.zero 0x24 12),
        (0x30, q.field 16 0x30 == Config.serial.toNat), (0x40, s.ember.rmaNonce == some (q.field 32 0x40))] with
    | some f => { status := rcBadField, detail := f, s := s.rmaReject }
    | none =>
      if !Config.rmaSigned (q.bytes 0x20 64) (q.bytes 0x60 96) then { status := rcDenied, s := used.rmaReject }
      else
        let r := used.freeBit
        if r.1 then { status := rcHwFault, s := r.2 }
        else ok ((r.2.modBoot (fun b => { b with nextLifecycle := some 2, pendingReset := some 1 })).modKept (fun k => { k with bkp1 := 0 }))

/-! ## The Char monitor (R536 to R538) -/

/-- `x` put into its place in a rising list. -/
def putSorted (x : Nat) : List Nat → List Nat
  | [] => [x]
  | y :: r => if x ≤ y then x :: y :: r else y :: putSorted x r

/-- The median of a list: of an even number of values the mean of the two in the middle (R537, log 91). -/
def median (l : List Nat) : Nat :=
  let t := l.foldr putSorted []
  (lget 0 t ((t.length - 1) / 2) + lget 0 t (t.length / 2)) / 2

/-- The readable loop sensors of the placement groups that `g` names, each with its ratio at rail `v` and temperature `t`, in
1/10,000 (R537). -/
def Ageing.ratios (a : Ageing) (g : Nat → Bool) (v t : Nat) : List Nat :=
  (a.loops.filter (fun e => !e.2.bad && g (Config.loopGroup e.1 % 15))).map (fun e =>
    Config.loopRatio e.1 e.2.margin e.2.base a.vddSet v t)

/-- CORE_K: the largest ratio of a plane loop at the rail in force and TJ_PLAN (R537). -/
def Ageing.coreKOf (a : Ageing) : Nat := (a.ratios (fun g => decide (g < 4)) a.vddSet a.tjPlan).foldl Nat.max 0

/-- AGE_K: the largest median of a placement group, at 0.75 V and 70 °C (R537). -/
def Ageing.ageKOf (a : Ageing) : Nat :=
  ((List.range 15).map (fun k => median (a.ratios (fun g => g == k) 750 70))).foldl Nat.max 0

/-- A sensor of kind 0 loop, 1 lane or 2 DDR channel is sampled; an unreadable baseline excludes it (R536, R538). -/
def State.charSample (s : State) (kind i margin base : Nat) (broken : Bool) : State :=
  let l : Lane := { margin := margin, base := base, bad := broken }
  let was : Lane := tget {} (match kind with | 0 => s.age.loops | 1 => s.age.lanes | _ => s.age.ddr) i
  let s1 := s.modAge (fun a =>
    match kind with
    | 0 =>
      let b := { a with loops := tset a.loops i l }
      { b with ageK := b.ageKOf, coreK := b.coreKOf }
    | 1 => { a with lanes := tset a.lanes i l }
    | _ => { a with ddr := tset a.ddr i l })
  if broken ∧ !was.bad then s1.raiseAt 0x37 8 else s1

/-! ## Margin re-planning (R539 to R543) -/

/-- proj(N) of R539, in 1/10,000 ps. -/
def projected (n k : Nat) : Nat := 800 * (n + 1) * k

/-- Step 1: raises of the core rail, each followed by a measurement of CORE_K: setpoint and CORE_K reached. -/
def railSteps (n : Nat) : Nat → Nat → Nat → List Nat → Nat × Nat
  | 0, v, k, _ => (v, k)
  | fuel + 1, v, k, ms =>
    if v < 850 ∧ 46000000 < projected n k then
      railSteps n fuel (v + 5) (ms.headD k) ms.tail
    else (v, k)

/-- Step 1 of a plan. -/
def State.planRail (s : State) (m : PlanMeas) : State :=
  let k0 := m.coreK.headD s.age.coreK
  if !s.age.stepEn.getLsbD 0 then s.modAge (fun a => { a with coreK := k0 })
  else
    let r := railSteps s.core.n 4 s.age.vddSet k0 m.coreK.tail
    let s1 := s.modAge (fun a => { a with vddSet := r.1, coreK := r.2 })
    if s.age.vddSet < 850 ∧ r.1 = 850 then s1.raiseAt 0x37 10 else s1

/-- Step 2 of a plan. -/
def State.planIter (s : State) : State :=
  let n := s.core.n
  let k := s.age.coreK
  if !s.age.stepEn.getLsbD 1 then s
  else if 48000000 < projected n k ∧ 2 < n then s.setN (n - 1)
  else if n < 4 ∧ projected (n + 1) k ≤ 45000000 then s.setN (n + 1)
  else s

/-- Step 3 of a plan. -/
def State.planThrottle (s : State) (m : PlanMeas) : State :=
  let need := (s.core.n == 2 && decide (48000000 < projected 2 s.age.coreK)) || m.hearthSlow
  if !s.age.stepEn.getLsbD 2 then s
  else if need ∧ s.age.throttle < 4 then (s.modAge (fun a => { a with throttle := a.throttle + 1 })).raiseAt 0x37 6
  else if !need ∧ 0 < s.age.throttle then s.modAge (fun a => { a with throttle := a.throttle - 1 })
  else s

/-- A margin below a fraction of its baseline, in tenths. -/
def Lane.below (l : Lane) (tenths : Nat) : Bool := !l.bad && decide (10 * l.margin < tenths * l.base)

/-- Step 4 of a plan: weak lanes are re-adapted in place (R539, R542). -/
def State.planLanes (s : State) (m : PlanMeas) : State :=
  if !s.age.stepEn.getLsbD 3 then s
  else (s.age.lanes.filter (fun e => e.2.below 6)).foldl (fun t e =>
    let l : Lane := { e.2 with margin := (tlook m.readapted e.1).getD e.2.margin }
    let t1 := t.modAge (fun a => { a with lanes := tset a.lanes e.1 l })
    if l.below 5 then t1.raiseAt 0x37 7 else t1) s

/-! ## Budget and projected life (R544 to R546) -/

/-- A fraction u of R544 clamped to at most 1, as numerator and denominator. -/
def usedFraction (num den : Nat) : Nat × Nat := if den ≤ num then (1, 1) else (num, den)
/-- u of a lane or channel: its loss over `tenths` tenths of its baseline. -/
def Lane.used (l : Lane) (tenths : Nat) : Nat × Nat := usedFraction (10 * (l.base - l.margin)) (Nat.max 1 (tenths * l.base))
/-- Fraction comparison. -/
def fracLt (a b : Nat × Nat) : Bool := decide (a.1 * b.2 < b.1 * a.2)
/-- The worst sampled sensor of a table: its u and its number. -/
def worstOf (tenths : Nat) (t : Tab Lane) : (Nat × Nat) × Nat :=
  (t.filter (fun e => !e.2.bad && e.2.base != 0)).foldl (fun a e => if fracLt a.1 (e.2.used tenths) then (e.2.used tenths, e.1) else a)
    ((0, 1), 0)

/-- u of core, SerDes and DDR (R544). -/
def Ageing.fractions (a : Ageing) : List (Nat × Nat) :=
  [usedFraction (a.ageK - 10000) 3000, (worstOf 5 a.lanes).1, (worstOf 4 a.ddr).1]

/-- BUDGET of a fraction, %, to the nearest (R545, log 52). -/
def budgetOf (u : Nat × Nat) : Nat := (200 * (u.2 ^ 4 - u.1 ^ 4) + u.2 ^ 4) / (2 * u.2 ^ 4)

/-- YEARS of a fraction in 0.1 year, from t_eff and the AF of the last 30 days, both in 1/10,000 (R545). -/
def yearsOf (u : Nat × Nat) (tEff af : Nat) : Nat :=
  if 10 * u.1 < u.2 ∨ tEff < 7200000 then 65535
  else
    let den := u.1 ^ 4 * Nat.max 1 af * 8766
    Nat.min 65535 ((20 * tEff * (u.2 ^ 4 - u.1 ^ 4) + den) / (2 * den))

/-- A domain with an unreadable baseline (R538). -/
def Ageing.blind (a : Ageing) : List Bool :=
  [a.loops.any (fun e => e.2.bad), a.lanes.any (fun e => e.2.bad), a.ddr.any (fun e => e.2.bad)]

/-- Budget of domain `i`; 0xFF while one of its baselines is unreadable (R538, R545). -/
def Ageing.domainBudget (a : Ageing) (i : Nat) : Nat := if lget false a.blind i then 0xFF else lget 100 a.budgets i
/-- Limiting domain: the lowest budget. -/
def Ageing.limiting (a : Ageing) : Nat :=
  (List.range 3).foldl (fun b i => if a.domainBudget i < a.domainBudget b then i else b) 0
/-- The module's budget. -/
def Ageing.budget (a : Ageing) : Nat := a.domainBudget a.limiting

/-- DETAIL0 of event 0x810 (R546). -/
def Ageing.warning (a : Ageing) : Nat :=
  let k := match a.limiting with | 0 => 0xFFFF | 1 => (worstOf 5 a.lanes).2 | _ => (worstOf 4 a.ddr).2
  a.budget + a.limiting * 256 + a.years * 2 ^ 16 + k * 2 ^ 32

/-- The warning of R546: at the first fall below 20 %, and at each later fall of 5 points. -/
def State.budgetWarn (s : State) : State :=
  let b := s.age.budget
  if b < 20 ∧ (s.age.warned = 100 ∨ b + 5 ≤ s.age.warned) then
    let s1 := if s.age.warned = 100 then s.raiseAt 0x37 5 else s
    (s1.modAge (fun a => { a with warned := b })).event 0x810 [0] s.age.warning
  else s

/-- The clocks, budgets and projected life after a margin plan at tick `now`. -/
def Ageing.recorded (a : Ageing) (now : Nat) (m : PlanMeas) : Ageing :=
  let t := a.tEff + m.hours * Config.ageFactor m.tjHour
  let us := a.fractions
  let b := { a with tEff := t, budgets := us.map budgetOf, lastPlan := now, planning := false, planHandle := 0 }
  { b with years := yearsOf (lget (0, 1) us b.limiting) t (Config.ageFactor m.tjMean30) }

/-- The margin record a plan leaves in flash. -/
def Ageing.marginRec (a : Ageing) : MarginRec := { vdd := a.vddSet, tEff := a.tEff, stepEn := a.stepEn, tjPlanMin := a.tjPlanMin }

/-- t_eff, budgets and years are updated, and the margin record is written (R539, R540, R545). -/
def State.planRecord (s : State) (m : PlanMeas) : State :=
  let s1 := s.modAge (fun a => a.recorded s.time.ticks m)
  (s1.modNv (fun v => { v with margin := some s1.age.marginRec })).budgetWarn

/-- The steps of a margin plan, and the end of the handle it was asked for with (R539, R540). -/
def State.planAll (s : State) (m : PlanMeas) : State :=
  ((((((s.modAge (fun a => { a with tjPlan := Nat.max a.tjPlanMin m.tjMax30 })).planRail m).planIter).planThrottle m).planLanes
    m).planRecord m).endHandle s.age.planHandle rcOk

/-- A margin plan runs: not in Smoulder mode, and not before the stable interval ends (R539, R543). -/
def State.replan (s : State) (m : PlanMeas) : State :=
  if !s.ember.fwReady ∨ s.ember.smoulder ∨ s.boot.stableWait then s else s.planAll m

/-! ## Ageing commands -/

/-- AGE_GET_STATUS, 0x0D02. -/
def cmdAgeGetStatus : Cmd where
  op := 0x0D02
  lenOk := lenIs 0
  allowed := onlyZero
  body _ _ s :=
    let a := s.age
    ok s (leBytes 2 a.vddSet ++ leBytes 1 s.core.n ++ leBytes 1 a.throttle ++ leBytes 1 a.tjPlan ++
      leBytes 1 (b2n a.planning + 2 * b2n a.lost + 16 * a.stepEn.toNat) ++ leBytes 1 a.budget ++ leBytes 1 a.limiting ++
      leBytes 2 a.years ++ leBytes 2 a.ageK ++ leBytes 2 a.coreK ++ leBytes 1 (a.domainBudget 0) ++ leBytes 1 (a.domainBudget 1) ++ leBytes 1 (a.domainBudget 2) ++
      leBytes 1 (worstOf 4 a.ddr).2 ++ leBytes 2 (worstOf 5 a.lanes).2 ++ leBytes 4 (a.tEff / 10000) ++
      leBytes 4 ((s.time.ticks - a.lastPlan) / 25000000) ++ leBytes 4 0)

/-- AGE_SET_CONFIG, 0x0D03 (R549). -/
def cmdAgeSetConfig : Cmd where
  op := 0x0D03
  lenOk := lenIs 4
  allowed := onlyZero
  body w q s :=
    let v := q.u8 0x20
    let e := q.u8 0x21
    let t := q.u8 0x22
    match firstBad [(0x20, decide (1 ≤ v ∧ v < 8)), (0x21, !bit v 0 || decide (e < 16)),
        (0x22, !bit v 1 || decide (70 ≤ t ∧ t ≤ 105)), (0x23, q.zero 0x23 1)] with
    | some f => bad s f
    | none =>
      if bit v 0 ∧ s.lifecycle = 1 ∧ !(bit e 0 && bit e 1 && bit e 3) then deny s
      else if bit v 2 ∧ s.age.planning then failWith s rcConflict
      else if bit v 2 ∧ !s.handleFree w.caller then failWith s rcBusy
      else
        let s1 := s.modAge (fun a =>
          { a with
            stepEn := if bit v 0 then BitVec.ofNat 4 e else a.stepEn
            tjPlanMin := if bit v 1 then t else a.tjPlanMin })
        if bit v 2 then
          let h := s1.newHandle w.caller 0x0D03
          pend (h.2.modAge (fun a => { a with planning := true, planHandle := h.1 })) h.1
        else ok s1

end Sys2Proof.Machine
end

