-- ==== Sys2Proof/Machine/ResetOps.lean ====
section
/-! DEFINITION. Module resets: their causes and overlap (R453 to R460), what each keeps (R21, R475), the pool's entry into
self-refresh (R279), the hold cells (R478) and the cold reset (R476, R483). -/

namespace Sys2Proof.Machine

open Sys2Proof

/-! ## ALERT_N (R450, R503) -/

/-- Power causes active, as ALERT_CAUSES. -/
def Power.causes (w : Power) : Nat := b2n w.warnActive + 2 * b2n w.efuseLimit + 4 * b2n w.thermWarn + 8 * b2n w.railBand

/-- ALERT_N is asserted: by Ember for the sideband queue, by the supervisor for a power cause, or by its hold cell. -/
def State.alertN (s : State) : Bool :=
  s.boot.phase != .off &&
    (s.lands.alertHeld.getD false || (s.flt.sbAlert && !s.flt.sb.isEmpty) ||
      Nat.land s.pwr.causes s.kept.power.alertMask.toNat != 0)

/-! ## The error pair (R442, R443) -/

/-- Levels of ERR_T and ERR_C: both low without power, both high from reset until the pair is armed and in Smoulder mode, then
healthy or fault as the module map has it. -/
def State.errPair (s : State) : Bool × Bool :=
  if s.boot.phase = .off then (false, false)
  else if !s.flt.armed then (true, true)
  else if s.pairFault then (false, true) else (true, false)

/-! ## What a reset keeps -/

/-- The main rails are off, or still ramping: resets of sources 3 and 4 are absorbed (R457, R458). -/
def State.railsDown (s : State) : Bool :=
  match s.boot.phase with
  | .off => true
  | .railsOff => true
  | .ramp => true
  | _ => false

/-- The start that the last reset causes has passed its supervisor release edge. -/
def Boot.begun (b : Boot) : Bool :=
  match b.phase with
  | .off => false
  | .railsOff => false
  | .ramp => false
  | .held => false
  | .hold => false
  | _ => true

/-- BOOT_CAUSE after a reset: before the start has begun the widest source stays (R454, R458). -/
def Boot.causeWith (b : Boot) (src sub : Nat) : Nat × Nat :=
  if b.begun ∨ src ≤ b.cause then (src, sub) else (b.cause, b.subCause)

/-- Every write a pool port has accepted is written to DRAM (R279). -/
def State.poolFlush (s : State) : State :=
  (List.range 4).foldl (fun t m =>
    ((tget [] t.core.delivered (64 + m)).filter (fun p => p.ptype == 0 && p.d.opc == opcMWr)).foldl (fun u p =>
      u.poolExec m p []) t) s

/-- The digest of the pool layout that retained SRAM keeps at 0x0400 (R23, R40). -/
def PoolSt.digest (p : PoolSt) : BitVec 480 := Config.layoutDigest [p.dpc, p.dimmGib, p.wide, p.spillSods]

/-- Where the canary of channel `c` stands: granule `c` of the Ember reserve, which lies on that channel (R279). -/
def canaryKey (p : PoolSt) (c : Nat) : Nat := poolKey p.reserve (256 * c)

/-- The 64 bytes of a canary. DESIGN CHOICE (log 85): the nonce first, then zeros. -/
def canaryBytes (n : BitVec 32) : Bytes := leBytes 4 n.toNat ++ List.replicate 60 0

/-- A pool in service enters self-refresh with a fresh nonce in every canary and in retained SRAM, where the layout's digest
stands beside it (R475); a lost channel takes no canary (R277, R279). Before the reset that enters RMA the retention record is cleared (R528). -/
def State.poolAsleep (s : State) : State :=
  if !s.pool.present then s
  else
    let r := s.poolFlush.freeNat
    let n := BitVec.ofNat 32 r.1
    (r.2.modPool (fun p =>
      { (List.range 16).foldl (fun u c => u.put (canaryKey u c) (canaryBytes n) (fun _ => true)) p with
        present := false, selfRefresh := true })).modKept (fun k =>
      if s.boot.nextLifecycle = some 2 then { k with nonce := none, layout := none }
      else { k with nonce := some n, layout := some s.pool.digest })

/-- The pool's layout, sod map, flags and contents through a module reset (R279); its counts and reservations go (R21). -/
def PoolSt.kept (p : PoolSt) : PoolSt :=
  { dpc := p.dpc, dimmGib := p.dimmGib, total := p.total, wide := p.wide, spillSods := p.spillSods, reserve := p.reserve,
    sods := p.sods, mem := p.mem, poisoned := p.poisoned, selfRefresh := p.selfRefresh }

/-- The fuses hold the lifecycle state a command has programmed (R526). -/
def Nv.lifeTaken (v : Nv) (n : Option Nat) : Nv :=
  match n with
  | none => v
  | some k => { v with lifeCopies := List.replicate 3 k }

/-- Retained state after a module reset: the ledger's shadow is taken, BKP1 is kept by WARM_RESET alone, and entering RMA
has cleared Ember's part (R446, R475, R528). -/
def State.keptAfter (s : State) (src sub : Nat) : Retained :=
  let k := { s.kept with
    ledgerShadow := s.flt.ledger
    bkp1 := if src = 4 ∧ sub = 1 then s.kept.bkp1 else 0 }
  if s.boot.nextLifecycle = some 2 then { k with emberRam := [], bkpRest := [], upOf := none, nonce := none, layout := none } else k

/-- GPIO lands that carry a PTP function (R50). -/
def State.ptpLands (s : State) : List Nat :=
  ((s.tm.outs.filter (fun e => e.2.enabled)).map (fun e => outLand e.1)) ++
    ((s.tm.ins.filter (fun e => e.2.enabled)).map (fun e => inLand e.1))

/-- PIN_HOLD of BKP0 (R475). -/
def Retained.pinHold (k : Retained) : Bool := k.bkp0.getLsbD 31

/-- The lands through a module reset: at source 3 or 4 in pin-hold mode GPIO and ALERT_N keep direction and level, but
for lands with a PTP function (R50, R477, R478). -/
def State.landsAfter (s : State) (src : Nat) : Lands :=
  let hold := s.kept.pinHold && decide (3 ≤ src)
  { s.lands with
    dynAddr := none, readyRemove := false, cfgReady := false, gpio := []
    gpioHeld := if hold then some (s.lands.gpioHeld.getD (s.lands.gpio.filter (fun e => !s.ptpLands.contains e.1))) else none
    alertHeld := if hold then some (s.lands.alertHeld.getD s.alertN) else none }

/-- S and M bits and the ledger through a module reset: a brownout clears the bits, and the ledger returns from its shadow
(R431, R446). -/
def FaultSt.kept (f : FaultSt) (src : Nat) : FaultSt :=
  if src = 2 then { ledger := f.ledger, ledgerSrc := 1, flashAge := f.flashAge }
  else { s := f.s, m := f.m, ps := f.ps, pm := f.pm, ledger := f.ledger, ledgerSrc := 1, flashAge := f.flashAge }

/-- Test results through a module reset: a brownout clears them, and every block is in service again (BIST_GET). -/
def bistKept (t : Tab Bist) (src : Nat) : Tab Bist :=
  if src = 2 then [] else tmap t (fun _ b => { b with st := 0, boot := false, handle := 0, soft := 0 })

/-- Input stage and supervisor through a module reset: the warning is armed afresh; a brownout has the rails off for at
least 100 ms (R493, R494). -/
def Power.after (w : Power) (src : Nat) : Power :=
  let a := { w with warnArmed := false, stopping := false, transmitIdle := false }
  if src = 2 then
    { a with railsUp := false, softStart := false, railRamp := false, railBand := false, efuseLimit := false, holdoff := true }
  else a

/-- Ember through a module reset: pages at their W reset values, every command and handle gone (R70, R80). -/
def Ember.after (e : Ember) (src : Nat) : Ember :=
  { pages := if src = 2 then [] else tmap e.pages (fun _ g => g.wReset), nextHandle := e.nextHandle }

/-- A module reset of source 2, 3 or 4 with its sub-cause (R453, R458, R460): everything takes its reset value but what
R21, R279, R431 and R475 keep. Sources 3 and 4 are absorbed while the rails are off and while an orderly stop runs
(R497). -/
def State.moduleReset (s : State) (src sub : Nat) : State :=
  if s.boot.phase = .off ∨ (3 ≤ src ∧ (s.railsDown ∨ s.pwr.stopping)) then s
  else
    let a := s.closeXfer.poolAsleep
    let c := s.boot.causeWith src sub
    let pulse := src == 4 || (src == 3 && s.boot.srcPulse)
    { State.reset with
      lands := s.landsAfter src
      boot := { phase := if src = 2 then .railsOff else if pulse then .held else .hold
                cause := c.1, subCause := c.2, srcPulse := pulse }
      kept := a.keptAfter src sub
      nv := a.nv.lifeTaken s.boot.nextLifecycle
      ember := s.ember.after src
      pool := a.pool.kept
      flt := a.flt.kept src
      iso := { debugWritten := s.iso.debugWritten }
      pwr := s.pwr.after src
      cnt := {}
      bist := bistKept s.bist src
      free := a.free
      out := a.out
      pending := s.pending }

/-! ## Cold reset (R453 source 1, R476) -/

/-- What the world drives on the lands through a cold reset: SB_ADDR is read afresh, and POWER_EN and THERM_TRIP_N start
anew (R555, R489). -/
def Lands.cold (l : Lands) : Lands :=
  { l with sbAddr := l.sbAddrIn, dynAddr := none, powerEn := false, readyRemove := false, cfgReady := false, thermTrip := false
           gpio := [], gpioHeld := none, alertHeld := none }

/-- The auxiliary rail leaves regulation or has risen again: nothing is kept but flash and fuses (R476, R483). The ledger
is restored from flash (R446). -/
def State.coldReset (s : State) (phase : Phase) : State :=
  let a := s.closeXfer
  { State.reset with
    lands := s.lands.cold
    boot := { phase := phase }
    nv := a.nv.lifeTaken s.boot.nextLifecycle
    flt := { ledger := a.nv.ledger.getD [], ledgerSrc := if a.nv.ledger.isNone then 2 else 0 }
    free := s.free
    out := s.out
    pending := s.pending }

/-! ## Sources 3 and 4 -/

/-- MODULE_RESET_N was low for `ns`: 1 µs is always taken, below 100 ns never, and between the two as the part has it
(R455). -/
def State.moduleResetPulse (s : State) (ns : Nat) : State :=
  if pulseTaken ns then s.moduleReset 3 0 else s

/-- The 10 µs of a source 4 reset end: the supervisor hold begins (R455, R465). -/
def State.pulseEnd (s : State) : State :=
  if !s.boot.srcPulse then s
  else s.modBoot (fun b => { b with srcPulse := false, phase := if b.phase = .held then .hold else b.phase })

/-- The Ember watchdog expires: fault source 3 of block 0x32, and a reset of source 4 whatever the reaction table holds
(R456). -/
def State.watchdogOver (s : State) : State :=
  if s.boot.watchdog then (s.raiseAt 0x32 3).moduleReset 4 0 else s

/-- The delay of a scheduled warm reset ends (R80, R85, R526). -/
def State.warmDelayOver (s : State) : State :=
  match s.boot.pendingReset with
  | none => s
  | some sub => s.moduleReset 4 sub

/-- The start timer reaches 30 s; it is paused while a download waits for an image (R471). -/
def State.startTimerOver (s : State) : State :=
  if s.boot.startTimer ∧ s.boot.phase ≠ .hostDownload ∧ s.boot.phase ≠ .peerDownload then s.moduleReset 4 4 else s

end Sys2Proof.Machine
end

