-- ==== Sys2Proof/Machine/Boot.lean ====
section
/-! DEFINITION. The start sequence: Kindling, option loading, image fetch and firmware start (R459 to R474), the retention
check (R280, R285, R421) and the hold-up check (R498, R499). -/

namespace Sys2Proof.Machine

open Sys2Proof

/-! ## Option records (R92, R459, R463, R467, R473) -/

/-- Lanes of port `i` of a station in configuration `c`: 0 where the core port carries no physical port (R25). -/
def stationWidth (c i : Nat) : Nat :=
  match c, i with
  | 1, 0 => 8
  | 1, 2 => 8
  | 1, _ => 0
  | 2, _ => 4
  | 3, 0 => 8
  | 3, 1 => 0
  | 3, _ => 4
  | _, 0 => 16
  | _, _ => 0

/-- Settings of port `n`, absent where its station's configuration carries no port there, and no wider than the lanes it has there
(R25); S0P0 without a role is the upstream port of partition 0 (R92). -/
def OptionSet.port (o : OptionSet) (n : Nat) : PortOpt :=
  let p0 : PortOpt := tget {} o.ports n
  let m := stationWidth (tget 0 o.stations (n / 4)) (n % 4)
  let p := if m = 0 then { p0 with role := .absent } else { p0 with width := Nat.min p0.width m }
  if n = 0 ∧ p.role = .absent then { p with role := .upstream, part := 0 } else p

/-- Upstream ports of partition `p`. -/
def OptionSet.upsOf (o : OptionSet) (p : Nat) : List Nat :=
  (List.range 40).filter (fun n => (o.port n).role == .upstream && (o.port n).part == p)

/-- Settings of partition `p`. -/
def OptionSet.partOf (o : OptionSet) (p : Nat) : PartOpt := tget {} o.parts p

/-- The checks Kindling makes of a verified set (R92). -/
def OptionSet.valid (o : OptionSet) : Bool :=
  decide ((List.range 40).countP (fun n => (o.port n).role == .upstream) ≤ 32) &&
    (List.range 32).all (fun p => decide ((o.upsOf p).length ≤ 1)) &&
    (List.range 32).all (fun p => p == 0 || (o.partOf p).vdsps == 0 || !(o.upsOf p).isEmpty) &&
    (o.port 0).role != .downstream

/-- The set Kindling applies, and whether it is that of flash A (R467). -/
def Nv.optionSet (v : Nv) : OptionSet × Bool × Bool :=
  let use (o : Option OptionSet) : Option OptionSet := o.filter OptionSet.valid
  match use v.optA, use v.optB with
  | some a, _ => (a, true, true)
  | none, some b => (b, true, false)
  | none, none => ({}, false, false)

/-- What a start in Smoulder mode applies: the module ID and the fixed BAR addresses of S0P0, which is the upstream port
of partition 0 at ×1 (R473). -/
def OptionSet.smoulder (o : OptionSet) : OptionSet :=
  let b := o.partOf (o.port 0).part
  { ports := [(0, { role := .upstream, part := 0, width := 1 })]
    parts := [(0, { bar0 := b.bar0, bar2 := b.bar2, rom := b.rom })]
    moduleId := o.moduleId }

/-- CLK_MODE in force at station `n` (R89, R463). -/
def Boot.clkMode (b : Boot) (n : Nat) : Nat := (tlook b.opt.clkMode n).getD b.straps.clkMode

/-- A station runs from its Sn_REFCLK: mode 0b00, and the reserved 0b11 treated as it (R89). -/
def Boot.commonClock (b : Boot) (n : Nat) : Bool := b.clkMode n == 0 || b.clkMode n == 3

/-- Port `n` as option loading sets it up: CLKREQ_N of an upstream port is driven low (R91, R92). -/
def portLoaded (o : OptionSet) (one : Bool) (n : Nat) : Port :=
  let p := o.port n
  { role := p.role, part := p.part, maxWidth := if one ∧ n = 0 then 1 else p.width, reversed := p.reversed, clkreq := p.role == .upstream }

/-- Virtual switch of partition `p` as option loading sets it up (R57, R92, R106, R458). -/
def switchLoaded (o : OptionSet) (low : Tab Bool) (p : Nat) : VSwitch :=
  let g := o.partOf p
  let up := (o.upsOf p).head?
  { up := up, vdspCount := g.vdsps, bar0 := g.bar0, bar2 := g.bar2, rom := g.rom
    inReset := match up with | some n => tget false low n | none => false }

/-- Link `l` as option loading sets it up (R226). -/
def linkLoaded (o : OptionSet) (l : Nat) : Link :=
  let k : LinkOpt := tget {} o.links l
  { enabled := k.enable, maxWidth := k.maxWidth, maxRate := k.maxRate, vcMap := k.vcMap, vcMapUp := k.vcMap,
    shCap := k.shCap, reqWidth := k.maxWidth, reqRate := k.maxRate }

/-- PWR_SET_CONFIG settings after the commit: fields the records set are written, the others stay (R505). -/
def PowerCfg.loaded (c : PowerCfg) (o : OptionSet) : PowerCfg :=
  { sagAction := o.sagAction.getD c.sagAction, vWarn := o.vWarn.getD c.vWarn
    alertMask := o.alertMask.getD c.alertMask, thermWarn := o.thermWarn.getD c.thermWarn }

/-- BKP0 with bits `hi` to `lo` set to `v` (R475). -/
def Retained.putBoot (k : Retained) (hi lo v : Nat) : Retained :=
  { k with bkp0 := BitVec.ofNat 32 (setBits k.bkp0.toNat hi lo v) }

/-- Ageing state from the margin record in flash (R540). -/
def ageLoaded (m : Option MarginRec) : Ageing :=
  match m with
  | some r => { vddSet := r.vdd, tEff := r.tEff, stepEn := r.stepEn, tjPlanMin := r.tjPlanMin, tjPlan := r.tjPlanMin }
  | none => { lost := true }

/-- The lands that option loading configures, over those a hold cell still keeps (R477, R478). -/
def gpioLoaded (held : Option (List (Nat × Gpio))) (conf : Tab Gpio) : Tab Gpio :=
  conf.foldl (fun t e => tset t e.1 e.2) (held.getD [])

/-- An enabled link begins training, without beacon while its clock is absent (R217, R562). -/
def State.linkBoot (s : State) (l : Nat) : State := if (s.link l).enabled then s.toDetect l else s

/-- The commands whose settings option records can set besides those with a record of their own (R193, R357, R389, R523). -/
def settingCommands : List Cmd :=
  [cmdCoreSetConfig, cmdNetPortSet, cmdVnicCreate, cmdVnicSet, cmdVnicQpSet, cmdNetEmSet, cmdNetAclSet, cmdTmShaperSet,
   cmdTmSchedSet, cmdTmMeterSet, cmdTmWredSet, cmdTmGateSet, cmdPtpOutSet, cmdPtpInSet, cmdCntSet, cmdCntSweepSet]

/-- One such setting takes effect: what the command does for partition 0, without a handle (log 58). -/
def State.applySetting (s : State) (e : Nat × Bytes) : State :=
  match settingCommands.find? (fun k => k.op == e.1) with
  | none => s
  | some k =>
    let a := k.body {} { payload := e.2, length := e.2.length } s
    if a.status ≤ rcPending then { a.s with ember := s.ember } else s

/-- What option loading sets in every block, with CFG_READY risen (R459, R463, R466). In Smoulder mode BKP0 and the power
settings stay (R473). -/
def State.loadOptions (s : State) (o : OptionSet) (used smoulder : Bool) : State :=
  let src := o.bootSrc.getD s.boot.straps.bootSrc
  let one := smoulder || src == 2
  let b := { s.boot with opt := o, usedOptions := used, moduleId := o.moduleId.getD s.boot.straps.slotId
                         straps := { s.boot.straps with bootSrc := src } }
  let s1 : State :=
    { s with
      boot := { b with
        fabricHeld := !s.lands.frefOk, etherHeld := !s.lands.erefOk
        stationHeld := s.lands.srefLost.filter b.commonClock }
      ports := (List.range 40).map (fun n => (n, portLoaded o one n))
      vsw := (List.range 32).map (fun p => (p, switchLoaded o s.lands.perstLow p))
      links := (List.range 16).map (fun l => (l, linkLoaded o l))
      fab := { failoverMs := o.failoverMs.getD 10, revertMs := o.revertMs.getD 1000, extractS := o.extractS.getD 60 }
      net := { modes := o.modes, lports := (o.lports.filter (fun e => e.2)).map (fun e => (e.1, { enabled := true })) }
      tm := { slotPower := ((List.range 40).filterMap (fun n => (o.port n).power)).filter (fun g => !(27 ≤ g && g ≤ 30)) }
      iso := { s.iso with parts := o.parts.map (fun e =>
        (e.1, { fabricAdmin := e.2.fabricAdmin, perfUser := e.2.perfUser, strictSlots := e.2.strictSlots })) }
      cnt := { s.cnt with periodUs := o.periodUs.getD 1000 }
      age := ageLoaded s.nv.margin
      time := { s.time with ptpExternal := o.ptpExternal, ptpLocked := o.ptpExternal && s.lands.ptpClkOk }
      lands := { s.lands with cfgReady := true, gpio := gpioLoaded s.lands.gpioHeld o.gpio, gpioHeld := none, alertHeld := none } }
  let s2 := (s1.modFlt (fun f => { f with react := o.react })).modKept (fun k =>
    if smoulder then k
    else { ((k.putBoot 31 31 (b2n o.pinHold)).putBoot 29 27 o.failedLimit) with power := k.power.loaded o })
  s2.modPwr (fun w => { w with sagForced := w.sagForced && (smoulder || o.sagAction.isNone) })

/-- A land that can carry a PTP function carries it now (R50). -/
def State.ptpLand (s : State) (g : Nat) : Bool :=
  [0, 1, 2].any (fun k => ((s.ptpOut k).enabled && outLand k == g) || ((s.ptpIn k).enabled && inLand k == g))

/-- GPIO27 to GPIO30 become slot power enables where the set assigns them and they carry no PTP function (R114). -/
def State.assignPower (s : State) (o : OptionSet) : State :=
  let ls := ((List.range 40).filterMap (fun n => (o.port n).power)).filter (fun g => 27 ≤ g && g ≤ 30 && !s.ptpLand g)
  s.modTm (fun t => { t with slotPower := t.slotPower ++ ls })

/-- The settings of a set take effect: those of its records, enabled links, commands' settings and slot power (R459). -/
def State.optionsIn (s : State) (o : OptionSet) (used smoulder : Bool) : State :=
  (o.settings.foldl State.applySetting ((List.range 16).foldl (fun t l => t.linkBoot l) (s.loadOptions o used smoulder))).assignPower o

/-- Strict partition mode is laid where the set enables it (R429). -/
def State.strictLaid (s : State) (o : OptionSet) : State := if o.strict then s.layStrict.getD s else s

/-- The commit that ends option loading: every setting takes effect in one step (R459, R466). -/
def State.commitOptions (s : State) (o0 : OptionSet) (used smoulder : Bool) : State :=
  let o := if smoulder then o0.smoulder else o0
  (s.optionsIn o used smoulder).strictLaid o

/-! ## Failed starts (R471, R473) -/

/-- PENDING of BKP0. -/
def Retained.pendingStart (k : Retained) : Bool := k.bkp0.getLsbD 30

/-- The start before this one failed: it was not stable, or the watchdog or the start timer ended it (R471). A start in
Smoulder mode is never counted (R473). -/
def State.startFailed (s : State) : Bool :=
  let timed := s.boot.cause == 4 && (s.boot.subCause == 0 || s.boot.subCause == 4)
  s.kept.pendingStart || (timed && decide (s.kept.failedStarts < s.kept.failedLimit))

/-- Step 3 counts failed starts, and decides on Smoulder mode: the state, and whether the start goes on in it. -/
def State.countStart (s : State) : State × Bool :=
  let bad := s.startFailed
  let n := Nat.min 7 (s.kept.failedStarts + b2n bad)
  let smoulder := decide (s.kept.failedLimit ≤ n)
  let s1 := s.modKept (fun k => ((k.putBoot 26 24 n).putBoot 30 30 (b2n !smoulder)).putBoot 23 16 s.bootCause)
  (if bad then s1.raiseAt 0x3A 4 else s1, smoulder)

/-! ## Hold-up (R498, R499) -/

/-- V_W² − V_R² for a V_WARN, in mV². -/
def holdSpan (vWarn : Nat) : Nat := (vWarn - 300) ^ 2 - 33400 ^ 2

/-- A measured C_HOLD in µF, less 10 %, meets R498. -/
def holdEnough (vWarn chold : Nat) : Bool := decide (10 * 502000000000 ≤ 9 * chold * holdSpan vWarn)

/-- C_HOLD that R498 requires, µF, to the nearest (log 52). -/
def holdNeed (vWarn : Nat) : Nat := (502000000000 + holdSpan vWarn / 2) / Nat.max 1 (holdSpan vWarn)

/-- The check of each firmware start: a failed one sets SAG_ACTION to 1 (R499). -/
def State.holdCheck (s : State) : State :=
  if s.kept.power.sagAction ≠ 0 ∨ holdEnough s.kept.power.vWarn s.pwr.choldUf then s
  else
    ((s.modKept (fun k => { k with power := { k.power with sagAction := 1 } })).modPwr (fun w =>
      { w with sagForced := true })).raiseAt 0x36 11

/-! ## The pool at a start (R259, R262, R279 to R285, R421) -/

/-- The population of a start: none when it is refused, else RDIMMs per channel and capacity, 0 when no RDIMM is fitted
(R258, R259). The part organisation of x4 devices is 4. -/
def population (e : BootEnv) : Option (Nat × Nat) :=
  let fitted := e.dimms.filter (fun d => d.1 != 0)
  match fitted with
  | [] => some (0, 0)
  | d :: _ =>
    if fitted.length = 16 ∧ fitted.all (fun x => x == d) ∧ (d.1 = 1 ∨ d.1 = 2) ∧ [32, 64, 96, 128, 256].contains d.2.1 ∧ d.2.2 = 4 then
      some (d.1, d.2.1)
    else none

/-- Channels whose canary does not agree with the retained nonce (R280). -/
def State.lostCanaries (s : State) (e : BootEnv) : List Nat :=
  (List.range 16).filter (fun c =>
    e.lostCanaries.contains c || e.badChannels.contains c ||
      (match s.kept.nonce with
       | none => true
       | some n => mread 0 s.pool.mem (canaryKey s.pool c) 64 != canaryBytes n))

/-- The pool is retained: every sod keeps its state but those in ZEROING or SCRUBBING, which restart (R280). -/
def State.poolRetained (s : State) : State :=
  State.initPool 4 (s.modPool (fun p =>
    { p with
      present := true, selfRefresh := false, retention := 1
      sods := tmap p.sods (fun _ d =>
        if d.st = .zeroing ∨ d.st = .scrubbing then { d with st := .zeroing, scrubbed := false, fenced := false, handle := 0 }
        else { d with fenced := false, handle := 0 }) }))

/-- SPILL_SODS of a fresh layout: kept value, option record or 16 (R48, R285). -/
def State.spillChosen (s : State) (total : Nat) : Nat × Bool :=
  let good (n : Nat) : Bool := layoutOk total (total / 4 * 4) n
  let rest := (s.boot.opt.spillSods.filter good).getD 16
  match s.nv.spillSods with
  | some n => if good n then (n, true) else (rest, false)
  | none => (rest, true)

/-- WIDE_SODS of a fresh layout: kept value, option record or T (R262, R285). -/
def State.wideChosen (s : State) (total spill : Nat) : Nat × Bool :=
  let rest := (s.boot.opt.wideSods.filter (fun n => layoutOk total n spill)).getD total
  match s.nv.wideSods with
  | some n => if layoutOk total n spill then (n, true) else (rest, false)
  | none => (rest, true)

/-- The pool is configured afresh and its initialization begins (R262, R281, R285). -/
def State.poolFresh (s : State) (dpc gib retention : Nat) : State :=
  let total := 16 * dpc * gib
  let sp := s.spillChosen total
  let wd := s.wideChosen total sp.1
  let s1 := if wd.2 then s else s.poolEvent 7 0
  let s2 := if sp.2 then s1 else s1.poolEvent 7 1
  (s2.modPool (fun p =>
    { p with present := true, selfRefresh := false, retention := retention, dpc := dpc, dimmGib := gib, total := total, mem := [] })).layoutPool
      wd.1 sp.1 0

/-- A canary disagrees: source 6 in the block of every pool port with such a channel, and an event (R280). -/
def State.poolLost (s : State) (cs : List Nat) : State :=
  ((List.range 4).foldl (fun t m => if cs.any (fun c => c / 4 == m) then t.raiseAt (0x26 + m) 6 else t) s).poolEvent 6 (cs.headD 0)

/-- Upstream port of each partition that has one. -/
def State.upPorts (s : State) : List (Nat × Nat) := (List.range 32).filterMap (fun p => (s.vs p).up.map (fun n => (p, n)))

/-- The sods of partitions whose number now names another upstream port go to ZEROING (R421). -/
def State.ownersCheck (s : State) : State :=
  match s.kept.upOf with
  | none => s
  | some old =>
    s.upPorts.foldl (fun t e =>
      let mine := (t.pool.sods.filter (fun d => d.2.st == .assigned && (d.2.kind == 1 || d.2.kind == 2) && d.2.target == e.1)).map
        (fun d => d.1)
      if tlook old e.1 = some e.2 then t
      else match mine with
        | [] => t
        | n :: _ => (mine.foldl (fun u k => u.zeroSod k false 0) t).poolEvent 3 n) s

/-- Step 6 brings the pool up: retained, lost, or after a cold start (R280, R281). Channels that fail training are lost
(R277). -/
def State.poolStart (s : State) : State :=
  let e := s.boot.env
  let s1 := match population e with
    | none => (((s.modPool (fun _ => {})).modKept (fun k => { k with nonce := none, layout := none })).raiseAt 0x26 4).poolEvent 1 0xFFFF
    | some (0, _) => s.modPool (fun _ => {})
    | some (dpc, gib) =>
      let cs := s.lostCanaries e
      if !s.pool.selfRefresh then s.poolFresh dpc gib 0
      else if cs.isEmpty ∧ s.pool.dpc = dpc ∧ s.pool.dimmGib = gib then s.poolRetained.ownersCheck
      else (s.poolLost cs).poolFresh dpc gib 2
  let s2 := e.badChannels.foldl (fun t c => t.channelLost c) s1
  s2.modKept (fun k => { k with upOf := if s2.pool.present then some s2.upPorts else none })

/-! ## Firmware start (R465 step 6, R504, R535) -/

/-- The sources of block 0x36 latched through a brownout are raised (R504). -/
def State.raiseLatched (s : State) : State :=
  (s.kept.latched.foldl (fun t i => t.raiseAt 0x36 i) s).modKept (fun k => { k with latched := [] })

/-- Ember brings up every downstream port that the option records give (R115). -/
def State.portsStart (s : State) : State :=
  (List.range 40).foldl (fun t n => if (t.port n).role = .downstream ∧ t.portPresent n then t.bringUp n else t) s

/-- FW_READY first reads 1: the mailbox service runs, the error pair is armed outside Smoulder mode, and the stable
interval begins (R443, R465, R471, R473). Ember then brings up the downstream ports (R115). -/
def State.firmwareReady (s : State) : State :=
  let sm := s.ember.smoulder
  let s1 := ((s.modBoot (fun b => { b with phase := .ready, startTimer := false, stableWait := !sm })).modEmber (fun e =>
    { e with fwReady := true })).modFlt (fun f => { f with armed := !sm })
  let s2 := s1.raiseLatched.romCopyCheck
  if sm then s2 else s2.portsStart

/-- Boot BIST has failed a block that the start cannot do without (R535). -/
def bistFatal (fails : List Nat) : Bool := fails.any (fun b => b == 0x32 || b == 0x33 || b == 0x34 || b == 0x38)

/-- Ember firmware starts from image source `src`: the watchdog is armed, the pool comes up outside Smoulder mode, boot
BIST runs where enabled, and the hold-up rule is checked (R456, R465, R473, R475, R499, R535). -/
def State.firmwareStart (s : State) (src : Nat) (version : BitVec 32) (svn : Nat) : State :=
  let s1 := (s.modBoot (fun b =>
    { b with watchdog := true, fwSource := src, fwVersion := version, fwSvn := svn, peerWait := false
             romMachines := (List.range 4).map (fun i => Config.romMachine i % 65536) })).modKept (fun k => k.putBoot 15 14 src)
  let bist := s1.boot.opt.bootBist && !s1.ember.smoulder
  let fails := s1.boot.env.bistFails
  let s2 := if s1.ember.smoulder then s1 else s1.poolStart
  let s3 := if bist then s2.bootBist fails else s2
  let s4 := s3.holdCheck
  if bist ∧ bistFatal fails then s4.modBoot (fun b => { b with phase := .stuck }) else s4.firmwareReady

/-! ## Image fetch (R468 to R470) -/

/-- Kindling waits for a download on S0P0 at ×1 (R469). -/
def State.enterDownload (s : State) : State :=
  (s.modBoot (fun b => { b with phase := .hostDownload })).modPort 0 (fun p => { p with maxWidth := 1 })

/-- First slot of the BOOT_SRC order. -/
def Boot.firstSlot (b : Boot) : Nat := if b.straps.bootSrc = 1 then 1 else 0

/-- Order of slots: the activation record or the first of BOOT_SRC, swapped when FAILED_STARTS is odd (R468, R85). -/
def State.slotOrder (s : State) : List Nat :=
  let first := if s.boot.straps.bootSrc ≤ 1 then s.nv.activation.getD s.boot.firstSlot else s.boot.firstSlot
  let a := if s.kept.failedStarts % 2 = 1 then 1 - first else first
  [a, 1 - a]

/-- The first VALID image that verifies is started; with none, host download (R468). -/
def State.startFrom : List Nat → State → State
  | [], s => s.enterDownload
  | n :: r, s =>
    let o := s.nv.slot n
    if o.st ≠ .valid then State.startFrom r s
    else if o.good ∧ s.nv.svnFuse ≤ o.svn then s.firmwareStart n o.version o.svn
    else State.startFrom r (s.raiseAt 0x3A 1)

/-- Step 5: the image source that BOOT_SRC selects; in Smoulder mode the slots of R468 (R462, R473). -/
def State.imageFetch (s : State) : State :=
  if s.boot.straps.bootSrc ≤ 1 ∨ s.ember.smoulder then State.startFrom s.slotOrder s
  else if s.boot.straps.bootSrc = 2 then s.enterDownload
  else s.modBoot (fun b => { b with phase := .peerDownload })

/-- In fabric peer download, the running image of the next peer authenticated on a link is asked for (R470). -/
def State.askImage (s : State) : State :=
  if s.boot.phase ≠ .peerDownload ∨ s.boot.peerWait then s
  else match (List.range 16).find? (fun l =>
      (s.link l).st == .up && (s.link l).spdmOk && !s.boot.asked.contains (s.link l).peerModule) with
    | none => s
    | some l =>
      let m := (s.link l).peerModule
      (s.modBoot (fun b => { b with peerWait := true, asked := b.asked ++ [m] })).control m .imageReq

/-- A downloaded image is verified under R83. -/
def State.imageStatus (s : State) (image : Bytes) : Nat := (s.nv.verdict image true).1

/-- The firmware starts from a downloaded image. -/
def State.startDownloaded (s : State) (src : Nat) (image : Bytes) : State :=
  (s.modBoot (fun b => { b with dlImage := image })).firmwareStart src (Config.imageVersion image)
    (Config.imageSvn image % 65536)

/-- The host's image has been read and verified, or has not (R469). -/
def State.downloadDone (s : State) (image : Bytes) (good : Bool) : State :=
  if s.boot.phase ≠ .hostDownload ∨ !s.boot.dlBusy then s
  else
    let st := if good then s.imageStatus image else rcHwFault
    let s1 := s.downloadEnd st
    if st = rcOk then s1.startDownloaded 2 image else s1

/-- A peer's image arrives: it is started when it verifies, else the next peer is asked (R470). -/
def State.peerImageIn (s : State) (m : Nat) (image : Bytes) : State :=
  if s.boot.phase ≠ .peerDownload ∨ !s.boot.peerWait ∨ s.boot.asked.getLast? ≠ some m then s
  else if s.imageStatus image = rcOk then s.startDownloaded 3 image
  else s.modBoot (fun b => { b with peerWait := false })

/-! ## The supervisor release edge (R460, R462, R465) -/

/-- Time begins to count and straps are sampled as the supervisor lets go (R460, R572). -/
def State.released (s : State) (env : BootEnv) : State :=
  { s with
    time := { s.time with counting := true, ticks := 0 }
    boot := { s.boot with straps := s.lands.straps, env := env } }

/-- Step 3 of the start sequence up to option loading: failed starts are counted, the lifecycle's straps are judged, and the fast march
repairs macros (R464, R471, R534). -/
def State.startChecks (s : State) (env : BootEnv) : State :=
  let c := s.countStart
  let s1 := (c.1.modEmber (fun e => { e with smoulder := c.2 })).modBoot (fun b => { b with startTimer := !c.2 })
  env.newRepairs.foldl State.marchRepair (if s1.boot.straps.testMode ∧ s1.lifecycle = 1 then s1.raiseAt 0x37 0 else s1)

/-- Option loading: the set in use, or the built-in one where its records fail, is committed (R459, R466). -/
def State.optionStep (s : State) : State :=
  let o := s.nv.optionSet
  let s1 := (if o.2.2 then s else s.raiseAt 0x3A 3).commitOptions o.1 o.2.1 s.ember.smoulder
  if (List.range 10).any (fun n => s1.boot.clkMode n == 3) then s1.raiseAt 0x3A 0 else s1

/-- Step 2 ends: straps are sampled, time begins to count, and Kindling runs the start sequence: failed starts, option
loading and image fetch (R460 to R473). -/
def State.supervisorRelease (s : State) (env : BootEnv) : State :=
  if s.boot.phase ≠ .hold then s else ((s.released env).startChecks env).optionStep.imageFetch

/-- The start has been stable for 60 s: PENDING and FAILED_STARTS are cleared, and the activation record follows the slot
that runs (R471, R472). -/
def State.stableOver (s : State) : State :=
  if !s.boot.stableWait then s
  else
    let s1 := (s.modBoot (fun b => { b with stableWait := false })).modKept (fun k => (k.putBoot 30 30 0).putBoot 26 24 0)
    match s.runningSlot with
    | none => s1
    | some n => if s.nv.activation.getD s.boot.firstSlot = n then s1 else s1.modNv (fun v => { v with activation := some n })

end Sys2Proof.Machine
end

