-- ==== Sys2Proof/Machine/Power.lean ====
section
/-! DEFINITION. The input stage and the power supervisor: insertion and extraction (R484 to R491), supply sag and the orderly
stop (R492 to R497), telemetry (R501, R502) and the power commands (R505, R506). -/

namespace Sys2Proof.Machine

open Sys2Proof

/-! ## Rails (R484, R485, R489, R493) -/

/-- Step 1 of the start sequence begins once every condition of R493 holds and the eFuse may conduct (R484). -/
def State.tryStart (s : State) : State :=
  let w := s.pwr
  if s.boot.phase = .railsOff ∧ s.lands.powerEn ∧ !w.belowReset ∧ !w.ovLock ∧ !s.lands.thermTrip ∧ !w.holdoff ∧ !w.needClear ∧
      !w.efuseRetry ∧ w.efuseFails < 3 then
    (s.modPwr (fun w => { w with efuseOn := true, softStart := true })).modBoot (fun b => { b with phase := .ramp })
  else s

/-- VHOLD is within 1 V of VIN: C_HOLD is measured, and the bus converter and rails ramp (R485, R489). -/
def State.softStartOver (s : State) (chold : Nat) : State :=
  if s.boot.phase = .ramp ∧ s.pwr.softStart then
    s.modPwr (fun w => { w with softStart := false, railRamp := true, choldUf := chold % 65536 })
  else s

/-- The main rails are good: the supervisor hold begins (R465). -/
def State.railsGood (s : State) : State :=
  if s.boot.phase = .ramp ∧ s.pwr.railRamp then
    (s.modPwr (fun w => { w with railRamp := false, railsUp := true })).modBoot (fun b => { b with phase := .hold })
  else s

/-- A fault source of block 0x36 is latched in the always-on domain (R504). -/
def State.latch (s : State) (i : Nat) : State :=
  s.modKept (fun k => { k with latched := if k.latched.contains i then k.latched else k.latched ++ [i] })

/-! ## The orderly stop (R490, R494 to R497) -/

/-- DETAIL0 of event 0x80C. -/
def sagDetail (vhold : Nat) (entered stop en : Bool) : Nat :=
  vhold % 65536 + b2n entered * 2 ^ 16 + b2n stop * 2 ^ 17 + b2n en * 2 ^ 18

/-- Event 0x80C to every partition, where Ember runs to write it. -/
def State.sagEvent (s : State) (vhold : Nat) (entered stop en : Bool) : State :=
  if s.ember.fwReady then s.event 0x80C s.allParts (sagDetail vhold entered stop en) else s

/-- The ledger is copied to its shadow (R446, R496 step 4). -/
def State.shadowCopy (s : State) : State := s.modKept (fun k => { k with ledgerShadow := s.flt.ledger })

/-- Steps 2 to 6 of the orderly stop: event, load shed, shadow copy, pool to self-refresh, Ember halts. `en` when POWER_EN
has been deasserted (R490, R496). The brownout of step 7 follows at the next idle tick (log 53). -/
def State.orderlyStop (s : State) (vhold : Nat) (en : Bool) : State :=
  let s1 := ((s.sagEvent vhold true true en).shadowCopy).poolAsleep
  let s2 := (s1.modKept (fun k => { k with stops := sat 65535 k.stops 1 })).modPwr (fun w =>
    { w with stopping := true, stopPowerEn := en, transmitIdle := true, needClear := w.needClear || !en
             efuseOn := w.efuseOn && !en })
  let s3 := (s2.modCore (fun c => { c with planes := (List.range 4).map (fun k =>
      (k, { (tget {} c.planes k : PlaneSt) with inService := false, leaving := false })) })).modHearth (fun h =>
    { h with clusters := tmap h.clusters (fun _ c => { c with cores := tmap c.cores (fun _ k => { k with running := false }) }) })
  let s4 := (s3.modEmber (fun e => { e with fwReady := false })).modBoot (fun b => { b with phase := .halted })
  if en then (if s.lands.readyRemove then s4 else s4.latch 2) else s4.latch 1

/-- A stop under way ends with a brownout, source 2 and sub-cause 0 (R496 step 7). -/
def State.stopEnds (s : State) : State := if s.pwr.stopping then s.moduleReset 2 0 else s

/-- An armed warning fires as VHOLD, in 10 mV, crosses V_WARN; a second crossing during a stop is ignored (R494, R495,
R497). -/
def State.sagWarning (s : State) (vhold : Nat) : State :=
  if s.boot.phase = .off ∨ !s.pwr.warnArmed ∨ s.pwr.warnActive ∨ s.pwr.stopping then s
  else
    let s1 := (s.modPwr (fun w => { w with warnActive := true })).modKept (fun k => { k with sags := sat 65535 k.sags 1 })
    if s.railsDown then s1
    else
      let s2 := s1.raiseAt 0x36 0
      if s.kept.power.sagAction = 0 then s2.orderlyStop vhold false
      else (s2.sagEvent vhold true false false).shadowCopy

/-- VHOLD reaches the warning clear level: the warning is armed, an active one clears, and a restart after a sag may go on
(R493, R494). -/
def State.warningClear (s : State) (vhold : Nat) : State :=
  if s.boot.phase = .off then s
  else
    let s1 := s.modPwr (fun w => { w with warnArmed := true, warnActive := false, needClear := w.needClear && w.stopping })
    (if s.pwr.warnActive then s1.sagEvent vhold false s.pwr.stopping false else s1).tryStart

/-- POWER_EN is asserted through its filter (R487, R489). -/
def State.powerEnOn (s : State) : State :=
  if s.boot.phase = .off then s
  else ((s.modLands (fun l => { l with powerEn := true })).modPwr (fun w => { w with enLow := 0 })).tryStart

/-- POWER_EN is deasserted through its filter: the orderly stop runs, whatever SAG_ACTION; during a ramp or with the rails
off the eFuse goes off (R490, R497). -/
def State.powerEnOff (s : State) : State :=
  let s1 := (s.modLands (fun l => { l with powerEn := false })).modPwr (fun w => { w with enLow := 0 })
  if s.boot.phase = .off ∨ s.pwr.stopping then s1
  else if s.railsDown then
    (s1.modPwr (fun w => { w with efuseOn := false, softStart := false, railRamp := false })).modBoot (fun b => { b with phase := .railsOff })
  else
    let r := s1.freeNat
    r.2.orderlyStop r.1 true

/-! ## Lockouts and trips (R492, R493, R497) -/

/-- VHOLD falls below the reset threshold: a brownout at once, and source 3 when a stop had not ended (R493, R497). -/
def State.resetThreshold (s : State) : State :=
  if s.boot.phase = .off then s
  else
    let s1 := s.modPwr (fun w => { w with belowReset := true })
    let s2 := if s.pwr.stopping then s1.latch 3 else s1
    if s.boot.phase = .railsOff then s2 else s2.moduleReset 2 0

/-- VIN rises above the over-voltage lockout: the eFuse goes off and a brownout asserts (R486, R493). -/
def State.overVoltage (s : State) : State :=
  if s.boot.phase = .off then s
  else ((s.modPwr (fun w => { w with ovLock := true, efuseOn := false })).latch 6).moduleReset 2 1

/-- VIN falls below the over-voltage release. -/
def State.overVoltageOver (s : State) : State := (s.modPwr (fun w => { w with ovLock := false })).tryStart

/-- VIN rises above the reset release and the start-up lockout. -/
def State.releaseLevel (s : State) : State :=
  if s.boot.phase = .off then s else (s.modPwr (fun w => { w with belowReset := false })).tryStart

/-- The 100 ms after a brownout end. -/
def State.holdoffOver (s : State) : State := (s.modPwr (fun w => { w with holdoff := false })).tryStart

/-- Tj reaches the trip point: THERM_TRIP_N and a brownout (R493). -/
def State.thermalTrip (s : State) : State :=
  if s.boot.phase = .off then s
  else ((s.modLands (fun l => { l with thermTrip := true })).latch 10).moduleReset 2 2

/-- Tj has fallen to 95 °C. -/
def State.thermalTripOver (s : State) : State := (s.modLands (fun l => { l with thermTrip := false })).tryStart

/-! ## The eFuse (R484) -/

/-- The input current reaches the limit. -/
def State.efuseLimit (s : State) : State :=
  if !s.pwr.efuseOn then s
  else
    let s1 := s.modPwr (fun w => { w with efuseLimit := true })
    if s.railsDown then s1 else s1.raiseAt 0x36 4

/-- The eFuse turns off: a brownout with sub-cause 3, source 5, and one more consecutive failure; a retry follows after
1 s, but not after the third. -/
def State.efuseOff (s : State) : State :=
  if !s.pwr.efuseOn then s
  else
    let n := s.pwr.efuseFails + 1
    ((s.modPwr (fun w => { w with efuseOn := false, efuseLimit := false, efuseFails := n, efuseRetry := decide (n < 3) })).latch 5).moduleReset 2 3

/-- The fault timer: 5 ms in current limit. -/
def State.efuseTimer (s : State) : State := if s.pwr.efuseLimit then s.efuseOff else s

/-- 1 s after a turn-off the eFuse may conduct again. -/
def State.efuseRetryNow (s : State) : State := (s.modPwr (fun w => { w with efuseRetry := false })).tryStart

/-- 10 s on without turning off end the count of failures. -/
def State.efuseHolds (s : State) : State :=
  if s.pwr.efuseOn then s.modPwr (fun w => { w with efuseFails := 0, efuseLimit := false }) else s

/-! ## Rails, temperature and telemetry (R501, R502) -/

/-- A main rail, sensors 5 to 13, has been outside ±5 %, or ±10 %, for 10 µs. -/
def State.railOut (s : State) (sensor : Nat) (ten : Bool) : State :=
  if s.railsDown ∨ sensor < 5 ∨ 13 < sensor then s
  else
    let s1 := (s.modPwr (fun w => { w with railBand := true })).raiseAt 0x36 7
    if ten then s1.raiseAt 0x36 8 else s1

/-- Tj, in °C, is compared with THERM_WARN. -/
def State.thermalWarning (s : State) (tj : Nat) : State :=
  if s.railsDown then s
  else if tj < s.kept.power.thermWarn then s.modPwr (fun w => { w with thermWarn := false })
  else (s.modPwr (fun w => { w with thermWarn := true })).raiseAt 0x36 9

/-- A reading lies within ±5 % of its setpoint. -/
def near (set v : Nat) : Bool := decide (95 * set ≤ 100 * v ∧ 100 * v ≤ 105 * set)

/-- Every main rail of a sample lies within ±5 %: the 12 V bus, VDD_CORE and sensors 9 to 13. -/
def railsNear (vddSet : Nat) (t : TeleSample) : Bool :=
  near 1200 t.bus12v && near vddSet t.vddCore &&
    (List.range 5).all (fun i => near (lget 0 [800, 900, 1200, 1100, 3300] i) (lget 0 t.rails i))

/-- Readings of a sample as Ember holds them. -/
def teleOf (t : TeleSample) : Tele :=
  { vin := t.vin % 65536, vhold := t.vhold % 65536, iin := t.iin % 65536, pin := t.pin % 65536, bus12v := t.bus12v % 65536
    bus12i := t.bus12i % 65536, vddCore := t.vddCore % 65536, coreI := t.coreI % 65536
    rails := (List.range 6).map (fun i => lget 0 t.rails i % 65536), tj := t.tj % 65536, tInput := t.tInput % 65536 }

/-- Readings are refreshed (R501); a power cause that the sample shows to have ended ends (R503, log 57). -/
def State.telemetry (s : State) (t : TeleSample) : State :=
  if s.railsDown then s
  else
    let sampled := teleOf t
    s.modPwr (fun w =>
      { w with
        tele := sampled
        efuseLimit := w.efuseLimit && decide (15000 ≤ t.iin)
        thermWarn := w.thermWarn && decide (2 * s.kept.power.thermWarn ≤ t.tj)
        railBand := w.railBand && !railsNear s.age.vddSet t })

/-! ## Power commands -/

/-- PWR_GET_STATUS, 0x0D00. -/
def cmdPwrGetStatus : Cmd where
  op := 0x0D00
  lenOk := lenIs 0
  allowed := anyone
  body w _ s :=
    let t := s.pwr.tele
    let c := s.kept.power
    let shown := w.shown s.iso.strict
    ok s (leBytes 2 (shown t.vin) ++ leBytes 2 (shown t.vhold) ++ leBytes 2 (shown t.iin) ++ leBytes 2 (shown t.pin) ++
      leBytes 2 c.vWarn ++ leBytes 1 c.sagAction ++
      leBytes 1 (b2n s.pwr.warnArmed + 2 * b2n s.pwr.warnActive + 4 * b2n s.lands.powerEn + 8 * b2n s.pwr.sagForced) ++
      leBytes 2 s.pwr.choldUf ++ leBytes 2 (Nat.min 65535 (holdNeed c.vWarn)) ++ leBytes 1 s.pwr.causes ++ leBytes 1 c.alertMask.toNat ++
      leBytes 1 (shown (t.tj / 2)) ++ leBytes 1 c.thermWarn ++ leBytes 2 s.kept.sags ++ leBytes 2 s.kept.stops ++
      leBytes 2 (shown t.vddCore) ++ leBytes 2 (shown t.coreI) ++ leBytes 4 0)

/-- Settings that a PWR_SET_CONFIG would leave. -/
def PowerCfg.after (c : PowerCfg) (q : Req) : PowerCfg :=
  let v := q.u8 0x20
  { sagAction := if bit v 0 then q.u8 0x21 else c.sagAction
    vWarn := if bit v 1 then q.u16 0x22 else c.vWarn
    alertMask := if bit v 2 then BitVec.ofNat 4 (q.u8 0x24) else c.alertMask
    thermWarn := if bit v 3 then q.u8 0x25 else c.thermWarn }

/-- A change of V_WARN re-arms the warning and clears an active one, which is told (R506). -/
def State.warnChanged (s : State) : State :=
  let s1 := s.modPwr (fun w => { w with warnArmed := false, warnActive := false })
  if s.pwr.warnActive then
    let r := s1.freeNat
    r.2.sagEvent r.1 false s.pwr.stopping false
  else s1

/-- PWR_SET_CONFIG, 0x0D01 (R499, R505, R506). -/
def cmdPwrSetConfig : Cmd where
  op := 0x0D01
  lenOk := lenIs 8
  allowed := onlyZero
  body _ q s :=
    let v := q.u8 0x20
    let vw := q.u16 0x22
    let c := s.kept.power.after q
    match firstBad [(0x20, decide (1 ≤ v ∧ v < 16)), (0x21, !bit v 0 || decide (q.u8 0x21 ≤ 1)),
        (0x22, (!bit v 1 || (decide (36000 ≤ vw ∧ vw ≤ 44000) && vw % 250 == 0)) &&
          (c.sagAction != 0 || holdEnough c.vWarn s.pwr.choldUf)),
        (0x24, !bit v 2 || decide (q.u8 0x24 < 16)), (0x25, !bit v 3 || decide (85 ≤ q.u8 0x25 ∧ q.u8 0x25 ≤ 110)),
        (0x26, q.zero 0x26 2)] with
    | some f => bad s f
    | none =>
      let s1 := (s.modKept (fun k => { k with power := c })).modPwr (fun w => { w with sagForced := w.sagForced && !bit v 0 })
      ok (if c.vWarn = s.kept.power.vWarn then s1 else s1.warnChanged)

end Sys2Proof.Machine
end

