-- ==== Sys2Proof/Machine/Pins.lean ====
section
/-! DEFINITION. The JTAG port (R556), the reference clocks (R460, R562), the PTP clock input (R560) and the RMA nonce's
expiry (R527). -/

namespace Sys2Proof.Machine

open Sys2Proof

/-! ## JTAG (R556) -/

/-- The instruction register takes `i`, with what the data register then shifts out; whatever drove the lands no longer
does. The port works while the auxiliary rail is up. -/
def State.jtagSelect (s : State) (i : JtagInst) (dr : BitVec 32) : State :=
  if s.boot.phase = .off then s
  else s.modJtag (fun j => { j with inst := i, dr := dr, driving := false, highz := false })

/-- BYPASS: a bit shifted in comes out of the one-bit register. -/
def State.jtagBypass (s : State) (b : Bool) : State := s.jtagSelect .bypass (if b then 1 else 0)

/-- IDCODE reads revision B0, part 0x9660, the manufacturer identity and 1. -/
def idcodeValue : BitVec 32 := BitVec.ofNat 32 (2 ^ 28 + 0x9660 * 2 ^ 12 + Config.jtagMaker.toNat * 2 + 1)

/-- SAMPLE/PRELOAD: the boundary-scan cells hold the levels sampled or shifted in. -/
def State.jtagSample (s : State) (cells : List Bool) : State :=
  if s.boot.phase = .off then s
  else (s.jtagSelect .sample 0).modJtag (fun j => { j with boundary := (List.range cells.length).zip cells })

/-- EXTEST, INTEST, CLAMP and HIGHZ are performed only while TEST_MODE was sampled high; otherwise they act as BYPASS. -/
def State.jtagTest (s : State) (i : JtagInst) (f : Jtag → Jtag) : State :=
  if s.boot.phase = .off then s
  else if s.boot.straps.testMode then (s.jtagSelect i 0).modJtag f
  else s.jtagSelect .bypass 0

/-- The boundary-scan register drives the lands. -/
def Jtag.drive (j : Jtag) : Jtag := { j with driving := true }
/-- The scanned outputs float. -/
def Jtag.float (j : Jtag) : Jtag := { j with highz := true }

/-! ## Clocks -/

/-- A clocked domain leaves reset: fabric links in DETECT send their beacon, logical ports may come up, and the ports of
a station may train (R460, R562). -/
def State.clockRelease (s : State) (d : ClkDom) : State :=
  match d with
  | .fabric =>
    let s1 := (s.modLands (fun l => { l with frefOk := true })).modBoot (fun b => { b with fabricHeld := false })
    (List.range 16).foldl (fun t l => if (t.link l).st = .detect then t.beacon l else t) s1
  | .ethernet => (s.modLands (fun l => { l with erefOk := true })).modBoot (fun b => { b with etherHeld := false })
  | .station n =>
    (s.modLands (fun l => { l with srefLost := l.srefLost.filter (fun k => k != n) })).modBoot (fun b =>
      { b with stationHeld := b.stationHeld.filter (fun k => k != n) })

/-- PTP_CLK_IN stops for 1 µs: the PTP domain goes on from the internal oscillator, and the loss of a selected clock is
counted against block 0x35 (R433, R560). -/
def State.ptpClockLost (s : State) : State :=
  let s1 := s.modLands (fun l => { l with ptpClkOk := false })
  if s.time.ptpLocked then { s1 with time := { s1.time with ptpLocked := false } }.ledgerOnly 0x35 else s1

/-- The PTP domain locks to the selected clock again (R560). -/
def State.ptpClockBack (s : State) : State :=
  let s1 := s.modLands (fun l => { l with ptpClkOk := true })
  { s1 with time := { s1.time with ptpLocked := s1.time.ptpExternal } }

/-- An RMA nonce expires 10 minutes after issue (R527). -/
def State.nonceOver (s : State) : State := s.modEmber (fun e => { e with rmaNonce := none })

end Sys2Proof.Machine
end

