-- ==== Sys2Proof/Machine/Settle.lean ====
section
/-! DEFINITION. The consequences of an event that its own chapter leaves to other agents: reactions the collector has
begun (R434, R437), drains (R140), Retort, register and Hearth attachments taking what the core has released, PFC,
write-backs and interrupts. -/

namespace Sys2Proof.Machine

open Sys2Proof

/-- Perform one reaction. -/
def State.dueOne (s : State) (d : Due) : State :=
  match d with
  | .dpc n a => s.dpcReact n a
  | .quiesce p => s.quiesce p
  | .block b => s.blockReset b
  | .warm sub => s.moduleReset 4 sub
  | .retortReset p => s.retortFnReset p
  | .vnicReset f => s.vnicReset f

/-- Perform the reactions owed, oldest first; performing one may owe more. -/
def State.performDue : Nat → State → State
  | 0, s => s
  | fuel + 1, s =>
    match s.flt.due with
    | [] => s
    | d :: r => State.performDue fuel ((s.modFlt (fun f => { f with due := r })).dueOne d)

/-- One packet formed inside the module takes its way: a control packet by the route to its module, any other to the port it is
addressed to (R154, R156, R236). -/
def State.sendOneFormed (s : State) (p : Pkt) : State :=
  if p.ptype = 4 ∧ p.dst = 0 then
    match s.routePkt p p.dmod with
    | some (k, t) => t.submit k
    | none => s
  else s.submit p

/-- The packets that attachments have formed enter the core, in order (R154). -/
def State.sendFormed (s : State) : State :=
  s.core.formed.foldl State.sendOneFormed (s.modCore (fun k => { k with formed := [] }))

/-- The other agents act on what an event has left them. -/
def State.agents (s : State) : State :=
  let s1 := s.issueAll.sendFormed.askImage.settleDrains.rtTargets.checkStreams.retortTake.poolFlushes.takeRegisters.avgTrack.pfcEval.finishFrames
  s1.vnicSettle.rxSweep.allWriteBacks.hAdmitted.hInterrupts.sendFormed

/-- Once OK has been returned, a WARM_RESET is announced to every partition (R80). -/
def State.announceReset (s : State) : State :=
  match s.boot.announce with
  | none => s
  | some d => (s.modBoot (fun b => { b with announce := none })).event 0x801 s.allParts d

/-- The records of the command's events are written and its ports contained: their handling ends (R438). -/
def State.handled (s : State) : State := s.modFlt (fun f => { f with fresh := [] })

/-- Every consequence of an event, up to the point where the module waits for the next. The agents of the main die act
while it is in service (R250, R460, R496). -/
def State.settle (s : State) : State :=
  let s1 := s.announceReset.performDue 256
  let s2 := if !s1.inService then s1 else s1.agents.performDue 256
  s2.handled

end Sys2Proof.Machine
end

