-- ==== Sys2Proof/Machine/Commands.lean ====
section
/-! DEFINITION. The commands of firmware 3.2 and Ember taking and executing one (R62, R66, R67, R72). -/

namespace Sys2Proof.Machine

open Sys2Proof

/-- Every command of firmware 3.2. -/
def commands : List Cmd :=
  [cmdNop, cmdDeviceInfo, cmdGetOpStatus, cmdWarmReset, cmdCoreGetStatus, cmdCoreSetConfig, cmdHearthCtl,
   cmdFwGetStatus, cmdFwBegin, cmdFwWrite, cmdFwFinish, cmdFwActivate, cmdPortGetStatus, cmdPortSetConfig,
   cmdPortReset, cmdVdspBind, cmdVdspUnbind, cmdVdspGet, cmdWinStage, cmdWinCommit, cmdWinDiscard,
   cmdWinRead, cmdDevShare, cmdMigrateFence, cmdLinkGetStatus, cmdLinkSet, cmdLinkReset, cmdRouteSet,
   cmdRouteRead, cmdFabGetModule, cmdFabAdmit, cmdFabWithdraw, cmdFabRelay, cmdFabSetConfig,
   cmdPoolGetStatus, cmdPoolConfig, cmdSodAssign, cmdSodRelease, cmdSodQuery, cmdSodSet, cmdRtGetStatus,
   cmdRtPartSet, cmdRtGroupCreate, cmdRtGroupDestroy, cmdRtGroupRead, cmdRtGroupReset, cmdRtGroupMove,
   cmdNetGetStatus, cmdNetPortSet, cmdVnicCreate, cmdVnicDestroy, cmdVnicSet, cmdVnicQpSet, cmdNetEmSet] ++
  [cmdNetAclSet, cmdNetPtpClock, cmdTmShaperSet, cmdTmSchedSet, cmdTmMeterSet, cmdTmWredSet, cmdTmGateSet,
   cmdTmGateGet, cmdPtpOutSet, cmdPtpInSet, cmdPtpInRead, cmdPartGet, cmdPartSet, cmdIsoGetStatus,
   cmdStrictSet, cmdFltGetSummary, cmdFltRead, cmdFltClear, cmdFltSetReaction, cmdFltGetReaction,
   cmdFltLedgerRead, cmdFltLedgerClear, cmdFltInject, cmdFltAerRead, cmdEvPop, cmdPwrGetStatus,
   cmdPwrSetConfig, cmdCntRead, cmdCntSet, cmdCntSweepSet, cmdCntSweepGet, cmdBistRun, cmdBistGet,
   cmdLcAdvance, cmdRmaChallenge, cmdRmaUnlock, cmdAgeGetStatus, cmdAgeSetConfig]

/-- The command an opcode names. -/
def cmdOf (op : Nat) : Option Cmd := commands.find? (fun k => k.op == op)

/-- The path of queue position `a` (R72). -/
def posPath (a : Nat) : Path :=
  if a < 32 then .page a else if a < 64 then .hearth (a - 32) else if a < 96 then .vdm (a - 64)
  else if a < 128 then .sideband else .relay (a - 128)

/-- The answer to a frame: orders 1 and 2 for an opcode that firmware 3.2 does not define, else the command (R67). -/
def answerTo (c : Path) (p op : Nat) (q : Req) (s : State) : Ans :=
  match cmdOf op with
  | some k => runCmd k c p q s
  | none => if 4064 < q.length ∨ q.length % 4 ≠ 0 then failWith s rcBadLength else failWith s rcBadOpcode

/-- A taken command is executed: its response goes back on its path, or the command waits (R62, R65). -/
def State.execute (s : State) (c : Path) (p op : Nat) (q : Req) (msgTag : Nat) : State :=
  let a := answerTo c p op q s
  if a.wait.isSome then a.deliver c p op q msgTag
  else (a.counted p).reply c msgTag q.noInt (rspOf op q.tag a)

/-- Ember takes the command of partition `part` that arrived first, while it executes no other of that partition: the
header and LENGTH bytes of payload are copied, and the command is executed (R62, R72). -/
def State.takeCommand (s : State) (part : Nat) : State :=
  if !s.ember.fwReady ∨ (tlook s.ember.running part).isSome then s
  else match s.ember.arrivals.find? (fun a => s.partOf (posPath a) == some part) with
    | none => s
    | some a =>
      let s1 := s.modEmber (fun e => { e with arrivals := e.arrivals.erase a })
      if a < 64 then
        let f := reqOfBytes (mread 0 (s.page a).cmdSeen 0 4096)
        (s1.modPage a (fun g => { g with st := .busy })).execute (posPath a) part f.1 f.2 0
      else match tlook s.ember.msgQ a with
        | none => s1
        | some m =>
          (s1.modEmber (fun e => { e with msgQ := tdel e.msgQ a })).execute (posPath a) part m.opcode m.req m.msgTag

/-! ## What a command of the block answers -/

/-- A command of the block leaves state `t` with its consequences; the queue stays as it is. -/
def State.done (s t : State) : Host.Outcome State Fault Refusal := .next { t.settle with pending := s.pending }

/-- An event of the main die: nothing happens while it is in reset (R460). -/
def State.onDie (s t : State) : Host.Outcome State Fault Refusal := s.done (if s.dieUp then t else s)

/-- An event of the data path: nothing happens while the main die is in reset, while an orderly stop has shed the
load, or once the module is ready for removal (R250, R460, R496). -/
def State.live (s t : State) : Host.Outcome State Fault Refusal := s.done (if s.inService then t else s)

end Sys2Proof.Machine
end

