-- ==== Sys2Proof/Machine/ExecCore.lean ====
section
/-! DEFINITION. The switch core: what each command of the block does. -/

namespace Sys2Proof.Machine

open Sys2Proof

/-- PLANE_CELL_TIME (R171): in each cell time each plane matches inputs to outputs and moves one cell per match across
the plane. -/
def execPlaneCellTime (plane : Nat) (s : State) : Host.Outcome State Fault Refusal := s.live (s.cellTime plane)
/-- ITERATION_MEASUREMENT (R176): every 1 ms Ember reads the planes' mean cell times and lowers N when any exceeds
4.90 ns. -/
def execIterationMeasurement (ps : List Nat) (s : State) : Host.Outcome State Fault Refusal := s.live (s.iterMeasure ps)
/-- ITERATION_FAST_LOWER (R176): a plane's cell time exceeds 4.95 ns over a 10 µs window and the planes lower N
without Ember. -/
def execIterationFastLower (plane : Nat) (s : State) : Host.Outcome State Fault Refusal := s.live (s.iterFast plane)
/-- SPILL_READBACK (R185): the spill engine returns a VOQ's spilled cells to SRAM in order once there is room. -/
def execSpillReadback (i : Nat) (o : Nat) (tc : Nat) (ue : Bool) (s : State) : Host.Outcome State Fault Refusal := s.live (s.spillBack i o tc ue)

end Sys2Proof.Machine
end

