-- ==== Sys2Proof/Machine/ExecCounter.lean ====
section
/-! DEFINITION. Counters and sweeps: what each command of the block does. -/

namespace Sys2Proof.Machine

open Sys2Proof

/-- SWEEP (R514): every PERIOD_US the gatherer sends the sweep token and each block latches its counters. -/
def execSweep (span : Nat) (s : State) : Host.Outcome State Fault Refusal := s.live (s.sweep span)
/-- SWEEP_SLOT_WRITE (R516): a free sweep stream writes the newest due sweep into its next slot. -/
def execSweepSlotWrite (p : Nat) (s : State) : Host.Outcome State Fault Refusal := s.live (s.slotWrite p)
/-- CNT_READ (R519): CNT_READ returns configurations and live values of counters. -/
def execCntRead (c : Path) (q : Req) (s : State) : Host.Outcome State Fault Refusal := s.done (direct cmdCntRead c q s)
/-- CNT_SET (R524): CNT_SET writes counter configurations and values at one instant. -/
def execCntSet (c : Path) (q : Req) (s : State) : Host.Outcome State Fault Refusal := s.done (direct cmdCntSet c q s)
/-- CNT_SWEEP_SET (R515): CNT_SWEEP_SET sets the sweep period and the partition's sweep stream. -/
def execCntSweepSet (c : Path) (q : Req) (s : State) : Host.Outcome State Fault Refusal := s.done (direct cmdCntSweepSet c q s)
/-- CNT_SWEEP_GET (R518): CNT_SWEEP_GET reports the sweep period and the partition's stream state. -/
def execCntSweepGet (c : Path) (q : Req) (s : State) : Host.Outcome State Fault Refusal := s.done (direct cmdCntSweepGet c q s)

end Sys2Proof.Machine
end

