-- ==== Sys2Proof/Machine/ExecFabric.lean ====
section
/-! DEFINITION. Fabric mode: what each command of the block does. -/

namespace Sys2Proof.Machine

open Sys2Proof

/-- FABRIC_PACKET_RECEIVED (R231): a packet received from a fabric link is checked, then delivered locally, forwarded
as transit or answered. -/
def execFabricPacketReceived (l : Nat) (pkt : Pkt) (s : State) : Host.Outcome State Fault Refusal := s.live (s.fabricIn l pkt)
/-- DONE_REPORT (R238): a PTYPE 4 DONE report for spray accounting is received from a destination module. -/
def execDoneReport (m : Nat) (tc : Nat) (value : Nat) (s : State) : Host.Outcome State Fault Refusal := s.live (s.doneReport m tc value)
/-- WRITE_ACK_RECEIVED (R405): a PTYPE 4 write acknowledgement from a remote module acknowledges a write that forbids
early acknowledgement. -/
def execWriteAckReceived (id : Nat) (delivered : Bool) (s : State) : Host.Outcome State Fault Refusal := s.live (s.writeAcked id delivered)
/-- RELAYED_COMMAND (R245): a command frame relayed from a manager module arrives and is attributed to partition 0 or
refused. -/
def execRelayedCommand (m : Nat) (fromZero : Bool) (num : Nat) (frame : Bytes) (s : State) : Host.Outcome State Fault Refusal :=
  s.onDie (s.relayIn m fromZero num frame)
/-- EXTRACTING_ANNOUNCEMENT (R243): an EXTRACTING announcement from an admitted module moves its record to EXTRACTING
and posts an event. -/
def execExtractingAnnouncement (m : Nat) (ended : Bool) (s : State) : Host.Outcome State Fault Refusal := s.onDie (s.announced m ended)
/-- GET_VERSION (R242): the SPDM request GET_VERSION received from a peer is answered. -/
def execGetVersion (l : Nat) (s : State) : Host.Outcome State Fault Refusal := s.onDie (s.spdmAnswer l 0 (s.spdmContent 0 0 0))
/-- GET_CAPABILITIES (R242): the SPDM request GET_CAPABILITIES received from a peer is answered. -/
def execGetCapabilities (l : Nat) (s : State) : Host.Outcome State Fault Refusal := s.onDie (s.spdmAnswer l 1 (s.spdmContent 1 0 0))
/-- NEGOTIATE_ALGORITHMS (R242): the SPDM request NEGOTIATE_ALGORITHMS is answered with ECDSA P-384 and SHA-384. -/
def execNegotiateAlgorithms (l : Nat) (s : State) : Host.Outcome State Fault Refusal := s.onDie (s.spdmAnswer l 2 (s.spdmContent 2 0 0))
/-- GET_DIGESTS (R242): the SPDM request GET_DIGESTS is answered with the certificate digest. -/
def execGetDigests (l : Nat) (s : State) : Host.Outcome State Fault Refusal := s.onDie (s.spdmAnswer l 3 (s.spdmContent 3 0 0))
/-- GET_CERTIFICATE (R242): the SPDM request GET_CERTIFICATE returns the module identity certificate chain. -/
def execGetCertificate (l : Nat) (offset : Nat) (len : Nat) (s : State) : Host.Outcome State Fault Refusal :=
  s.onDie (s.spdmAnswer l 4 (s.spdmContent 4 offset len))
/-- CHALLENGE (R242): the SPDM request CHALLENGE is answered with a signature by the identity key. -/
def execChallenge (l : Nat) (nonce : Nat) (s : State) : Host.Outcome State Fault Refusal := s.onDie (s.spdmAnswer l 5 (s.spdmContent 5 nonce 0))
/-- GET_MEASUREMENTS (R242): the SPDM request GET_MEASUREMENTS returns the running firmware version and security
version. -/
def execGetMeasurements (l : Nat) (s : State) : Host.Outcome State Fault Refusal := s.onDie (s.spdmAnswer l 6 (s.spdmContent 6 0 0))
/-- SPDM_RESPONSE_RECEIVED (R243): an SPDM response from the peer advances authentication, and on success updates the
admission record and quarantine. -/
def execSpdmResponseReceived (l : Nat) (r : SpdmResult) (s : State) : Host.Outcome State Fault Refusal := s.onDie (s.spdmResponse l r)
/-- SPDM_RETRY_TIMER (R242): the 1 s interval after a failed SPDM attempt expires and authentication is retried. -/
def execSpdmRetryTimer (l : Nat) (s : State) : Host.Outcome State Fault Refusal := s.onDie (s.spdmRetry l)
/-- FAILOVER_TIMER (R246): a link stays out of UP for FAILOVER_MS, its path fails and its buckets move to usable
paths. -/
def execFailoverTimer (l : Nat) (s : State) : Host.Outcome State Fault Refusal := s.onDie (s.failover l)
/-- REVERT_TIMER (R248): a failed path has been usable for REVERT_MS, and its committed buckets return to it. -/
def execRevertTimer (d : Nat) (j : Nat) (s : State) : Host.Outcome State Fault Refusal := s.onDie (s.revert d j)
/-- FLOW_MOVE_COMPLETE (R224): the old link has acknowledged every flit of a moving flow, and the flow moves. -/
def execFlowMoveComplete (d : Nat) (b : Nat) (s : State) : Host.Outcome State Fault Refusal := s.onDie (s.moveComplete d b)
/-- EXTRACT_REQ (R249): EXTRACT_REQ_N is asserted and its 10 ms filter starts. -/
def execExtractReq (s : State) : Host.Outcome State Fault Refusal := s.done s.extractReq
/-- EXTRACT_FILTER_EXPIRY (R249): EXTRACT_REQ_N stays asserted for 10 ms, EXTRACTING is announced and the unbinds
begin. -/
def execExtractFilterExpiry (s : State) : Host.Outcome State Fault Refusal := s.onDie s.extractBegin
/-- NEIGHBOUR_REROUTE_REPORT (R249): a neighbour reports that no route of its own for another destination names a link
to this module. -/
def execNeighbourRerouteReport (m : Nat) (s : State) : Host.Outcome State Fault Refusal := s.onDie (s.neighbourReport m)
/-- EXTRACT_DRAIN_COMPLETE (R249): the cell buffer, spill region and replay buffers are empty, links are disabled and
READY_REMOVE_N asserts. -/
def execExtractDrainComplete (s : State) : Host.Outcome State Fault Refusal := s.onDie (if s.extractDrained then s.leaveService else s)
/-- EXTRACT_TIMEOUT (R250): EXTRACT_S passes before the drain ends, every link fails and the extraction continues at
link disable. -/
def execExtractTimeout (s : State) : Host.Outcome State Fault Refusal := s.onDie (if s.fab.extract.step = 3 then s.leaveService else s)
/-- ROUTE_SET (R257): ROUTE_SET replaces route entries at one instant, moving flows where paths change. -/
def execRouteSet (c : Path) (q : Req) (s : State) : Host.Outcome State Fault Refusal := s.done (direct cmdRouteSet c q s)
/-- ROUTE_READ (R232): ROUTE_READ returns route entries, operational bucket maps and usable paths. -/
def execRouteRead (c : Path) (q : Req) (s : State) : Host.Outcome State Fault Refusal := s.done (direct cmdRouteRead c q s)
/-- FAB_GET_MODULE (R255): FAB_GET_MODULE returns the admission record of a module. -/
def execFabGetModule (c : Path) (q : Req) (s : State) : Host.Outcome State Fault Refusal := s.done (direct cmdFabGetModule c q s)
/-- FAB_ADMIT (R244): FAB_ADMIT admits a module and ends quarantine on its authenticated links. -/
def execFabAdmit (c : Path) (q : Req) (s : State) : Host.Outcome State Fault Refusal := s.done (direct cmdFabAdmit c q s)
/-- FAB_WITHDRAW (R252): FAB_WITHDRAW withdraws a module, failing its links, removing its traffic and invalidating its
windows. -/
def execFabWithdraw (c : Path) (q : Req) (s : State) : Host.Outcome State Fault Refusal := s.done (direct cmdFabWithdraw c q s)
/-- FAB_RELAY (R245): FAB_RELAY carries a command frame to another module's Ember and waits for its response. -/
def execFabRelay (c : Path) (q : Req) (s : State) : Host.Outcome State Fault Refusal := s.done (direct cmdFabRelay c q s)
/-- RELAY_RESPONSE (R245): the response of a relayed command arrives and completes FAB_RELAY. -/
def execRelayResponse (num : Nat) (frame : Bytes) (s : State) : Host.Outcome State Fault Refusal := s.onDie (s.relayBack num frame)
/-- RELAY_TIMEOUT (R65): No relay response arrives within 200 ms and FAB_RELAY ends with TIMEOUT. -/
def execRelayTimeout (part : Nat) (s : State) : Host.Outcome State Fault Refusal := s.onDie (s.relayOver part)
/-- FAB_SET_CONFIG (R256): FAB_SET_CONFIG sets FAILOVER_MS, REVERT_MS and EXTRACT_S. -/
def execFabSetConfig (c : Path) (q : Req) (s : State) : Host.Outcome State Fault Refusal := s.done (direct cmdFabSetConfig c q s)
/-- PEER_IMAGE_REQUEST (R470): a peer in fabric peer download requests this module's running image, which is sent in
PTYPE 4 packets. -/
def execPeerImageRequest (m : Nat) (s : State) : Host.Outcome State Fault Refusal := s.onDie (s.peerImageAsked m)

end Sys2Proof.Machine
end

