-- ==== Sys2Proof/Machine/ExecFault.lean ====
section
/-! DEFINITION. Partitions, faults and the ledger: what each command of the block does. -/

namespace Sys2Proof.Machine

open Sys2Proof

/-- PART_GET (R429): PART_GET reports the resources and flags of a partition. -/
def execPartGet (c : Path) (q : Req) (s : State) : Host.Outcome State Fault Refusal := s.done (direct cmdPartGet c q s)
/-- PART_SET (R429): PART_SET sets FABRIC_ADMIN, PERF_USER or STRICT_SLOTS of a partition. -/
def execPartSet (c : Path) (q : Req) (s : State) : Host.Outcome State Fault Refusal := s.done (direct cmdPartSet c q s)
/-- ISO_GET_STATUS (R419): ISO_GET_STATUS reports the isolation conditions and strict mode state. -/
def execIsoGetStatus (c : Path) (q : Req) (s : State) : Host.Outcome State Fault Refusal := s.done (direct cmdIsoGetStatus c q s)
/-- STRICT_SET (R427): STRICT_SET enables or disables strict partition mode and its calendars and gate lists. -/
def execStrictSet (c : Path) (q : Req) (s : State) : Host.Outcome State Fault Refusal := s.done (direct cmdStrictSet c q s)
/-- FAULT_DETECTED (R434): a detector raises a fault source, and the collector sets its bits, counts it and performs
its reactions. -/
def execFaultDetected (src : Nat) (attr : Option Nat) (port : Option Nat) (addr : Word) (s : State) : Host.Outcome State Fault Refusal :=
  s.done (s.detected src attr port addr)
/-- BLOCK_READY (R437): a block under block reset is released by its token and ready again. -/
def execBlockReady (b : Nat) (s : State) : Host.Outcome State Fault Refusal := s.onDie (s.blockReady b)
/-- REACTION_SHADOW_END (R440): the reaction shadow ends 1 µs after the block is ready. -/
def execReactionShadowEnd (b : Nat) (s : State) : Host.Outcome State Fault Refusal := s.onDie (s.shadowEnd b)
/-- LEDGER_FLASH_COPY (R446): every 24 h, or within 1 s after the ledger's class changes, the Ash ledger is copied to
flash. -/
def execLedgerFlashCopy (s : State) : Host.Outcome State Fault Refusal := s.onDie s.flashCopy
/-- FLT_GET_SUMMARY (R452): FLT_GET_SUMMARY reports the blocks with set bits, the pair state and the highest class. -/
def execFltGetSummary (c : Path) (q : Req) (s : State) : Host.Outcome State Fault Refusal := s.done (direct cmdFltGetSummary c q s)
/-- FLT_READ (R452): FLT_READ returns the S and M bits of a range of blocks. -/
def execFltRead (c : Path) (q : Req) (s : State) : Host.Outcome State Fault Refusal := s.done (direct cmdFltRead c q s)
/-- FLT_CLEAR (R431): FLT_CLEAR clears S and M bits of a block in the map acted on. -/
def execFltClear (c : Path) (q : Req) (s : State) : Host.Outcome State Fault Refusal := s.done (direct cmdFltClear c q s)
/-- FLT_SET_REACTION (R436): FLT_SET_REACTION sets a reaction byte, or SB_ALERT. -/
def execFltSetReaction (c : Path) (q : Req) (s : State) : Host.Outcome State Fault Refusal := s.done (direct cmdFltSetReaction c q s)
/-- FLT_GET_REACTION (R452): FLT_GET_REACTION returns the reaction table and SB_ALERT. -/
def execFltGetReaction (c : Path) (q : Req) (s : State) : Host.Outcome State Fault Refusal := s.done (direct cmdFltGetReaction c q s)
/-- FLT_LEDGER_READ (R445): FLT_LEDGER_READ returns the Ash ledger counters and their source. -/
def execFltLedgerRead (c : Path) (q : Req) (s : State) : Host.Outcome State Fault Refusal := s.done (direct cmdFltLedgerRead c q s)
/-- FLT_LEDGER_CLEAR (R445): FLT_LEDGER_CLEAR clears the ledger and shadow and starts rewriting the flash record. -/
def execFltLedgerClear (c : Path) (q : Req) (s : State) : Host.Outcome State Fault Refusal := s.done (direct cmdFltLedgerClear c q s)
/-- LEDGER_FLASH_CLEAR_COMPLETE (R445): the flash record of a cleared ledger is rewritten as zeros and the handle
ends. -/
def execLedgerFlashClearComplete (ok : Bool) (s : State) : Host.Outcome State Fault Refusal := s.onDie (s.flashCleared ok)
/-- FLT_INJECT (R451): FLT_INJECT raises a fault source or corrupts bits of protected SRAM. -/
def execFltInject (c : Path) (q : Req) (s : State) : Host.Outcome State Fault Refusal := s.done (direct cmdFltInject c q s)
/-- FLT_AER_READ (R119): FLT_AER_READ returns and optionally clears the AER registers of a downstream port. -/
def execFltAerRead (c : Path) (q : Req) (s : State) : Host.Outcome State Fault Refusal := s.done (direct cmdFltAerRead c q s)
/-- EV_POP (R450): EV_POP takes records from partition 0's sideband event queue. -/
def execEvPop (c : Path) (q : Req) (s : State) : Host.Outcome State Fault Refusal := s.done (direct cmdEvPop c q s)

end Sys2Proof.Machine
end

