-- ==== Sys2Proof/Machine/ExecHearth.lean ====
section
/-! DEFINITION. Hearth: what each command of the block does. -/

namespace Sys2Proof.Machine

open Sys2Proof

/-- LOAD (R398): a Hearth load is split, checked by the MPU and default map, and performed or faulted. -/
def execLoad (cl : Nat) (k : Nat) (rd : Nat) (addr : Word) (size : Nat) (signed : Bool) (ecc : Eccs) (s : State) : Host.Outcome State Fault Refusal :=
  s.live (s.hRead cl k rd addr size signed ecc)
/-- STORE (R401): a Hearth store is split, checked, and placed in the store buffer, or faulted. -/
def execStore (cl : Nat) (k : Nat) (addr : Word) (size : Nat) (value : Word) (s : State) : Host.Outcome State Fault Refusal :=
  s.live (s.hStore cl k addr size value)
/-- INSTRUCTION_FETCH (R399): a Hearth instruction fetch is split, checked and performed or faulted. -/
def execInstructionFetch (cl : Nat) (k : Nat) (addr : Word) (size : Nat) (ecc : Eccs) (s : State) : Host.Outcome State Fault Refusal :=
  s.live (s.hRead cl k 32 addr size false ecc)
/-- LR (R410): LR takes a reservation on a 64-byte granule of the sod region, or faults outside it. -/
def execLr (cl : Nat) (k : Nat) (rd : Nat) (addr : Word) (size : Nat) (ecc : Eccs) (s : State) : Host.Outcome State Fault Refusal :=
  s.live (s.hLr cl k rd addr size ecc)
/-- SC (R410): SC writes conditionally on the reservation, or faults outside the sod region. -/
def execSc (cl : Nat) (k : Nat) (rd : Nat) (addr : Word) (size : Nat) (value : Word) (spurious : Bool) (s : State) : Host.Outcome State Fault Refusal :=
  s.live (s.hSc cl k rd addr size value spurious)
/-- AMO (R410): an AMO is performed in the sod region, or faults outside it. -/
def execAmo (cl : Nat) (k : Nat) (op : AmoOp) (rd : Nat) (addr : Word) (size : Nat) (value : Word) (ecc : Eccs) (s : State) : Host.Outcome State Fault Refusal :=
  s.live (s.hAmo cl k op rd addr size value ecc)
/-- FENCE (R403): a standard FENCE or FENCE.TSO acts as a system-scope fence. -/
def execFence (cl : Nat) (k : Nat) (pred : Nat) (_succ : Nat) (s : State) : Host.Outcome State Fault Refusal := s.live (s.hFence cl k pred)
/-- FENCE_I (R403): FENCE.I orders the core's stores before its own later fetches. -/
def execFenceI (cl : Nat) (k : Nat) (s : State) : Host.Outcome State Fault Refusal := s.live (s.hFenceI cl k)
/-- KFENCE (R402): KFENCE orders its predecessor and successor sets within its scope and completes MPU changes. -/
def execKfence (cl : Nat) (k : Nat) (word : Nat) (s : State) : Host.Outcome State Fault Refusal := s.live (s.hKfence cl k word)
/-- FENCE_RETIRE (R407): a waiting system-scope fence retires once its writes are acknowledged or dropped. -/
def execFenceRetire (cl : Nat) (k : Nat) (s : State) : Host.Outcome State Fault Refusal := s.live (s.hFenceRetire cl k)
/-- MPU_CSR_WRITE (R400): a write to MPUADDRn or MPUCFGn changes or locks an MPU region, effective after a KFENCE. -/
def execMpuCsrWrite (cl : Nat) (k : Nat) (n : Nat) (cfg : Bool) (value : Word) (s : State) : Host.Outcome State Fault Refusal :=
  s.live (s.csrWrite cl k machineOnly (fun h => h.mpuWrite n cfg value.toNat))
/-- KATTR_CSR_WRITE (R406): a write to KATTRADDR or KATTRCFG changes the attribute entry selected by KATTRSEL. -/
def execKattrCsrWrite (cl : Nat) (k : Nat) (csr : Nat) (value : Word) (s : State) : Host.Outcome State Fault Refusal :=
  s.live (s.csrWrite cl k machineOnly (fun h => h.attrWrite csr value.toNat))
/-- KSTERR_WRITE (R408): Writing 0 to KSTERR.V clears V, COUNT and ADDR. -/
def execKsterrWrite (cl : Nat) (k : Nat) (value : Word) (s : State) : Host.Outcome State Fault Refusal :=
  s.live (s.csrWrite cl k notUser (fun h => h.ksterrWrite value.toNat))
/-- FENCE_WATCH_EXPIRY (R409): the fence-watch timer reaches its period and sets the supervisor fence-watch interrupt.
-/
def execFenceWatchExpiry (cl : Nat) (k : Nat) (s : State) : Host.Outcome State Fault Refusal := s.live (s.fenceWatch cl k)
/-- ALARM_REQUEST (R414): a write of REQUEST to HC_ALARM_CTL takes a free PTP comparator for the cluster alarm. -/
def execAlarmRequest (cl : Nat) (s : State) : Host.Outcome State Fault Refusal := s.live (s.alarmRequest cl)
/-- ALARM_RELEASE (R414): a write of RELEASE to HC_ALARM_CTL releases the cluster's comparator. -/
def execAlarmRelease (cl : Nat) (s : State) : Host.Outcome State Fault Refusal := s.live (s.alarmRelease cl)
/-- ALARM_FIRE (R414): the free-running counter reaches HC_ALARM_CMP, FIRED is set and interrupt 17 is raised on core
0. -/
def execAlarmFire (cl : Nat) (s : State) : Host.Outcome State Fault Refusal := s.live (s.alarmFire cl)
/-- MACHINE_TIMER_INTERRUPT (R394): MTIME reaches a core's MTIMECMP and raises its machine timer interrupt. -/
def execMachineTimerInterrupt (cl : Nat) (k : Nat) (s : State) : Host.Outcome State Fault Refusal := s.live (s.timerIrq cl k)
/-- MSIP_WRITE (R394): a write to a core's MSIP raises or clears its machine software interrupt. -/
def execMsipWrite (cl : Nat) (k : Nat) (value : Nat) (s : State) : Host.Outcome State Fault Refusal := s.live (s.msipWrite cl k value)
/-- ABSTRACT_COMMAND (R415): a debugger's abstract command is performed, or refused in PRODUCTION with cmderr 3. -/
def execAbstractCommand (cl : Nat) (k : Nat) (a : DbgCmd) (s : State) : Host.Outcome State Fault Refusal := s.live (s.abstractCmd cl k a)
/-- SYSTEM_BUS_ACCESS (R415): a debugger's system bus access is performed, or refused in PRODUCTION with sberror 2. -/
def execSystemBusAccess (cl : Nat) (write : Bool) (addr : Word) (size : Nat) (value : Word) (s : State) : Host.Outcome State Fault Refusal :=
  s.live (s.debugAccess false cl 0 write addr.toNat size value.toNat)
/-- CLUSTER_STOP_COMPLETE (R417): a stopping cluster's accesses have left the module, its caches are flushed and it
becomes STOPPED. -/
def execClusterStopComplete (cl : Nat) (s : State) : Host.Outcome State Fault Refusal := s.live (s.clusterStopDone cl)

end Sys2Proof.Machine
end

