-- ==== Sys2Proof/Machine/ExecLink.lean ====
section
/-! DEFINITION. Fabric links: what each command of the block does. -/

namespace Sys2Proof.Machine

open Sys2Proof

/-- FLIT_TIME (R204): in each flit time the link transmitter sends a replay, control, VC7, VC0–VC6 or IDLE flit by
priority. -/
def execFlitTime (l : Nat) (s : State) : Host.Outcome State Fault Refusal := s.live (s.flitTime l)
/-- FLIT_RECEIVED (R205): a link flit is received, checked and accepted, discarded or answered with a NAK. -/
def execFlitReceived (l : Nat) (head rest : Bytes) (decoded : Bool) (corrected : Nat) (s : State) : Host.Outcome State Fault Refusal :=
  s.live (s.flitIn l (head ++ rest) decoded corrected)
/-- NAK_TIMEOUT (R206): NAK_TO passes after a NAK without an accepted flit, and the receiver may send a further NAK.
-/
def execNakTimeout (l : Nat) (s : State) : Host.Outcome State Fault Refusal := s.live (s.nakTimeout l)
/-- REPLAY_TIMEOUT (R207): the oldest unacknowledged flit waits REPLAY_TO, and the transmitter replays from it. -/
def execReplayTimeout (l : Nat) (s : State) : Host.Outcome State Fault Refusal := s.live (s.replayTo l)
/-- LRESET_EXPIRY (R217): 1 µs of LRESET flits ends and the transmitters enter electrical idle. -/
def execLresetExpiry (l : Nat) (s : State) : Host.Outcome State Fault Refusal := s.live (s.lresetOver l)
/-- ELECTRICAL_IDLE_EXPIRY (R219): the 10 µs electrical idle of a link reset ends and the link enters DETECT. -/
def execElectricalIdleExpiry (l : Nat) (s : State) : Host.Outcome State Fault Refusal := s.live (s.idleOver l)
/-- BEACON_RECEIVED (R217): the peer's beacon is received in DETECT and rate and width requests are exchanged, leading
to EQUALIZE. -/
def execBeaconReceived (l : Nat) (rec : TrainRec) (s : State) : Host.Outcome State Fault Refusal := s.live (s.beaconIn l rec)
/-- DETECT_TIMEOUT (R217): No peer beacon arrives within 10 ms and the beacon continues. -/
def execDetectTimeout (l : Nat) (s : State) : Host.Outcome State Fault Refusal := s.live (s.detectTimeout l)
/-- EQUALIZATION_COMPLETE (R218): at least one lane adapts at both ends and the link moves to ALIGN. -/
def execEqualizationComplete (l : Nat) (lanes : Nat) (s : State) : Host.Outcome State Fault Refusal := s.live (s.equalized l lanes)
/-- EQUALIZE_TIMEOUT (R217): No lane adapts within 50 ms and training fails with cause EQ_FAIL. -/
def execEqualizeTimeout (l : Nat) (s : State) : Host.Outcome State Fault Refusal := s.live (s.equalizeTimeout l)
/-- ALIGN_COMPLETE (R196): the selected lanes lock and deskew and the link moves to NEGOTIATE. -/
def execAlignComplete (a : LinkAlign) (s : State) : Host.Outcome State Fault Refusal := s.live (s.aligned a.l a.rx)
/-- ALIGN_TIMEOUT (R217): the lanes do not lock within 1 ms and training fails with cause ALIGN_FAIL. -/
def execAlignTimeout (l : Nat) (s : State) : Host.Outcome State Fault Refusal := s.live (s.alignTimeout l)
/-- TRAINING_RETRY_WAIT_EXPIRY (R217): the wait after a failed training attempt ends and the link returns to DETECT.
-/
def execTrainingRetryWaitExpiry (l : Nat) (s : State) : Host.Outcome State Fault Refusal := s.live (s.retryOver l)
/-- TRAIN_RECORD_RECEIVED (R218): a TRAIN record received in NEGOTIATE agrees, RTT, H and P are set and the link
enters UP, or training fails. -/
def execTrainRecordReceived (l : Nat) (rec : TrainRec) (interval : Nat) (s : State) : Host.Outcome State Fault Refusal :=
  s.live (s.trainIn l rec interval)
/-- LANE_LOCK_LOST (R196): a lane in use loses lock and the link resets with cause LOCK_LOST. -/
def execLaneLockLost (l : Nat) (a : LaneRun) (s : State) : Host.Outcome State Fault Refusal :=
  s.live (s.lockLost l a.lane a.pairs)
/-- SIGNAL_LOST (R220): No signal on a lane in use for 1 µs resets the link with cause SIGNAL_LOST. -/
def execSignalLost (l : Nat) (lane : Nat) (s : State) : Host.Outcome State Fault Refusal := s.live (s.signalLost l lane)
/-- FREFCLK_LOSS (R562): FREFCLK stops for more than 1 µs and every fabric link resets with cause LOCK_LOST. -/
def execFrefclkLoss (s : State) : Host.Outcome State Fault Refusal := s.done (if s.boot.phase = .off then s else s.frefLost)
/-- LINK_GET_STATUS (R226): LINK_GET_STATUS reports the state, training results and counters of a fabric link. -/
def execLinkGetStatus (c : Path) (q : Req) (s : State) : Host.Outcome State Fault Refusal := s.done (direct cmdLinkGetStatus c q s)
/-- LINK_SET (R227): LINK_SET changes enable, width, rate, VC map or shared cap of a link, resetting or training it
where needed. -/
def execLinkSet (c : Path) (q : Req) (s : State) : Host.Outcome State Fault Refusal := s.done (direct cmdLinkSet c q s)
/-- LINK_RESET (R223): LINK_RESET performs a link reset with streams kept, or a failure followed by retraining. -/
def execLinkReset (c : Path) (q : Req) (s : State) : Host.Outcome State Fault Refusal := s.done (direct cmdLinkReset c q s)
/-- LINK_HANDLE_TIMEOUT (R227): a link set or reset handle ends with TIMEOUT when the link has not entered UP within 1
s. -/
def execLinkHandleTimeout (l : Nat) (s : State) : Host.Outcome State Fault Refusal := s.onDie (s.linkHandleOver l)

end Sys2Proof.Machine
end

