-- ==== Sys2Proof/Machine/ExecMail.lean ====
section
/-! DEFINITION. Mailboxes, message paths and device commands: what each command of the block does. -/

namespace Sys2Proof.Machine

open Sys2Proof

/-- The PLDM commands of one type, as GetPLDMCommands reports them (R501, log 41). -/
def State.pldmCommands (s : State) (type : Nat) : State :=
  if type = 0 then s.pldmSend 5 0 (bitField 32 [2, 3, 4, 5])
  else if type = 2 then s.pldmSend 5 0 (bitField 32 [0x11, 0x50, 0x51])
  else s.pldmSend 5 0x83 []

/-- GO (R62): a host write of GO to MB_DOORBELL queues the command in the command buffer, moving the page from IDLE to
QUEUED. -/
def execGo (pg : Nat) (ack : Bool) (s : State) : Host.Outcome State Fault Refusal := s.onDie (s.goWrite pg ack)
/-- ACK (R62): a host write of ACK to MB_DOORBELL consumes the response, moving the page from DONE to IDLE. -/
def execAck (pg : Nat) (s : State) : Host.Outcome State Fault Refusal := s.onDie (s.ackWritten pg)
/-- COMMAND_TAKEN (R62): Ember takes a queued command, copies its header and payload, checks it, executes it and
writes the response. -/
def execCommandTaken (part : Nat) (s : State) : Host.Outcome State Fault Refusal := s.onDie (s.takeCommand part)
/-- REGISTER_WRITE (R17): a write to a register field that has no row of its own sets, clears or ignores the field
according to its access code. -/
def execRegisterWrite (sp : RegSpace) (off : Nat) (size : Nat) (value : Word) (s : State) : Host.Outcome State Fault Refusal :=
  s.onDie (s.regWrite sp off size value.toNat)
/-- MCTP_COMMAND_MESSAGE (R78): a vendor-defined MCTP message that carries a command frame arrives on the sideband or
vendor-message path and is answered with exactly one response. -/
def execMctpCommandMessage (c : Path) (msgTag : Nat) (whole : Bool) (body : Bytes) (s : State) : Host.Outcome State Fault Refusal :=
  s.onDie (s.mctpCommand c msgTag whole body)
/-- SET_ENDPOINT_ID (R75): the MCTP control message Set Endpoint ID assigns the module's endpoint ID. -/
def execSetEndpointId (c : Path) (op : Nat) (eid : Nat) (s : State) : Host.Outcome State Fault Refusal := s.onDie (s.setEid c op eid)
/-- GET_ENDPOINT_ID (R75): the MCTP control message Get Endpoint ID returns the module's endpoint ID. -/
def execGetEndpointId (c : Path) (s : State) : Host.Outcome State Fault Refusal := s.onDie (s.getEid c)
/-- GET_MCTP_VERSION_SUPPORT (R75): the MCTP control message Get MCTP Version Support reports MCTP version 1.3. -/
def execGetMctpVersionSupport (c : Path) (msgType : Nat) (s : State) : Host.Outcome State Fault Refusal := s.onDie (s.mctpVersion c msgType)
/-- GET_MESSAGE_TYPE_SUPPORT (R75): the MCTP control message Get Message Type Support reports the supported message
types. -/
def execGetMessageTypeSupport (c : Path) (s : State) : Host.Outcome State Fault Refusal := s.onDie (s.mctpTypes c)
/-- GET_VENDOR_DEFINED_MESSAGE_SUPPORT (R75): the MCTP control message Get Vendor Defined Message Support reports the
Avaumer vendor command set. -/
def execGetVendorDefinedMessageSupport (c : Path) (selector : Nat) (s : State) : Host.Outcome State Fault Refusal := s.onDie (s.mctpVendor c selector)
/-- DYNAMIC_ADDRESS_ASSIGNMENT (R555): the I3C bus controller assigns the module a dynamic address with SETDASA or
ENTDAA. -/
def execDynamicAddressAssignment (addr : Nat) (s : State) : Host.Outcome State Fault Refusal :=
  s.done (if s.boot.phase = .off then s else s.dynamicAddress addr)
/-- GET_TID (R501): the PLDM command GetTID returns the module's terminus ID. -/
def execGetTid (s : State) : Host.Outcome State Fault Refusal := s.onDie (s.pldmReply 2 0)
/-- GET_PLDM_VERSION (R501): the PLDM command GetPLDMVersion returns the supported PLDM versions. -/
def execGetPldmVersion (type : Nat) (s : State) : Host.Outcome State Fault Refusal := s.onDie (s.pldmReply 3 type)
/-- GET_PLDM_TYPES (R501): the PLDM command GetPLDMTypes returns the supported PLDM types. -/
def execGetPldmTypes (s : State) : Host.Outcome State Fault Refusal := s.onDie (s.pldmSend 4 0 (bitField 8 [0, 2]))
/-- GET_PLDM_COMMANDS (R501): the PLDM command GetPLDMCommands returns the supported PLDM commands. -/
def execGetPldmCommands (type : Nat) (s : State) : Host.Outcome State Fault Refusal := s.onDie (s.pldmCommands type)
/-- GET_PDR_REPOSITORY_INFO (R501): the PLDM command GetPDRRepositoryInfo describes the PDR repository. -/
def execGetPdrRepositoryInfo (s : State) : Host.Outcome State Fault Refusal := s.onDie (s.pldmReply 0x50 0)
/-- GET_PDR (R501): the PLDM command GetPDR returns a numeric sensor PDR. -/
def execGetPdr (record : Nat) (s : State) : Host.Outcome State Fault Refusal := s.onDie (s.pldmReply 0x51 record)
/-- GET_SENSOR_READING (R501): the PLDM command GetSensorReading returns the 1 ms mean of a numeric sensor. -/
def execGetSensorReading (sensor : Nat) (s : State) : Host.Outcome State Fault Refusal := s.onDie (s.sensorReading sensor)
/-- NOP (R66): NOP returns its payload unchanged. -/
def execNop (c : Path) (q : Req) (s : State) : Host.Outcome State Fault Refusal := s.done (direct cmdNop c q s)
/-- DEVICE_INFO (R3): DEVICE_INFO returns the identity, firmware version, mode and caller information of the module.
-/
def execDeviceInfo (c : Path) (q : Req) (s : State) : Host.Outcome State Fault Refusal := s.done (direct cmdDeviceInfo c q s)
/-- GET_OP_STATUS (R70): GET_OP_STATUS reports the state and final status of an operation handle. -/
def execGetOpStatus (c : Path) (q : Req) (s : State) : Host.Outcome State Fault Refusal := s.done (direct cmdGetOpStatus c q s)
/-- WARM_RESET (R80): WARM_RESET announces a firmware-requested warm reset to every partition and schedules it
DELAY_MS after the response. -/
def execWarmReset (c : Path) (q : Req) (s : State) : Host.Outcome State Fault Refusal := s.done (direct cmdWarmReset c q s)
/-- WARM_RESET_DELAY_EXPIRY (R80): the delay of WARM_RESET, FW_ACTIVATE with RESET_NOW, or a lifecycle change expires,
and the firmware-requested warm reset asserts. -/
def execWarmResetDelayExpiry (s : State) : Host.Outcome State Fault Refusal := s.done s.warmDelayOver
/-- CORE_GET_STATUS (R161): CORE_GET_STATUS reports the iteration count, plane state, buffer and spill occupancy, and
core counters. -/
def execCoreGetStatus (c : Path) (q : Req) (s : State) : Host.Outcome State Fault Refusal := s.done (direct cmdCoreGetStatus c q s)
/-- CORE_SET_CONFIG (R192): CORE_SET_CONFIG sets the lossy mask, alphas, weights, drop profiles and hold quotas
together. -/
def execCoreSetConfig (c : Path) (q : Req) (s : State) : Host.Outcome State Fault Refusal := s.done (direct cmdCoreSetConfig c q s)
/-- HEARTH_CTL (R416): HEARTH_CTL reads, starts or stops a Hearth cluster. -/
def execHearthCtl (c : Path) (q : Req) (s : State) : Host.Outcome State Fault Refusal := s.done (direct cmdHearthCtl c q s)
/-- FW_GET_STATUS (R81): FW_GET_STATUS reports the running image, slots, failed starts and the open transfer. -/
def execFwGetStatus (c : Path) (q : Req) (s : State) : Host.Outcome State Fault Refusal := s.done (direct cmdFwGetStatus c q s)
/-- FW_BEGIN (R84): FW_BEGIN opens a transfer on a slot, sets WRITE_PTR to 0 and starts erasing the slot under a
handle. -/
def execFwBegin (c : Path) (q : Req) (s : State) : Host.Outcome State Fault Refusal := s.done (direct cmdFwBegin c q s)
/-- FW_ERASE_COMPLETE (R84): the erase of FW_BEGIN ends, and its handle ends with OK or HW_FAULT. -/
def execFwEraseComplete (ok : Bool) (s : State) : Host.Outcome State Fault Refusal := s.onDie (s.eraseDone ok)
/-- FW_WRITE (R575): FW_WRITE programs image bytes at WRITE_PTR into flash and advances WRITE_PTR. -/
def execFwWrite (c : Path) (q : Req) (s : State) : Host.Outcome State Fault Refusal := s.done (direct cmdFwWrite c q s)
/-- FW_FINISH (R576): FW_FINISH starts the read-back verification of the slot under a handle. -/
def execFwFinish (c : Path) (q : Req) (s : State) : Host.Outcome State Fault Refusal := s.done (direct cmdFwFinish c q s)
/-- FW_VERIFY_COMPLETE (R83): the verification of FW_FINISH ends, closes the transfer and leaves the slot VALID or
INVALID. -/
def execFwVerifyComplete (ok : Bool) (s : State) : Host.Outcome State Fault Refusal := s.onDie (s.verifyDone ok)
/-- FW_ACTIVATE (R85): FW_ACTIVATE writes or removes the activation record, optionally clears FAILED_STARTS and
optionally schedules a warm reset. -/
def execFwActivate (c : Path) (q : Req) (s : State) : Host.Outcome State Fault Refusal := s.done (direct cmdFwActivate c q s)

end Sys2Proof.Machine
end

