-- ==== Sys2Proof/Machine/ExecNet.lean ====
section
/-! DEFINITION. The network: what each command of the block does. -/

namespace Sys2Proof.Machine

open Sys2Proof

/-- FRAME_RECEIVED (R328): a frame from the wire passes MAC checks, parse, priority, ACL, exact-match lookup, metering
and core admission. -/
def execFrameReceived (lport : Nat) (bytes : Bytes) (fcsOk : Bool) (s : State) : Host.Outcome State Fault Refusal :=
  s.live (s.frameIn lport bytes fcsOk)
/-- PFC_FRAME_RECEIVED (R351): a received PFC frame pauses the port TCs of its priorities. -/
def execPfcFrameReceived (lport : Nat) (mask : Nat) (times : List Nat) (s : State) : Host.Outcome State Fault Refusal :=
  s.live (s.pfcIn lport mask times)
/-- PFC_REFRESH (R349): every 0x8000 quanta a continuing XOFF is refreshed. -/
def execPfcRefresh (lport : Nat) (prio : Nat) (s : State) : Host.Outcome State Fault Refusal := s.live (s.pfcRefresh lport prio)
/-- PFC_PAUSE_EXPIRY (R351): the received pause time expires and the port TC may start frames again. -/
def execPfcPauseExpiry (lport : Nat) (prio : Nat) (s : State) : Host.Outcome State Fault Refusal := s.onDie (s.pauseOver lport prio)
/-- PAUSE_WATCH_EXPIRY (R351): a port TC stays paused beyond 100 ms and fault source 7 is set. -/
def execPauseWatchExpiry (lport : Nat) (tc : Nat) (s : State) : Host.Outcome State Fault Refusal := s.live (s.pauseWatch lport tc)
/-- QP_TX_TAIL_WRITE (R337): a host write of QP_TX_TAIL makes transmit descriptors ready, or puts the queue pair into
ERROR. -/
def execQpTxTailWrite (f : Nat) (qp : Nat) (value : Nat) (s : State) : Host.Outcome State Fault Refusal := s.live (s.txTailWrite f qp value)
/-- QP_RX_TAIL_WRITE (R337): a host write of QP_RX_TAIL makes receive descriptors ready, or puts the queue pair into
ERROR. -/
def execQpRxTailWrite (f : Nat) (qp : Nat) (value : Nat) (s : State) : Host.Outcome State Fault Refusal := s.live (s.rxTailWrite f qp value)
/-- TRANSMIT_SCHEDULE (R364): the transmit scheduler of a logical port chooses the next function and packet to fetch
by committed and excess rounds. -/
def execTransmitSchedule (lport : Nat) (s : State) : Host.Outcome State Fault Refusal := s.live (s.txSchedule lport)
/-- DESCRIPTOR_FETCH_COMPLETE (R338): a descriptor fetch or buffer read completes, and the packet is offloaded,
checked and admitted, or the queue pair enters ERROR. -/
def execDescriptorFetchComplete (f : Nat) (qp : Nat) (descs : List TxRaw) (ok : Bool) (s : State) : Host.Outcome State Fault Refusal :=
  s.live (s.fetchDone f qp descs ok)
/-- EGRESS_FRAME_START (R369): at a frame boundary the egress starts a frame from the highest eligible strict TC or by
DWRR. -/
def execEgressFrameStart (lport : Nat) (s : State) : Host.Outcome State Fault Refusal := s.live (s.egressStart lport)
/-- VNIC_RECEIVE (R340): a frame for a vNIC fills receive descriptors and its buffers are written back. -/
def execVnicReceive (f : Nat) (qp : Nat) (bufs : List Nat) (s : State) : Host.Outcome State Fault Refusal := s.live (s.vnicReceive f qp bufs)
/-- RX_WAIT_TIMEOUT (R347): a lossless frame waits RX_WAIT_US for a receive descriptor and is discarded. -/
def execRxWaitTimeout (f : Nat) (qp : Nat) (s : State) : Host.Outcome State Fault Refusal := s.live (s.rxTimeout f qp)
/-- ITR_EXPIRY (R336): the ITR interval of a queue pair ends and a pending vector q message is sent. -/
def execItrExpiry (f : Nat) (qp : Nat) (s : State) : Host.Outcome State Fault Refusal := s.live (s.itrExpiry f qp)
/-- LOGICAL_PORT_LINK_CHANGE (R336): a logical port goes up or down, updating LINK and LINK_CHG of its functions. -/
def execLogicalPortLinkChange (lport : Nat) (up : Bool) (s : State) : Host.Outcome State Fault Refusal := s.live (s.linkChange lport up)
/-- VNIC_FUNCTION_RESET (R354): a function reset of a vNIC function disables its queue pairs, waits for DMA and
restores its settings. -/
def execVnicFunctionReset (f : Nat) (s : State) : Host.Outcome State Fault Refusal := s.live (s.vnicReset f)
/-- QP_DISABLE_COMPLETE (R359): No DMA of a disabled queue pair remains outstanding, and its handle ends. -/
def execQpDisableComplete (f : Nat) (qp : Nat) (s : State) : Host.Outcome State Fault Refusal := s.onDie (s.qpDisabled f qp)
/-- NET_PORT_TRAINING_END (R358): a retrained logical port comes up, or 5 s pass, and the NET_PORT_SET handle ends
with OK or TIMEOUT. -/
def execNetPortTrainingEnd (lport : Nat) (up : Bool) (s : State) : Host.Outcome State Fault Refusal := s.onDie (s.trainingEnd lport up)
/-- NET_GET_STATUS (R357): NET_GET_STATUS reports the mode, state, PFC and counters of a logical port. -/
def execNetGetStatus (c : Path) (q : Req) (s : State) : Host.Outcome State Fault Refusal := s.done (direct cmdNetGetStatus c q s)
/-- NET_PORT_SET (R358): NET_PORT_SET changes enable, mode, PHY, frame size, maps, PFC, default action or timestamping
of a port. -/
def execNetPortSet (c : Path) (q : Req) (s : State) : Host.Outcome State Fault Refusal := s.done (direct cmdNetPortSet c q s)
/-- VNIC_CREATE (R335): VNIC_CREATE creates a vNIC function in a partition on a home logical port. -/
def execVnicCreate (c : Path) (q : Req) (s : State) : Host.Outcome State Fault Refusal := s.done (direct cmdVnicCreate c q s)
/-- VNIC_DESTROY (R355): VNIC_DESTROY disables a function and invalidates its exact-match entries and windows. -/
def execVnicDestroy (c : Path) (q : Req) (s : State) : Host.Outcome State Fault Refusal := s.done (direct cmdVnicDestroy c q s)
/-- VNIC_SET (R344): VNIC_SET changes RSS, tag stripping, MAC and spoof settings of a function. -/
def execVnicSet (c : Path) (q : Req) (s : State) : Host.Outcome State Fault Refusal := s.done (direct cmdVnicSet c q s)
/-- VNIC_QP_SET (R359): VNIC_QP_SET enables, disables or clears ERROR on a queue pair. -/
def execVnicQpSet (c : Path) (q : Req) (s : State) : Host.Outcome State Fault Refusal := s.done (direct cmdVnicQpSet c q s)
/-- NET_EM_SET (R332): NET_EM_SET adds, replaces or removes exact-match entries at one instant. -/
def execNetEmSet (c : Path) (q : Req) (s : State) : Host.Outcome State Fault Refusal := s.done (direct cmdNetEmSet c q s)
/-- NET_ACL_SET (R334): NET_ACL_SET writes ACL entries at one instant. -/
def execNetAclSet (c : Path) (q : Req) (s : State) : Host.Outcome State Fault Refusal := s.done (direct cmdNetAclSet c q s)
/-- NET_PTP_CLOCK (R383): NET_PTP_CLOCK reads, sets, steps or rate-adjusts the PTP clock. -/
def execNetPtpClock (c : Path) (q : Req) (s : State) : Host.Outcome State Fault Refusal := s.done (direct cmdNetPtpClock c q s)

end Sys2Proof.Machine
end

