-- ==== Sys2Proof/Machine/ExecPcie.lean ====
section
/-! DEFINITION. PCIe stations, virtual switches and their requests: what each command of the block does. -/

namespace Sys2Proof.Machine

open Sys2Proof

/-- HOST_MEMORY_REQUEST (R135): a memory request from a host at an upstream port is looked up against the ROM and host
windows and enters the core. -/
def execHostMemoryRequest (port : Nat) (r : MemReq) (s : State) : Host.Outcome State Fault Refusal := s.live (s.hostRequest port r)
/-- DEVICE_MEMORY_REQUEST (R143): a memory request from a device is admitted through the ID map and translated by
device requester windows, or forwarded upstream. -/
def execDeviceMemoryRequest (port : Nat) (r : MemReq) (s : State) : Host.Outcome State Fault Refusal := s.live (s.deviceRequest port r)
/-- ADMISSION_RETRY (R166): a packet that waited at its ingress for admission, slot reservation, spill space or a
redirection is admitted when room becomes free. -/
def execAdmissionRetry (i : Nat) (s : State) : Host.Outcome State Fault Refusal := s.live (s.retryAdmission i)
/-- NP_SLOT_RESERVED (R97): a non-posted request waiting in its ingress station reserves an egress non-posted slot and
enters the core. -/
def execNpSlotReserved (port : Nat) (i : Nat) (s : State) : Host.Outcome State Fault Refusal := s.live (s.npReserve port i)
/-- EGRESS_TLP_ISSUE (R123): an egress station sends a stored TLP on its link once a tag and link credits are
available. -/
def execEgressTlpIssue (port : Nat) (s : State) : Host.Outcome State Fault Refusal := s.live (s.egressIssue port)
/-- PCIE_ACK_RECEIVED (R139): the link partner's data link layer acknowledges a TLP, so the packet leaves the module
and its drain tracker falls. -/
def execPcieAckReceived (port : Nat) (s : State) : Host.Outcome State Fault Refusal := s.live (s.tlpAcked port)
/-- COMPLETION_RECEIVED (R96): a completion arriving at a PCIe port is matched to its tag record and returned to the
original requester. -/
def execCompletionReceived (port : Nat) (cpl : Cpl) (s : State) : Host.Outcome State Fault Refusal := s.live (s.cplReceived port cpl)
/-- PCIE_MESSAGE_RECEIVED (R119): a PCIe message from a device, such as an error message or INTx, is routed to the
owning partition. -/
def execPcieMessageReceived (port : Nat) (rid : Nat) (msg : PcieMsg) (s : State) : Host.Outcome State Fault Refusal :=
  s.live (s.messageIn port rid msg)
/-- COMPLETION_TIMEOUT (R103): a port's completion timeout fires, Completer Abort is returned and the tag is
quarantined. -/
def execCompletionTimeout (port : Nat) (tag : Nat) (s : State) : Host.Outcome State Fault Refusal := s.onDie (s.cplTimeout port tag)
/-- TAG_QUARANTINE_END (R103): the quarantine of a timed-out tag expires and the tag returns to the pool. -/
def execTagQuarantineEnd (port : Nat) (tag : Nat) (s : State) : Host.Outcome State Fault Refusal := s.onDie (s.quarEnd port tag)
/-- PCIE_LINK_DOWN (R104): a physical PCIe link goes down, and outstanding requests receive Unsupported Request. -/
def execPcieLinkDown (port : Nat) (s : State) : Host.Outcome State Fault Refusal := s.onDie (s.linkDown port)
/-- CONFIGURATION_REQUEST (R108): a configuration request to the virtual switch or below is emulated or forwarded by
Ember's configuration engine. -/
def execConfigurationRequest (p : Nat) (r : CfgReq) (s : State) : Host.Outcome State Fault Refusal := s.live ((s.cfgRequest p r).mgmtUnmask p)
/-- BAR_WRITE (R109): a host write of an emulated BAR while Memory Space Enable is set updates the enumeration entries
before completing. -/
def execBarWrite (p : Nat) (k : Nat) (fn : Nat) (bar : Nat) (value : Word) (s : State) : Host.Outcome State Fault Refusal :=
  s.live (s.barWrite p k fn bar value)
/-- MEMORY_SPACE_ENABLE_WRITE (R109): Setting Memory Space Enable, or changing a vDSP memory window, commits the
enumeration entries of the BARs. -/
def execMemorySpaceEnableWrite (p : Nat) (k : Nat) (fn : Nat) (en : Bool) (s : State) : Host.Outcome State Fault Refusal :=
  s.live (s.memEnWrite p k fn en)
/-- POWER_CONTROLLER_CONTROL_WRITE (R112): a host write of Power Controller Control on a vDSP powers its slot off or
on. -/
def execPowerControllerControlWrite (p : Nat) (k : Nat) (off : Bool) (s : State) : Host.Outcome State Fault Refusal :=
  s.live (if k < (s.vs p).vdspCount then s.powerControl p k off else s)
/-- DPC_TRIGGER_STATUS_CLEAR (R112): a host clears DPC Trigger Status on a vDSP, releasing containment when the
physical port is not contained. -/
def execDpcTriggerStatusClear (p : Nat) (k : Nat) (s : State) : Host.Outcome State Fault Refusal :=
  s.live (if k < (s.vs p).vdspCount then s.dpcClear p k else s)
/-- DPC_SOFTWARE_TRIGGER (R121): the host's software trigger starts emulated DPC on a vDSP. -/
def execDpcSoftwareTrigger (p : Nat) (k : Nat) (s : State) : Host.Outcome State Fault Refusal :=
  s.live (if (s.vdsp p k).bound then s.dpcVdsp p k else s)
/-- SECONDARY_BUS_RESET (R116): Secondary Bus Reset set in a vDSP resets its target only. -/
def execSecondaryBusReset (p : Nat) (k : Nat) (s : State) : Host.Outcome State Fault Refusal := s.live (s.secondaryReset p k)
/-- FUNCTION_FLR (R116): FLR of a function below a vDSP is forwarded, or performed as a function reset of a module
function. -/
def execFunctionFlr (p : Nat) (k : Nat) (fn : Nat) (s : State) : Host.Outcome State Fault Refusal := s.live (s.functionFlr p k fn)
/-- MGMT_FUNCTION_FLR (R86): FLR of the management function performs a P reset of the partition's mailbox page. -/
def execMgmtFunctionFlr (p : Nat) (s : State) : Host.Outcome State Fault Refusal := s.live (if (s.vs p).up.isSome then s.mgmtFlr p else s)
/-- UNPLUG_TIMER_EXPIRY (R112): the unplug timer of a vDSP in UNPLUG_REQUESTED expires, the binding is kept and
VDSP_UNBIND ends with TIMEOUT. -/
def execUnplugTimerExpiry (p : Nat) (k : Nat) (s : State) : Host.Outcome State Fault Refusal := s.onDie (s.unplugOver p k)
/-- TARGET_LOST (R112): a device found absent for 100 ms, or a withdrawn remote module, moves its bound vDSPs to
REMOVING. -/
def execTargetLost (t : LostTarget) (s : State) : Host.Outcome State Fault Refusal := s.onDie (s.targetLost t)
/-- VDSP_DRAIN_END (R112): the target reset and the drain of a vDSP in REMOVING end, the binding is removed and
VDSP_UNBIND ends with OK. -/
def execVdspDrainEnd (p : Nat) (k : Nat) (s : State) : Host.Outcome State Fault Refusal := s.onDie (s.drainOver p k)
/-- PRESENCE_CHANGE (R115): Receiver detection finds a presence change on a downstream port and starts the bring-up
sequence. -/
def execPresenceChange (port : Nat) (present : Bool) (s : State) : Host.Outcome State Fault Refusal := s.onDie (s.presenceChanged port present)
/-- PERST_HOLD_EXPIRY (R115): the PERST_N hold time of a downstream port bring-up ends and PERST_N is released. -/
def execPerstHoldExpiry (port : Nat) (s : State) : Host.Outcome State Fault Refusal := s.onDie (s.perstHoldOver port)
/-- DATA_LINK_ACTIVE (R115): a downstream link reaches data link layer active and the 100 ms wait before configuration
begins. -/
def execDataLinkActive (port : Nat) (width : Nat) (rate : Nat) (flit : Bool) (s : State) : Host.Outcome State Fault Refusal :=
  s.live (s.dataLinkUp port width rate flit)
/-- LINK_DETECT_TIMEOUT (R115): a downstream link does not become active within 100 ms, and the port reports no
device. -/
def execLinkDetectTimeout (port : Nat) (s : State) : Host.Outcome State Fault Refusal := s.onDie (s.detectOver port)
/-- CONFIG_WAIT_EXPIRY (R115): the 100 ms wait ends and the first configuration request is sent to the device. -/
def execConfigWaitExpiry (port : Nat) (s : State) : Host.Outcome State Fault Refusal := s.onDie (s.configWaitOver port)
/-- DEVICE_NOT_READY_TIMEOUT (R115): the device still answers Request Retry Status after its maximum, and the port
reports it not ready and unbound. -/
def execDeviceNotReadyTimeout (port : Nat) (s : State) : Host.Outcome State Fault Refusal := s.onDie (s.notReadyOver port)
/-- UPSTREAM_PERST_N_ASSERT (R116): PERST_N asserted on an upstream port resets the partition's virtual hierarchy and
propagates resets to its targets. -/
def execUpstreamPerstNAssert (a : PerstPulse) (s : State) : Host.Outcome State Fault Refusal :=
  s.done (s.perstAssert a.port a.ns)
/-- UPSTREAM_PERST_N_RELEASE (R117): PERST_N released on an upstream port ends the partition reset, with Request Retry
Status until propagated resets complete. -/
def execUpstreamPerstNRelease (port : Nat) (s : State) : Host.Outcome State Fault Refusal := s.done (s.perstRelease port)
/-- HOT_RESET (R116): In-band hot reset or data link layer down on an upstream port acts as PERST_N. -/
def execHotReset (port : Nat) (s : State) : Host.Outcome State Fault Refusal :=
  s.live (if (s.port port).role = .upstream ∧ !(s.vs (s.port port).part).inReset then s.upstreamReset port else s)
/-- PORT_GET_STATUS (R124): PORT_GET_STATUS reports the role, link, tags and slot state of a PCIe port. -/
def execPortGetStatus (c : Path) (q : Req) (s : State) : Host.Outcome State Fault Refusal := s.done (direct cmdPortGetStatus c q s)
/-- PORT_SET_CONFIG (R124): PORT_SET_CONFIG sets the completion timeout, target rate, TC map and ASPM of a port
together. -/
def execPortSetConfig (c : Path) (q : Req) (s : State) : Host.Outcome State Fault Refusal := s.done (direct cmdPortSetConfig c q s)
/-- PORT_RESET (R118): PORT_RESET performs a hot reset, PERST_N pulse, link disable or enable, retrain or DPC release
on a downstream port. -/
def execPortReset (c : Path) (q : Req) (s : State) : Host.Outcome State Fault Refusal := s.done (direct cmdPortReset c q s)
/-- PORT_RESET_COMPLETE (R118): the reset of PORT_RESET ends and its handle ends with OK or TIMEOUT. -/
def execPortResetComplete (port : Nat) (linkUp : Bool) (s : State) : Host.Outcome State Fault Refusal := s.onDie (s.portResetDone port linkUp)
/-- VDSP_BIND (R125): VDSP_BIND binds a target to an empty vDSP and moves it to PRESENT. -/
def execVdspBind (c : Path) (q : Req) (s : State) : Host.Outcome State Fault Refusal := s.done (direct cmdVdspBind c q s)
/-- VDSP_UNBIND (R112): VDSP_UNBIND starts an orderly or forced virtual hot-unplug of a vDSP. -/
def execVdspUnbind (c : Path) (q : Req) (s : State) : Host.Outcome State Fault Refusal := s.done (direct cmdVdspUnbind c q s)
/-- VDSP_GET (R124): VDSP_GET reports the binding and state of a vDSP. -/
def execVdspGet (c : Path) (q : Req) (s : State) : Host.Outcome State Fault Refusal := s.done (direct cmdVdspGet c q s)

end Sys2Proof.Machine
end

