-- ==== Sys2Proof/Machine/ExecPool.lean ====
section
/-! DEFINITION. The memory pool: what each command of the block does. -/

namespace Sys2Proof.Machine

open Sys2Proof

/-- POOL_ACCESS (R270): an access reaches a pool port, which executes or refuses it according to the sod's state. -/
def execPoolAccess (m : Nat) (a : PoolAcc) (ecc : Eccs) (s : State) : Host.Outcome State Fault Refusal := s.live (s.poolAccess m a ecc)
/-- ZEROING_COMPLETE (R269): every byte of a sod has been zeroed and its scrub pass begins. -/
def execZeroingComplete (sod : Nat) (s : State) : Host.Outcome State Fault Refusal := s.onDie (s.zeroed sod)
/-- SCRUB_COMPLETE (R269): a sod's scrub pass ends and it becomes FREE, RETIRED or the reserve. -/
def execScrubComplete (sod : Nat) (ue : Bool) (s : State) : Host.Outcome State Fault Refusal := s.onDie (s.scrubOver sod ue)
/-- POOL_FENCE_COMPLETE (R271): every pool port has received its fence markers, completing the pool fence. -/
def execPoolFenceComplete (id : Nat) (s : State) : Host.Outcome State Fault Refusal := s.onDie (s.fenceDone id)
/-- PATROL_SCRUB_READ (R276): Patrol scrub reads a line, writes back corrections and handles uncorrectable errors. -/
def execPatrolScrubRead (sod line : Nat) (ecc : Ecc) (s : State) : Host.Outcome State Fault Refusal :=
  s.live (s.patrol (sod * 2 ^ 24 + line) ecc)
/-- CHANNEL_LOST (R277): a DDR channel fails training or loses its PHY, and its sods take CHLOST or are retired. -/
def execChannelLost (ch : Nat) (s : State) : Host.Outcome State Fault Refusal := s.onDie (s.channelLost ch)
/-- POOL_GET_STATUS (R284): POOL_GET_STATUS reports the pool's population, layout and sod counts. -/
def execPoolGetStatus (c : Path) (q : Req) (s : State) : Host.Outcome State Fault Refusal := s.done (direct cmdPoolGetStatus c q s)
/-- POOL_CONFIG (R286): POOL_CONFIG changes the wide sod count or the spill region size. -/
def execPoolConfig (c : Path) (q : Req) (s : State) : Host.Outcome State Fault Refusal := s.done (direct cmdPoolConfig c q s)
/-- SOD_ASSIGN (R287): SOD_ASSIGN assigns a run of FREE sods to a partition, pool function or cluster. -/
def execSodAssign (c : Path) (q : Req) (s : State) : Host.Outcome State Fault Refusal := s.done (direct cmdSodAssign c q s)
/-- SOD_RELEASE (R271): SOD_RELEASE invalidates dependent entries and starts fence, zeroing and scrub of the released
sods. -/
def execSodRelease (c : Path) (q : Req) (s : State) : Host.Outcome State Fault Refusal := s.done (direct cmdSodRelease c q s)
/-- SOD_QUERY (R285): SOD_QUERY returns the state and flags of a range of sods. -/
def execSodQuery (c : Path) (q : Req) (s : State) : Host.Outcome State Fault Refusal := s.done (direct cmdSodQuery c q s)
/-- SOD_SET (R288): SOD_SET clears POISON, sets or clears EXPORTED, or returns retired sods to service. -/
def execSodSet (c : Path) (q : Req) (s : State) : Host.Outcome State Fault Refusal := s.done (direct cmdSodSet c q s)

end Sys2Proof.Machine
end

