-- ==== Sys2Proof/Machine/ExecPower.lean ====
section
/-! DEFINITION. Power: what each command of the block does. -/

namespace Sys2Proof.Machine

open Sys2Proof

/-- POWER_EN_ASSERTED (R487): POWER_EN stays asserted through its 1.0 ms filter, and soft-start may begin. -/
def execPowerEnAsserted (s : State) : Host.Outcome State Fault Refusal := s.done s.powerEnOn
/-- POWER_EN_DEASSERTED (R490): POWER_EN stays deasserted through its filter and the orderly stop runs. -/
def execPowerEnDeasserted (s : State) : Host.Outcome State Fault Refusal := s.done s.powerEnOff
/-- SOFT_START_COMPLETE (R485): VHOLD reaches within 1 V of VIN, C_HOLD is measured and the bus converter starts. -/
def execSoftStartComplete (choldUf : Nat) (s : State) : Host.Outcome State Fault Refusal := s.done (s.softStartOver choldUf)
/-- RAILS_GOOD (R465): the main rails reach regulation and the supervisor hold begins. -/
def execRailsGood (s : State) : Host.Outcome State Fault Refusal := s.done s.railsGood
/-- RESET_THRESHOLD (R493): VHOLD falls below the reset threshold and a brownout asserts. -/
def execResetThreshold (s : State) : Host.Outcome State Fault Refusal := s.done s.resetThreshold
/-- OVER_VOLTAGE_LOCKOUT (R493): VIN rises above the over-voltage lockout and a brownout asserts. -/
def execOverVoltageLockout (s : State) : Host.Outcome State Fault Refusal := s.done s.overVoltage
/-- OVER_VOLTAGE_RELEASE (R492): VIN falls below the over-voltage release, allowing a restart. -/
def execOverVoltageRelease (s : State) : Host.Outcome State Fault Refusal := s.done s.overVoltageOver
/-- RESET_RELEASE_LEVEL (R492): VIN rises above the reset release and start-up lockout, allowing a restart. -/
def execResetReleaseLevel (s : State) : Host.Outcome State Fault Refusal := s.done s.releaseLevel
/-- BROWNOUT_HOLDOFF_EXPIRY (R493): the 100 ms rails-off interval after a brownout ends and restart may begin. -/
def execBrownoutHoldoffExpiry (s : State) : Host.Outcome State Fault Refusal := s.done s.holdoffOver
/-- THERMAL_TRIP (R493): Tj reaches the trip point, THERM_TRIP_N asserts and a brownout follows. -/
def execThermalTrip (s : State) : Host.Outcome State Fault Refusal := s.done s.thermalTrip
/-- THERMAL_TRIP_CLEAR (R493): Tj falls to 95 °C and THERM_TRIP_N is released. -/
def execThermalTripClear (s : State) : Host.Outcome State Fault Refusal := s.done s.thermalTripOver
/-- SAG_WARNING (R494): an armed warning fires as VHOLD crosses V_WARN, alerting and, under SAG_ACTION 0, starting the
orderly stop. -/
def execSagWarning (vhold : Nat) (s : State) : Host.Outcome State Fault Refusal := s.done (s.sagWarning vhold)
/-- WARNING_CLEAR (R494): VHOLD reaches the warning clear level, arming or clearing the warning. -/
def execWarningClear (vhold : Nat) (s : State) : Host.Outcome State Fault Refusal := s.done (s.warningClear vhold)
/-- EFUSE_FAULT_TIMER (R484): the eFuse stays in current limit for 5 ms and turns off as a brownout. -/
def execEfuseFaultTimer (s : State) : Host.Outcome State Fault Refusal := s.done s.efuseTimer
/-- EFUSE_SHORT_CIRCUIT (R484): Input current above 40 A turns the eFuse off within 2 µs. -/
def execEfuseShortCircuit (s : State) : Host.Outcome State Fault Refusal := s.done s.efuseOff
/-- EFUSE_RETRY (R484): 1 s after an eFuse turn-off the eFuse retries, unless three failures have occurred. -/
def execEfuseRetry (s : State) : Host.Outcome State Fault Refusal := s.done s.efuseRetryNow
/-- RAIL_OUT_OF_TOLERANCE (R502): a main rail stays outside ±5 % or ±10 % for 10 µs and sets fault source 7 or 8. -/
def execRailOutOfTolerance (sensor : Nat) (ten : Bool) (s : State) : Host.Outcome State Fault Refusal := s.done (s.railOut sensor ten)
/-- THERMAL_WARNING (R502): Tj reaches THERM_WARN and sets fault source 9. -/
def execThermalWarning (tj : Nat) (s : State) : Host.Outcome State Fault Refusal := s.done (s.thermalWarning tj)
/-- TELEMETRY_SAMPLE (R501): every 1 ms the sensor readings are refreshed as 1 ms means. -/
def execTelemetrySample (t : TeleSample) (s : State) : Host.Outcome State Fault Refusal := s.done (s.telemetry t)
/-- PWR_GET_STATUS (R505): PWR_GET_STATUS reports input, hold-up, rails, alerts and temperatures. -/
def execPwrGetStatus (c : Path) (q : Req) (s : State) : Host.Outcome State Fault Refusal := s.done (direct cmdPwrGetStatus c q s)
/-- PWR_SET_CONFIG (R506): PWR_SET_CONFIG sets SAG_ACTION, V_WARN, ALERT_MASK and THERM_WARN together. -/
def execPwrSetConfig (c : Path) (q : Req) (s : State) : Host.Outcome State Fault Refusal := s.done (direct cmdPwrSetConfig c q s)

end Sys2Proof.Machine
end

