-- ==== Sys2Proof/Machine/ExecReset.lean ====
section
/-! DEFINITION. Reset and boot: what each command of the block does. -/

namespace Sys2Proof.Machine

open Sys2Proof

/-- POWER_ON (R453): the auxiliary rail rises into regulation and a cold reset restores every field. -/
def execPowerOn (s : State) : Host.Outcome State Fault Refusal := s.done (s.coldReset .railsOff)
/-- AUX_RAIL_LOST (R476): Both VIN and VHOLD fall below 18 V and retained state is lost. -/
def execAuxRailLost (s : State) : Host.Outcome State Fault Refusal := s.done (s.coldReset .off)
/-- MODULE_RESET (R455): a taken low pulse on MODULE_RESET_N asserts a warm module reset. -/
def execModuleReset (lowNs : Nat) (s : State) : Host.Outcome State Fault Refusal := s.done (s.moduleResetPulse lowNs)
/-- WATCHDOG_EXPIRY (R456): the Ember watchdog expires, fault source 3 of block 0x32 is set and a source 4 reset
follows. -/
def execWatchdogExpiry (s : State) : Host.Outcome State Fault Refusal := s.done s.watchdogOver
/-- RESET_PULSE_END (R455): the 10 µs assertion of a source 4 reset ends and release begins. -/
def execResetPulseEnd (s : State) : Host.Outcome State Fault Refusal := s.done s.pulseEnd
/-- SUPERVISOR_RELEASE (R460): the supervisor hold ends, straps are sampled and Kindling runs the start sequence to
FW_READY. -/
def execSupervisorRelease (env : BootEnv) (s : State) : Host.Outcome State Fault Refusal := s.done (s.supervisorRelease env)
/-- START_TIMER_EXPIRY (R471): the start timer reaches 30 s before FW_READY, causing a source 4 reset with sub-cause
4. -/
def execStartTimerExpiry (s : State) : Host.Outcome State Fault Refusal := s.done s.startTimerOver
/-- STABLE_INTERVAL_EXPIRY (R471): 60 s after FW_READY Ember clears PENDING and FAILED_STARTS. -/
def execStableIntervalExpiry (s : State) : Host.Outcome State Fault Refusal := s.onDie s.stableOver
/-- HOST_DOWNLOAD_GO (R469): in host download a GO starts reading the image from host memory. -/
def execHostDownloadGo (s : State) : Host.Outcome State Fault Refusal := s.onDie s.downloadGo
/-- HOST_DOWNLOAD_COMPLETE (R469): the downloaded image has been read and verified, or has failed, and the status is
written. -/
def execHostDownloadComplete (image : Bytes) (ok : Bool) (s : State) : Host.Outcome State Fault Refusal := s.onDie (s.downloadDone image ok)
/-- PEER_IMAGE_RECEIVED (R470): in fabric peer download the image from a peer arrives and is verified. -/
def execPeerImageReceived (m : Nat) (image : Bytes) (s : State) : Host.Outcome State Fault Refusal := s.onDie (s.peerImageIn m image)

end Sys2Proof.Machine
end

