-- ==== Sys2Proof/Machine/ExecRetort.lean ====
section
/-! DEFINITION. Retort: what each command of the block does. -/

namespace Sys2Proof.Machine

open Sys2Proof

/-- CONTRIBUTION (R300): a posted write to a group's contribution area is checked and added exactly into the chunk
accumulator. -/
def execContribution (g : Nat) (slot : Nat) (chunkSlot : Nat) (byte : Nat) (data : Bytes) (ep : Bool) (s : State) : Host.Outcome State Fault Refusal :=
  s.live (s.contribute g slot chunkSlot byte data ep)
/-- ENGINE_PACKET (R310): a PTYPE 5 partial, result, forwarded contribution or failure notice reaches an instance. -/
def execEnginePacket (k : EngPkt) (s : State) : Host.Outcome State Fault Refusal := s.live (s.enginePkt k)
/-- PULL_READ_COMPLETE (R303): the read of a PULL slot's chunk with reservations completes and the slot is complete.
-/
def execPullReadComplete (g : Nat) (chunk : Nat) (slot : Nat) (ecc : Eccs) (s : State) : Host.Outcome State Fault Refusal :=
  s.live (s.pullRead g chunk slot ecc)
/-- FLUSH_READ_COMPLETE (R307): a flush read, or the pool ports' report of writes executed, completes and the withheld
doorbell is written. -/
def execFlushReadComplete (g : Nat) (slot : Nat) (ok : Bool) (s : State) : Host.Outcome State Fault Refusal := s.live (s.flushDone g slot ok)
/-- CHUNK_TIMEOUT (R312): a chunk's timer fires before it completes and the instance fails with cause 1. -/
def execChunkTimeout (g : Nat) (chunk : Nat) (s : State) : Host.Outcome State Fault Refusal := s.live (s.chunkTimer g chunk)
/-- GROUP_MOVE_COMPLETE (R317): the old engine has delivered every chunk below K and the fence has reached it, so the
move ends. -/
def execGroupMoveComplete (g : Nat) (s : State) : Host.Outcome State Fault Refusal := s.live (s.moveOver g)
/-- GROUP_DESTROY_COMPLETE (R291): the engine has released a destroyed instance and the fence has reached it, ending
the handle. -/
def execGroupDestroyComplete (g : Nat) (s : State) : Host.Outcome State Fault Refusal := s.live (s.destroyOver g)
/-- RT_GET_STATUS (R322): RT_GET_STATUS reports instances, participants and per-engine state. -/
def execRtGetStatus (c : Path) (q : Req) (s : State) : Host.Outcome State Fault Refusal := s.done (direct cmdRtGetStatus c q s)
/-- RT_PART_SET (R321): RT_PART_SET gives a host partition a block of group IDs. -/
def execRtPartSet (c : Path) (q : Req) (s : State) : Host.Outcome State Fault Refusal := s.done (direct cmdRtPartSet c q s)
/-- RT_GROUP_CREATE (R323): RT_GROUP_CREATE creates an instance or adds slots to one in DEFINING. -/
def execRtGroupCreate (c : Path) (q : Req) (s : State) : Host.Outcome State Fault Refusal := s.done (direct cmdRtGroupCreate c q s)
/-- RT_GROUP_DESTROY (R315): RT_GROUP_DESTROY discards an instance's chunks and invalidates its windows. -/
def execRtGroupDestroy (c : Path) (q : Req) (s : State) : Host.Outcome State Fault Refusal := s.done (direct cmdRtGroupDestroy c q s)
/-- RT_GROUP_READ (R322): RT_GROUP_READ returns the descriptor, failure record and participant entries of an instance.
-/
def execRtGroupRead (c : Path) (q : Req) (s : State) : Host.Outcome State Fault Refusal := s.done (direct cmdRtGroupRead c q s)
/-- RT_GROUP_RESET (R324): RT_GROUP_RESET discards chunks in flight, rewinds CDONE, sets GEN and makes the instance
ACTIVE. -/
def execRtGroupReset (c : Path) (q : Req) (s : State) : Host.Outcome State Fault Refusal := s.done (direct cmdRtGroupReset c q s)
/-- RT_GROUP_MOVE (R316): RT_GROUP_MOVE moves an instance to another engine with a cutover chunk. -/
def execRtGroupMove (c : Path) (q : Req) (s : State) : Host.Outcome State Fault Refusal := s.done (direct cmdRtGroupMove c q s)

end Sys2Proof.Machine
end

