-- ==== Sys2Proof/Machine/ExecTest.lean ====
section
/-! DEFINITION. Test, ageing, lifecycle, JTAG, and events of the input path: what each command of the block does. -/

namespace Sys2Proof.Machine

open Sys2Proof

/-- CHAR_SAMPLE (R536): a Char monitor sensor is sampled on its schedule. -/
def execCharSample (kind : Nat) (idx : Nat) (margin : Nat) (base : Nat) (bad : Bool) (s : State) : Host.Outcome State Fault Refusal :=
  s.onDie (s.charSample kind idx margin base bad)
/-- MARGIN_REPLAN (R539): Hourly, Ember raises the core rail, adjusts N, throttles Hearth, re-adapts lanes and updates
the budget. -/
def execMarginReplan (m : PlanMeas) (s : State) : Host.Outcome State Fault Refusal := s.onDie (s.replan m)
/-- BIST_COMPLETE (R532): a block's BIST ends, and it returns to service or stays OFFLINE_FAILED. -/
def execBistComplete (block : Nat) (mMisr : Nat) (lMisr : Nat) (repairs : Nat) (spare : Bool) (ms : Nat) (s : State) : Host.Outcome State Fault Refusal :=
  s.onDie (s.bistDone block mMisr lMisr repairs spare ms)
/-- NONCE_EXPIRY (R527): an RMA nonce expires 10 minutes after issue. -/
def execNonceExpiry (s : State) : Host.Outcome State Fault Refusal := s.onDie s.nonceOver
/-- BIST_RUN (R531): BIST_RUN takes a block offline and runs MBIST, LBIST or both under a handle. -/
def execBistRun (c : Path) (q : Req) (s : State) : Host.Outcome State Fault Refusal := s.done (direct cmdBistRun c q s)
/-- BIST_GET (R530): BIST_GET reports a block's BIST state, signatures and repairs. -/
def execBistGet (c : Path) (q : Req) (s : State) : Host.Outcome State Fault Refusal := s.done (direct cmdBistGet c q s)
/-- LC_ADVANCE (R526): LC_ADVANCE programs the lifecycle fuses from FACTORY to PRODUCTION. -/
def execLcAdvance (c : Path) (q : Req) (s : State) : Host.Outcome State Fault Refusal := s.done (direct cmdLcAdvance c q s)
/-- RMA_CHALLENGE (R529): RMA_CHALLENGE issues a fresh nonce for an RMA unlock. -/
def execRmaChallenge (c : Path) (q : Req) (s : State) : Host.Outcome State Fault Refusal := s.done (direct cmdRmaChallenge c q s)
/-- RMA_UNLOCK (R527): RMA_UNLOCK verifies a token, clears retained state and programs the RMA state. -/
def execRmaUnlock (c : Path) (q : Req) (s : State) : Host.Outcome State Fault Refusal := s.done (direct cmdRmaUnlock c q s)
/-- AGE_GET_STATUS (R545): AGE_GET_STATUS reports the setpoint, N, throttle, budgets and projected life. -/
def execAgeGetStatus (c : Path) (q : Req) (s : State) : Host.Outcome State Fault Refusal := s.done (direct cmdAgeGetStatus c q s)
/-- AGE_SET_CONFIG (R549): AGE_SET_CONFIG sets STEP_EN and TJ_PLAN_MIN or runs a re-plan. -/
def execAgeSetConfig (c : Path) (q : Req) (s : State) : Host.Outcome State Fault Refusal := s.done (direct cmdAgeSetConfig c q s)
/-- BYPASS (R556): the JTAG instruction BYPASS selects the bypass register. -/
def execBypass (bit : Bool) (s : State) : Host.Outcome State Fault Refusal := s.done (s.jtagBypass bit)
/-- IDCODE (R556): the JTAG instruction IDCODE selects the identification register. -/
def execIdcode (s : State) : Host.Outcome State Fault Refusal := s.done (s.jtagSelect .idcode idcodeValue)
/-- SAMPLE_PRELOAD (R556): the JTAG instruction SAMPLE/PRELOAD samples or preloads the boundary-scan register. -/
def execSamplePreload (cells : List Bool) (s : State) : Host.Outcome State Fault Refusal := s.done (s.jtagSample cells)
/-- EXTEST (R556): the JTAG instruction EXTEST drives lands from the boundary-scan register when TEST_MODE was high.
-/
def execExtest (s : State) : Host.Outcome State Fault Refusal := s.done (s.jtagTest .extest Jtag.drive)
/-- INTEST (R556): the JTAG instruction INTEST tests internal logic when TEST_MODE was high. -/
def execIntest (s : State) : Host.Outcome State Fault Refusal := s.done (s.jtagTest .intest Jtag.drive)
/-- CLAMP (R556): the JTAG instruction CLAMP holds land states when TEST_MODE was high. -/
def execClamp (s : State) : Host.Outcome State Fault Refusal := s.done (s.jtagTest .clamp Jtag.drive)
/-- HIGHZ (R556): the JTAG instruction HIGHZ floats the scanned outputs when TEST_MODE was high. -/
def execHighz (s : State) : Host.Outcome State Fault Refusal := s.done (s.jtagTest .highz Jtag.float)
/-- EFUSE_CURRENT_LIMIT (R484): the input current reaches the eFuse limit, the eFuse enters current limit, fault
source 4 of block 0x36 is set and ALERT_N cause bit 1 becomes active. -/
def execEfuseCurrentLimit (s : State) : Host.Outcome State Fault Refusal := s.done s.efuseLimit
/-- EFUSE_ON_INTERVAL (R484): the eFuse has stayed on for 10 s without turning off, and its count of consecutive
failures returns to 0. -/
def execEfuseOnInterval (s : State) : Host.Outcome State Fault Refusal := s.done s.efuseHolds
/-- PROPAGATED_RESET_COMPLETE (R117): every reset propagated from an upstream reset has completed, and the upstream
bridge and management function stop answering with Request Retry Status. -/
def execPropagatedResetComplete (p : Nat) (s : State) : Host.Outcome State Fault Refusal := s.onDie (s.resetsDone p)
/-- CLOCK_DOMAIN_RELEASE (R460): a clocked domain held in reset for lack of its reference clock sees the clock stable
for 256 cycles and leaves reset. -/
def execClockDomainRelease (d : ClkDom) (s : State) : Host.Outcome State Fault Refusal := s.done (if s.boot.phase = .off then s else s.clockRelease d)

end Sys2Proof.Machine
end

