-- ==== Sys2Proof/Machine/ExecTraffic.lean ====
section
/-! DEFINITION. Traffic management and PTP: what each command of the block does. -/

namespace Sys2Proof.Machine

open Sys2Proof

/-- GATE_ENTRY_TRANSITION (R377): at an entry boundary of the operational list the gate engine opens and closes port
TC gates. -/
def execGateEntryTransition (lport : Nat) (s : State) : Host.Outcome State Fault Refusal := s.live (s.gateStep lport)
/-- GATE_CHANGE_TIME (R379): a pending gate list's change time arrives, it becomes operational and its comparator is
released. -/
def execGateChangeTime (lport : Nat) (s : State) : Host.Outcome State Fault Refusal := s.live (s.gateTime lport)
/-- PTP_OUTPUT_EDGE (R387): an enabled PTP output drives its land high or low at its PTP instant. -/
def execPtpOutputEdge (k : Nat) (s : State) : Host.Outcome State Fault Refusal := s.live (s.ptpOutEdge k)
/-- PTP_INPUT_EDGE (R388): a selected edge on an enabled PTP input is timestamped and queued, with an optional event.
-/
def execPtpInputEdge (k : Nat) (falling : Bool) (s : State) : Host.Outcome State Fault Refusal := s.live (s.ptpInEdge k falling)
/-- PTP_CLOCK_LOSS (R560): the selected PTP_CLK_IN stops for 1 µs and the PTP domain continues from the internal
oscillator. -/
def execPtpClockLoss (s : State) : Host.Outcome State Fault Refusal := s.done (if s.boot.phase = .off then s else s.ptpClockLost)
/-- PTP_CLOCK_RELOCK (R560): PTP_CLK_IN returns and the PTP domain locks to it again. -/
def execPtpClockRelock (s : State) : Host.Outcome State Fault Refusal := s.done (if s.boot.phase = .off then s else s.ptpClockBack)
/-- TM_SHAPER_SET (R366): TM_SHAPER_SET configures a function's shaper and resets its buckets. -/
def execTmShaperSet (c : Path) (q : Req) (s : State) : Host.Outcome State Fault Refusal := s.done (direct cmdTmShaperSet c q s)
/-- TM_SCHED_SET (R367): TM_SCHED_SET sets strict priority and DWRR quanta of a logical port's TCs. -/
def execTmSchedSet (c : Path) (q : Req) (s : State) : Host.Outcome State Fault Refusal := s.done (direct cmdTmSchedSet c q s)
/-- TM_METER_SET (R373): TM_METER_SET configures a meter with full buckets, or reads and clears its counts. -/
def execTmMeterSet (c : Path) (q : Req) (s : State) : Host.Outcome State Fault Refusal := s.done (direct cmdTmMeterSet c q s)
/-- TM_WRED_SET (R376): TM_WRED_SET writes a WRED profile or reads its counts. -/
def execTmWredSet (c : Path) (q : Req) (s : State) : Host.Outcome State Fault Refusal := s.done (direct cmdTmWredSet c q s)
/-- TM_GATE_SET (R379): TM_GATE_SET sets an administrative gate list with a change time, or removes the user schedule.
-/
def execTmGateSet (c : Path) (q : Req) (s : State) : Host.Outcome State Fault Refusal := s.done (direct cmdTmGateSet c q s)
/-- TM_GATE_GET (R377): TM_GATE_GET returns the operational or pending gate list of a port. -/
def execTmGateGet (c : Path) (q : Req) (s : State) : Host.Outcome State Fault Refusal := s.done (direct cmdTmGateGet c q s)
/-- PTP_OUT_SET (R387): PTP_OUT_SET enables or disables a PTP output and its comparator, or reads comparator holders.
-/
def execPtpOutSet (c : Path) (q : Req) (s : State) : Host.Outcome State Fault Refusal := s.done (direct cmdPtpOutSet c q s)
/-- PTP_IN_SET (R388): PTP_IN_SET enables or disables a PTP input and selects its edges. -/
def execPtpInSet (c : Path) (q : Req) (s : State) : Host.Outcome State Fault Refusal := s.done (direct cmdPtpInSet c q s)
/-- PTP_IN_READ (R388): PTP_IN_READ takes timestamps from an input's queue, oldest first. -/
def execPtpInRead (c : Path) (q : Req) (s : State) : Host.Outcome State Fault Refusal := s.done (direct cmdPtpInRead c q s)

end Sys2Proof.Machine
end

