-- ==== Sys2Proof/Machine/ExecWindow.lean ====
section
/-! DEFINITION. Windows and sharing: what each command of the block does. -/

namespace Sys2Proof.Machine

open Sys2Proof

/-- A closed tracker counts no packet any more: the drains that waited for it are complete (R140). -/
def State.trackerEmpty (s : State) (tracker : Nat) : State :=
  let t : Tracker := tget {} s.win.trackers tracker
  if t.free ∨ t.isOpen ∨ !t.empty then s else s.settleDrains

/-- FENCE_TIME_EXPIRY (R151): a migrated function's fence time passes, and its old tag records are deleted. -/
def execFenceTimeExpiry (port : Nat) (fn : Nat) (s : State) : Host.Outcome State Fault Refusal := s.onDie (s.fenceOver port fn)
/-- WIN_STAGE (R136): WIN_STAGE adds operations to the issuing partition's staging set. -/
def execWinStage (c : Path) (q : Req) (s : State) : Host.Outcome State Fault Refusal := s.done (direct cmdWinStage c q s)
/-- WIN_COMMIT (R137): WIN_COMMIT checks and applies the whole staging set, moves the active-bank pointer and advances
EPOCH. -/
def execWinCommit (c : Path) (q : Req) (s : State) : Host.Outcome State Fault Refusal := s.done (direct cmdWinCommit c q s)
/-- COMMIT_DRAIN_WAIT_EXPIRY (R140): the 1 ms drain wait of WIN_COMMIT ends without the drain complete, and
DRAIN_PENDING is returned with a handle. -/
def execCommitDrainWaitExpiry (part : Nat) (s : State) : Host.Outcome State Fault Refusal := s.onDie (s.drainWaitOver part)
/-- DRAIN_COMPLETE (R140): a closed drain tracker reaches zero, so its drains are complete and their handles end with
OK. -/
def execDrainComplete (tracker : Nat) (s : State) : Host.Outcome State Fault Refusal := s.onDie (s.trackerEmpty tracker)
/-- WIN_DISCARD (R138): WIN_DISCARD empties the issuing partition's staging set. -/
def execWinDiscard (c : Path) (q : Req) (s : State) : Host.Outcome State Fault Refusal := s.done (direct cmdWinDiscard c q s)
/-- WIN_READ (R153): WIN_READ returns table entries from the active bank, optionally with the staged set applied. -/
def execWinRead (c : Path) (q : Req) (s : State) : Host.Outcome State Fault Refusal := s.done (direct cmdWinRead c q s)
/-- DEV_SHARE (R145): DEV_SHARE puts a downstream port into SHARED mode and enables its VFs, or returns it to
UNASSIGNED. -/
def execDevShare (c : Path) (q : Req) (s : State) : Host.Outcome State Fault Refusal := s.done (direct cmdDevShare c q s)
/-- DEV_SHARE_COMPLETE (R145): the VFs enabled by DEV_SHARE answer, or the 1 s limit passes, and the handle ends. -/
def execDevShareComplete (port : Nat) (ok : Bool) (s : State) : Host.Outcome State Fault Refusal := s.onDie (s.shareDone port ok)
/-- MIGRATE_FENCE (R152): MIGRATE_FENCE returns OK when the fence times of the named functions have passed, or a
handle that ends at the last one. -/
def execMigrateFence (c : Path) (q : Req) (s : State) : Host.Outcome State Fault Refusal := s.done (direct cmdMigrateFence c q s)

end Sys2Proof.Machine
end

