-- ==== Sys2Proof/Machine/Dispatch.lean ====
section
/-! DEFINITION. The dispatcher: one arm for each command, each a direct call of its meaning. -/

namespace Sys2Proof.Machine

open Sys2Proof

def exec (i : Instr) (s : State) : Host.Outcome State Fault Refusal :=
  match i with
  | .go pg ack => Sys2Proof.Machine.execGo pg ack s
  | .ack pg => Sys2Proof.Machine.execAck pg s
  | .commandTaken part => Sys2Proof.Machine.execCommandTaken part s
  | .registerWrite sp off size value => Sys2Proof.Machine.execRegisterWrite sp off size value s
  | .mctpCommandMessage c msgTag whole body => Sys2Proof.Machine.execMctpCommandMessage c msgTag whole body s
  | .setEndpointId c op eid => Sys2Proof.Machine.execSetEndpointId c op eid s
  | .getEndpointId c => Sys2Proof.Machine.execGetEndpointId c s
  | .getMctpVersionSupport c msgType => Sys2Proof.Machine.execGetMctpVersionSupport c msgType s
  | .getMessageTypeSupport c => Sys2Proof.Machine.execGetMessageTypeSupport c s
  | .getVendorDefinedMessageSupport c selector => Sys2Proof.Machine.execGetVendorDefinedMessageSupport c selector s
  | .dynamicAddressAssignment addr => Sys2Proof.Machine.execDynamicAddressAssignment addr s
  | .getTid => Sys2Proof.Machine.execGetTid s
  | .getPldmVersion type => Sys2Proof.Machine.execGetPldmVersion type s
  | .getPldmTypes => Sys2Proof.Machine.execGetPldmTypes s
  | .getPldmCommands type => Sys2Proof.Machine.execGetPldmCommands type s
  | .getPdrRepositoryInfo => Sys2Proof.Machine.execGetPdrRepositoryInfo s
  | .getPdr record => Sys2Proof.Machine.execGetPdr record s
  | .getSensorReading sensor => Sys2Proof.Machine.execGetSensorReading sensor s
  | .nop c q => Sys2Proof.Machine.execNop c q s
  | .deviceInfo c q => Sys2Proof.Machine.execDeviceInfo c q s
  | .getOpStatus c q => Sys2Proof.Machine.execGetOpStatus c q s
  | .warmReset c q => Sys2Proof.Machine.execWarmReset c q s
  | .warmResetDelayExpiry => Sys2Proof.Machine.execWarmResetDelayExpiry s
  | .coreGetStatus c q => Sys2Proof.Machine.execCoreGetStatus c q s
  | .coreSetConfig c q => Sys2Proof.Machine.execCoreSetConfig c q s
  | .hearthCtl c q => Sys2Proof.Machine.execHearthCtl c q s
  | .fwGetStatus c q => Sys2Proof.Machine.execFwGetStatus c q s
  | .fwBegin c q => Sys2Proof.Machine.execFwBegin c q s
  | .fwEraseComplete ok => Sys2Proof.Machine.execFwEraseComplete ok s
  | .fwWrite c q => Sys2Proof.Machine.execFwWrite c q s
  | .fwFinish c q => Sys2Proof.Machine.execFwFinish c q s
  | .fwVerifyComplete ok => Sys2Proof.Machine.execFwVerifyComplete ok s
  | .fwActivate c q => Sys2Proof.Machine.execFwActivate c q s
  | .hostMemoryRequest port r => Sys2Proof.Machine.execHostMemoryRequest port r s
  | .deviceMemoryRequest port r => Sys2Proof.Machine.execDeviceMemoryRequest port r s
  | .admissionRetry i0 => Sys2Proof.Machine.execAdmissionRetry i0 s
  | .npSlotReserved port i0 => Sys2Proof.Machine.execNpSlotReserved port i0 s
  | .egressTlpIssue port => Sys2Proof.Machine.execEgressTlpIssue port s
  | .pcieAckReceived port => Sys2Proof.Machine.execPcieAckReceived port s
  | .completionReceived port cpl => Sys2Proof.Machine.execCompletionReceived port cpl s
  | .pcieMessageReceived port rid msg => Sys2Proof.Machine.execPcieMessageReceived port rid msg s
  | .completionTimeout port tag => Sys2Proof.Machine.execCompletionTimeout port tag s
  | .tagQuarantineEnd port tag => Sys2Proof.Machine.execTagQuarantineEnd port tag s
  | .pcieLinkDown port => Sys2Proof.Machine.execPcieLinkDown port s
  | .configurationRequest p r => Sys2Proof.Machine.execConfigurationRequest p r s
  | .barWrite p k fn bar value => Sys2Proof.Machine.execBarWrite p k fn bar value s
  | .memorySpaceEnableWrite p k fn en => Sys2Proof.Machine.execMemorySpaceEnableWrite p k fn en s
  | .powerControllerControlWrite p k off => Sys2Proof.Machine.execPowerControllerControlWrite p k off s
  | .dpcTriggerStatusClear p k => Sys2Proof.Machine.execDpcTriggerStatusClear p k s
  | .dpcSoftwareTrigger p k => Sys2Proof.Machine.execDpcSoftwareTrigger p k s
  | .secondaryBusReset p k => Sys2Proof.Machine.execSecondaryBusReset p k s
  | .functionFlr p k fn => Sys2Proof.Machine.execFunctionFlr p k fn s
  | .mgmtFunctionFlr p => Sys2Proof.Machine.execMgmtFunctionFlr p s
  | .unplugTimerExpiry p k => Sys2Proof.Machine.execUnplugTimerExpiry p k s
  | .targetLost t => Sys2Proof.Machine.execTargetLost t s
  | .vdspDrainEnd p k => Sys2Proof.Machine.execVdspDrainEnd p k s
  | .presenceChange port present => Sys2Proof.Machine.execPresenceChange port present s
  | .perstHoldExpiry port => Sys2Proof.Machine.execPerstHoldExpiry port s
  | .dataLinkActive port width rate flit => Sys2Proof.Machine.execDataLinkActive port width rate flit s
  | .linkDetectTimeout port => Sys2Proof.Machine.execLinkDetectTimeout port s
  | .configWaitExpiry port => Sys2Proof.Machine.execConfigWaitExpiry port s
  | .deviceNotReadyTimeout port => Sys2Proof.Machine.execDeviceNotReadyTimeout port s
  | .upstreamPerstNAssert a => Sys2Proof.Machine.execUpstreamPerstNAssert a s
  | .upstreamPerstNRelease port => Sys2Proof.Machine.execUpstreamPerstNRelease port s
  | .hotReset port => Sys2Proof.Machine.execHotReset port s
  | .portGetStatus c q => Sys2Proof.Machine.execPortGetStatus c q s
  | .portSetConfig c q => Sys2Proof.Machine.execPortSetConfig c q s
  | .portReset c q => Sys2Proof.Machine.execPortReset c q s
  | .portResetComplete port linkUp => Sys2Proof.Machine.execPortResetComplete port linkUp s
  | .vdspBind c q => Sys2Proof.Machine.execVdspBind c q s
  | .vdspUnbind c q => Sys2Proof.Machine.execVdspUnbind c q s
  | .vdspGet c q => Sys2Proof.Machine.execVdspGet c q s
  | .fenceTimeExpiry port fn => Sys2Proof.Machine.execFenceTimeExpiry port fn s
  | .winStage c q => Sys2Proof.Machine.execWinStage c q s
  | .winCommit c q => Sys2Proof.Machine.execWinCommit c q s
  | .commitDrainWaitExpiry part => Sys2Proof.Machine.execCommitDrainWaitExpiry part s
  | .drainComplete tracker => Sys2Proof.Machine.execDrainComplete tracker s
  | .winDiscard c q => Sys2Proof.Machine.execWinDiscard c q s
  | .winRead c q => Sys2Proof.Machine.execWinRead c q s
  | .devShare c q => Sys2Proof.Machine.execDevShare c q s
  | .devShareComplete port ok => Sys2Proof.Machine.execDevShareComplete port ok s
  | .migrateFence c q => Sys2Proof.Machine.execMigrateFence c q s
  | .planeCellTime plane => Sys2Proof.Machine.execPlaneCellTime plane s
  | .iterationMeasurement ps => Sys2Proof.Machine.execIterationMeasurement ps s
  | .iterationFastLower plane => Sys2Proof.Machine.execIterationFastLower plane s
  | .spillReadback i0 o tc ue => Sys2Proof.Machine.execSpillReadback i0 o tc ue s
  | .flitTime l => Sys2Proof.Machine.execFlitTime l s
  | .flitReceived l head rest decoded corrected => Sys2Proof.Machine.execFlitReceived l head rest decoded corrected s
  | .nakTimeout l => Sys2Proof.Machine.execNakTimeout l s
  | .replayTimeout l => Sys2Proof.Machine.execReplayTimeout l s
  | .lresetExpiry l => Sys2Proof.Machine.execLresetExpiry l s
  | .electricalIdleExpiry l => Sys2Proof.Machine.execElectricalIdleExpiry l s
  | .beaconReceived l rec => Sys2Proof.Machine.execBeaconReceived l rec s
  | .detectTimeout l => Sys2Proof.Machine.execDetectTimeout l s
  | .equalizationComplete l lanes => Sys2Proof.Machine.execEqualizationComplete l lanes s
  | .equalizeTimeout l => Sys2Proof.Machine.execEqualizeTimeout l s
  | .alignComplete a => Sys2Proof.Machine.execAlignComplete a s
  | .alignTimeout l => Sys2Proof.Machine.execAlignTimeout l s
  | .trainingRetryWaitExpiry l => Sys2Proof.Machine.execTrainingRetryWaitExpiry l s
  | .trainRecordReceived l rec interval => Sys2Proof.Machine.execTrainRecordReceived l rec interval s
  | .laneLockLost l a => Sys2Proof.Machine.execLaneLockLost l a s
  | .signalLost l lane => Sys2Proof.Machine.execSignalLost l lane s
  | .frefclkLoss => Sys2Proof.Machine.execFrefclkLoss s
  | .linkGetStatus c q => Sys2Proof.Machine.execLinkGetStatus c q s
  | .linkSet c q => Sys2Proof.Machine.execLinkSet c q s
  | .linkReset c q => Sys2Proof.Machine.execLinkReset c q s
  | .linkHandleTimeout l => Sys2Proof.Machine.execLinkHandleTimeout l s
  | .fabricPacketReceived l pkt => Sys2Proof.Machine.execFabricPacketReceived l pkt s
  | .doneReport m tc value => Sys2Proof.Machine.execDoneReport m tc value s
  | .writeAckReceived id delivered => Sys2Proof.Machine.execWriteAckReceived id delivered s
  | .relayedCommand m fromZero num frame => Sys2Proof.Machine.execRelayedCommand m fromZero num frame s
  | .extractingAnnouncement m ended => Sys2Proof.Machine.execExtractingAnnouncement m ended s
  | .getVersion l => Sys2Proof.Machine.execGetVersion l s
  | .getCapabilities l => Sys2Proof.Machine.execGetCapabilities l s
  | .negotiateAlgorithms l => Sys2Proof.Machine.execNegotiateAlgorithms l s
  | .getDigests l => Sys2Proof.Machine.execGetDigests l s
  | .getCertificate l offset len => Sys2Proof.Machine.execGetCertificate l offset len s
  | .challenge l nonce => Sys2Proof.Machine.execChallenge l nonce s
  | .getMeasurements l => Sys2Proof.Machine.execGetMeasurements l s
  | .spdmResponseReceived l r => Sys2Proof.Machine.execSpdmResponseReceived l r s
  | .spdmRetryTimer l => Sys2Proof.Machine.execSpdmRetryTimer l s
  | .failoverTimer l => Sys2Proof.Machine.execFailoverTimer l s
  | .revertTimer d j => Sys2Proof.Machine.execRevertTimer d j s
  | .flowMoveComplete d b => Sys2Proof.Machine.execFlowMoveComplete d b s
  | .extractReq => Sys2Proof.Machine.execExtractReq s
  | .extractFilterExpiry => Sys2Proof.Machine.execExtractFilterExpiry s
  | .neighbourRerouteReport m => Sys2Proof.Machine.execNeighbourRerouteReport m s
  | .extractDrainComplete => Sys2Proof.Machine.execExtractDrainComplete s
  | .extractTimeout => Sys2Proof.Machine.execExtractTimeout s
  | .routeSet c q => Sys2Proof.Machine.execRouteSet c q s
  | .routeRead c q => Sys2Proof.Machine.execRouteRead c q s
  | .fabGetModule c q => Sys2Proof.Machine.execFabGetModule c q s
  | .fabAdmit c q => Sys2Proof.Machine.execFabAdmit c q s
  | .fabWithdraw c q => Sys2Proof.Machine.execFabWithdraw c q s
  | .fabRelay c q => Sys2Proof.Machine.execFabRelay c q s
  | .relayResponse num frame => Sys2Proof.Machine.execRelayResponse num frame s
  | .relayTimeout part => Sys2Proof.Machine.execRelayTimeout part s
  | .fabSetConfig c q => Sys2Proof.Machine.execFabSetConfig c q s
  | .peerImageRequest m => Sys2Proof.Machine.execPeerImageRequest m s
  | .poolAccess m a ecc => Sys2Proof.Machine.execPoolAccess m a ecc s
  | .zeroingComplete sod => Sys2Proof.Machine.execZeroingComplete sod s
  | .scrubComplete sod ue => Sys2Proof.Machine.execScrubComplete sod ue s
  | .poolFenceComplete id => Sys2Proof.Machine.execPoolFenceComplete id s
  | .patrolScrubRead sod line ecc => Sys2Proof.Machine.execPatrolScrubRead sod line ecc s
  | .channelLost ch => Sys2Proof.Machine.execChannelLost ch s
  | .poolGetStatus c q => Sys2Proof.Machine.execPoolGetStatus c q s
  | .poolConfig c q => Sys2Proof.Machine.execPoolConfig c q s
  | .sodAssign c q => Sys2Proof.Machine.execSodAssign c q s
  | .sodRelease c q => Sys2Proof.Machine.execSodRelease c q s
  | .sodQuery c q => Sys2Proof.Machine.execSodQuery c q s
  | .sodSet c q => Sys2Proof.Machine.execSodSet c q s
  | .contribution g slot chunkSlot byte data ep => Sys2Proof.Machine.execContribution g slot chunkSlot byte data ep s
  | .enginePacket k => Sys2Proof.Machine.execEnginePacket k s
  | .pullReadComplete g chunk slot ecc => Sys2Proof.Machine.execPullReadComplete g chunk slot ecc s
  | .flushReadComplete g slot ok => Sys2Proof.Machine.execFlushReadComplete g slot ok s
  | .chunkTimeout g chunk => Sys2Proof.Machine.execChunkTimeout g chunk s
  | .groupMoveComplete g => Sys2Proof.Machine.execGroupMoveComplete g s
  | .groupDestroyComplete g => Sys2Proof.Machine.execGroupDestroyComplete g s
  | .rtGetStatus c q => Sys2Proof.Machine.execRtGetStatus c q s
  | .rtPartSet c q => Sys2Proof.Machine.execRtPartSet c q s
  | .rtGroupCreate c q => Sys2Proof.Machine.execRtGroupCreate c q s
  | .rtGroupDestroy c q => Sys2Proof.Machine.execRtGroupDestroy c q s
  | .rtGroupRead c q => Sys2Proof.Machine.execRtGroupRead c q s
  | .rtGroupReset c q => Sys2Proof.Machine.execRtGroupReset c q s
  | .rtGroupMove c q => Sys2Proof.Machine.execRtGroupMove c q s
  | .frameReceived lport bytes fcsOk => Sys2Proof.Machine.execFrameReceived lport bytes fcsOk s
  | .pfcFrameReceived lport mask times => Sys2Proof.Machine.execPfcFrameReceived lport mask times s
  | .pfcRefresh lport prio => Sys2Proof.Machine.execPfcRefresh lport prio s
  | .pfcPauseExpiry lport prio => Sys2Proof.Machine.execPfcPauseExpiry lport prio s
  | .pauseWatchExpiry lport tc => Sys2Proof.Machine.execPauseWatchExpiry lport tc s
  | .qpTxTailWrite f qp value => Sys2Proof.Machine.execQpTxTailWrite f qp value s
  | .qpRxTailWrite f qp value => Sys2Proof.Machine.execQpRxTailWrite f qp value s
  | .transmitSchedule lport => Sys2Proof.Machine.execTransmitSchedule lport s
  | .descriptorFetchComplete f qp descs ok => Sys2Proof.Machine.execDescriptorFetchComplete f qp descs ok s
  | .egressFrameStart lport => Sys2Proof.Machine.execEgressFrameStart lport s
  | .vnicReceive f qp bufs => Sys2Proof.Machine.execVnicReceive f qp bufs s
  | .rxWaitTimeout f qp => Sys2Proof.Machine.execRxWaitTimeout f qp s
  | .itrExpiry f qp => Sys2Proof.Machine.execItrExpiry f qp s
  | .logicalPortLinkChange lport up => Sys2Proof.Machine.execLogicalPortLinkChange lport up s
  | .vnicFunctionReset f => Sys2Proof.Machine.execVnicFunctionReset f s
  | .qpDisableComplete f qp => Sys2Proof.Machine.execQpDisableComplete f qp s
  | .netPortTrainingEnd lport up => Sys2Proof.Machine.execNetPortTrainingEnd lport up s
  | .netGetStatus c q => Sys2Proof.Machine.execNetGetStatus c q s
  | .netPortSet c q => Sys2Proof.Machine.execNetPortSet c q s
  | .vnicCreate c q => Sys2Proof.Machine.execVnicCreate c q s
  | .vnicDestroy c q => Sys2Proof.Machine.execVnicDestroy c q s
  | .vnicSet c q => Sys2Proof.Machine.execVnicSet c q s
  | .vnicQpSet c q => Sys2Proof.Machine.execVnicQpSet c q s
  | .netEmSet c q => Sys2Proof.Machine.execNetEmSet c q s
  | .netAclSet c q => Sys2Proof.Machine.execNetAclSet c q s
  | .netPtpClock c q => Sys2Proof.Machine.execNetPtpClock c q s
  | .gateEntryTransition lport => Sys2Proof.Machine.execGateEntryTransition lport s
  | .gateChangeTime lport => Sys2Proof.Machine.execGateChangeTime lport s
  | .ptpOutputEdge k => Sys2Proof.Machine.execPtpOutputEdge k s
  | .ptpInputEdge k falling => Sys2Proof.Machine.execPtpInputEdge k falling s
  | .ptpClockLoss => Sys2Proof.Machine.execPtpClockLoss s
  | .ptpClockRelock => Sys2Proof.Machine.execPtpClockRelock s
  | .tmShaperSet c q => Sys2Proof.Machine.execTmShaperSet c q s
  | .tmSchedSet c q => Sys2Proof.Machine.execTmSchedSet c q s
  | .tmMeterSet c q => Sys2Proof.Machine.execTmMeterSet c q s
  | .tmWredSet c q => Sys2Proof.Machine.execTmWredSet c q s
  | .tmGateSet c q => Sys2Proof.Machine.execTmGateSet c q s
  | .tmGateGet c q => Sys2Proof.Machine.execTmGateGet c q s
  | .ptpOutSet c q => Sys2Proof.Machine.execPtpOutSet c q s
  | .ptpInSet c q => Sys2Proof.Machine.execPtpInSet c q s
  | .ptpInRead c q => Sys2Proof.Machine.execPtpInRead c q s
  | .load cl k rd addr size signed ecc => Sys2Proof.Machine.execLoad cl k rd addr size signed ecc s
  | .store cl k addr size value => Sys2Proof.Machine.execStore cl k addr size value s
  | .instructionFetch cl k addr size ecc => Sys2Proof.Machine.execInstructionFetch cl k addr size ecc s
  | .lr cl k rd addr size ecc => Sys2Proof.Machine.execLr cl k rd addr size ecc s
  | .sc cl k rd addr size value spurious => Sys2Proof.Machine.execSc cl k rd addr size value spurious s
  | .amo cl k op rd addr size value ecc => Sys2Proof.Machine.execAmo cl k op rd addr size value ecc s
  | .fence cl k pred succ => Sys2Proof.Machine.execFence cl k pred succ s
  | .fenceI cl k => Sys2Proof.Machine.execFenceI cl k s
  | .kfence cl k word => Sys2Proof.Machine.execKfence cl k word s
  | .fenceRetire cl k => Sys2Proof.Machine.execFenceRetire cl k s
  | .mpuCsrWrite cl k n cfg value => Sys2Proof.Machine.execMpuCsrWrite cl k n cfg value s
  | .kattrCsrWrite cl k csr value => Sys2Proof.Machine.execKattrCsrWrite cl k csr value s
  | .ksterrWrite cl k value => Sys2Proof.Machine.execKsterrWrite cl k value s
  | .fenceWatchExpiry cl k => Sys2Proof.Machine.execFenceWatchExpiry cl k s
  | .alarmRequest cl => Sys2Proof.Machine.execAlarmRequest cl s
  | .alarmRelease cl => Sys2Proof.Machine.execAlarmRelease cl s
  | .alarmFire cl => Sys2Proof.Machine.execAlarmFire cl s
  | .machineTimerInterrupt cl k => Sys2Proof.Machine.execMachineTimerInterrupt cl k s
  | .msipWrite cl k value => Sys2Proof.Machine.execMsipWrite cl k value s
  | .abstractCommand cl k a => Sys2Proof.Machine.execAbstractCommand cl k a s
  | .systemBusAccess cl write addr size value => Sys2Proof.Machine.execSystemBusAccess cl write addr size value s
  | .clusterStopComplete cl => Sys2Proof.Machine.execClusterStopComplete cl s
  | .partGet c q => Sys2Proof.Machine.execPartGet c q s
  | .partSet c q => Sys2Proof.Machine.execPartSet c q s
  | .isoGetStatus c q => Sys2Proof.Machine.execIsoGetStatus c q s
  | .strictSet c q => Sys2Proof.Machine.execStrictSet c q s
  | .faultDetected src attr port addr => Sys2Proof.Machine.execFaultDetected src attr port addr s
  | .blockReady b => Sys2Proof.Machine.execBlockReady b s
  | .reactionShadowEnd b => Sys2Proof.Machine.execReactionShadowEnd b s
  | .ledgerFlashCopy => Sys2Proof.Machine.execLedgerFlashCopy s
  | .fltGetSummary c q => Sys2Proof.Machine.execFltGetSummary c q s
  | .fltRead c q => Sys2Proof.Machine.execFltRead c q s
  | .fltClear c q => Sys2Proof.Machine.execFltClear c q s
  | .fltSetReaction c q => Sys2Proof.Machine.execFltSetReaction c q s
  | .fltGetReaction c q => Sys2Proof.Machine.execFltGetReaction c q s
  | .fltLedgerRead c q => Sys2Proof.Machine.execFltLedgerRead c q s
  | .fltLedgerClear c q => Sys2Proof.Machine.execFltLedgerClear c q s
  | .ledgerFlashClearComplete ok => Sys2Proof.Machine.execLedgerFlashClearComplete ok s
  | .fltInject c q => Sys2Proof.Machine.execFltInject c q s
  | .fltAerRead c q => Sys2Proof.Machine.execFltAerRead c q s
  | .evPop c q => Sys2Proof.Machine.execEvPop c q s
  | .powerOn => Sys2Proof.Machine.execPowerOn s
  | .auxRailLost => Sys2Proof.Machine.execAuxRailLost s
  | .moduleReset lowNs => Sys2Proof.Machine.execModuleReset lowNs s
  | .watchdogExpiry => Sys2Proof.Machine.execWatchdogExpiry s
  | .resetPulseEnd => Sys2Proof.Machine.execResetPulseEnd s
  | .supervisorRelease env => Sys2Proof.Machine.execSupervisorRelease env s
  | .startTimerExpiry => Sys2Proof.Machine.execStartTimerExpiry s
  | .stableIntervalExpiry => Sys2Proof.Machine.execStableIntervalExpiry s
  | .hostDownloadGo => Sys2Proof.Machine.execHostDownloadGo s
  | .hostDownloadComplete image ok => Sys2Proof.Machine.execHostDownloadComplete image ok s
  | .peerImageReceived m image => Sys2Proof.Machine.execPeerImageReceived m image s
  | .powerEnAsserted => Sys2Proof.Machine.execPowerEnAsserted s
  | .powerEnDeasserted => Sys2Proof.Machine.execPowerEnDeasserted s
  | .softStartComplete choldUf => Sys2Proof.Machine.execSoftStartComplete choldUf s
  | .railsGood => Sys2Proof.Machine.execRailsGood s
  | .resetThreshold => Sys2Proof.Machine.execResetThreshold s
  | .overVoltageLockout => Sys2Proof.Machine.execOverVoltageLockout s
  | .overVoltageRelease => Sys2Proof.Machine.execOverVoltageRelease s
  | .resetReleaseLevel => Sys2Proof.Machine.execResetReleaseLevel s
  | .brownoutHoldoffExpiry => Sys2Proof.Machine.execBrownoutHoldoffExpiry s
  | .thermalTrip => Sys2Proof.Machine.execThermalTrip s
  | .thermalTripClear => Sys2Proof.Machine.execThermalTripClear s
  | .sagWarning vhold => Sys2Proof.Machine.execSagWarning vhold s
  | .warningClear vhold => Sys2Proof.Machine.execWarningClear vhold s
  | .efuseFaultTimer => Sys2Proof.Machine.execEfuseFaultTimer s
  | .efuseShortCircuit => Sys2Proof.Machine.execEfuseShortCircuit s
  | .efuseRetry => Sys2Proof.Machine.execEfuseRetry s
  | .railOutOfTolerance sensor ten => Sys2Proof.Machine.execRailOutOfTolerance sensor ten s
  | .thermalWarning tj => Sys2Proof.Machine.execThermalWarning tj s
  | .telemetrySample t => Sys2Proof.Machine.execTelemetrySample t s
  | .pwrGetStatus c q => Sys2Proof.Machine.execPwrGetStatus c q s
  | .pwrSetConfig c q => Sys2Proof.Machine.execPwrSetConfig c q s
  | .sweep span => Sys2Proof.Machine.execSweep span s
  | .sweepSlotWrite p => Sys2Proof.Machine.execSweepSlotWrite p s
  | .cntRead c q => Sys2Proof.Machine.execCntRead c q s
  | .cntSet c q => Sys2Proof.Machine.execCntSet c q s
  | .cntSweepSet c q => Sys2Proof.Machine.execCntSweepSet c q s
  | .cntSweepGet c q => Sys2Proof.Machine.execCntSweepGet c q s
  | .charSample kind idx margin base bad => Sys2Proof.Machine.execCharSample kind idx margin base bad s
  | .marginReplan m => Sys2Proof.Machine.execMarginReplan m s
  | .bistComplete block mMisr lMisr repairs spare ms => Sys2Proof.Machine.execBistComplete block mMisr lMisr repairs spare ms s
  | .nonceExpiry => Sys2Proof.Machine.execNonceExpiry s
  | .bistRun c q => Sys2Proof.Machine.execBistRun c q s
  | .bistGet c q => Sys2Proof.Machine.execBistGet c q s
  | .lcAdvance c q => Sys2Proof.Machine.execLcAdvance c q s
  | .rmaChallenge c q => Sys2Proof.Machine.execRmaChallenge c q s
  | .rmaUnlock c q => Sys2Proof.Machine.execRmaUnlock c q s
  | .ageGetStatus c q => Sys2Proof.Machine.execAgeGetStatus c q s
  | .ageSetConfig c q => Sys2Proof.Machine.execAgeSetConfig c q s
  | .bypass bit => Sys2Proof.Machine.execBypass bit s
  | .idcode => Sys2Proof.Machine.execIdcode s
  | .samplePreload cells => Sys2Proof.Machine.execSamplePreload cells s
  | .extest => Sys2Proof.Machine.execExtest s
  | .intest => Sys2Proof.Machine.execIntest s
  | .clamp => Sys2Proof.Machine.execClamp s
  | .highz => Sys2Proof.Machine.execHighz s
  | .efuseCurrentLimit => Sys2Proof.Machine.execEfuseCurrentLimit s
  | .efuseOnInterval => Sys2Proof.Machine.execEfuseOnInterval s
  | .propagatedResetComplete p => Sys2Proof.Machine.execPropagatedResetComplete p s
  | .clockDomainRelease d => Sys2Proof.Machine.execClockDomainRelease d s

end Sys2Proof.Machine
end

