-- ==== Sys2Proof/Machine/Tick.lean ====
section
/-! DEFINITION. What passes with time: one 40 ns tick of the always-on domain (R572, R386, log 20). -/

namespace Sys2Proof.Machine

open Sys2Proof

/-- Billionths of a nanosecond in one tick, at a rate adjustment of `ppb` (R352, R386). -/
def tickFrac (ppb : Int) : Nat := (40 * (1000000000 + ppb)).toNat

/-- The counters of time after one tick more (R352, R386, R572). -/
def TimeSt.tick (t : TimeSt) : TimeSt :=
  let f := t.frcFrac + tickFrac t.ppb
  let g := t.ptpFrac + tickFrac t.ppb
  let n := t.ptpNs + g / 1000000000
  { t with ticks := t.ticks + 1
           frcNs := t.frcNs + f / 1000000000, frcFrac := f % 1000000000
           ptpNs := n % 1000000000, ptpFrac := g % 1000000000
           ptpSec := (t.ptpSec + n / 1000000000) % 2 ^ 48 }

/-- A shaper's buckets fill (R363): a rate in Mb/s gives as many two-hundredths of a byte in each tick. -/
def Shaper.tick (h : Shaper) : Shaper :=
  if h.enabled then
    { h with ct := min (200 * h.cbs : Int) (h.ct + h.cir), pt := min (200 * h.pbs : Int) (h.pt + h.pir) }
  else h

/-- A meter's buckets fill (R370). -/
def Meter.tick (m : Meter) : Meter :=
  if m.enabled then { m with tc := Nat.min (200 * m.cbs) (m.tc + m.cir), tp := Nat.min (200 * m.pbs) (m.tp + m.pir) } else m

/-- POWER_EN has been deasserted for one tick more; after 10 ms the eFuse's failures are forgotten (R484). -/
def Power.enTick (w : Power) : Power :=
  if w.enLow + 1 = 250000 then { w with enLow := 250000, efuseFails := 0 }
  else { w with enLow := Nat.min 250000 (w.enLow + 1) }

/-- Counters of time on links, PCIe ports and logical ports (R508). -/
def State.countTime (s : State) : State :=
  let s1 := s.links.foldl (fun t e =>
    let u := if e.2.st = .up ∧ e.2.xoffRx ≠ 0 then t.count { block := 0x0A + e.1, event := 0x13, raw := 40 } else t
    if e.2.st = .up ∧ 256 ≤ e.2.replay.length then u.count { block := 0x0A + e.1, event := 0x14, raw := 40 } else u) s
  let s2 := s1.ports.foldl (fun t e =>
    if e.2.dlActive ∧ (s.noCredit e.1 true ∨ s.noCredit e.1 false) then
      t.count { block := e.1 / 4, event := 0x15, raw := 40, unit := 4, port := some e.1 }
    else t) s1
  s2.net.lports.foldl (fun t e =>
    if e.2.linkUp ∧ e.2.paused.any (fun p => p.2) then
      t.count { block := netBlock e.1, event := 0x15, raw := 40, port := some e.1 }
    else t) s1

/-- Stores of running cores leave their buffers as time passes (R401). -/
def State.drainTick (s : State) : State :=
  s.hearth.clusters.foldl (fun t e =>
    if e.2.st = .running then e.2.cores.foldl (fun u k => u.drainStep e.1 k.1) t else t) s

/-- The issue handshakes of every running core in one tick (R512). -/
def State.issueAllTick (s : State) : State :=
  s.hearth.clusters.foldl (fun t e =>
    if e.2.st = .running then e.2.cores.foldl (fun u k => u.issueTick e.1 k.1) t else t) s

/-- What one tick brings to the main die (R363, R370, R401, R508, R512). -/
def State.dieTick (s : State) : State :=
  ((s.modTm (fun t => { t with shapers := tmap t.shapers (fun _ h => h.tick)
                               meters := tmap t.meters (fun _ m => m.tick) })).countTime).drainTick.issueAllTick

/-- What one tick brings to the always-on domain: time, the age of the ledger's flash record, and the filter of
POWER_EN (R446, R484, R572). -/
def State.onTick (s : State) : State :=
  let s1 : State := { s with time := if s.time.counting then s.time.tick else s.time
                             flt := { s.flt with flashAge := s.flt.flashAge + 1 } }
  if s.lands.powerEn then s1 else s1.modPwr Power.enTick

/-- One tick: nothing happens without auxiliary power; an orderly stop that has begun comes to its end (R496). -/
def State.tick (s : State) : State :=
  if s.boot.phase = .off then s
  else
    let s1 := s.stopEnds.onTick
    (if s1.inService then s1.dieTick else s1).settle

end Sys2Proof.Machine
end

