-- ==== Sys2Proof/Laws/Bytes.lean ====
section
/-! SUPPORT. How long the byte strings of fields are, when the checks of a payload pass, and reading one place of a table after writing another. -/

namespace Sys2Proof.Machine

open Sys2Proof

@[simp] theorem leBytes_length (n v : Nat) : (leBytes n v).length = n := by
  induction n generalizing v with
  | zero => rfl
  | succ n ih => simp [leBytes, ih]

@[simp] theorem slice_length (bs : Bytes) (off n : Nat) : (slice bs off n).length = n := by
  simp [slice]

@[simp] theorem padTo_length (n : Nat) (bs : Bytes) : (padTo n bs).length = n := slice_length bs 0 n

/-- No field fails exactly when each passes its check (R67 order 7). -/
theorem firstBad_none (l : List (Nat × Bool)) : firstBad l = none ↔ ∀ e ∈ l, e.2 = true := by
  induction l with
  | nil => simp [firstBad]
  | cons e r ih =>
    obtain ⟨o, g⟩ := e
    cases g <;> simp [firstBad, ih]

/-- What a table holds at `j` after its entry `i` is written. -/
theorem tget_tset {α : Type} (d v : α) (t : Tab α) (i j : Nat) : tget d (tset t i v) j = if i = j then v else tget d t j := by
  induction t with
  | nil => rfl
  | cons e r ih =>
    obtain ⟨k, w⟩ := e
    simp only [tset]
    split
    · rename_i h; subst h; simp only [tget]; split <;> rfl
    · split
      · simp only [tget]
      · simp only [tget]
        split
        · rename_i h1 h2 h3; subst h3
          rw [if_neg (by omega)]
        · exact ih

/-- Looking up a place of a table after it or another is set. -/
theorem tlook_tset {α : Type} (v : α) (t : Tab α) (i j : Nat) : tlook (tset t i v) j = if i = j then some v else tlook t j := by
  induction t with
  | nil => by_cases h : i = j <;> simp [tset, tlook, h]
  | cons e r ih =>
    obtain ⟨k, w⟩ := e
    unfold tset
    by_cases h1 : k = i
    · subst h1; by_cases h : k = j <;> simp [tlook, h]
    · by_cases h2 : i < k
      · rw [if_neg h1, if_pos h2]; by_cases h : i = j <;> simp [tlook, h]
      · rw [if_neg h1, if_neg h2]
        by_cases h : k = j
        · subst h; simp [tlook, Ne.symm h1]
        · simp [tlook, h, ih]

end Sys2Proof.Machine
end

