-- ==== Sys2Proof/Laws/Memory.lean ====
section
/-! SUPPORT. The canonical form of the pool memory: memory lemmas: inserting, clearing and writing cells keep the canonical form. -/

set_option linter.unusedTactic false
set_option linter.unreachableTactic false
set_option linter.unusedSimpArgs false
set_option linter.unusedVariables false

namespace Sys2Proof.Machine

open Sys2Proof

/-- The pool memory is in its canonical form: addresses strictly rising, no entry equal to 0. -/
def cellsWf (m : List (Nat × Byte)) : Prop := Memory.wf 0 m = true
@[simp] theorem foldl_mem {α : Type} (f : State → α → State) (l : List α) (s : State) (h : ∀ t x, (f t x).pool.mem = t.pool.mem) :
    (l.foldl f s).pool.mem = s.pool.mem := by
  induction l generalizing s with
  | nil => rfl
  | cons x r ih => rw [List.foldl_cons, ih, h]
theorem foldl_wf {α : Type} (f : State → α → State) (l : List α) (s : State) (h : ∀ t x, cellsWf t.pool.mem → cellsWf (f t x).pool.mem)
    (hs : cellsWf s.pool.mem) : cellsWf (l.foldl f s).pool.mem := by
  induction l generalizing s with
  | nil => exact hs
  | cons x r ih => exact ih _ (h _ _ hs)
@[simp] theorem foldl_mem2 {α β : Type} (f : State × β → α → State × β) (l : List α) (x : State × β)
    (h : ∀ t y, (f t y).1.pool.mem = t.1.pool.mem) : (l.foldl f x).1.pool.mem = x.1.pool.mem := by
  induction l generalizing x with
  | nil => rfl
  | cons y r ih => rw [List.foldl_cons, ih, h]
@[simp] theorem ite_mem (c : Prop) [Decidable c] (a b : State) : (if c then a else b).pool.mem = if c then a.pool.mem else b.pool.mem := by
  split <;> rfl

/-- A canonical memory stays canonical when its lower bound falls. -/
theorem wfFrom_mono {d : Byte} {m : List (Nat × Byte)} {lo hi : Nat} (hl : lo ≤ hi) (h : Memory.wfFrom d hi m = true) :
    Memory.wfFrom d lo m = true := by
  cases m with
  | nil => rfl
  | cons e r =>
    simp only [Memory.wfFrom, Bool.and_eq_true, decide_eq_true_eq] at h ⊢
    exact ⟨⟨by omega, h.1.2⟩, h.2⟩

/-- Removing cells keeps the form. -/
theorem wfFrom_filter {d : Byte} (p : Nat × Byte → Bool) {m : List (Nat × Byte)} {lo : Nat} (h : Memory.wfFrom d lo m = true) :
    Memory.wfFrom d lo (m.filter p) = true := by
  induction m generalizing lo with
  | nil => rfl
  | cons e r ih =>
    simp only [Memory.wfFrom, Bool.and_eq_true, decide_eq_true_eq] at h
    rw [List.filter_cons]
    split
    · simp only [Memory.wfFrom, Bool.and_eq_true, decide_eq_true_eq]
      exact ⟨h.1, ih h.2⟩
    · exact wfFrom_mono (by omega) (ih h.2)

/-- Inserting a cell that no entry has, at a value that is not the default, keeps the form. -/
theorem wfFrom_minsert {d v : Byte} {a : Nat} (hv : v ≠ d) {m : List (Nat × Byte)} {lo : Nat} (hlo : lo ≤ a)
    (hm : ∀ e ∈ m, e.1 ≠ a) (h : Memory.wfFrom d lo m = true) : Memory.wfFrom d lo (minsert a v m) = true := by
  induction m generalizing lo with
  | nil => simp [minsert, Memory.wfFrom, hlo, hv]
  | cons e r ih =>
    simp only [Memory.wfFrom, Bool.and_eq_true, decide_eq_true_eq] at h
    have hne : e.1 ≠ a := hm e (by simp)
    simp only [minsert]
    split
    · simp only [Memory.wfFrom, Bool.and_eq_true, decide_eq_true_eq]
      exact ⟨⟨hlo, by simpa using hv⟩, ⟨by omega, h.1.2⟩, h.2⟩
    · simp only [Memory.wfFrom, Bool.and_eq_true, decide_eq_true_eq]
      exact ⟨h.1, ih (by omega) (fun x hx => hm x (by simp [hx])) h.2⟩

/-- A byte written keeps the form. -/
theorem mset_wf {d : Byte} {m : List (Nat × Byte)} (a : Nat) (v : Byte) (h : Memory.wf d m = true) :
    Memory.wf d (mset d m a v) = true := by
  unfold mset Memory.wf
  split
  · exact wfFrom_filter _ h
  · rename_i hv
    refine wfFrom_minsert hv (Nat.zero_le _) ?_ (wfFrom_filter _ h)
    intro e he
    simpa using (List.mem_filter.mp he).2

/-- A block of bytes cleared keeps the form. -/
theorem mclear_wf {d : Byte} {m : List (Nat × Byte)} (a n : Nat) (h : Memory.wf d m = true) : Memory.wf d (mclear m a n) = true :=
  wfFrom_filter _ h

/-- A run of bytes written keeps the form. -/
theorem mwrite_wf {d : Byte} {m : List (Nat × Byte)} (a : Nat) (b : Bytes) (h : Memory.wf d m = true) :
    Memory.wf d (mwrite d m a b) = true := by
  induction b generalizing m a with
  | nil => exact h
  | cons x r ih => exact ih _ (mset_wf _ _ h)

theorem foldl_mset_wf {α : Type} (f : List (Nat × Byte) → α → List (Nat × Byte)) (l : List α) (m : List (Nat × Byte))
    (h : ∀ m x, Memory.wf 0 m = true → Memory.wf 0 (f m x) = true) (hm : Memory.wf 0 m = true) : Memory.wf 0 (l.foldl f m) = true := by
  induction l generalizing m with
  | nil => exact hm
  | cons x r ih => exact ih _ (h _ _ hm)

@[simp] theorem PoolSt.put_wf (p : PoolSt) (a : Nat) (d : Bytes) (en : Nat → Bool) (h : cellsWf p.mem) : cellsWf (p.put a d en).mem := by
  refine foldl_mset_wf _ _ _ ?_ h
  intro m x hm
  split
  · exact mset_wf _ _ hm
  · exact hm
@[simp] theorem PoolSt.breakAt_mem (p : PoolSt) (a n : Nat) (b : Option Reservation) : (p.breakAt a n b).mem = p.mem := rfl
@[simp] theorem PoolSt.addResv_mem (p : PoolSt) (r : Reservation) : (p.addResv r).mem = p.mem := rfl
@[simp] theorem PoolSt.dropResv_mem (p : PoolSt) (r : Reservation) : (p.dropResv r).mem = p.mem := rfl
@[simp] theorem cellsWf_mclear (m : List (Nat × Byte)) (a n : Nat) (h : cellsWf m) : cellsWf (mclear m a n) := mclear_wf a n h
@[simp] theorem PoolSt.kept_mem (p : PoolSt) : p.kept.mem = p.mem := rfl
@[simp] theorem reset_cells : cellsWf State.reset.pool.mem := rfl
@[simp] theorem cellsWf_nil : cellsWf [] := rfl

end Sys2Proof.Machine
end

