-- ==== Sys2Proof/Laws/CellsBase.lean ====
section
/-! SUPPORT. The canonical form of the pool memory: what the shared operations and the operations of packets, ports and traffic do to the pool memory: nothing. -/

set_option linter.unusedTactic false
set_option linter.unreachableTactic false
set_option linter.unusedSimpArgs false
set_option linter.unusedVariables false

namespace Sys2Proof.Machine

open Sys2Proof

@[simp] theorem State.emit_mem (s : State) (o : Output) : (State.emit s o).pool.mem = s.pool.mem := by
  simp [State.emit]

@[simp] theorem State.emits_mem (s : State) (os : List Output) : (State.emits s os).pool.mem = s.pool.mem := by
  simp [State.emits]

@[simp] theorem State.freeNat_mem (s : State) : (State.freeNat s).2.pool.mem = s.pool.mem := by
  simp [State.freeNat]

@[simp] theorem State.freeBit_mem (s : State) : (State.freeBit s).2.pool.mem = s.pool.mem := by
  simp [State.freeBit]

@[simp] theorem State.freeBytes_mem (s : State) (n : ℕ) : (State.freeBytes s n).2.pool.mem = s.pool.mem := by
  simp [State.freeBytes]

@[simp] theorem State.modPort_mem (s : State) (n : ℕ) (f : Port → Port) : (State.modPort s n f).pool.mem = s.pool.mem := by
  simp [State.modPort]

@[simp] theorem State.modVs_mem (s : State) (p : ℕ) (f : VSwitch → VSwitch) : (State.modVs s p f).pool.mem = s.pool.mem := by
  simp [State.modVs]

@[simp] theorem State.modVdsp_mem (s : State) (p : ℕ) (k : ℕ) (f : Vdsp → Vdsp) : (State.modVdsp s p k f).pool.mem = s.pool.mem := by
  simp [State.modVdsp]

@[simp] theorem State.modLink_mem (s : State) (l : ℕ) (f : Link → Link) : (State.modLink s l f).pool.mem = s.pool.mem := by
  simp [State.modLink]

@[simp] theorem State.modPage_mem (s : State) (pg : ℕ) (f : Page → Page) : (State.modPage s pg f).pool.mem = s.pool.mem := by
  simp [State.modPage]

@[simp] theorem State.modEmber_mem (s : State) (f : Ember → Ember) : (State.modEmber s f).pool.mem = s.pool.mem := by
  simp [State.modEmber]

@[simp] theorem State.modFlt_mem (s : State) (f : FaultSt → FaultSt) : (State.modFlt s f).pool.mem = s.pool.mem := by
  simp [State.modFlt]

@[simp] theorem State.modFab_mem (s : State) (f : Fabric → Fabric) : (State.modFab s f).pool.mem = s.pool.mem := by
  simp [State.modFab]

@[simp] theorem State.modPool_mem (s : State) (f : PoolSt → PoolSt) : (s.modPool f).pool.mem = (f s.pool).mem := by unfold State.modPool; exact Eq.refl _

@[simp] theorem State.modCore_mem (s : State) (f : CoreSt → CoreSt) : (State.modCore s f).pool.mem = s.pool.mem := by
  simp [State.modCore]

@[simp] theorem State.modWin_mem (s : State) (f : Win → Win) : (State.modWin s f).pool.mem = s.pool.mem := by
  simp [State.modWin]

@[simp] theorem State.modRt_mem (s : State) (f : Retort → Retort) : (State.modRt s f).pool.mem = s.pool.mem := by
  simp [State.modRt]

@[simp] theorem State.modNet_mem (s : State) (f : Net → Net) : (State.modNet s f).pool.mem = s.pool.mem := by
  simp [State.modNet]

@[simp] theorem State.modTm_mem (s : State) (f : Traffic → Traffic) : (State.modTm s f).pool.mem = s.pool.mem := by
  simp [State.modTm]

@[simp] theorem State.modPwr_mem (s : State) (f : Power → Power) : (State.modPwr s f).pool.mem = s.pool.mem := by
  simp [State.modPwr]

@[simp] theorem State.modCnt_mem (s : State) (f : Counters → Counters) : (State.modCnt s f).pool.mem = s.pool.mem := by
  simp [State.modCnt]

@[simp] theorem State.modBoot_mem (s : State) (f : Boot → Boot) : (State.modBoot s f).pool.mem = s.pool.mem := by
  simp [State.modBoot]

@[simp] theorem State.modLands_mem (s : State) (f : Lands → Lands) : (State.modLands s f).pool.mem = s.pool.mem := by
  simp [State.modLands]

@[simp] theorem State.modKept_mem (s : State) (f : Retained → Retained) : (State.modKept s f).pool.mem = s.pool.mem := by
  simp [State.modKept]

@[simp] theorem State.modNv_mem (s : State) (f : Nv → Nv) : (State.modNv s f).pool.mem = s.pool.mem := by
  simp [State.modNv]

@[simp] theorem State.modHearth_mem (s : State) (f : Hearth → Hearth) : (State.modHearth s f).pool.mem = s.pool.mem := by
  simp [State.modHearth]

@[simp] theorem State.modIso_mem (s : State) (f : Iso → Iso) : (State.modIso s f).pool.mem = s.pool.mem := by
  simp [State.modIso]

@[simp] theorem State.modAge_mem (s : State) (f : Ageing → Ageing) : (State.modAge s f).pool.mem = s.pool.mem := by
  simp [State.modAge]

@[simp] theorem State.modJtag_mem (s : State) (f : Jtag → Jtag) : (State.modJtag s f).pool.mem = s.pool.mem := by
  simp [State.modJtag]

@[simp] theorem State.modSod_mem (s : State) (n : ℕ) (f : Sod → Sod) : (State.modSod s n f).pool.mem = s.pool.mem := by
  simp [State.modSod]

@[simp] theorem State.modLport_mem (s : State) (n : ℕ) (f : LPort → LPort) : (State.modLport s n f).pool.mem = s.pool.mem := by
  simp [State.modLport]

@[simp] theorem State.setVnic_mem (s : State) (f : ℕ) (v : Vnic) : (State.setVnic s f v).pool.mem = s.pool.mem := by
  simp [State.setVnic]

@[simp] theorem State.modVnic_mem (s : State) (f : ℕ) (g : Vnic → Vnic) : (State.modVnic s f g).pool.mem = s.pool.mem := by
  unfold State.modVnic
  split <;> simp

@[simp] theorem State.modCluster_mem (s : State) (c : ℕ) (f : Cluster → Cluster) : (State.modCluster s c f).pool.mem = s.pool.mem := by
  simp [State.modCluster]

@[simp] theorem State.modHcore_mem (s : State) (c : ℕ) (k : ℕ) (f : HCore → HCore) : (State.modHcore s c k f).pool.mem = s.pool.mem := by
  simp [State.modHcore]

@[simp] theorem State.modAdm_mem (s : State) (m : ℕ) (f : Admission → Admission) : (State.modAdm s m f).pool.mem = s.pool.mem := by
  simp [State.modAdm]

@[simp] theorem State.modRoute_mem (s : State) (m : ℕ) (f : Route → Route) : (State.modRoute s m f).pool.mem = s.pool.mem := by
  simp [State.modRoute]

@[simp] theorem State.setInst_mem (s : State) (g : ℕ) (i : RtInst) : (State.setInst s g i).pool.mem = s.pool.mem := by
  simp [State.setInst]

@[simp] theorem State.modPlane_mem (s : State) (n : ℕ) (f : PlaneSt → PlaneSt) : (State.modPlane s n f).pool.mem = s.pool.mem := by
  simp [State.modPlane]

@[simp] theorem State.modBist_mem (s : State) (b : ℕ) (f : Bist → Bist) : (State.modBist s b f).pool.mem = s.pool.mem := by
  simp [State.modBist]

@[simp] theorem State.form_mem (s : State) (p : Pkt) : (State.form s p).pool.mem = s.pool.mem := by
  simp [State.form]

@[simp] theorem State.toHost_mem (s : State) (p : ℕ) (src : ℕ) (rid : ℕ) (opc : ℕ) (tag : ℕ) (addr : Word) (want : ℕ) (data : Bytes) : (State.toHost s p src rid opc tag addr want data).pool.mem = s.pool.mem := by
  unfold State.toHost
  split <;> simp

@[simp] theorem State.msixOut_mem (s : State) (p : ℕ) (src : ℕ) (rid : ℕ) (t : Tab (BitVec 32)) (vec : ℕ) : (State.msixOut s p src rid t vec).pool.mem = s.pool.mem := by
  simp [State.msixOut]

@[simp] theorem State.messageUp_mem (s : State) (p : ℕ) (src : ℕ) (rid : ℕ) (code : ℕ) (data : Bytes) : (State.messageUp s p src rid code data).pool.mem = s.pool.mem := by
  unfold State.messageUp
  split <;> simp

@[simp] theorem State.control_mem (s : State) (m : ℕ) (c : Ctl) : (State.control s m c).pool.mem = s.pool.mem := by
  simp [State.control]

@[simp] theorem State.controlOn_mem (s : State) (l : ℕ) (c : Ctl) : (State.controlOn s l c).pool.mem = s.pool.mem := by
  simp [State.controlOn]

@[simp] theorem State.count_mem (s : State) (e : CtrEv) : (State.count s e).pool.mem = s.pool.mem := by
  simp [State.count]

@[simp] theorem State.msixSend_mem (s : State) (p : ℕ) (vec : ℕ) : (State.msixSend s p vec).pool.mem = s.pool.mem := by
  simp [State.msixSend]

@[simp] theorem State.msix_mem (s : State) (p : ℕ) (vec : ℕ) : (State.msix s p vec).pool.mem = s.pool.mem := by
  simp [State.msix]

@[simp] theorem State.modRing_mem (s : State) (p : ℕ) (f : EvRing → EvRing) : (State.modRing s p f).pool.mem = s.pool.mem := by
  simp [State.modRing]

@[simp] theorem State.ringVectors_mem (s : State) (p : ℕ) (e : ℕ) : (State.ringVectors s p e).pool.mem = s.pool.mem := by
  simp [State.ringVectors]

@[simp] theorem State.ringWrite_mem (s : State) (p : ℕ) (r : EvRec) : (State.ringWrite s p r).pool.mem = s.pool.mem := by
  simp [State.ringWrite]

@[simp] theorem State.sbQueue_mem (s : State) (r : EvRec) : (State.sbQueue s r).pool.mem = s.pool.mem := by
  simp [State.sbQueue]

@[simp] theorem State.post_mem (s : State) (p : ℕ) (r : EvRec) : (State.post s p r).pool.mem = s.pool.mem := by
  simp [State.post]

@[simp] theorem State.event_mem (s : State) (id : ℕ) (ps : List ℕ) (d0 : ℕ) : (State.event s id ps d0).pool.mem = s.pool.mem := by
  simp [State.event]

@[simp] theorem State.ledgerAdd_mem (s : State) (b : ℕ) (c : ℕ) (merged : Bool) : (State.ledgerAdd s b c merged).pool.mem = s.pool.mem := by
  simp [State.ledgerAdd]

@[simp] theorem State.ledgerOnly_mem (s : State) (b : ℕ) : (State.ledgerOnly s b).pool.mem = s.pool.mem := by
  simp [State.ledgerOnly]

@[simp] theorem State.setSticky_mem (s : State) (b : ℕ) (i : ℕ) (attr : Option ℕ) (merged : Bool) : (State.setSticky s b i attr merged).pool.mem = s.pool.mem := by
  simp [State.setSticky]

@[simp] theorem State.owe_mem (s : State) (d : Due) : (State.owe s d).pool.mem = s.pool.mem := by
  simp [State.owe]

@[simp] theorem State.react_mem (s : State) (b : ℕ) (cls : ℕ) (attr : Option ℕ) (port : Option ℕ) (r : ℕ) : (State.react s b cls attr port r).pool.mem = s.pool.mem := by
  unfold State.react
  repeat' (first | (simp; done) | split)

@[simp] theorem State.raiseNew_mem (s : State) (src : ℕ) (cls : ℕ) (attr : Option ℕ) (port : Option ℕ) (d1 : Word) (inj : Bool) : (State.raiseNew s src cls attr port d1 inj).pool.mem = s.pool.mem := by
  simp [State.raiseNew]

@[simp] theorem State.raise_mem (s : State) (src : ℕ) (attr : optParam (Option ℕ) none) (port : optParam (Option ℕ) none) (d1 : optParam Word 0) (inj : optParam Bool false) : (State.raise s src attr port d1 inj).pool.mem = s.pool.mem := by
  unfold State.raise
  split <;> simp

@[simp] theorem State.raiseAt_mem (s : State) (b : ℕ) (i : ℕ) (attr : optParam (Option ℕ) none) (port : optParam (Option ℕ) none) (d1 : optParam Word 0) : (State.raiseAt s b i attr port d1).pool.mem = s.pool.mem := by
  simp [State.raiseAt]

@[simp] theorem State.newHandle_mem (s : State) (p : ℕ) (opcode : ℕ) (work : optParam Work Work.other) : (State.newHandle s p opcode work).2.pool.mem = s.pool.mem := by
  simp [State.newHandle]

@[simp] theorem State.endHandle_mem (s : State) (id : ℕ) (final : ℕ) (detail : optParam ℕ 0) : (State.endHandle s id final detail).pool.mem = s.pool.mem := by
  unfold State.endHandle
  split <;> simp

@[simp] theorem State.modSpray_mem (s : State) (m : ℕ) (c : ℕ) (f : Spray → Spray) : (State.modSpray s m c f).pool.mem = s.pool.mem := by
  simp [State.modSpray]

@[simp] theorem State.recordStore_mem (s : State) (c : ℕ) (k : ℕ) (addr : ℕ) : (State.recordStore s c k addr).pool.mem = s.pool.mem := by
  simp [State.recordStore]

@[simp] theorem State.writeAcked_mem (s : State) (id : ℕ) (delivered : Bool) : (State.writeAcked s id delivered).pool.mem = s.pool.mem := by
  unfold State.writeAcked
  repeat' (first | (simp; done) | split | dsimp only)

@[simp] theorem State.ackWrite_mem (s : State) (p : Pkt) (delivered : Bool) : (State.ackWrite s p delivered).pool.mem = s.pool.mem := by
  simp [State.ackWrite]

@[simp] theorem State.leaveAs_mem (s0 : State) (p : Pkt) (delivered : Bool) : (State.leaveAs s0 p delivered).pool.mem = s0.pool.mem := by
  simp [State.leaveAs]

@[simp] theorem State.leave_mem (s : State) (p : Pkt) : (State.leave s p).pool.mem = s.pool.mem := by
  simp [State.leave]

@[simp] theorem State.discard_mem (s : State) (p : Pkt) : (State.discard s p).pool.mem = s.pool.mem := by
  simp [State.discard]

@[simp] theorem State.holdOutput_mem (s : State) (o : ℕ) : (State.holdOutput s o).pool.mem = s.pool.mem := by
  simp [State.holdOutput]

@[simp] theorem State.spillCross_mem (s : State) (n : ℕ) : (State.spillCross s n).pool.mem = s.pool.mem := by
  simp [State.spillCross]

@[simp] theorem State.enqueue_mem (s0 : State) (p : Pkt) (n : ℕ) (pl : Place) (cut : Bool) : (State.enqueue s0 p n pl cut).pool.mem = s0.pool.mem := by
  simp [State.enqueue]

@[simp] theorem State.park_mem (s : State) (p : Pkt) (n : ℕ) (w : WaitWhy) (cut : Bool) : (State.park s p n w cut).pool.mem = s.pool.mem := by
  simp [State.park]

@[simp] theorem State.dropLossy_mem (s : State) (p : Pkt) (held : Bool) : (State.dropLossy s p held).pool.mem = s.pool.mem := by
  simp [State.dropLossy]

@[simp] theorem State.admitN_mem (s : State) (p : Pkt) (n : ℕ) : (State.admitN s p n).pool.mem = s.pool.mem := by
  unfold State.admitN
  repeat' (first | (simp; done) | split)

@[simp] theorem State.enterCore_mem (s : State) (p : Pkt) : (State.enterCore s p).pool.mem = s.pool.mem := by
  simp [State.enterCore]

@[simp] theorem State.issueFrom_mem (o : Nat) (n : Nat) (s : State)  : (State.issueFrom o n s ).pool.mem = s.pool.mem := by
  induction n generalizing s  with
  | zero => rfl
  | succ k ih => unfold State.issueFrom; repeat' (first | (simp [ih]; done) | split | dsimp only)

@[simp] theorem State.issueAll_mem (s : State) : (State.issueAll s).pool.mem = s.pool.mem := by
  simp [State.issueAll]

theorem State.routePkt_mem {s : State} {p : Pkt} {m : Nat} {r : Pkt} {t : State} (h : s.routePkt p m = some (r, t)) : t.pool.mem = s.pool.mem := by
  unfold State.routePkt at h
  split at h
  · cases h; rfl
  · cases h
  · cases h; simp; repeat' (first | (simp; done) | split)

@[simp] theorem State.completeWith_mem (s : State) (r : Pkt) (status : ℕ) (data : Bytes) (ep : Bool) (cid : ℕ) (bcount : ℕ) : (State.completeWith s r status data ep cid bcount).pool.mem = s.pool.mem := by
  unfold State.completeWith
  repeat' (first | (simp [*]; done) | split | (simp [*, State.routePkt_mem (by assumption)]; done) | simp)

@[simp] theorem State.complete_mem (s : State) (r : Pkt) (status : ℕ) (data : Bytes) (ep : Bool) : (State.complete s r status data ep).pool.mem = s.pool.mem := by
  simp [State.complete]

@[simp] theorem State.refusePkt_mem (s : State) (p : Pkt) : (State.refusePkt s p).pool.mem = s.pool.mem := by
  simp [State.refusePkt]

@[simp] theorem State.countAbort_mem (s : State) (p : Pkt) : (State.countAbort s p).pool.mem = s.pool.mem := by
  simp [State.countAbort]

@[simp] theorem State.setPtp_mem (s : State) (t : ℕ) : (State.setPtp s t).pool.mem = s.pool.mem := by
  simp [State.setPtp]

@[simp] theorem State.frameWhole_mem (s : State) (p : Pkt) : (State.frameWhole s p).pool.mem = s.pool.mem := by
  simp [State.frameWhole]

@[simp] theorem State.frameDrop_mem (s : State) (p : Pkt) : (State.frameDrop s p).pool.mem = s.pool.mem := by
  simp [State.frameDrop]

@[simp] theorem State.deliver_mem (s : State) (p : Pkt) : (State.deliver s p).pool.mem = s.pool.mem := by
  simp [State.deliver]

@[simp] theorem State.countCrossed_mem (s : State) (e : QPkt) : (State.countCrossed s e).pool.mem = s.pool.mem := by
  simp [State.countCrossed]

@[simp] theorem State.dropAborted_mem (s : State) (p : Pkt) : (State.dropAborted s p).pool.mem = s.pool.mem := by
  simp [State.dropAborted]

@[simp] theorem State.release_mem (s : State) (e : QPkt) : (State.release s e).pool.mem = s.pool.mem := by
  simp [State.release]

@[simp] theorem State.stageCut_mem (s : State) (e : QPkt) : (State.stageCut s e).pool.mem = s.pool.mem := by
  simp [State.stageCut]

@[simp] theorem State.offer_mem (s : State) : (State.offer s).pool.mem = s.pool.mem := by
  simp [State.offer]

@[simp] theorem State.dropUnbegun_mem (s : State) : (State.dropUnbegun s).pool.mem = s.pool.mem := by
  simp [State.dropUnbegun]

@[simp] theorem State.releaseAll_mem (s : State) : (State.releaseAll s).pool.mem = s.pool.mem := by
  simp [State.releaseAll]

@[simp] theorem State.abortWhere_mem (s : State) (f : QPkt → Bool) (cause : ℕ) : (State.abortWhere s f cause).pool.mem = s.pool.mem := by
  simp [State.abortWhere]

@[simp] theorem State.dropBadCells_mem (s : State) : (State.dropBadCells s).pool.mem = s.pool.mem := by
  simp [State.dropBadCells]

@[simp] theorem State.checkCells_mem (s : State) : (State.checkCells s).pool.mem = s.pool.mem := by
  unfold State.checkCells
  split <;> simp

@[simp] theorem State.struckCell_mem (s : State) : (State.struckCell s).2.pool.mem = s.pool.mem := by
  unfold State.struckCell
  repeat' (first | (simp [*]; done) | split | (rename_i e; have e := congrArg (fun x => x.2.pool.mem) e; simp at e; simp [← e]; first | done | assumption) | simp)

@[simp] theorem State.cellStruck_mem (s : State) (i : ℕ) : (State.cellStruck s i).pool.mem = s.pool.mem := by
  unfold State.cellStruck
  repeat' (first | (simp [*]; done) | split | (rename_i e; have e := congrArg (fun x => x.2.pool.mem) e; simp at e; simp [← e]; first | done | assumption) | simp)

@[simp] theorem State.idleSlot_mem (s : State) (k o : Nat) (t : State) : (s.idleSlot k o t).pool.mem = t.pool.mem := by
  unfold State.idleSlot; dsimp only; split <;> simp

@[simp] theorem State.countSlots_mem (s : State) (k : ℕ) (matched : List Voq) : (State.countSlots s k matched).pool.mem = s.pool.mem := by
  simp [State.countSlots]

@[simp] theorem State.planeDrained_mem (s : State) (k : ℕ) : (State.planeDrained s k).pool.mem = s.pool.mem := by
  simp [State.planeDrained]

@[simp] theorem State.planeLeave_mem (s : State) (k : ℕ) (why : ℕ) : (State.planeLeave s k why).pool.mem = s.pool.mem := by
  simp [State.planeLeave]

@[simp] theorem State.planeReturn_mem (s : State) (k : ℕ) : (State.planeReturn s k).pool.mem = s.pool.mem := by
  simp [State.planeReturn]

@[simp] theorem State.cellTime_mem (s : State) (k : ℕ) : (State.cellTime s k).pool.mem = s.pool.mem := by
  simp [State.cellTime]

@[simp] theorem State.waitForMove_mem (s : State) (m : ℕ) (b : ℕ) : (State.waitForMove s m b).pool.mem = s.pool.mem := by
  simp [State.waitForMove]

@[simp] theorem State.retryAdmission_mem (s : State) (i : ℕ) : (State.retryAdmission s i).pool.mem = s.pool.mem := by
  unfold State.retryAdmission
  repeat' (first | (simp [*]; done) | split | (rename_i e; have e := congrArg (fun x => x.2.pool.mem) e; simp at e; simp [← e]; first | done | assumption) | simp)

@[simp] theorem State.removePkts_mem (s : State) (f : QPkt → Bool) (h : WPkt → Bool) (g : State → Pkt → State) (h_g : ∀ t x0, (g t x0).pool.mem = t.pool.mem) : (State.removePkts s f h g).pool.mem = s.pool.mem := by
  unfold State.removePkts
  repeat' (first | (simp [*]; done) | split)

@[simp] theorem State.dropHeldOf_mem (s : State) (p : ℕ) : (State.dropHeldOf s p).pool.mem = s.pool.mem := by
  simp [State.dropHeldOf]

@[simp] theorem State.dropBoundFor_mem (s : State) (m : ℕ) : (State.dropBoundFor s m).pool.mem = s.pool.mem := by
  simp [State.dropBoundFor]

@[simp] theorem State.appendMoved_mem (s : State) (e : QPkt) : (State.appendMoved s e).pool.mem = s.pool.mem := by
  simp [State.appendMoved]

@[simp] theorem State.redirect_mem (s : State) (m : ℕ) (b : ℕ) (old : ℕ) (l : ℕ) (j : ℕ) : (State.redirect s m b old l j).pool.mem = s.pool.mem := by
  simp [State.redirect]

@[simp] theorem State.planeCells_mem (s : State) (e : QPkt) : (State.planeCells s e).2.pool.mem = s.pool.mem := by
  unfold State.planeCells
  repeat' (first | (simp [*]; done) | split | (rename_i e; have e := congrArg (fun x => x.2.pool.mem) e; simp at e; simp [← e]; first | done | assumption) | simp)

@[simp] theorem State.modGrowing_mem (s : State) (src : ℕ) (id : ℕ) (f : Pkt → Pkt) : (State.modGrowing s src id f).pool.mem = s.pool.mem := by
  unfold State.modGrowing
  repeat' (first | (simp [*]; done) | split | (rename_i e; have e := congrArg (fun x => x.2.pool.mem) e; simp at e; simp [← e]; first | done | assumption) | simp)

@[simp] theorem State.growPkt_mem (s : State) (src : ℕ) (id : ℕ) (data : Bytes) : (State.growPkt s src id data).pool.mem = s.pool.mem := by
  simp [State.growPkt]

@[simp] theorem State.endPkt_mem (s : State) (src : ℕ) (id : ℕ) (data : Bytes) : (State.endPkt s src id data).pool.mem = s.pool.mem := by
  simp [State.endPkt]

@[simp] theorem State.cutPkt_mem (s : State) (src : ℕ) (id : ℕ) (cause : ℕ) : (State.cutPkt s src id cause).pool.mem = s.pool.mem := by
  simp [State.cutPkt]

@[simp] theorem State.setComp_mem (s : State) (k : ℕ) (h : ℕ) : (State.setComp s k h).pool.mem = s.pool.mem := by
  simp [State.setComp]

@[simp] theorem State.dropComp_mem (s : State) (h : ℕ) : (State.dropComp s h).pool.mem = s.pool.mem := by
  simp [State.dropComp]

@[simp] theorem failWith_mem (s : State) (rc : ℕ) (detail : optParam ℕ 0) : (failWith s rc detail).s.pool.mem = s.pool.mem := by
  simp [failWith]

@[simp] theorem bad_mem (s : State) (off : ℕ) : (bad s off).s.pool.mem = s.pool.mem := by
  simp [bad]

@[simp] theorem deny_mem (s : State) : (deny s).s.pool.mem = s.pool.mem := by
  simp [deny]

@[simp] theorem ok_mem (s : State) (payload : optParam Bytes []) : (ok s payload).s.pool.mem = s.pool.mem := by
  simp [ok]

@[simp] theorem pend_mem (s : State) (h : ℕ) (payload : optParam Bytes []) : (pend s h payload).s.pool.mem = s.pool.mem := by
  simp [pend]

/-- A command's body keeps the pool's cells in canonical form. -/

def Cmd.keeps (k : Cmd) : Prop := ∀ w q s, cellsWf s.pool.mem → cellsWf (k.body w q s).s.pool.mem

theorem runCmd_wf {k : Cmd} (hk : k.keeps) (c : Path) (p : Nat) (q : Req) (s : State) (h : cellsWf s.pool.mem) :
    cellsWf (runCmd k c p q s).s.pool.mem := by
  unfold runCmd
  repeat' (first | (simp [*]; done) | exact hk _ _ _ h | split | simp only [])

@[simp] theorem State.respond_mem (s : State) (c : Path) (msgTag : ℕ) (r : Rsp) : (State.respond s c msgTag r).pool.mem = s.pool.mem := by
  unfold State.respond
  split <;> simp

@[simp] theorem Ans.counted_mem (a : Ans) (p : ℕ) : (Ans.counted a p).pool.mem = a.s.pool.mem := by
  simp [Ans.counted]

@[simp] theorem Ans.deliver_mem (a : Ans) (c : Path) (p : ℕ) (op : ℕ) (q : Req) (msgTag : ℕ) : (Ans.deliver a c p op q msgTag).pool.mem = a.s.pool.mem := by
  unfold Ans.deliver
  split <;> simp

theorem direct_wf {k : Cmd} (hk : k.keeps) (c : Path) (q : Req) (s : State) (h : cellsWf s.pool.mem) :
    cellsWf (direct k c q s).pool.mem := by
  unfold direct
  repeat' (first | (simp [*]; done) | (simp [*, runCmd_wf hk _ _ _ _ h]; done) | split)

@[simp] theorem State.modMeter_mem (s : State) (n : ℕ) (f : Meter → Meter) : (State.modMeter s n f).pool.mem = s.pool.mem := by
  simp [State.modMeter]

@[simp] theorem State.modShaper_mem (s : State) (f : ℕ) (g : Shaper → Shaper) : (State.modShaper s f g).pool.mem = s.pool.mem := by
  simp [State.modShaper]

@[simp] theorem State.modGate_mem (s : State) (n : ℕ) (f : Gate → Gate) : (State.modGate s n f).pool.mem = s.pool.mem := by
  simp [State.modGate]

@[simp] theorem State.meterFrame_mem (s : State) (n : ℕ) (yellow : Bool) (f : Bytes) (p : Parsed) : (State.meterFrame s n yellow f p).1.pool.mem = s.pool.mem := by
  unfold State.meterFrame
  repeat' (first | (simp [*]; done) | split | (rename_i e; have e := congrArg (fun x => x.2.pool.mem) e; simp at e; simp [← e]; first | done | assumption) | simp)

@[simp] theorem State.avgUpdate_mem (s : State) (o : ℕ) (c : ℕ) (q : ℕ) (w : Wred) : (State.avgUpdate s o c q w).pool.mem = s.pool.mem := by
  simp [State.avgUpdate]

@[simp] theorem State.avgTrack_mem (s : State) : (State.avgTrack s).pool.mem = s.pool.mem := by
  simp [State.avgTrack]

@[simp] theorem State.wred_mem (s : State) (p : Pkt) (ecn : ℕ) : (State.wred s p ecn).1.pool.mem = s.pool.mem := by
  unfold State.wred
  repeat' (first | (simp [*]; done) | split | (rename_i e; have e := congrArg (fun x => x.2.pool.mem) e; simp at e; simp [← e]; first | done | assumption) | simp)

@[simp] theorem State.settleGateComps_mem (s : State) : (State.settleGateComps s).pool.mem = s.pool.mem := by
  simp [State.settleGateComps]

@[simp] theorem State.gateChange_mem (s : State) (n : ℕ) (jump : Bool) : (State.gateChange s n jump).pool.mem = s.pool.mem := by
  unfold State.gateChange
  split <;> simp

@[simp] theorem State.gateStep_mem (s : State) (n : ℕ) : (State.gateStep s n).pool.mem = s.pool.mem := by
  simp [State.gateStep]

@[simp] theorem State.takeGateComp_mem (s : State) (k : ℕ) (t : ℕ) : (State.takeGateComp s k t).pool.mem = s.pool.mem := by
  simp [State.takeGateComp]

@[simp] theorem State.driveLand_mem (s : State) (g : ℕ) (out : Bool) (level : Bool) : (State.driveLand s g out level).pool.mem = s.pool.mem := by
  simp [State.driveLand]

@[simp] theorem State.clockMoved_mem (s : State) : (State.clockMoved s).pool.mem = s.pool.mem := by
  simp [State.clockMoved]

@[simp] theorem State.gateRemove_mem (s : State) (n : ℕ) : (State.gateRemove s n).pool.mem = s.pool.mem := by
  simp [State.gateRemove]

@[simp] theorem State.ptpOutEdge_mem (s : State) (k : ℕ) : (State.ptpOutEdge s k).pool.mem = s.pool.mem := by
  simp [State.ptpOutEdge]

@[simp] theorem State.ptpInEdge_mem (s : State) (k : ℕ) (falling : Bool) : (State.ptpInEdge s k falling).pool.mem = s.pool.mem := by
  simp [State.ptpInEdge]

theorem cmdNetPtpClock_keeps : cmdNetPtpClock.keeps := by
  intro w q s h
  unfold cmdNetPtpClock
  dsimp only
  repeat' (first | (simp [h]; done) | split)

theorem cmdTmShaperSet_keeps : cmdTmShaperSet.keeps := by
  intro w q s h
  unfold cmdTmShaperSet
  dsimp only
  repeat' (first | (simp [h]; done) | split)

theorem cmdTmSchedSet_keeps : cmdTmSchedSet.keeps := by
  intro w q s h
  unfold cmdTmSchedSet
  dsimp only
  repeat' (first | (simp [h]; done) | split)

theorem cmdTmMeterSet_keeps : cmdTmMeterSet.keeps := by
  intro w q s h
  unfold cmdTmMeterSet
  dsimp only
  repeat' (first | (simp [h]; done) | split)

theorem cmdTmWredSet_keeps : cmdTmWredSet.keeps := by
  intro w q s h
  unfold cmdTmWredSet
  dsimp only
  repeat' (first | (simp [h]; done) | split)

theorem cmdTmGateSet_keeps : cmdTmGateSet.keeps := by
  intro w q s h
  unfold cmdTmGateSet
  dsimp only
  repeat' (first | (simp [h]; done) | split)

theorem cmdTmGateGet_keeps : cmdTmGateGet.keeps := by
  intro w q s h
  unfold cmdTmGateGet
  dsimp only
  repeat' (first | (simp [h]; done) | split)

theorem cmdPtpOutSet_keeps : cmdPtpOutSet.keeps := by
  intro w q s h
  unfold cmdPtpOutSet
  dsimp only
  repeat' (first | (simp [h]; done) | split)

theorem cmdPtpInSet_keeps : cmdPtpInSet.keeps := by
  intro w q s h
  unfold cmdPtpInSet
  dsimp only
  repeat' (first | (simp [h]; done) | split)

theorem cmdPtpInRead_keeps : cmdPtpInRead.keeps := by
  intro w q s h
  unfold cmdPtpInRead
  dsimp only
  repeat' (first | (simp [h]; done) | split)

@[simp] theorem State.setMeip_mem (s : State) (c : ℕ) (on : Bool) : (State.setMeip s c on).pool.mem = s.pool.mem := by
  simp [State.setMeip]

@[simp] theorem State.pageDone_mem (s : State) (pg : ℕ) (noInt : Bool) (r : Rsp) : (State.pageDone s pg noInt r).pool.mem = s.pool.mem := by
  simp [State.pageDone]

@[simp] theorem State.pageOrphan_mem (s : State) (pg : ℕ) (r : Rsp) : (State.pageOrphan s pg r).pool.mem = s.pool.mem := by
  simp [State.pageOrphan]

@[simp] theorem State.pageEnd_mem (s : State) (pg : ℕ) (noInt : Bool) (r : Rsp) : (State.pageEnd s pg noInt r).pool.mem = s.pool.mem := by
  unfold State.pageEnd
  split <;> simp

@[simp] theorem State.reply_mem (s : State) (c : Path) (msgTag : ℕ) (noInt : Bool) (r : Rsp) : (State.reply s c msgTag noInt r).pool.mem = s.pool.mem := by
  unfold State.reply
  split <;> simp

@[simp] theorem State.finishRun_mem (s : State) (p : ℕ) (status : ℕ) (handle : ℕ) (payload : Bytes) : (State.finishRun s p status handle payload).pool.mem = s.pool.mem := by
  unfold State.finishRun
  split <;> simp

@[simp] theorem State.pagePReset_mem (s : State) (p : ℕ) : (State.pagePReset s p).pool.mem = s.pool.mem := by
  simp [State.pagePReset]

@[simp] theorem State.emberCommit_mem (s : State) (ws : List (ℕ × Entry)) : (State.emberCommit s ws).pool.mem = s.pool.mem := by
  simp [State.emberCommit]

@[simp] theorem State.tellInvalidated_mem (s : State) (b : Bank) (ks : List ℕ) : (State.tellInvalidated s b ks).pool.mem = s.pool.mem := by
  simp [State.tellInvalidated]

@[simp] theorem State.invalidateKeys_mem (s : State) (ks : List ℕ) : (State.invalidateKeys s ks).pool.mem = s.pool.mem := by
  simp [State.invalidateKeys]

@[simp] theorem State.invalidateRange_mem (s : State) (base : ℕ) (len : ℕ) : (State.invalidateRange s base len).pool.mem = s.pool.mem := by
  simp [State.invalidateRange]

@[simp] theorem State.settleDrains_mem (s : State) : (State.settleDrains s).pool.mem = s.pool.mem := by
  simp [State.settleDrains]

@[simp] theorem State.lateCpl_mem (s : State) (n : ℕ) (attr : Option ℕ) : (State.lateCpl s n attr).pool.mem = s.pool.mem := by
  simp [State.lateCpl]

@[simp] theorem State.retireTag_mem (s : State) (n : ℕ) (r : TagRec) : (State.retireTag s n r).pool.mem = s.pool.mem := by
  simp [State.retireTag]

@[simp] theorem State.answerTag_mem (s : State) (n : ℕ) (r : TagRec) (status : ℕ) : (State.answerTag s n r status).pool.mem = s.pool.mem := by
  simp [State.answerTag]

@[simp] theorem State.answerTags_mem (s : State) (n : ℕ) : (State.answerTags s n).pool.mem = s.pool.mem := by
  simp [State.answerTags]

@[simp] theorem State.submit_mem (s0 : State) (p0 : Pkt) : (State.submit s0 p0).pool.mem = s0.pool.mem := by
  simp [State.submit]

@[simp] theorem State.npReserve_mem (s : State) (n : ℕ) (i : ℕ) : (State.npReserve s n i).pool.mem = s.pool.mem := by
  unfold State.npReserve
  split <;> simp

@[simp] theorem State.dropWaiting_mem (s : State) (p : ℕ) (wide : Bool) : (State.dropWaiting s p wide).pool.mem = s.pool.mem := by
  simp [State.dropWaiting]

@[simp] theorem State.stationCount_mem (s : State) (n : ℕ) (rx : Bool) (part : Option ℕ) (tc : ℕ) (len : ℕ) : (State.stationCount s n rx part tc len).pool.mem = s.pool.mem := by
  simp [State.stationCount]

@[simp] theorem State.issuePosted_mem (s : State) (n : ℕ) (k : Pkt) : (State.issuePosted s n k).pool.mem = s.pool.mem := by
  simp [State.issuePosted]

@[simp] theorem State.issueNp_mem (s : State) (n : ℕ) (t : ℕ) (k : Pkt) : (State.issueNp s n t k).pool.mem = s.pool.mem := by
  simp [State.issueNp]

@[simp] theorem State.dropCfgFix_mem (s : State) (n : ℕ) (rid : ℕ) (tag : ℕ) : (State.dropCfgFix s n rid tag).pool.mem = s.pool.mem := by
  simp [State.dropCfgFix]

@[simp] theorem State.issueCpl_mem (s : State) (n : ℕ) (k : Pkt) : (State.issueCpl s n k).pool.mem = s.pool.mem := by
  simp [State.issueCpl]

@[simp] theorem State.egressIssue_mem (s : State) (n : ℕ) : (State.egressIssue s n).pool.mem = s.pool.mem := by
  unfold State.egressIssue
  repeat' (first | (simp [*]; done) | split | (rename_i e; have e := congrArg (fun x => x.2.pool.mem) e; simp at e; simp [← e]; first | done | assumption) | simp)

@[simp] theorem State.tlpAcked_mem (s : State) (n : ℕ) : (State.tlpAcked s n).pool.mem = s.pool.mem := by
  unfold State.tlpAcked
  split <;> simp

@[simp] theorem State.returnCpl_mem (s : State) (n : ℕ) (r : TagRec) (c : Cpl) : (State.returnCpl s n r c).pool.mem = s.pool.mem := by
  unfold State.returnCpl
  split <;> simp

@[simp] theorem State.flrEnded_mem (s : State) (n : ℕ) (rid : Option ℕ) : (State.flrEnded s n rid).pool.mem = s.pool.mem := by
  unfold State.flrEnded
  split <;> simp

@[simp] theorem State.completeTag_mem (s : State) (n : ℕ) (r : TagRec) (c : Cpl) : (State.completeTag s n r c).pool.mem = s.pool.mem := by
  simp [State.completeTag]

@[simp] theorem State.cplArrives_mem (s : State) (n : ℕ) (c : Cpl) : (State.cplArrives s n c).pool.mem = s.pool.mem := by
  unfold State.cplArrives
  split <;> simp

@[simp] theorem State.cplTimeout_mem (s : State) (n : ℕ) (t : ℕ) : (State.cplTimeout s n t).pool.mem = s.pool.mem := by
  unfold State.cplTimeout
  split <;> simp

@[simp] theorem State.quarEnd_mem (s : State) (n : ℕ) (t : ℕ) : (State.quarEnd s n t).pool.mem = s.pool.mem := by
  simp [State.quarEnd]

@[simp] theorem State.staleTags_mem (s : State) (p : ℕ) : (State.staleTags s p).pool.mem = s.pool.mem := by
  simp [State.staleTags]

@[simp] theorem State.powerSlot_mem (s : State) (n : ℕ) : (State.powerSlot s n).pool.mem = s.pool.mem := by
  unfold State.powerSlot
  split <;> simp

@[simp] theorem State.portDrop_mem (s : State) (n : ℕ) (st : ℕ) : (State.portDrop s n st).pool.mem = s.pool.mem := by
  simp [State.portDrop]

@[simp] theorem State.portUp_mem (s : State) (n : ℕ) (width : ℕ) (rate : ℕ) (flit : Bool) : (State.portUp s n width rate flit).pool.mem = s.pool.mem := by
  simp [State.portUp]

@[simp] theorem State.bringUp_mem (s : State) (n : ℕ) : (State.bringUp s n).pool.mem = s.pool.mem := by
  simp [State.bringUp]

@[simp] theorem State.hpNotify_mem (s : State) (p : ℕ) (k : ℕ) : (State.hpNotify s p k).pool.mem = s.pool.mem := by
  simp [State.hpNotify]

@[simp] theorem State.enumCommit_mem (s : State) (ks : List ℕ) (ws : List (ℕ × Entry)) : (State.enumCommit s ks ws).pool.mem = s.pool.mem := by
  simp [State.enumCommit]

@[simp] theorem State.mapBar_mem (s : State) (p : ℕ) (k : ℕ) (fn : ℕ) (bar : ℕ) (old : List ℕ) : (State.mapBar s p k fn bar old).pool.mem = s.pool.mem := by
  unfold State.mapBar
  repeat' (first | (simp [*]; done) | split | (rename_i e; have e := congrArg (fun x => x.2.pool.mem) e; simp at e; simp [← e]; first | done | assumption) | simp)

@[simp] theorem State.unmapBelow_mem (s : State) (p : ℕ) (k : ℕ) : (State.unmapBelow s p k).pool.mem = s.pool.mem := by
  simp [State.unmapBelow]

@[simp] theorem State.fnReset_mem (s : State) (p : ℕ) (k : ℕ) (fn : ℕ) : (State.fnReset s p k fn).pool.mem = s.pool.mem := by
  simp [State.fnReset]

@[simp] theorem State.hotResetPort_mem (s : State) (n : ℕ) : (State.hotResetPort s n).pool.mem = s.pool.mem := by
  simp [State.hotResetPort]

@[simp] theorem State.sendFlr_mem (s : State) (n : ℕ) (fn : ℕ) : (State.sendFlr s n fn).pool.mem = s.pool.mem := by
  simp [State.sendFlr]

@[simp] theorem State.targetReset_mem (s : State) (p : ℕ) (k : ℕ) : (State.targetReset s p k).pool.mem = s.pool.mem := by
  unfold State.targetReset
  repeat' (first | (simp [*]; done) | split | (rename_i e; have e := congrArg (fun x => x.2.pool.mem) e; simp at e; simp [← e]; first | done | assumption) | simp)

@[simp] theorem State.beginRemoval_mem (s : State) (p : ℕ) (k : ℕ) (gone : Bool) : (State.beginRemoval s p k gone).pool.mem = s.pool.mem := by
  simp [State.beginRemoval]

@[simp] theorem State.surpriseRemoval_mem (s : State) (p : ℕ) (k : ℕ) (gone : Bool) : (State.surpriseRemoval s p k gone).pool.mem = s.pool.mem := by
  unfold State.surpriseRemoval
  split <;> simp

@[simp] theorem State.powerControl_mem (s : State) (p : ℕ) (k : ℕ) (off : Bool) : (State.powerControl s p k off).pool.mem = s.pool.mem := by
  unfold State.powerControl
  split <;> simp

@[simp] theorem State.dpcVdsp_mem (s : State) (p : ℕ) (k : ℕ) : (State.dpcVdsp s p k).pool.mem = s.pool.mem := by
  unfold State.dpcVdsp
  split <;> simp

@[simp] theorem State.quiesce_mem (s : State) (p : ℕ) : (State.quiesce s p).pool.mem = s.pool.mem := by
  simp [State.quiesce]

@[simp] theorem State.dpcTrigger_mem (s : State) (n : ℕ) : (State.dpcTrigger s n).pool.mem = s.pool.mem := by
  simp [State.dpcTrigger]

@[simp] theorem State.dpcReact_mem (s : State) (n : ℕ) (attr : Option ℕ) : (State.dpcReact s n attr).pool.mem = s.pool.mem := by
  unfold State.dpcReact
  split <;> simp

@[simp] theorem State.dpcRelease_mem (s : State) (n : ℕ) : (State.dpcRelease s n).pool.mem = s.pool.mem := by
  simp [State.dpcRelease]

@[simp] theorem State.dpcClear_mem (s : State) (p : ℕ) (k : ℕ) : (State.dpcClear s p k).pool.mem = s.pool.mem := by
  unfold State.dpcClear
  repeat' (first | (simp [*]; done) | split | (rename_i e; have e := congrArg (fun x => x.2.pool.mem) e; simp at e; simp [← e]; first | done | assumption) | simp)

@[simp] theorem State.unplugRequest_mem (s : State) (p : ℕ) (k : ℕ) : (State.unplugRequest s p k).pool.mem = s.pool.mem := by
  simp [State.unplugRequest]

@[simp] theorem State.removeBinding_mem (s : State) (p : ℕ) (k : ℕ) : (State.removeBinding s p k).pool.mem = s.pool.mem := by
  unfold State.removeBinding
  repeat' (first | (simp [*]; done) | split | (rename_i e; have e := congrArg (fun x => x.2.pool.mem) e; simp at e; simp [← e]; first | done | assumption) | simp)

@[simp] theorem State.closeXfer_mem (s : State) : (State.closeXfer s).pool.mem = s.pool.mem := by
  unfold State.closeXfer
  split <;> simp

@[simp] theorem State.xferPReset_mem (s : State) (p : ℕ) : (State.xferPReset s p).pool.mem = s.pool.mem := by
  unfold State.xferPReset
  split <;> simp

@[simp] theorem State.vnicsPReset_mem (s : State) (p : ℕ) : (State.vnicsPReset s p).pool.mem = s.pool.mem := by
  simp [State.vnicsPReset]

@[simp] theorem State.pReset_mem (s : State) (p : ℕ) (wide : Bool) : (State.pReset s p wide).pool.mem = s.pool.mem := by
  simp [State.pReset]

@[simp] theorem State.vdspPReset_mem (s : State) (p : ℕ) (k : ℕ) : (State.vdspPReset s p k).pool.mem = s.pool.mem := by
  unfold State.vdspPReset
  split <;> simp

@[simp] theorem State.hierReset_mem (s : State) (p : ℕ) : (State.hierReset s p).pool.mem = s.pool.mem := by
  unfold State.hierReset
  split <;> simp

@[simp] theorem State.perstAssert_mem (s : State) (n : ℕ) (ns : ℕ) : (State.perstAssert s n ns).pool.mem = s.pool.mem := by
  simp [State.perstAssert]

@[simp] theorem State.perstRelease_mem (s : State) (n : ℕ) : (State.perstRelease s n).pool.mem = s.pool.mem := by
  simp [State.perstRelease]

@[simp] theorem State.upstreamReset_mem (s : State) (n : ℕ) : (State.upstreamReset s n).pool.mem = s.pool.mem := by
  simp [State.upstreamReset]

@[simp] theorem State.flrsDone_mem (s : State) (v : Vdsp) : (State.flrsDone s v).pool.mem = s.pool.mem := by
  simp [State.flrsDone]

@[simp] theorem State.resetsDone_mem (s : State) (p : ℕ) : (State.resetsDone s p).pool.mem = s.pool.mem := by
  simp [State.resetsDone]

@[simp] theorem State.surpriseDown_mem (s : State) (n : ℕ) : (State.surpriseDown s n).pool.mem = s.pool.mem := by
  unfold State.surpriseDown
  repeat' (first | (simp; done) | (with_reducible refine (foldl_mem _ _ _ ?_).trans ?_ <;> try intro _ _) | (exact foldl_mem _ _ _ (fun _ _ => by simp)) | split)

@[simp] theorem State.linkDown_mem (s : State) (n : ℕ) : (State.linkDown s n).pool.mem = s.pool.mem := by
  unfold State.linkDown
  repeat' (first | (simp; done) | split)

@[simp] theorem State.vdspLinks_mem (s : State) (n : ℕ) (up : Bool) : (State.vdspLinks s n up).pool.mem = s.pool.mem := by
  simp [State.vdspLinks]

@[simp] theorem State.enumerate_mem (s : State) (n : ℕ) (d : DevInfo) : (State.enumerate s n d).pool.mem = s.pool.mem := by
  simp [State.enumerate]

@[simp] theorem State.targetLost_mem (s : State) (t : LostTarget) : (State.targetLost s t).pool.mem = s.pool.mem := by
  unfold State.targetLost
  split <;> simp

@[simp] theorem State.perstLost_mem (s : State) (n : ℕ) : (State.perstLost s n).pool.mem = s.pool.mem := by
  simp [State.perstLost]

@[simp] theorem State.answerAt_mem (s : State) (n : ℕ) (r : MemReq) (status : ℕ) (data : Bytes) : (State.answerAt s n r status data).pool.mem = s.pool.mem := by
  simp [State.answerAt]

@[simp] theorem State.refuseAt_mem (s : State) (n : ℕ) (r : MemReq) : (State.refuseAt s n r).pool.mem = s.pool.mem := by
  simp [State.refuseAt]

theorem State.sendOne_mem {s t : State} {p : Pkt} {a : Word} (h : s.sendOne p a = some t) : t.pool.mem = s.pool.mem := by
  unfold State.sendOne at h
  repeat' (first | (cases h; simp; done) | (cases h; done) | (cases h; (simp [*, State.routePkt_mem (by assumption)]; done)) | split at h | (simp only [] at h))

@[simp] theorem State.sendRequest_mem (s : State) (n : ℕ) (r : MemReq) (p : Pkt) (a : Word) : (State.sendRequest s n r p a).pool.mem = s.pool.mem := by
  unfold State.sendRequest
  repeat' (first | (simp; done) | (simp [*]; done) | (with_reducible refine (foldl_mem _ _ _ ?_).trans ?_ <;> try intro _ _) | split | (simp [*, State.sendOne_mem (by assumption)]; done) | (rename_i e; have e := congrArg (fun x => x.2.pool.mem) e; simp at e; simp [← e]; first | done | assumption) | (rename_i e; have e := congrArg (fun x => x.1.pool.mem) e; simp at e; simp [← e]; first | done | assumption) | simp)

@[simp] theorem State.windowed_mem (s : State) (n : ℕ) (p : ℕ) (tc : ℕ) (rid : ℕ) (pasid : Option ℕ) (e : Entry) (r : MemReq) : (State.windowed s n p tc rid pasid e r).pool.mem = s.pool.mem := by
  simp [State.windowed]

@[simp] theorem State.hostLookup_mem (s : State) (n : ℕ) (r : MemReq) : (State.hostLookup s n r).pool.mem = s.pool.mem := by
  unfold State.hostLookup
  repeat' (first | (simp [*]; done) | split | (rename_i e; have e := congrArg (fun x => x.2.pool.mem) e; simp at e; simp [← e]; first | done | assumption) | simp)

@[simp] theorem State.forwardUp_mem (s : State) (n : ℕ) (p : ℕ) (tc : ℕ) (rid : ℕ) (pasid : Option ℕ) (r : MemReq) : (State.forwardUp s n p tc rid pasid r).pool.mem = s.pool.mem := by
  unfold State.forwardUp
  split <;> simp

@[simp] theorem State.deviceLookup_mem (s : State) (n : ℕ) (r : MemReq) : (State.deviceLookup s n r).pool.mem = s.pool.mem := by
  unfold State.deviceLookup
  repeat' (first | (simp [*]; done) | split | (rename_i e; have e := congrArg (fun x => x.2.pool.mem) e; simp at e; simp [← e]; first | done | assumption) | simp)

end Sys2Proof.Machine
end

