-- ==== Sys2Proof/Laws/CellsPool.lean ====
section
/-! SUPPORT. The canonical form of the pool memory: what the pool and the windows do to the pool memory: they keep its canonical form. -/

set_option linter.unusedTactic false
set_option linter.unreachableTactic false
set_option linter.unusedSimpArgs false
set_option linter.unusedVariables false

namespace Sys2Proof.Machine

open Sys2Proof

@[simp] theorem State.sodHandle_mem (s : State) (n : ℕ) : (State.sodHandle s n).pool.mem = s.pool.mem := by
  simp [State.sodHandle]

@[simp] theorem State.poolEvent_mem (s : State) (reason : ℕ) (x : ℕ) : (State.poolEvent s reason x).pool.mem = s.pool.mem := by
  simp [State.poolEvent]

@[simp] theorem State.poisonEvent_mem (s : State) (n : ℕ) : (State.poisonEvent s n).pool.mem = s.pool.mem := by
  unfold State.poisonEvent
  split <;> simp

@[simp] theorem State.retireSod_mem (s : State) (n : ℕ) : (State.retireSod s n).pool.mem = s.pool.mem := by
  simp [State.retireSod]

@[simp] theorem State.breakSod_mem (s : State) (n : ℕ) : (State.breakSod s n).pool.mem = s.pool.mem := by
  simp [State.breakSod]

@[simp] theorem State.zeroSod_mem (s : State) (n : ℕ) (fenced : Bool) (h : ℕ) : (State.zeroSod s n fenced h).pool.mem = s.pool.mem := by
  simp [State.zeroSod]

@[simp] theorem State.initPool_mem (n : Nat) (s : State) : (State.initPool n s).pool.mem = s.pool.mem := by
  induction n generalizing s with
  | zero => rfl
  | succ k ih => unfold State.initPool; repeat' (first | (simp [ih]; done) | split | dsimp only)

@[simp] theorem State.layoutPool_mem (s : State) (wide : ℕ) (spill : ℕ) (h : ℕ) : (State.layoutPool s wide spill h).pool.mem = s.pool.mem := by
  simp [State.layoutPool]

@[simp] theorem State.romWindows_mem (s : State) (valid : Bool) : (State.romWindows s valid).pool.mem = s.pool.mem := by
  simp [State.romWindows]

@[simp] theorem State.romCopyCheck_mem (s : State) : (State.romCopyCheck s).pool.mem = s.pool.mem := by
  simp [State.romCopyCheck]

@[simp] theorem State.romCopyLost_mem (s : State) : (State.romCopyLost s).pool.mem = s.pool.mem := by
  simp [State.romCopyLost]

@[simp] theorem State.zeroed_wf (s : State) (n : ℕ) (h : cellsWf s.pool.mem) : cellsWf (State.zeroed s n).pool.mem := by
  unfold State.zeroed
  split <;> simp [h]

@[simp] theorem State.sodDone_mem (s : State) (n : ℕ) : (State.sodDone s n).pool.mem = s.pool.mem := by
  simp [State.sodDone]

@[simp] theorem State.scrubOver_mem (s : State) (n : ℕ) (ue : Bool) : (State.scrubOver s n ue).pool.mem = s.pool.mem := by
  simp [State.scrubOver]

@[simp] theorem State.poolFence_mem (s : State) (ns : List ℕ) (h : ℕ) (group : Option ℕ) : (State.poolFence s ns h group).pool.mem = s.pool.mem := by
  simp [State.poolFence]

@[simp] theorem State.fenceDone_mem (s : State) (id : ℕ) : (State.fenceDone s id).pool.mem = s.pool.mem := by
  unfold State.fenceDone
  split <;> simp

@[simp] theorem State.lineBad_mem (s : State) (a : ℕ) (idx : ℕ) (attr : Option ℕ) : (State.lineBad s a idx attr).pool.mem = s.pool.mem := by
  simp [State.lineBad]

@[simp] theorem State.countDevice_mem (s : State) (a : ℕ) (dev : ℕ) : (State.countDevice s a dev).pool.mem = s.pool.mem := by
  simp [State.countDevice]

@[simp] theorem State.lineCorrected_mem (s : State) (a : ℕ) (dev : ℕ) : (State.lineCorrected s a dev).pool.mem = s.pool.mem := by
  simp [State.lineCorrected]

@[simp] theorem State.eccLine_mem (s : State) (a : ℕ) (ecc : Ecc) (idx : ℕ) (attr : Option ℕ) : (State.eccLine s a ecc idx attr).pool.mem = s.pool.mem := by
  unfold State.eccLine
  split <;> simp

@[simp] theorem State.eccAt_mem (s : State) (a : ℕ) (n : ℕ) (ecc : Eccs) (attr : Option ℕ) : (State.eccAt s a n ecc attr).pool.mem = s.pool.mem := by
  simp [State.eccAt]

@[simp] theorem State.breakHearth_mem (s : State) (ls : List ℕ) : (State.breakHearth s ls).pool.mem = s.pool.mem := by
  simp [State.breakHearth]

@[simp] theorem State.poolWrite_wf (s : State) (a : Nat) (d : Bytes) (ep : Bool) (en : Nat → Bool) (h : cellsWf s.pool.mem) :
    cellsWf (s.poolWrite a d ep en).pool.mem := by
  unfold State.poolWrite
  simp only []
  have hb : ∀ ls, (s.breakHearth ls).pool = s.pool := fun _ => rfl
  repeat' (first | (simp [hb, h]; done) | split)

@[simp] theorem State.poolCount_mem (s : State) (m : ℕ) (ev : ℕ) (n : ℕ) (part : Option ℕ) : (State.poolCount s m ev n part).pool.mem = s.pool.mem := by
  simp [State.poolCount]

@[simp] theorem State.poolRefuse_mem (s : State) (m : ℕ) (p : Pkt) (attr : Option ℕ) : (State.poolRefuse s m p attr).pool.mem = s.pool.mem := by
  simp [State.poolRefuse]

@[simp] theorem State.poolExec_wf (s : State) (m : ℕ) (p : Pkt) (ecc : Eccs) (h : cellsWf s.pool.mem) : cellsWf (State.poolExec s m p ecc).pool.mem := by
  unfold State.poolExec
  repeat' (first | with_reducible assumption | (simp [*]; done) | (with_reducible refine foldl_wf _ _ _ ?_ ?_ <;> try intro _ _ _) | split | simp)

@[simp] theorem State.poolQueued_wf (s : State) (m : ℕ) (ecc : Eccs) (h : cellsWf s.pool.mem) : cellsWf (State.poolQueued s m ecc).pool.mem := by
  unfold State.poolQueued
  repeat' (first | (simp [h]; done) | split)

@[simp] theorem State.emberPoison_mem (s : State) (g : PoolAgent) (n : ℕ) (ecc : Eccs) : (State.emberPoison s g n ecc).pool.mem = s.pool.mem := by
  simp [State.emberPoison]

@[simp] theorem State.poolResult_mem (s : State) (status : ℕ) (d : Bytes) : (State.poolResult s status d).pool.mem = s.pool.mem := by
  simp [State.poolResult]

@[simp] theorem State.directAtomic_wf (s : State) (m : ℕ) (a : ℕ) (opc : ℕ) (x : ℕ) (y : ℕ) (ecc : Eccs) (h : cellsWf s.pool.mem) : cellsWf (State.directAtomic s m a opc x y ecc).pool.mem := by
  unfold State.directAtomic
  repeat' (first | with_reducible assumption | (simp [*]; done) | (with_reducible refine foldl_wf _ _ _ ?_ ?_ <;> try intro _ _ _) | split | simp)

@[simp] theorem State.directConditional_wf (s : State) (m : ℕ) (a : ℕ) (agent : ℕ) (d : Bytes) (h : cellsWf s.pool.mem) : cellsWf (State.directConditional s m a agent d).pool.mem := by
  unfold State.directConditional
  split <;> simp [h]

@[simp] theorem State.poolDirect_wf (s : State) (m : Nat) (g : PoolAgent) (n off : Nat) (op : PoolOp) (ecc : Eccs) (h : cellsWf s.pool.mem) :
    cellsWf (s.poolDirect m g n off op ecc).pool.mem := by
  have e1 (t : State) (a b : Nat) (x : Option Nat) (y : Option Nat) (w : Word) (c : Nat) (d : Bytes) :
      ((t.raiseAt a b x y w).poolResult c d).pool.mem = t.pool.mem := by rw [State.poolResult_mem, State.raiseAt_mem t a b x y w]
  have e2 (t : State) (c : Prop) [Decidable c] (k : Nat) (d : Bytes) :
      ((if c then t.emberPoison g n ecc else t).poolResult k d).pool.mem = t.pool.mem := by
    rw [State.poolResult_mem]; split
    · rw [State.emberPoison_mem]
    · rfl
  unfold State.poolDirect
  dsimp only
  generalize poolKey n off = a
  split
  · exact h
  · split
    · rw [e1]; exact h
    · cases op with
      | read len => dsimp only; rw [e2, State.poolCount_mem, State.eccAt_mem]; exact h
      | write d ep => dsimp only; rw [State.poolResult_mem, State.poolCount_mem]; exact State.poolWrite_wf _ _ _ _ _ h
      | fetchAdd size v => dsimp only; split <;> [(rw [e1]; exact h); exact State.directAtomic_wf _ _ _ _ _ _ _ h]
      | swap size v => dsimp only; split <;> [(rw [e1]; exact h); exact State.directAtomic_wf _ _ _ _ _ _ _ h]
      | cas size c v => dsimp only; split <;> [(rw [e1]; exact h); exact State.directAtomic_wf _ _ _ _ _ _ _ h]
      | reserve =>
        dsimp only; split
        · rw [e1]; exact h
        · rw [State.poolResult_mem, State.modPool_mem, PoolSt.addResv_mem, State.poolCount_mem, State.eccAt_mem]; exact h
      | conditional d =>
        dsimp only; split
        · rw [e1]; exact h
        · exact State.directConditional_wf _ _ _ _ _ h

@[simp] theorem State.poolAccess_wf (s : State) (m : ℕ) (a : PoolAcc) (ecc : Eccs) (h : cellsWf s.pool.mem) : cellsWf (State.poolAccess s m a ecc).pool.mem := by
  unfold State.poolAccess
  split <;> simp [h]

@[simp] theorem State.patrol_mem (s : State) (l : ℕ) (ecc : Ecc) : (State.patrol s l ecc).pool.mem = s.pool.mem := by
  simp [State.patrol]

@[simp] theorem State.channelLost_mem (s : State) (ch : ℕ) : (State.channelLost s ch).pool.mem = s.pool.mem := by
  simp [State.channelLost]

@[simp] theorem State.resizeSpill_mem (s : State) (n : ℕ) : (State.resizeSpill s n).pool.mem = s.pool.mem := by
  simp [State.resizeSpill]

theorem cmdPoolGetStatus_keeps : cmdPoolGetStatus.keeps := by
  intro w q s h
  simp [cmdPoolGetStatus, h]

theorem cmdPoolConfig_keeps : cmdPoolConfig.keeps := by
  intro w q s h
  unfold cmdPoolConfig
  dsimp only
  repeat' (first | (simp [h]; done) | split)

theorem cmdSodAssign_keeps : cmdSodAssign.keeps := by
  intro w q s h
  unfold cmdSodAssign
  dsimp only
  repeat' (first | (simp [h]; done) | split)

theorem cmdSodRelease_keeps : cmdSodRelease.keeps := by
  intro w q s h
  unfold cmdSodRelease
  dsimp only
  repeat' (first | (simp [h]; done) | split)

theorem cmdSodQuery_keeps : cmdSodQuery.keeps := by
  intro w q s h
  unfold cmdSodQuery
  dsimp only
  repeat' (first | (simp [h]; done) | split)

theorem cmdSodSet_keeps : cmdSodSet.keeps := by
  intro w q s h
  unfold cmdSodSet
  dsimp only
  repeat' (first | (simp [h]; done) | split)

@[simp] theorem State.drainWaitOver_mem (s : State) (p : ℕ) : (State.drainWaitOver s p).pool.mem = s.pool.mem := by
  unfold State.drainWaitOver
  repeat' (first | (simp; done) | split)

@[simp] theorem State.fenceOver_mem (s : State) (port : ℕ) (fn : ℕ) : (State.fenceOver s port fn).pool.mem = s.pool.mem := by
  simp [State.fenceOver]

@[simp] theorem State.emberCfg_mem (s : State) (n : ℕ) (rid : ℕ) (reg : ℕ) (w : Option ℕ) : (State.emberCfg s n rid reg w).pool.mem = s.pool.mem := by
  simp [State.emberCfg]

@[simp] theorem State.vfWrites_mem (s : State) (n : ℕ) (vfs : ℕ) : (State.vfWrites s n vfs).pool.mem = s.pool.mem := by
  simp [State.vfWrites]

@[simp] theorem State.shareDone_mem (s : State) (n : ℕ) (good : Bool) : (State.shareDone s n good).pool.mem = s.pool.mem := by
  unfold State.shareDone
  repeat' (first | (simp [*]; done) | split | (rename_i e; have e := congrArg (fun x => x.2.pool.mem) e; simp at e; simp [← e]; first | done | assumption) | simp)

theorem cmdWinStage_keeps : cmdWinStage.keeps := by
  intro w q s h
  unfold cmdWinStage
  dsimp only
  repeat' (first | (simp [h]; done) | split)

theorem cmdWinCommit_keeps : cmdWinCommit.keeps := by
  intro w q s h
  unfold cmdWinCommit
  dsimp only
  repeat' (first | (simp [h]; done) | split)

theorem cmdWinDiscard_keeps : cmdWinDiscard.keeps := by
  intro w q s h
  simp [cmdWinDiscard, h]

theorem cmdWinRead_keeps : cmdWinRead.keeps := by
  intro w q s h
  unfold cmdWinRead
  dsimp only
  repeat' (first | (simp [h]; done) | split)

theorem cmdDevShare_keeps : cmdDevShare.keeps := by
  intro w q s h
  unfold cmdDevShare
  dsimp only
  repeat' (first | (simp [h]; done) | split)

theorem cmdMigrateFence_keeps : cmdMigrateFence.keeps := by
  intro w q s h
  unfold cmdMigrateFence
  dsimp only
  repeat' (first | (simp [h]; done) | split)

@[simp] theorem State.presenceChanged_mem (s : State) (n : ℕ) (present : Bool) : (State.presenceChanged s n present).pool.mem = s.pool.mem := by
  simp [State.presenceChanged]

@[simp] theorem State.perstHoldOver_mem (s : State) (n : ℕ) : (State.perstHoldOver s n).pool.mem = s.pool.mem := by
  simp [State.perstHoldOver]

@[simp] theorem State.dataLinkUp_mem (s : State) (n : ℕ) (width : ℕ) (rate : ℕ) (flit : Bool) : (State.dataLinkUp s n width rate flit).pool.mem = s.pool.mem := by
  simp [State.dataLinkUp]

@[simp] theorem State.detectOver_mem (s : State) (n : ℕ) : (State.detectOver s n).pool.mem = s.pool.mem := by
  simp [State.detectOver]

@[simp] theorem State.configWaitOver_mem (s : State) (n : ℕ) : (State.configWaitOver s n).pool.mem = s.pool.mem := by
  simp [State.configWaitOver]

@[simp] theorem State.notReadyOver_mem (s : State) (n : ℕ) : (State.notReadyOver s n).pool.mem = s.pool.mem := by
  simp [State.notReadyOver]

@[simp] theorem State.bringUpCpl_mem (s : State) (n : ℕ) (c : Cpl) : (State.bringUpCpl s n c).pool.mem = s.pool.mem := by
  simp [State.bringUpCpl]

@[simp] theorem State.redirCpl_mem (s : State) (n : ℕ) (r : TagRec) (c : Cpl) : (State.redirCpl s n r c).pool.mem = s.pool.mem := by
  simp [State.redirCpl]

@[simp] theorem State.completionIn_mem (s : State) (n : ℕ) (c : Cpl) : (State.completionIn s n c).pool.mem = s.pool.mem := by
  unfold State.completionIn
  repeat' (first | (simp; done) | split)

@[simp] theorem State.errorUp_mem (s : State) (n : ℕ) (p : ℕ) (k : ℕ) (rid : ℕ) (code : ℕ) : (State.errorUp s n p k rid code).pool.mem = s.pool.mem := by
  simp [State.errorUp]

@[simp] theorem State.messageIn_mem (s : State) (n : ℕ) (rid : ℕ) (m : PcieMsg) : (State.messageIn s n rid m).pool.mem = s.pool.mem := by
  unfold State.messageIn
  repeat' (first | (simp; done) | split)

@[simp] theorem State.portResetStart_mem (s : State) (n : ℕ) (kind : ℕ) : (State.portResetStart s n kind).pool.mem = s.pool.mem := by
  unfold State.portResetStart
  split <;> simp

@[simp] theorem State.portResetDone_mem (s : State) (n : ℕ) (linkUp : Bool) : (State.portResetDone s n linkUp).pool.mem = s.pool.mem := by
  unfold State.portResetDone
  repeat' (first | (simp [*]; done) | split | (rename_i e; have e := congrArg (fun x => x.2.pool.mem) e; simp at e; simp [← e]; first | done | assumption) | simp)

theorem cmdPortGetStatus_keeps : cmdPortGetStatus.keeps := by
  intro w q s h
  unfold cmdPortGetStatus
  dsimp only
  repeat' (first | (simp [h]; done) | split)

theorem cmdPortSetConfig_keeps : cmdPortSetConfig.keeps := by
  intro w q s h
  unfold cmdPortSetConfig
  dsimp only
  repeat' (first | (simp [h]; done) | split)

theorem cmdPortReset_keeps : cmdPortReset.keeps := by
  intro w q s h
  unfold cmdPortReset
  dsimp only
  repeat' (first | (simp [h]; done) | split)

@[simp] theorem State.cfgDone_mem (s : State) (p : ℕ) (r : CfgReq) (status : ℕ) (v : BitVec 32) : (State.cfgDone s p r status v).pool.mem = s.pool.mem := by
  simp [State.cfgDone]

@[simp] theorem State.mgmtFlr_mem (s : State) (p : ℕ) : (State.mgmtFlr s p).pool.mem = s.pool.mem := by
  simp [State.mgmtFlr]

@[simp] theorem State.renumber_mem (s : State) (p : ℕ) (k : ℕ) : (State.renumber s p k).pool.mem = s.pool.mem := by
  simp [State.renumber]

@[simp] theorem State.remapIn_mem (s : State) (p : ℕ) (k : ℕ) (lo : ℕ) (hi : ℕ) : (State.remapIn s p k lo hi).pool.mem = s.pool.mem := by
  simp [State.remapIn]

@[simp] theorem State.secondaryReset_mem (s : State) (p : ℕ) (k : ℕ) : (State.secondaryReset s p k).pool.mem = s.pool.mem := by
  simp [State.secondaryReset]

@[simp] theorem State.vdspWrite_mem (s : State) (p : ℕ) (k : ℕ) (r : CfgReq) : (State.vdspWrite s p k r).pool.mem = s.pool.mem := by
  simp [State.vdspWrite]

@[simp] theorem State.barWrite_mem (s : State) (p : ℕ) (k : ℕ) (fn : ℕ) (bar : ℕ) (value : Word) : (State.barWrite s p k fn bar value).pool.mem = s.pool.mem := by
  simp [State.barWrite]

@[simp] theorem State.memEnWrite_mem (s : State) (p : ℕ) (k : ℕ) (fn : ℕ) (en : Bool) : (State.memEnWrite s p k fn en).pool.mem = s.pool.mem := by
  simp [State.memEnWrite]

@[simp] theorem State.withholdPf_mem (s : State) (n : ℕ) : (State.withholdPf s n).pool.mem = s.pool.mem := by
  unfold State.withholdPf
  split <;> simp

@[simp] theorem State.functionFlr_mem (s : State) (p : ℕ) (k : ℕ) (fn : ℕ) : (State.functionFlr s p k fn).pool.mem = s.pool.mem := by
  unfold State.functionFlr
  repeat' (first | (simp [*]; done) | split | (rename_i e; have e := congrArg (fun x => x.2.pool.mem) e; simp at e; simp [← e]; first | done | assumption) | simp)

@[simp] theorem State.barHalf_mem (s : State) (p : ℕ) (k : ℕ) (fn : ℕ) (reg : ℕ) (be : BitVec 4) (value : BitVec 32) : (State.barHalf s p k fn reg be value).pool.mem = s.pool.mem := by
  simp [State.barHalf]

@[simp] theorem State.cfgForward_mem (s : State) (p : Nat) (v : Vdsp) (fn : Nat) (r : CfgReq) :
    (s.cfgForward p v fn r).pool.mem = s.pool.mem := by
  have key (o : Option State) (t : State) (ho : ∀ t, o = some t → t.pool.mem = s.pool.mem) (ht : t.pool.mem = s.pool.mem) :
      (o.getD t).pool.mem = s.pool.mem := by
    cases o with
    | none => exact ht
    | some t => exact ho _ rfl
  unfold State.cfgForward
  cases (s.vs p).up with
  | none => rfl
  | some u => exact key _ _ (fun t h => State.sendOne_mem h) (State.cfgDone_mem _ _ _ _ _)

@[simp] theorem State.vnicMsixCtl_mem (s : State) (v : Vdsp) (r : CfgReq) : (State.vnicMsixCtl s v r).pool.mem = s.pool.mem := by
  simp [State.vnicMsixCtl]

@[simp] theorem State.belowWrite_mem (s : State) (p : ℕ) (k : ℕ) (fn : ℕ) (r : CfgReq) : (State.belowWrite s p k fn r).pool.mem = s.pool.mem := by
  simp [State.belowWrite]

@[simp] theorem State.belowRead_mem (s : State) (p : ℕ) (k : ℕ) (fn : ℕ) (r : CfgReq) : (State.belowRead s p k fn r).pool.mem = s.pool.mem := by
  simp [State.belowRead]

@[simp] theorem State.captureBus_mem (s : State) (p : ℕ) (r : CfgReq) : (State.captureBus s p r).pool.mem = s.pool.mem := by
  simp [State.captureBus]

@[simp] theorem State.cfgRequest_mem (s0 : State) (p : ℕ) (r : CfgReq) : (State.cfgRequest s0 p r).pool.mem = s0.pool.mem := by
  unfold State.cfgRequest
  repeat' (first | (simp [*]; done) | split | (rename_i e; have e := congrArg (fun x => x.2.pool.mem) e; simp at e; simp [← e]; first | done | assumption) | simp)

@[simp] theorem State.bind_mem (s : State) (p : ℕ) (k : ℕ) (kind : ℕ) (port : ℕ) (module : ℕ) (first : ℕ) (count : ℕ) : (State.bind s p k kind port module first count).pool.mem = s.pool.mem := by
  simp [State.bind]

@[simp] theorem State.unplugOver_mem (s : State) (p : ℕ) (k : ℕ) : (State.unplugOver s p k).pool.mem = s.pool.mem := by
  unfold State.unplugOver
  repeat' (first | (simp [*]; done) | split | (rename_i e; have e := congrArg (fun x => x.2.pool.mem) e; simp at e; simp [← e]; first | done | assumption) | simp)

@[simp] theorem State.drainOver_mem (s : State) (p : ℕ) (k : ℕ) : (State.drainOver s p k).pool.mem = s.pool.mem := by
  simp [State.drainOver]

theorem cmdVdspBind_keeps : cmdVdspBind.keeps := by
  intro w q s h
  unfold cmdVdspBind
  dsimp only
  repeat' (first | (simp [h]; done) | split)

theorem cmdVdspUnbind_keeps : cmdVdspUnbind.keeps := by
  intro w q s h
  unfold cmdVdspUnbind
  dsimp only
  repeat' (first | (simp [h]; done) | split)

theorem cmdVdspGet_keeps : cmdVdspGet.keeps := by
  intro w q s h
  unfold cmdVdspGet
  dsimp only
  repeat' (first | (simp [h]; done) | split)

end Sys2Proof.Machine
end

