-- ==== Sys2Proof/Laws/CellsNet.lean ====
section
/-! SUPPORT. The canonical form of the pool memory: what the network and Ember do to the pool memory. -/

set_option linter.unusedTactic false
set_option linter.unreachableTactic false
set_option linter.unusedSimpArgs false
set_option linter.unusedVariables false

namespace Sys2Proof.Machine

open Sys2Proof

@[simp] theorem State.netDropped_mem (s : State) (lp : ℕ) (part : Option ℕ) : (State.netDropped s lp part).pool.mem = s.pool.mem := by
  simp [State.netDropped]

@[simp] theorem State.pfcPrio_mem (s : State) (lp : ℕ) (p : ℕ) : (State.pfcPrio s lp p).pool.mem = s.pool.mem := by
  simp [State.pfcPrio]

@[simp] theorem State.pfcEval_mem (s : State) : (State.pfcEval s).pool.mem = s.pool.mem := by
  simp [State.pfcEval]

@[simp] theorem State.pfcRefresh_mem (s : State) (lp : ℕ) (p : ℕ) : (State.pfcRefresh s lp p).pool.mem = s.pool.mem := by
  simp [State.pfcRefresh]

@[simp] theorem State.pfcIn_mem (s : State) (lp : ℕ) (mask : ℕ) (times : List ℕ) : (State.pfcIn s lp mask times).pool.mem = s.pool.mem := by
  simp [State.pfcIn]

@[simp] theorem State.pauseOver_mem (s : State) (lp : ℕ) (p : ℕ) : (State.pauseOver s lp p).pool.mem = s.pool.mem := by
  simp [State.pauseOver]

@[simp] theorem State.pauseWatch_mem (s : State) (lp : ℕ) (c : ℕ) : (State.pauseWatch s lp c).pool.mem = s.pool.mem := by
  simp [State.pauseWatch]

@[simp] theorem State.vnicSend_mem (s : State) (f : ℕ) (vec : ℕ) : (State.vnicSend s f vec).pool.mem = s.pool.mem := by
  unfold State.vnicSend
  split <;> simp

@[simp] theorem State.vnicMsix_mem (s : State) (f : ℕ) (vec : ℕ) : (State.vnicMsix s f vec).pool.mem = s.pool.mem := by
  unfold State.vnicMsix
  split <;> simp

@[simp] theorem State.vnicUnmask_mem (s : State) (f : ℕ) : (State.vnicUnmask s f).pool.mem = s.pool.mem := by
  unfold State.vnicUnmask
  split <;> simp

@[simp] theorem State.modQp_mem (s : State) (f : ℕ) (q : ℕ) (g : Qp → Qp) : (State.modQp s f q g).pool.mem = s.pool.mem := by
  simp [State.modQp]

@[simp] theorem State.qpVector_mem (s : State) (f : ℕ) (q : ℕ) : (State.qpVector s f q).pool.mem = s.pool.mem := by
  simp [State.qpVector]

@[simp] theorem State.itrExpiry_mem (s : State) (f : ℕ) (q : ℕ) : (State.itrExpiry s f q).pool.mem = s.pool.mem := by
  simp [State.itrExpiry]

@[simp] theorem State.qpError_mem (s : State) (f : ℕ) (q : ℕ) (src : ℕ) : (State.qpError s f q src).pool.mem = s.pool.mem := by
  unfold State.qpError
  split <;> simp

@[simp] theorem State.txTailWrite_mem (s : State) (f : ℕ) (q : ℕ) (value : ℕ) : (State.txTailWrite s f q value).pool.mem = s.pool.mem := by
  unfold State.txTailWrite
  split <;> simp

@[simp] theorem State.rxTailWrite_mem (s : State) (f : ℕ) (q : ℕ) (value : ℕ) : (State.rxTailWrite s f q value).pool.mem = s.pool.mem := by
  unfold State.rxTailWrite
  split <;> simp

@[simp] theorem State.doorbellWrite_mem (s : State) (f : ℕ) (q : ℕ) (reg : ℕ) (value : ℕ) : (State.doorbellWrite s f q reg value).pool.mem = s.pool.mem := by
  unfold State.doorbellWrite
  split <;> simp

@[simp] theorem State.vnicRegWrite_mem (s : State) (f : ℕ) (off : ℕ) (value : ℕ) : (State.vnicRegWrite s f off value).pool.mem = s.pool.mem := by
  unfold State.vnicRegWrite
  split <;> simp

@[simp] theorem State.dmaWrite_mem (s : State) (f : ℕ) (addr : ℕ) (data : Bytes) (ro : Bool) (tc : ℕ) : (State.dmaWrite s f addr data ro tc).pool.mem = s.pool.mem := by
  unfold State.dmaWrite
  split <;> simp

@[simp] theorem State.dmaRead_mem (s : State) (f : ℕ) (q : ℕ) (buffer : Bool) (addr : Word) (len : ℕ) : (State.dmaRead s f q buffer addr len).pool.mem = s.pool.mem := by
  unfold State.dmaRead
  split <;> simp

@[simp] theorem State.dmaFailed_mem (s : State) (p : ℕ) (rid : ℕ) (tag : ℕ) : (State.dmaFailed s p rid tag).pool.mem = s.pool.mem := by
  unfold State.dmaFailed
  split <;> simp

@[simp] theorem State.vnicReset_mem (s : State) (f : ℕ) : (State.vnicReset s f).pool.mem = s.pool.mem := by
  simp [State.vnicReset]

@[simp] theorem State.endQpHandles_mem (s : State) (v : Vnic) : (State.endQpHandles s v).pool.mem = s.pool.mem := by
  unfold State.endQpHandles
  repeat' (first | (simp; done) | (with_reducible refine (foldl_mem _ _ _ ?_).trans ?_ <;> try intro _ _) | split)

@[simp] theorem State.vnicResetEnd_mem (s : State) (f : ℕ) : (State.vnicResetEnd s f).pool.mem = s.pool.mem := by
  unfold State.vnicResetEnd
  split <;> simp

@[simp] theorem State.vnicRemove_mem (s : State) (f : ℕ) : (State.vnicRemove s f).pool.mem = s.pool.mem := by
  unfold State.vnicRemove
  repeat' (first | (simp; done) | split)

@[simp] theorem State.vnicSettle_mem (s : State) : (State.vnicSettle s).pool.mem = s.pool.mem := by
  simp [State.vnicSettle]

@[simp] theorem State.tellLink_mem (s : State) (lp : ℕ) (up : Bool) : (State.tellLink s lp up).pool.mem = s.pool.mem := by
  simp [State.tellLink]

@[simp] theorem State.flushEgress_mem (s : State) (lp : ℕ) : (State.flushEgress s lp).pool.mem = s.pool.mem := by
  simp [State.flushEgress]

@[simp] theorem State.lportLink_mem (s : State) (lp : ℕ) (up : Bool) : (State.lportLink s lp up).pool.mem = s.pool.mem := by
  simp [State.lportLink]

@[simp] theorem State.linkChange_mem (s : State) (lp : ℕ) (up : Bool) : (State.linkChange s lp up).pool.mem = s.pool.mem := by
  simp [State.linkChange]

@[simp] theorem State.trainingEnd_mem (s : State) (lp : ℕ) (up : Bool) : (State.trainingEnd s lp up).pool.mem = s.pool.mem := by
  unfold State.trainingEnd
  repeat' (first | (simp; done) | split)

@[simp] theorem State.admitFrame_mem (s : State) (lp : ℕ) (p : Pkt) : (State.admitFrame s lp p).pool.mem = s.pool.mem := by
  simp [State.admitFrame]

@[simp] theorem State.admitLossy_mem (s : State) (lp : ℕ) (p : Pkt) : (State.admitLossy s lp p).pool.mem = s.pool.mem := by
  unfold State.admitLossy
  repeat' (first | (simp [*]; done) | split | (rename_i e; have e := congrArg (fun x => x.2.pool.mem) e; simp at e; simp [← e]; first | done | assumption) | simp)

@[simp] theorem State.frameEnters_mem (s : State) (lp : ℕ) (prio : ℕ) (tc : ℕ) (colour : ℕ) (abort : Bool) (p : Pkt) : (State.frameEnters s lp prio tc colour abort p).pool.mem = s.pool.mem := by
  simp [State.frameEnters]

@[simp] theorem State.frameLookup_mem (s : State) (lp : ℕ) (f : Bytes) (abort : Bool) : (State.frameLookup s lp f abort).pool.mem = s.pool.mem := by
  unfold State.frameLookup
  repeat' (first | (simp [*]; done) | split | (rename_i e; have e := congrArg (fun x => x.2.pool.mem) e; simp at e; simp [← e]; first | done | assumption) | simp)

@[simp] theorem State.macControl_mem (s : State) (lp : ℕ) (f : Bytes) : (State.macControl s lp f).pool.mem = s.pool.mem := by
  simp [State.macControl]

@[simp] theorem State.frameIn_mem (s : State) (lp : ℕ) (f : Bytes) (fcsOk : Bool) : (State.frameIn s lp f fcsOk).pool.mem = s.pool.mem := by
  simp [State.frameIn]

@[simp] theorem State.rxDrop_mem (s : State) (w : Pkt) (noDesc : Bool) : (State.rxDrop s w noDesc).pool.mem = s.pool.mem := by
  simp [State.rxDrop]

@[simp] theorem State.rxSweepFrom_mem (s : State) (b l : List Pkt) : (s.rxSweepFrom b l).pool.mem = s.pool.mem := by
  induction l generalizing s b with
  | nil => cases b <;> rfl
  | cons w r ih => unfold State.rxSweepFrom; repeat' (first | (simp [ih]; done) | split | dsimp only)

@[simp] theorem State.rxSweep_mem (s : State) : (State.rxSweep s).pool.mem = s.pool.mem := by
  simp [State.rxSweep]

@[simp] theorem State.rxBuffer_mem (s : State) (w : Pkt) (k : Qp) (bufs : List ℕ) (n : ℕ) (i : ℕ) : (State.rxBuffer s w k bufs n i).pool.mem = s.pool.mem := by
  simp [State.rxBuffer]

@[simp] theorem State.vnicReceive_mem (s : State) (f : ℕ) (q : ℕ) (bufs : List ℕ) : (State.vnicReceive s f q bufs).pool.mem = s.pool.mem := by
  unfold State.vnicReceive
  split <;> simp

@[simp] theorem State.rxTimeout_mem (s : State) (f : ℕ) (q : ℕ) : (State.rxTimeout s f q).pool.mem = s.pool.mem := by
  unfold State.rxTimeout
  split <;> simp

@[simp] theorem State.txFrame_mem (s : State) (f : ℕ) (q : ℕ) (idx : ℕ) (ts : Bool) (g : Bytes) : (State.txFrame s f q idx ts g).1.pool.mem = s.pool.mem := by
  unfold State.txFrame
  repeat' (first | (simp [*]; done) | split | (rename_i e; have e := congrArg (fun x => x.2.pool.mem) e; simp at e; simp [← e]; first | done | assumption) | simp)

@[simp] theorem State.txNext_mem (s : State) (f : ℕ) (q : ℕ) : (State.txNext s f q).pool.mem = s.pool.mem := by
  unfold State.txNext
  repeat' (first | (simp [*]; done) | split | (rename_i e; have e := congrArg (fun x => x.2.pool.mem) e; simp at e; simp [← e]; first | done | assumption) | simp)

@[simp] theorem State.txRun_mem  (n : Nat) (s : State) (f q : Nat) : (State.txRun  n s f q).pool.mem = s.pool.mem := by
  induction n generalizing s f q with
  | zero => rfl
  | succ k ih => unfold State.txRun; repeat' (first | (simp [ih]; done) | split | dsimp only)

@[simp] theorem State.txTurn_mem (s : State) (f : ℕ) (round : ℕ) : (State.txTurn s f round).pool.mem = s.pool.mem := by
  unfold State.txTurn
  repeat' (first | (simp; done) | split)

@[simp] theorem State.txSchedule_mem (s : State) (lp : Nat) : (s.txSchedule lp).pool.mem = s.pool.mem := by
  unfold State.txSchedule
  dsimp only
  split
  · simp
  · split
    · simp
    · rfl

@[simp] theorem State.txRefuse_mem (s : State) (f : ℕ) (q : ℕ) (idx : ℕ) (n : ℕ) (err : ℕ) : (State.txRefuse s f q idx n err).pool.mem = s.pool.mem := by
  simp [State.txRefuse]

@[simp] theorem State.txPacket_mem (s : State) (f : ℕ) (q : ℕ) (v : Vnic) (ds : List TxDesc) (d : TxDesc) : (State.txPacket s f q v ds d).pool.mem = s.pool.mem := by
  simp [State.txPacket]

@[simp] theorem State.fetchDone_mem (s : State) (f : ℕ) (q : ℕ) (descs : List TxRaw) (good : Bool) : (State.fetchDone s f q descs good).pool.mem = s.pool.mem := by
  unfold State.fetchDone
  repeat' (first | (simp [*]; done) | split | (rename_i e; have e := congrArg (fun x => x.2.pool.mem) e; simp at e; simp [← e]; first | done | assumption) | simp)

@[simp] theorem State.writeBacks_mem (f q : Nat) (n : Nat) (s : State)  : (State.writeBacks f q n s ).pool.mem = s.pool.mem := by
  induction n generalizing s  with
  | zero => rfl
  | succ k ih => unfold State.writeBacks; repeat' (first | (simp [ih]; done) | split | dsimp only)

@[simp] theorem State.allWriteBacks_mem (s : State) : (State.allWriteBacks s).pool.mem = s.pool.mem := by
  simp [State.allWriteBacks]

@[simp] theorem State.letGo_mem (s : State) (p : Pkt) : (State.letGo s p).pool.mem = s.pool.mem := by
  simp [State.letGo]

@[simp] theorem State.gateDrop_mem (lp c : Nat) (n : Nat) (s : State)  : (State.gateDrop lp c n s ).pool.mem = s.pool.mem := by
  induction n generalizing s  with
  | zero => rfl
  | succ k ih => unfold State.gateDrop; repeat' (first | (simp [ih]; done) | split | dsimp only)

@[simp] theorem State.frameStamp_mem (s : State) (p : Pkt) : (State.frameStamp s p).pool.mem = s.pool.mem := by
  simp [State.frameStamp]

@[simp] theorem State.frameSent_mem (s : State) (lp : ℕ) (p : Pkt) : (State.frameSent s lp p).pool.mem = s.pool.mem := by
  simp [State.frameSent]

@[simp] theorem State.startFrame_mem (s : State) (lp : ℕ) (c : ℕ) : (State.startFrame s lp c).pool.mem = s.pool.mem := by
  unfold State.startFrame
  split <;> simp

@[simp] theorem State.finishFrame_mem (s : State) (lp : ℕ) : (State.finishFrame s lp).pool.mem = s.pool.mem := by
  unfold State.finishFrame
  split <;> simp

@[simp] theorem State.finishFrames_mem (s : State) : (State.finishFrames s).pool.mem = s.pool.mem := by
  simp [State.finishFrames]

@[simp] theorem State.underrun_mem (s : State) (lp : ℕ) (p : Pkt) : (State.underrun s lp p).pool.mem = s.pool.mem := by
  simp [State.underrun]

@[simp] theorem State.egressPick_mem (s : State) (lp : ℕ) : (State.egressPick s lp).pool.mem = s.pool.mem := by
  unfold State.egressPick
  repeat' (first | (simp [*]; done) | split | (rename_i e; have e := congrArg (fun x => x.2.pool.mem) e; simp at e; simp [← e]; first | done | assumption) | simp)

@[simp] theorem State.egressStart_mem (s : State) (lp : ℕ) : (State.egressStart s lp).pool.mem = s.pool.mem := by
  unfold State.egressStart
  repeat' (first | (simp; done) | split)

@[simp] theorem State.qpDisabled_mem (s : State) (f : ℕ) (q : ℕ) : (State.qpDisabled s f q).pool.mem = s.pool.mem := by
  unfold State.qpDisabled
  repeat' (first | (simp [*]; done) | split | (rename_i e; have e := congrArg (fun x => x.2.pool.mem) e; simp at e; simp [← e]; first | done | assumption) | simp)

theorem cmdNetGetStatus_keeps : cmdNetGetStatus.keeps := by
  intro w q s h
  unfold cmdNetGetStatus
  dsimp only
  repeat' (first | (simp [h]; done) | split)

theorem cmdNetPortSet_keeps : cmdNetPortSet.keeps := by
  intro w q s h
  unfold cmdNetPortSet
  dsimp only
  repeat' (first | (simp [h]; done) | split)

theorem cmdVnicCreate_keeps : cmdVnicCreate.keeps := by
  intro w q s h
  unfold cmdVnicCreate
  dsimp only
  repeat' (first | (simp [h]; done) | split)

theorem cmdVnicDestroy_keeps : cmdVnicDestroy.keeps := by
  intro w q s h
  unfold cmdVnicDestroy
  dsimp only
  repeat' (first | (simp [h]; done) | split)

theorem cmdVnicSet_keeps : cmdVnicSet.keeps := by
  intro w q s h
  unfold cmdVnicSet
  dsimp only
  repeat' (first | (simp [h]; done) | split)

theorem cmdVnicQpSet_keeps : cmdVnicQpSet.keeps := by
  intro w q s h
  unfold cmdVnicQpSet
  dsimp only
  repeat' (first | (simp [h]; done) | split)

theorem cmdNetEmSet_keeps : cmdNetEmSet.keeps := by
  intro w q s h
  unfold cmdNetEmSet
  dsimp only
  repeat' (first | (simp [h]; done) | split)

theorem cmdNetAclSet_keeps : cmdNetAclSet.keeps := by
  intro w q s h
  unfold cmdNetAclSet
  dsimp only
  repeat' (first | (simp [h]; done) | split)

@[simp] theorem State.pageMeip_mem (s : State) (pg : ℕ) : (State.pageMeip s pg).pool.mem = s.pool.mem := by
  simp [State.pageMeip]

@[simp] theorem State.downloadEnd_mem (s : State) (status : ℕ) : (State.downloadEnd s status).pool.mem = s.pool.mem := by
  simp [State.downloadEnd]

@[simp] theorem State.downloadGo_mem (s : State) : (State.downloadGo s).pool.mem = s.pool.mem := by
  simp [State.downloadGo]

@[simp] theorem State.ackPage_mem (s : State) (pg : ℕ) : (State.ackPage s pg).pool.mem = s.pool.mem := by
  simp [State.ackPage]

@[simp] theorem State.goPage_mem (s : State) (pg : ℕ) : (State.goPage s pg).pool.mem = s.pool.mem := by
  simp [State.goPage]

@[simp] theorem State.doorbell_mem (s : State) (pg : ℕ) (v : ℕ) : (State.doorbell s pg v).pool.mem = s.pool.mem := by
  simp [State.doorbell]

@[simp] theorem State.cmdBufWrite_mem (s : State) (pg : ℕ) (off : ℕ) (d : Bytes) : (State.cmdBufWrite s pg off d).pool.mem = s.pool.mem := by
  simp [State.cmdBufWrite]

@[simp] theorem State.pageWrite_mem (s : State) (pg : ℕ) (off : ℕ) (v : ℕ) : (State.pageWrite s pg off v).pool.mem = s.pool.mem := by
  simp [State.pageWrite]

@[simp] theorem State.evWrite_mem (s : State) (p : ℕ) (off : ℕ) (v : ℕ) : (State.evWrite s p off v).pool.mem = s.pool.mem := by
  simp [State.evWrite]

@[simp] theorem State.mgmtUnmask_mem (s : State) (p : ℕ) : (State.mgmtUnmask s p).pool.mem = s.pool.mem := by
  simp [State.mgmtUnmask]

@[simp] theorem State.msixWrite_mem (s : State) (p : ℕ) (i : ℕ) (v : ℕ) : (State.msixWrite s p i v).pool.mem = s.pool.mem := by
  simp [State.msixWrite]

@[simp] theorem State.bar0Store_mem (s : State) (p : ℕ) (off : ℕ) (v : ℕ) : (State.bar0Store s p off v).pool.mem = s.pool.mem := by
  simp [State.bar0Store]

@[simp] theorem State.bar0Read_mem (s : State) (p : ℕ) (off : ℕ) (size : ℕ) : (State.bar0Read s p off size).2.pool.mem = s.pool.mem := by
  unfold State.bar0Read
  split <;> simp

@[simp] theorem State.bar0Write_mem (s : State) (p : ℕ) (off : ℕ) (size : ℕ) (v : ℕ) : (State.bar0Write s p off size v).pool.mem = s.pool.mem := by
  simp [State.bar0Write]

@[simp] theorem State.mctpCommand_mem (s : State) (c : Path) (msgTag : ℕ) (whole : Bool) (body : Bytes) : (State.mctpCommand s c msgTag whole body).pool.mem = s.pool.mem := by
  simp [State.mctpCommand]

@[simp] theorem State.mctpReply_mem (s : State) (c : Path) (cmd : ℕ) (cc : ℕ) (d : List ℕ) : (State.mctpReply s c cmd cc d).pool.mem = s.pool.mem := by
  simp [State.mctpReply]

@[simp] theorem State.setEid_mem (s : State) (c : Path) (op : ℕ) (eid : ℕ) : (State.setEid s c op eid).pool.mem = s.pool.mem := by
  simp [State.setEid]

@[simp] theorem State.getEid_mem (s : State) (c : Path) : (State.getEid s c).pool.mem = s.pool.mem := by
  simp [State.getEid]

@[simp] theorem State.mctpVersion_mem (s : State) (c : Path) (msgType : ℕ) : (State.mctpVersion s c msgType).pool.mem = s.pool.mem := by
  simp [State.mctpVersion]

@[simp] theorem State.mctpTypes_mem (s : State) (c : Path) : (State.mctpTypes s c).pool.mem = s.pool.mem := by
  simp [State.mctpTypes]

@[simp] theorem State.mctpVendor_mem (s : State) (c : Path) (selector : ℕ) : (State.mctpVendor s c selector).pool.mem = s.pool.mem := by
  simp [State.mctpVendor]

@[simp] theorem State.dynamicAddress_mem (s : State) (addr : ℕ) : (State.dynamicAddress s addr).pool.mem = s.pool.mem := by
  simp [State.dynamicAddress]

@[simp] theorem State.pldmReply_mem (s : State) (cmd : ℕ) (arg : ℕ) : (State.pldmReply s cmd arg).pool.mem = s.pool.mem := by
  simp [State.pldmReply]

@[simp] theorem State.pldmSend_mem (s : State) (cmd : ℕ) (cc : ℕ) (d : Bytes) : (State.pldmSend s cmd cc d).pool.mem = s.pool.mem := by
  simp [State.pldmSend]

@[simp] theorem State.sensorReading_mem (s : State) (i : ℕ) : (State.sensorReading s i).pool.mem = s.pool.mem := by
  unfold State.sensorReading
  split <;> simp

end Sys2Proof.Machine
end

