-- ==== Sys2Proof/Laws/CellsHearth.lean ====
section
/-! SUPPORT. The canonical form of the pool memory: what Hearth and the register file do to the pool memory. -/

set_option linter.unusedTactic false
set_option linter.unreachableTactic false
set_option linter.unusedSimpArgs false
set_option linter.unusedVariables false

namespace Sys2Proof.Machine

open Sys2Proof

@[simp] theorem State.mpuInForce_mem (s : State) (c : ℕ) (k : ℕ) : (State.mpuInForce s c k).2.pool.mem = s.pool.mem := by
  unfold State.mpuInForce
  repeat' (first | (simp; done) | (simp [*]; done) | (with_reducible refine (foldl_mem _ _ _ ?_).trans ?_ <;> try intro _ _) | split | simp)

@[simp] theorem State.coreEvent_mem (s : State) (c : ℕ) (k : ℕ) (event : ℕ) (n : ℕ) : (State.coreEvent s c k event n).pool.mem = s.pool.mem := by
  simp [State.coreEvent]

@[simp] theorem State.retire_mem (s : State) (c : ℕ) (k : ℕ) : (State.retire s c k).pool.mem = s.pool.mem := by
  simp [State.retire]

@[simp] theorem State.squash_mem (s : State) (c : ℕ) (k : ℕ) : (State.squash s c k).pool.mem = s.pool.mem := by
  simp [State.squash]

@[simp] theorem State.freeUpTo_mem (s : State) (m : ℕ) : (State.freeUpTo s m).2.pool.mem = s.pool.mem := by
  simp [State.freeUpTo]

@[simp] theorem State.classSlots_mem (s : State) (c : ℕ) (k : ℕ) (n : ℕ) : (State.classSlots s c k n).pool.mem = s.pool.mem := by
  simp [State.classSlots]

@[simp] theorem State.issueTick_mem (s : State) (c : ℕ) (k : ℕ) : (State.issueTick s c k).pool.mem = s.pool.mem := by
  unfold State.issueTick
  repeat' (first | (simp; done) | split)

@[simp] theorem State.l2Access_mem (s : State) (c : ℕ) (k : ℕ) : (State.l2Access s c k).pool.mem = s.pool.mem := by
  simp [State.l2Access]

@[simp] theorem State.hTrap_mem (s : State) (c : ℕ) (k : ℕ) (cause : ℕ) (tval : ℕ) : (State.hTrap s c k cause tval).pool.mem = s.pool.mem := by
  simp [State.hTrap]

@[simp] theorem State.hFault_mem (s : State) (c : ℕ) (k : ℕ) (e : HFault) (epc : ℕ) (va : ℕ) : (State.hFault s c k e epc va).pool.mem = s.pool.mem := by
  simp [State.hFault]

@[simp] theorem State.hIllegal_mem (s : State) (c : ℕ) (k : ℕ) (word : ℕ) : (State.hIllegal s c k word).pool.mem = s.pool.mem := by
  simp [State.hIllegal]

@[simp] theorem State.setMip_mem (s : State) (c : ℕ) (k : ℕ) (b : ℕ) (on : Bool) : (State.setMip s c k b on).pool.mem = s.pool.mem := by
  simp [State.setMip]

@[simp] theorem State.coreInterrupt_mem (s : State) (c : ℕ) (k : ℕ) : (State.coreInterrupt s c k).pool.mem = s.pool.mem := by
  unfold State.coreInterrupt
  repeat' (first | (simp [*]; done) | split | (rename_i e; have e := congrArg (fun x => x.2.pool.mem) e; simp at e; simp [← e]; first | done | assumption) | simp)

@[simp] theorem State.hInterrupts_mem (s : State) : (State.hInterrupts s).pool.mem = s.pool.mem := by
  simp [State.hInterrupts]

@[simp] theorem State.blockMisuse_mem (s : State) (c : ℕ) (attr : Option ℕ) : (State.blockMisuse s c attr).pool.mem = s.pool.mem := by
  simp [State.blockMisuse]

@[simp] theorem State.alarmRequest_mem (s : State) (c : ℕ) : (State.alarmRequest s c).pool.mem = s.pool.mem := by
  unfold State.alarmRequest
  repeat' (first | (simp; done) | split)

@[simp] theorem State.alarmRelease_mem (s : State) (c : ℕ) : (State.alarmRelease s c).pool.mem = s.pool.mem := by
  simp [State.alarmRelease]

@[simp] theorem State.alarmFire_mem (s : State) (c : ℕ) : (State.alarmFire s c).pool.mem = s.pool.mem := by
  simp [State.alarmFire]

@[simp] theorem State.alarmWrite_mem (s : State) (c : ℕ) (v : ℕ) : (State.alarmWrite s c v).pool.mem = s.pool.mem := by
  simp [State.alarmWrite]

@[simp] theorem State.cmpWrite_mem (s : State) (c : ℕ) (k : ℕ) (hi : Bool) (v : ℕ) : (State.cmpWrite s c k hi v).pool.mem = s.pool.mem := by
  simp [State.cmpWrite]

@[simp] theorem State.msipWrite_mem (s : State) (c : ℕ) (k : ℕ) (v : ℕ) : (State.msipWrite s c k v).pool.mem = s.pool.mem := by
  simp [State.msipWrite]

@[simp] theorem State.ctlStore_mem (s : State) (c : ℕ) (o : ℕ) (v : ℕ) : (State.ctlStore s c o v).pool.mem = s.pool.mem := by
  simp [State.ctlStore]

theorem State.localWrite_mem {s t : State} {off size v : Nat} (h : s.localWrite off size v = some t) : t.pool.mem = s.pool.mem := by
  unfold State.localWrite at h
  repeat' (first | (cases h; simp; done) | (cases h; done) | (cases h; (simp [*, State.routePkt_mem (by assumption)]; done)) | (cases h; (simp [*, State.sendOne_mem (by assumption)]; done)) | split at h | (simp only [] at h))

@[simp] theorem State.apertureLookup_mem (s : State) (p : ℕ) (a : ℕ) (n : ℕ) (need : ℕ) : (State.apertureLookup s p a n need).2.pool.mem = s.pool.mem := by
  unfold State.apertureLookup
  repeat' (first | (simp; done) | split)

@[simp] theorem State.apertureSend_mem (s : State) (c : ℕ) (k : ℕ) (a : ℕ) (tag : ℕ) (code : ℕ) (kind : MemKind) (n : ℕ) (d : Bytes) : (State.apertureSend s c k a tag code kind n d).2.pool.mem = s.pool.mem := by
  unfold State.apertureSend
  repeat' (first | (simp [*]; done) | split | (simp [*, State.sendOne_mem (by assumption)]; done) | simp)

theorem State.apertureSend_some {s t : State} {c k a tag code : Nat} {kind : MemKind} {n : Nat} {d : Bytes}
    (h : (s.apertureSend c k a tag code kind n d).1 = some t) : t.pool.mem = s.pool.mem := by
  unfold State.apertureSend at h
  dsimp only at h
  split at h
  · cases h
  · split at h
    · rename_i e _ u hu
      cases h
      simp [State.sendOne_mem hu]
    · cases h

theorem State.apertureSend_l {s t u : State} {c k a tag code : Nat} {kind : MemKind} {n : Nat} {d : Bytes}
    (h : s.apertureSend c k a tag code kind n d = (some t, u)) : t.pool.mem = s.pool.mem :=
  State.apertureSend_some (congrArg Prod.fst h)

theorem State.apertureSend_r {s u : State} {o : Option State} {c k a tag code : Nat} {kind : MemKind} {n : Nat} {d : Bytes}
    (h : s.apertureSend c k a tag code kind n d = (o, u)) : u.pool.mem = s.pool.mem := by
  rw [← State.apertureSend_mem s c k a tag code kind n d, h]

@[simp] theorem State.hNumber_mem (s : State) : (State.hNumber s).2.pool.mem = s.pool.mem := by
  simp [State.hNumber]

@[simp] theorem State.attrInForce_mem (s : State) (c : ℕ) (k : ℕ) : (State.attrInForce s c k).2.pool.mem = s.pool.mem := by
  unfold State.attrInForce
  repeat' (first | (simp; done) | (simp [*]; done) | (with_reducible refine (foldl_mem _ _ _ ?_).trans ?_ <;> try intro _ _) | split | simp)

@[simp] theorem State.storeLost_mem (s : State) (c : ℕ) (k : ℕ) (e : SbEnt) : (State.storeLost s c k e).pool.mem = s.pool.mem := by
  simp [State.storeLost]

@[simp] theorem State.storeOut_mem (s : State) (c : ℕ) (k : ℕ) (a : ℕ) (e : SbEnt) : (State.storeOut s c k a e).pool.mem = s.pool.mem := by
  unfold State.storeOut
  repeat' (first | (simp [*]; done) | split | (simp [*, State.apertureSend_some (by assumption)]; done) | simp)

@[simp] theorem State.drainOne_wf (s : State) (c : ℕ) (k : ℕ) (e : SbEnt) (h : cellsWf s.pool.mem) : cellsWf (State.drainOne s c k e).pool.mem := by
  unfold State.drainOne
  repeat' (first | (simp [*]; done) | split | (simp [*, State.localWrite_mem (by assumption)]; done))

@[simp] theorem State.drainStep_wf (s : State) (c : ℕ) (k : ℕ) (h : cellsWf s.pool.mem) : cellsWf (State.drainStep s c k).pool.mem := by
  unfold State.drainStep
  split <;> simp [h]

@[simp] theorem State.drainAll_wf (s : State) (c : ℕ) (k : ℕ) (h : cellsWf s.pool.mem) : cellsWf (State.drainAll s c k).pool.mem := by
  unfold State.drainAll
  repeat' (first | (simp [*]; done) | (with_reducible refine foldl_wf _ _ _ ?_ ?_ <;> try intro _ _ _) | split)

@[simp] theorem State.hAdmitted_mem (s : State) : (State.hAdmitted s).pool.mem = s.pool.mem := by
  simp [State.hAdmitted]

@[simp] theorem State.loadEnd_mem (s : State) (c : ℕ) (k : ℕ) (rd : ℕ) (size : ℕ) (sgn : Bool) (start : ℕ) (got : Bytes) : (State.loadEnd s c k rd size sgn start got).pool.mem = s.pool.mem := by
  simp [State.loadEnd]

@[simp] theorem State.loadGo_wf (c k rd size : Nat) (sgn : Bool) (start : Nat) (ecc : Eccs) (s : State) (got : Bytes) (l : List HPiece)
    (h : cellsWf s.pool.mem) : cellsWf (State.loadGo c k rd size sgn start ecc s got l).pool.mem := by
  induction l generalizing s got ecc with
  | nil => cases got <;> simp [State.loadGo, h]
  | cons p r ih =>
    unfold State.loadGo
    dsimp only
    split
    · split
      · simp [h]
      · exact ih _ _ _ (by simp [h])
    · split
      · exact ih _ _ _ h
      · simp [h]
    · split
      · rename_i t u he
        have e := State.apertureSend_some (congrArg Prod.fst he)
        simp [h, e]
      · rename_i t he
        have e : t.pool.mem = _ := (congrArg (fun x => x.2.pool.mem) he).symm
        simp [h, e]
    · simp [h]

@[simp] theorem State.hRead_wf (s : State) (c : ℕ) (k : ℕ) (rd : ℕ) (addr : Word) (size : ℕ) (sgn : Bool) (ecc : Eccs) (h : cellsWf s.pool.mem) : cellsWf (State.hRead s c k rd addr size sgn ecc).pool.mem := by
  unfold State.hRead
  repeat' (first | (simp [*]; done) | split | (rename_i e; have e := congrArg (fun x => x.2.pool.mem) e; simp at e; simp [← e]; first | done | assumption) | simp)

@[simp] theorem State.hCompletion_wf (s : State) (p : Pkt) (h : cellsWf s.pool.mem) : cellsWf (State.hCompletion s p).pool.mem := by
  unfold State.hCompletion
  repeat' (first | (simp [*]; done) | split | (rename_i e; have e := congrArg (fun x => x.2.pool.mem) e; simp at e; simp [← e]; first | done | assumption) | simp)

@[simp] theorem State.sbPush_wf (s : State) (c : ℕ) (k : ℕ) (e : SbEnt) (h : cellsWf s.pool.mem) : cellsWf (State.sbPush s c k e).pool.mem := by
  unfold State.sbPush
  split <;> simp [h]

@[simp] theorem State.storePieces_wf (c k : Nat) (ts : List Attr) (s : State) (d : Bytes) (l : List HPiece)
    (h : cellsWf s.pool.mem) : cellsWf (State.storePieces c k ts s d l).pool.mem := by
  induction l generalizing s d with
  | nil => cases d <;> simp [State.storePieces, h]
  | cons p r ih => unfold State.storePieces; exact ih _ _ (by simp [h])

@[simp] theorem State.hStore_wf (s : State) (c : ℕ) (k : ℕ) (addr : Word) (size : ℕ) (value : Word) (h : cellsWf s.pool.mem) : cellsWf (State.hStore s c k addr size value).pool.mem := by
  unfold State.hStore
  repeat' (first | (simp [*]; done) | split | (rename_i e; have e := congrArg (fun x => x.2.pool.mem) e; simp at e; simp [← e]; first | done | assumption) | simp)

theorem State.atomicAt_inl {s t : State} {c k : Nat} {kind : HKind} {a : Word} {size : Nat} (h : cellsWf s.pool.mem)
    (e : s.atomicAt c k kind a size = .inl t) : cellsWf t.pool.mem := by
  unfold State.atomicAt at e
  dsimp only at e
  split at e
  · cases e; simp [h]
  · split at e
    · cases e; simp [h]
    · split at e
      · cases e
      · cases e; simp [h]

theorem State.atomicAt_inr {s t : State} {c k key : Nat} {kind : HKind} {a : Word} {size : Nat} (h : cellsWf s.pool.mem)
    (e : s.atomicAt c k kind a size = .inr (t, key)) : cellsWf t.pool.mem := by
  unfold State.atomicAt at e
  dsimp only at e
  split at e
  · cases e
  · split at e
    · cases e
    · split at e
      · cases e; simp [h]
      · cases e

@[simp] theorem State.hLr_wf (s : State) (c : ℕ) (k : ℕ) (rd : ℕ) (addr : Word) (size : ℕ) (ecc : Eccs) (h : cellsWf s.pool.mem) : cellsWf (State.hLr s c k rd addr size ecc).pool.mem := by
  unfold State.hLr
  repeat' (first | with_reducible assumption | (simp [*]; done) | (with_reducible refine foldl_wf _ _ _ ?_ ?_ <;> try intro _ _ _) | split | (simp [*, State.atomicAt_inl (by assumption) (by assumption)]; done) | (simp [*, State.atomicAt_inr (by assumption) (by assumption)]; done) | (rename_i e; have e := congrArg (fun x => x.2.pool.mem) e; simp at e; simp [← e]; first | done | assumption) | (rename_i e; have e := congrArg (fun x => x.1.pool.mem) e; simp at e; simp [← e]; first | done | assumption) | simp)

@[simp] theorem State.hSc_wf (s : State) (c : ℕ) (k : ℕ) (rd : ℕ) (addr : Word) (size : ℕ) (value : Word) (spurious : Bool) (h : cellsWf s.pool.mem) : cellsWf (State.hSc s c k rd addr size value spurious).pool.mem := by
  unfold State.hSc
  repeat' (first | with_reducible assumption | (simp [*]; done) | (with_reducible refine foldl_wf _ _ _ ?_ ?_ <;> try intro _ _ _) | split | (simp [*, State.atomicAt_inl (by assumption) (by assumption)]; done) | (simp [*, State.atomicAt_inr (by assumption) (by assumption)]; done) | (rename_i e; have e := congrArg (fun x => x.2.pool.mem) e; simp at e; simp [← e]; first | done | assumption) | (rename_i e; have e := congrArg (fun x => x.1.pool.mem) e; simp at e; simp [← e]; first | done | assumption) | simp)

@[simp] theorem State.hAmo_wf (s : State) (c : ℕ) (k : ℕ) (op : AmoOp) (rd : ℕ) (addr : Word) (size : ℕ) (value : Word) (ecc : Eccs) (h : cellsWf s.pool.mem) : cellsWf (State.hAmo s c k op rd addr size value ecc).pool.mem := by
  unfold State.hAmo
  repeat' (first | with_reducible assumption | (simp [*]; done) | (with_reducible refine foldl_wf _ _ _ ?_ ?_ <;> try intro _ _ _) | split | (simp [*, State.atomicAt_inl (by assumption) (by assumption)]; done) | (simp [*, State.atomicAt_inr (by assumption) (by assumption)]; done) | (rename_i e; have e := congrArg (fun x => x.2.pool.mem) e; simp at e; simp [← e]; first | done | assumption) | (rename_i e; have e := congrArg (fun x => x.1.pool.mem) e; simp at e; simp [← e]; first | done | assumption) | simp)

@[simp] theorem State.sysFence_wf (s : State) (c : ℕ) (k : ℕ) (pred : ℕ) (h : cellsWf s.pool.mem) : cellsWf (State.sysFence s c k pred).pool.mem := by
  simp [State.sysFence, h]

@[simp] theorem State.hFence_wf (s : State) (c : ℕ) (k : ℕ) (pred : ℕ) (h : cellsWf s.pool.mem) : cellsWf (State.hFence s c k pred).pool.mem := by
  unfold State.hFence
  split <;> simp [h]

@[simp] theorem State.hFenceI_wf (s : State) (c : ℕ) (k : ℕ) (h : cellsWf s.pool.mem) : cellsWf (State.hFenceI s c k).pool.mem := by
  unfold State.hFenceI
  split <;> simp [h]

@[simp] theorem State.hKfence_wf (s : State) (c : ℕ) (k : ℕ) (w : ℕ) (h : cellsWf s.pool.mem) : cellsWf (State.hKfence s c k w).pool.mem := by
  unfold State.hKfence
  repeat' (first | (simp [h]; done) | split)

@[simp] theorem State.hFenceRetire_mem (s : State) (c : ℕ) (k : ℕ) : (State.hFenceRetire s c k).pool.mem = s.pool.mem := by
  unfold State.hFenceRetire
  split <;> simp

@[simp] theorem State.fenceWatch_mem (s : State) (c : ℕ) (k : ℕ) : (State.fenceWatch s c k).pool.mem = s.pool.mem := by
  simp [State.fenceWatch]

@[simp] theorem State.timerIrq_mem (s : State) (c : ℕ) (k : ℕ) : (State.timerIrq s c k).pool.mem = s.pool.mem := by
  simp [State.timerIrq]

@[simp] theorem State.csrWrite_mem (s : State) (c : ℕ) (k : ℕ) (may : HMode → Bool) (f : HCore → HCore) : (State.csrWrite s c k may f).pool.mem = s.pool.mem := by
  simp [State.csrWrite]

@[simp] theorem State.debugEnd_mem (s : State) (abs : Bool) (err : ℕ) : (State.debugEnd s abs err).pool.mem = s.pool.mem := by
  simp [State.debugEnd]

@[simp] theorem State.debugRead_wf (s : State) (abs : Bool) (c : ℕ) (k : ℕ) (a : ℕ) (size : ℕ) (h : cellsWf s.pool.mem) : cellsWf (State.debugRead s abs c k a size).pool.mem := by
  unfold State.debugRead
  repeat' (first | with_reducible assumption | (simp [*]; done) | (with_reducible refine foldl_wf _ _ _ ?_ ?_ <;> try intro _ _ _) | split | (simp [*, State.apertureSend_l (by assumption)]; done) | (simp [*, State.apertureSend_r (by assumption)]; done) | (simp [*, State.apertureSend_some (by assumption)]; done) | (rename_i e; have e := congrArg (fun x => x.2.pool.mem) e; simp at e; simp [← e]; first | done | assumption) | (rename_i e; have e := congrArg (fun x => x.1.pool.mem) e; simp at e; simp [← e]; first | done | assumption) | simp)

@[simp] theorem State.debugWrite_wf (s : State) (abs : Bool) (c : ℕ) (k : ℕ) (a : ℕ) (size : ℕ) (v : ℕ) (h : cellsWf s.pool.mem) : cellsWf (State.debugWrite s abs c k a size v).pool.mem := by
  unfold State.debugWrite
  repeat' (first | with_reducible assumption | (simp [*]; done) | (with_reducible refine foldl_wf _ _ _ ?_ ?_ <;> try intro _ _ _) | split | (simp [*, State.localWrite_mem (by assumption)]; done) | (simp [*, State.apertureSend_l (by assumption)]; done) | (simp [*, State.apertureSend_r (by assumption)]; done) | (simp [*, State.apertureSend_some (by assumption)]; done) | (rename_i e; have e := congrArg (fun x => x.2.pool.mem) e; simp at e; simp [← e]; first | done | assumption) | (rename_i e; have e := congrArg (fun x => x.1.pool.mem) e; simp at e; simp [← e]; first | done | assumption) | simp)

@[simp] theorem State.debugAccess_wf (s : State) (abs : Bool) (c : ℕ) (k : ℕ) (write : Bool) (a : ℕ) (size : ℕ) (v : ℕ) (h : cellsWf s.pool.mem) : cellsWf (State.debugAccess s abs c k write a size v).pool.mem := by
  unfold State.debugAccess
  repeat' (first | (simp [h]; done) | split)

@[simp] theorem State.abstractCmd_wf (s : State) (c : ℕ) (k : ℕ) (a : DbgCmd) (h : cellsWf s.pool.mem) : cellsWf (State.abstractCmd s c k a).pool.mem := by
  unfold State.abstractCmd
  split <;> simp [h]

@[simp] theorem State.hearthCpl_wf (s : State) (p : Pkt) (h : cellsWf s.pool.mem) : cellsWf (State.hearthCpl s p).pool.mem := by
  unfold State.hearthCpl
  split <;> simp [h]

@[simp] theorem State.hearthRequest_mem (s : State) (p : Pkt) : (State.hearthRequest s p).pool.mem = s.pool.mem := by
  unfold State.hearthRequest
  repeat' (first | (simp [*]; done) | split | (simp [*, State.localWrite_mem (by assumption)]; done) | simp)

@[simp] theorem State.clearCounters_mem (s : State) (b : ℕ) : (State.clearCounters s b).pool.mem = s.pool.mem := by
  simp [State.clearCounters]

@[simp] theorem State.dropLine_wf (s : State) (c : ℕ) (a : Word) (h : cellsWf s.pool.mem) : cellsWf (State.dropLine s c a).pool.mem := by
  unfold State.dropLine
  repeat' (first | with_reducible assumption | (simp [*]; done) | (with_reducible refine foldl_wf _ _ _ ?_ ?_ <;> try intro _ _ _) | split | simp)

@[simp] theorem State.clusterStopped_wf (s : State) (c : ℕ) (h : cellsWf s.pool.mem) : cellsWf (State.clusterStopped s c).pool.mem := by
  unfold State.clusterStopped
  repeat' (first | with_reducible assumption | (simp [*]; done) | (with_reducible refine foldl_wf _ _ _ ?_ ?_ <;> try intro _ _ _) | split | (rename_i e; have e := congrArg (fun x => x.2.pool.mem) e; simp at e; simp [← e]; first | done | assumption) | (rename_i e; have e := congrArg (fun x => x.1.pool.mem) e; simp at e; simp [← e]; first | done | assumption) | simp)

@[simp] theorem State.clusterStop_wf (s : State) (c : Nat) (handle : Option Nat) (h : cellsWf s.pool.mem) :
    cellsWf (s.clusterStop c handle).pool.mem := by
  unfold State.clusterStop
  rw [State.modCluster_mem, State.hAdmitted_mem]
  exact foldl_wf _ _ _ (fun t k ht => State.drainAll_wf t c k ht) h

@[simp] theorem State.clusterStopDone_wf (s : State) (c : ℕ) (h : cellsWf s.pool.mem) : cellsWf (State.clusterStopDone s c).pool.mem := by
  unfold State.clusterStopDone
  split <;> simp [h]

@[simp] theorem State.clusterReset_wf (s : State) (c : ℕ) (h : cellsWf s.pool.mem) : cellsWf (State.clusterReset s c).pool.mem := by
  unfold State.clusterReset
  split <;> simp [h]

@[simp] theorem State.clusterStart_mem (s : State) (c : ℕ) (p : ℕ) (cores : ℕ) (pc : ℕ) : (State.clusterStart s c p cores pc).pool.mem = s.pool.mem := by
  simp [State.clusterStart]

theorem cmdHearthCtl_keeps : cmdHearthCtl.keeps := by
  intro w q s h
  unfold cmdHearthCtl
  dsimp only
  repeat' (first | (simp [h]; done) | split)

@[simp] theorem State.vnicStore_mem (s : State) (f : ℕ) (off : ℕ) (size : ℕ) (v : ℕ) : (State.vnicStore s f off size v).pool.mem = s.pool.mem := by
  simp [State.vnicStore]

@[simp] theorem State.vnicLoad_mem (s : State) (f : ℕ) (off : ℕ) (size : ℕ) : (State.vnicLoad s f off size).2.pool.mem = s.pool.mem := by
  unfold State.vnicLoad
  repeat' (first | (simp; done) | split)

@[simp] theorem State.regWrite_mem (s : State) (sp : RegSpace) (off : ℕ) (size : ℕ) (v : ℕ) : (State.regWrite s sp off size v).pool.mem = s.pool.mem := by
  unfold State.regWrite
  repeat' (first | (simp [*]; done) | split | (simp [*, State.localWrite_mem (by assumption)]; done))

@[simp] theorem State.goWrite_mem (s : State) (pg : ℕ) (ack : Bool) : (State.goWrite s pg ack).pool.mem = s.pool.mem := by
  simp [State.goWrite]

@[simp] theorem State.ackWritten_mem (s : State) (pg : ℕ) : (State.ackWritten s pg).pool.mem = s.pool.mem := by
  simp [State.ackWritten]

@[simp] theorem State.bar0Request_mem (s : State) (n : ℕ) (p : ℕ) (off : ℕ) (r : MemReq) : (State.bar0Request s n p off r).pool.mem = s.pool.mem := by
  unfold State.bar0Request
  repeat' (first | (simp [*]; done) | split | (rename_i e; have e := congrArg (fun x => x.2.pool.mem) e; simp at e; simp [← e]; first | done | assumption))

@[simp] theorem State.bar2Request_mem (s : State) (n : ℕ) (p : ℕ) (off : ℕ) (r : MemReq) : (State.bar2Request s n p off r).pool.mem = s.pool.mem := by
  simp [State.bar2Request]

@[simp] theorem State.romRequest_mem (s : State) (n : ℕ) (r : MemReq) : (State.romRequest s n r).pool.mem = s.pool.mem := by
  simp [State.romRequest]

@[simp] theorem State.hostRequest_mem (s : State) (n : ℕ) (r : MemReq) : (State.hostRequest s n r).pool.mem = s.pool.mem := by
  unfold State.hostRequest
  repeat' (first | (simp [*]; done) | split | (rename_i e; have e := congrArg (fun x => x.2.pool.mem) e; simp at e; simp [← e]; first | done | assumption) | simp)

@[simp] theorem State.deviceRequest_mem (s : State) (n : ℕ) (r : MemReq) : (State.deviceRequest s n r).pool.mem = s.pool.mem := by
  simp [State.deviceRequest]

@[simp] theorem State.cplReceived_mem (s : State) (n : ℕ) (c : Cpl) : (State.cplReceived s n c).pool.mem = s.pool.mem := by
  simp [State.cplReceived]

theorem State.regPkt_mem (s : State) (p : Pkt) (rd : State → Nat → Option Bytes × State) (wr : State → Nat → Nat → State)
    (hr : ∀ t n, (rd t n).2.pool.mem = t.pool.mem) (hw : ∀ t n v, (wr t n v).pool.mem = t.pool.mem) :
    (s.regPkt p rd wr).pool.mem = s.pool.mem := by
  unfold State.regPkt
  dsimp only
  split
  · split <;> simp [hw]
  · split
    · split
      · rename_i e
        have e := congrArg (fun x => x.2.pool.mem) e
        simp [hr] at e
        simp [← e]
      · rename_i e
        have e := congrArg (fun x => x.2.pool.mem) e
        simp [hr] at e
        simp [← e]
    · simp

@[simp] theorem State.vnicPkt_mem (s : State) (p : Pkt) : (State.vnicPkt s p).pool.mem = s.pool.mem := by
  unfold State.vnicPkt
  repeat' (first | (simp [*]; done) | split | (with_reducible refine State.regPkt_mem _ _ _ _ ?_ ?_ <;> intros <;> simp; done))

@[simp] theorem State.emberPkt_mem (s : State) (p : Pkt) : (State.emberPkt s p).pool.mem = s.pool.mem := by
  unfold State.emberPkt
  repeat' (first | (simp [*]; done) | split | (with_reducible refine State.regPkt_mem _ _ _ _ ?_ ?_ <;> intros <;> simp; done) | simp)

@[simp] theorem State.hearthPkt_wf (s : State) (p : Pkt) (h : cellsWf s.pool.mem) : cellsWf (State.hearthPkt s p).pool.mem := by
  unfold State.hearthPkt
  split <;> simp [h]

theorem State.takeDelivered_wf (s : State) (n : Nat) (f : State → Pkt → State)
    (hf : ∀ t p, cellsWf t.pool.mem → cellsWf (f t p).pool.mem) (h : cellsWf s.pool.mem) : cellsWf (s.takeDelivered n f).pool.mem := by
  unfold State.takeDelivered
  exact foldl_wf _ _ _ hf (by simp [h])

@[simp] theorem State.takeRegisters_wf (s : State) (h : cellsWf s.pool.mem) : cellsWf s.takeRegisters.pool.mem := by
  unfold State.takeRegisters
  dsimp only
  refine State.takeDelivered_wf _ _ _ (fun t p ht => State.hearthPkt_wf t p ht) ?_
  refine State.takeDelivered_wf _ _ _ (fun t p ht => by simp [ht]) ?_
  exact foldl_wf _ _ _ (fun t i ht => State.takeDelivered_wf _ _ _ (fun u p hu => by simp [hu]) ht) h

end Sys2Proof.Machine
end

