-- ==== Sys2Proof/Laws/CellsLink.lean ====
section
/-! SUPPORT. The canonical form of the pool memory: what the links and the fabric do to the pool memory. -/

set_option linter.unusedTactic false
set_option linter.unreachableTactic false
set_option linter.unusedSimpArgs false
set_option linter.unusedVariables false

namespace Sys2Proof.Machine

open Sys2Proof

@[simp] theorem State.linkTo_mem (s : State) (l : ℕ) (f : Link → Link) : (State.linkTo s l f).pool.mem = s.pool.mem := by
  simp [State.linkTo]

@[simp] theorem State.linkFault_mem (s : State) (l : ℕ) (i : ℕ) : (State.linkFault s l i).pool.mem = s.pool.mem := by
  simp [State.linkFault]

@[simp] theorem State.linkCount_mem (s : State) (l : ℕ) (e : ℕ) (tc : optParam (Option ℕ) none) : (State.linkCount s l e tc).pool.mem = s.pool.mem := by
  simp [State.linkCount]

@[simp] theorem State.rxRefresh_mem (s : State) (l : ℕ) : (State.rxRefresh s l).pool.mem = s.pool.mem := by
  simp [State.rxRefresh]

@[simp] theorem State.resetSource_mem (s : State) (l : ℕ) (cause : ℕ) : (State.resetSource s l cause).pool.mem = s.pool.mem := by
  simp [State.resetSource]

@[simp] theorem State.linkResetCore_mem (s : State) (l : ℕ) (cause : ℕ) : (State.linkResetCore s l cause).pool.mem = s.pool.mem := by
  simp [State.linkResetCore]

@[simp] theorem State.dropPartial_mem (s : State) (l : ℕ) (id : ℕ) : (State.dropPartial s l id).pool.mem = s.pool.mem := by
  simp [State.dropPartial]

@[simp] theorem State.resolveFailure_mem (s : State) (l : ℕ) : (State.resolveFailure s l).pool.mem = s.pool.mem := by
  simp [State.resolveFailure]

@[simp] theorem State.beacon_mem (s : State) (l : ℕ) : (State.beacon s l).pool.mem = s.pool.mem := by
  simp [State.beacon]

@[simp] theorem State.toDetect_mem (s : State) (l : ℕ) : (State.toDetect s l).pool.mem = s.pool.mem := by
  simp [State.toDetect]

@[simp] theorem State.makeFailedCore_mem (s : State) (l : ℕ) : (State.makeFailedCore s l).pool.mem = s.pool.mem := by
  unfold State.makeFailedCore
  repeat' (first | (simp [*]; done) | split | (rename_i e; have e := congrArg (fun x => x.2.pool.mem) e; simp at e; simp [← e]; first | done | assumption) | simp)

@[simp] theorem State.framingCore_mem (s : State) (l : ℕ) : (State.framingCore s l).pool.mem = s.pool.mem := by
  simp [State.framingCore]

@[simp] theorem State.sendFlit_mem (s : State) (l : ℕ) (f : Flit) : (State.sendFlit s l f).pool.mem = s.pool.mem := by
  simp [State.sendFlit]

@[simp] theorem State.sendSeq_mem (s : State) (l : ℕ) (v : ℕ) (f : Flit) (gone : List QPkt) (cur : List QPkt) : (State.sendSeq s l v f gone cur).pool.mem = s.pool.mem := by
  simp [State.sendSeq]

@[simp] theorem State.sendData_mem (s : State) (l : ℕ) (v : ℕ) : (State.sendData s l v).pool.mem = s.pool.mem := by
  unfold State.sendData
  repeat' (first | (simp [*]; done) | split | (rename_i e; have e := congrArg (fun x => x.2.pool.mem) e; simp at e; simp [← e]; first | done | assumption) | simp)

@[simp] theorem State.flitTime_mem (s : State) (l : ℕ) : (State.flitTime s l).pool.mem = s.pool.mem := by
  unfold State.flitTime
  repeat' (first | (simp [*]; done) | split | (rename_i e; have e := congrArg (fun x => x.2.pool.mem) e; simp at e; simp [← e]; first | done | assumption) | simp)

@[simp] theorem State.linkAck_mem (s : State) (l : ℕ) (q : BitVec 16) : (State.linkAck s l q).pool.mem = s.pool.mem := by
  unfold State.linkAck
  repeat' (first | (simp [*]; done) | split | (rename_i e; have e := congrArg (fun x => x.2.pool.mem) e; simp at e; simp [← e]; first | done | assumption) | simp)

@[simp] theorem State.replayFrom_mem (s : State) (l : ℕ) (i : ℕ) : (State.replayFrom s l i).pool.mem = s.pool.mem := by
  simp [State.replayFrom]

@[simp] theorem State.replayTimeout_mem (s : State) (l : ℕ) : (State.replayTimeout s l).pool.mem = s.pool.mem := by
  simp [State.replayTimeout]

@[simp] theorem State.nakIn_mem (s : State) (l : ℕ) (f : Flit) : (State.nakIn s l f).pool.mem = s.pool.mem := by
  unfold State.nakIn
  split <;> simp

@[simp] theorem State.owesNak_mem (s : State) (l : ℕ) : (State.owesNak s l).pool.mem = s.pool.mem := by
  simp [State.owesNak]

@[simp] theorem State.nakTimeout_mem (s : State) (l : ℕ) : (State.nakTimeout s l).pool.mem = s.pool.mem := by
  simp [State.nakTimeout]

@[simp] theorem State.endMoves_mem (s : State) (h : ℕ) : (State.endMoves s h).pool.mem = s.pool.mem := by
  simp [State.endMoves]

@[simp] theorem State.finishMove_mem (s : State) (v : Move) : (State.finishMove s v).pool.mem = s.pool.mem := by
  simp [State.finishMove]

@[simp] theorem State.startMove_mem (s : State) (m : ℕ) (b : ℕ) (l : ℕ) (j : ℕ) (h : ℕ) : (State.startMove s m b l j h).pool.mem = s.pool.mem := by
  simp [State.startMove]

@[simp] theorem State.moveComplete_mem (s : State) (d : ℕ) (b : ℕ) : (State.moveComplete s d b).pool.mem = s.pool.mem := by
  unfold State.moveComplete
  split <;> simp

@[simp] theorem State.failPaths_mem (s : State) (f : ℕ → Bool) : (State.failPaths s f).pool.mem = s.pool.mem := by
  simp [State.failPaths]

@[simp] theorem State.moveFailedTo_mem (s : State) (m : ℕ) : (State.moveFailedTo s m).pool.mem = s.pool.mem := by
  simp [State.moveFailedTo]

@[simp] theorem State.moveFailed_mem (s : State) : (State.moveFailed s).pool.mem = s.pool.mem := by
  simp [State.moveFailed]

@[simp] theorem State.failover_mem (s : State) (l : ℕ) : (State.failover s l).pool.mem = s.pool.mem := by
  simp [State.failover]

@[simp] theorem State.pathsBack_mem (s : State) (l : ℕ) : (State.pathsBack s l).pool.mem = s.pool.mem := by
  simp [State.pathsBack]

@[simp] theorem State.revert_mem (s : State) (d : ℕ) (j : ℕ) : (State.revert s d j).pool.mem = s.pool.mem := by
  simp [State.revert]

@[simp] theorem State.withdraw_mem (s : State) (m : ℕ) (h : ℕ) : (State.withdraw s m h).pool.mem = s.pool.mem := by
  simp [State.withdraw]

@[simp] theorem State.linkLeft_mem (s : State) (l : ℕ) : (State.linkLeft s l).pool.mem = s.pool.mem := by
  simp [State.linkLeft]

@[simp] theorem State.linkReset_mem (s : State) (l : ℕ) (cause : ℕ) : (State.linkReset s l cause).pool.mem = s.pool.mem := by
  simp [State.linkReset]

@[simp] theorem State.makeFailed_mem (s : State) (l : ℕ) : (State.makeFailed s l).pool.mem = s.pool.mem := by
  simp [State.makeFailed]

@[simp] theorem State.admEvent_mem (s : State) (m : ℕ) : (State.admEvent s m).pool.mem = s.pool.mem := by
  simp [State.admEvent]

@[simp] theorem State.spdmStart_mem (s : State) (l : ℕ) : (State.spdmStart s l).pool.mem = s.pool.mem := by
  simp [State.spdmStart]

@[simp] theorem State.unquarantine_mem (s : State) (l : ℕ) : (State.unquarantine s l).pool.mem = s.pool.mem := by
  simp [State.unquarantine]

@[simp] theorem State.spdmFail_mem (s : State) (l : ℕ) : (State.spdmFail s l).pool.mem = s.pool.mem := by
  simp [State.spdmFail]

@[simp] theorem State.spdmSuccess_mem (s : State) (l : ℕ) (d : BitVec 384) (fw : BitVec 32) (svn : ℕ) : (State.spdmSuccess s l d fw svn).pool.mem = s.pool.mem := by
  unfold State.spdmSuccess
  repeat' (first | (simp [*]; done) | split | (rename_i e; have e := congrArg (fun x => x.2.pool.mem) e; simp at e; simp [← e]; first | done | assumption) | simp)

@[simp] theorem State.spdmResponse_mem (s : State) (l : ℕ) (r : SpdmResult) : (State.spdmResponse s l r).pool.mem = s.pool.mem := by
  unfold State.spdmResponse
  split <;> simp

@[simp] theorem State.spdmRetry_mem (s : State) (l : ℕ) : (State.spdmRetry s l).pool.mem = s.pool.mem := by
  simp [State.spdmRetry]

@[simp] theorem State.spdmAnswer_mem (s : State) (l : ℕ) (name : ℕ) (content : Bytes) : (State.spdmAnswer s l name content).pool.mem = s.pool.mem := by
  simp [State.spdmAnswer]

@[simp] theorem State.reportReroutes_mem (s old : State) : (s.reportReroutes old).pool.mem = s.pool.mem := by
  unfold State.reportReroutes
  exact foldl_mem _ _ _ (fun t m => by simp)

@[simp] theorem State.emberUnbind_mem (s : State) (p : ℕ) (k : ℕ) : (State.emberUnbind s p k).pool.mem = s.pool.mem := by
  unfold State.emberUnbind
  split <;> simp

@[simp] theorem State.extractReq_mem (s : State) : (State.extractReq s).pool.mem = s.pool.mem := by
  simp [State.extractReq]

@[simp] theorem State.extractBegin_mem (s : State) : (State.extractBegin s).pool.mem = s.pool.mem := by
  simp [State.extractBegin]

@[simp] theorem State.neighbourReport_mem (s : State) (m : ℕ) : (State.neighbourReport s m).pool.mem = s.pool.mem := by
  simp [State.neighbourReport]

@[simp] theorem State.extractEnd_mem (s : State) : (State.extractEnd s).pool.mem = s.pool.mem := by
  simp [State.extractEnd]

@[simp] theorem State.announced_mem (s : State) (m : ℕ) (ended : Bool) : (State.announced s m ended).pool.mem = s.pool.mem := by
  unfold State.announced
  split <;> simp

@[simp] theorem State.dropForeign_mem (s : State) (l : ℕ) (p : Pkt) : (State.dropForeign s l p).pool.mem = s.pool.mem := by
  simp [State.dropForeign]

@[simp] theorem State.refuseForeign_mem (s : State) (l : ℕ) (i : ℕ) (p : Pkt) : (State.refuseForeign s l i p).pool.mem = s.pool.mem := by
  simp [State.refuseForeign]

@[simp] theorem State.deliverHere_mem (s : State) (l : ℕ) (p : Pkt) : (State.deliverHere s l p).pool.mem = s.pool.mem := by
  unfold State.deliverHere
  repeat' (first | (simp; done) | (with_reducible refine (foldl_mem _ _ _ ?_).trans ?_ <;> try intro _ _) | split)

@[simp] theorem State.fabricIn_mem (s : State) (l : ℕ) (k : Pkt) : (State.fabricIn s l k).pool.mem = s.pool.mem := by
  unfold State.fabricIn
  repeat' (first | (simp [*]; done) | split | (simp [*, State.routePkt_mem (by assumption)]; done) | simp)

@[simp] theorem State.doneReport_mem (s : State) (m : ℕ) (tc : ℕ) (value : ℕ) : (State.doneReport s m tc value).pool.mem = s.pool.mem := by
  simp [State.doneReport]

@[simp] theorem State.setRoutes_mem (s : State) (rs : List RouteRec) : (State.setRoutes s rs).pool.mem = s.pool.mem := by
  simp [State.setRoutes]

@[simp] theorem State.admitModule_mem (s : State) (m : ℕ) (d : BitVec 384) (force : Bool) : (State.admitModule s m d force).pool.mem = s.pool.mem := by
  simp [State.admitModule]

@[simp] theorem State.relayBack_mem (s : State) (n : ℕ) (frame : Bytes) : (State.relayBack s n frame).pool.mem = s.pool.mem := by
  unfold State.relayBack
  split <;> simp

@[simp] theorem State.relayOver_mem (s : State) (p : ℕ) : (State.relayOver s p).pool.mem = s.pool.mem := by
  unfold State.relayOver
  repeat' (first | (simp; done) | split)

@[simp] theorem State.relayIn_mem (s : State) (m : ℕ) (fromZero : Bool) (num : ℕ) (frame : Bytes) : (State.relayIn s m fromZero num frame).pool.mem = s.pool.mem := by
  simp [State.relayIn]

@[simp] theorem State.peerImageAsked_mem (s : State) (m : ℕ) : (State.peerImageAsked s m).pool.mem = s.pool.mem := by
  simp [State.peerImageAsked]

theorem cmdRouteSet_keeps : cmdRouteSet.keeps := by
  intro w q s h
  unfold cmdRouteSet
  dsimp only
  repeat' (first | (simp [h]; done) | split)

theorem cmdRouteRead_keeps : cmdRouteRead.keeps := by
  intro w q s h
  unfold cmdRouteRead
  dsimp only
  repeat' (first | (simp [h]; done) | split)

theorem cmdFabGetModule_keeps : cmdFabGetModule.keeps := by
  intro w q s h
  unfold cmdFabGetModule
  dsimp only
  repeat' (first | (simp [h]; done) | split)

theorem cmdFabAdmit_keeps : cmdFabAdmit.keeps := by
  intro w q s h
  unfold cmdFabAdmit
  dsimp only
  repeat' (first | (simp [h]; done) | split)

theorem cmdFabWithdraw_keeps : cmdFabWithdraw.keeps := by
  intro w q s h
  unfold cmdFabWithdraw
  dsimp only
  repeat' (first | (simp [h]; done) | split)

theorem cmdFabRelay_keeps : cmdFabRelay.keeps := by
  intro w q s h
  unfold cmdFabRelay
  dsimp only
  repeat' (first | (simp [h]; done) | split)

theorem cmdFabSetConfig_keeps : cmdFabSetConfig.keeps := by
  intro w q s h
  unfold cmdFabSetConfig
  dsimp only
  repeat' (first | (simp [h]; done) | split)

@[simp] theorem State.fwDone_mem (s : State) (op : ℕ) (status : ℕ) : (State.fwDone s op status).pool.mem = s.pool.mem := by
  simp [State.fwDone]

@[simp] theorem State.abandonXfer_mem (s : State) : (State.abandonXfer s).pool.mem = s.pool.mem := by
  unfold State.abandonXfer
  split <;> simp

@[simp] theorem State.closeIfDue_mem (s : State) : (State.closeIfDue s).pool.mem = s.pool.mem := by
  unfold State.closeIfDue
  split <;> simp

@[simp] theorem State.eraseDone_mem (s : State) (good : Bool) : (State.eraseDone s good).pool.mem = s.pool.mem := by
  unfold State.eraseDone
  split <;> simp

@[simp] theorem State.xferFault_mem (s : State) (w : Who) (slot : Nat) : (s.xferFault w slot).2.s.pool.mem = s.pool.mem := by
  unfold State.xferFault
  split
  · simp
  · dsimp only
    repeat' (first | (simp; done) | split)

theorem State.xferFault_r {s : State} {w : Who} {slot : Nat} {o : Option Xfer} {a : Ans} (h : s.xferFault w slot = (o, a)) :
    a.s.pool.mem = s.pool.mem := by
  rw [← State.xferFault_mem s w slot, h]

@[simp] theorem State.verifyDone_mem (s : State) (good : Bool) : (State.verifyDone s good).pool.mem = s.pool.mem := by
  unfold State.verifyDone
  split <;> simp

theorem cmdNop_keeps : cmdNop.keeps := by
  intro w q s h
  simp [cmdNop, h]

theorem cmdDeviceInfo_keeps : cmdDeviceInfo.keeps := by
  intro w q s h
  simp [cmdDeviceInfo, h]

theorem cmdGetOpStatus_keeps : cmdGetOpStatus.keeps := by
  intro w q s h
  unfold cmdGetOpStatus
  dsimp only
  repeat' (first | (simp [h]; done) | split)

theorem cmdWarmReset_keeps : cmdWarmReset.keeps := by
  intro w q s h
  unfold cmdWarmReset
  dsimp only
  repeat' (first | (simp [h]; done) | split)

theorem cmdFwGetStatus_keeps : cmdFwGetStatus.keeps := by
  intro w q s h
  simp [cmdFwGetStatus, h]

theorem cmdFwBegin_keeps : cmdFwBegin.keeps := by
  intro w q s h
  unfold cmdFwBegin
  dsimp only
  repeat' (first | (simp [h]; done) | split)

theorem cmdFwWrite_keeps : cmdFwWrite.keeps := by
  intro w q s h
  unfold cmdFwWrite
  dsimp only
  repeat' (first | with_reducible assumption | (simp [*]; done) | (with_reducible refine foldl_wf _ _ _ ?_ ?_ <;> try intro _ _ _) | split | (rename_i e; have e := congrArg (fun x => x.2.pool.mem) e; simp at e; simp [← e]; first | done | assumption) | (rename_i e; have e := congrArg (fun x => x.1.pool.mem) e; simp at e; simp [← e]; first | done | assumption) | (simp [*, State.layStrict_mem (by assumption)]; done) | (simp [*, State.xferFault_r (by assumption)]; done) | simp)

theorem cmdFwFinish_keeps : cmdFwFinish.keeps := by
  intro w q s h
  unfold cmdFwFinish
  dsimp only
  repeat' (first | with_reducible assumption | (simp [*]; done) | (with_reducible refine foldl_wf _ _ _ ?_ ?_ <;> try intro _ _ _) | split | (rename_i e; have e := congrArg (fun x => x.2.pool.mem) e; simp at e; simp [← e]; first | done | assumption) | (rename_i e; have e := congrArg (fun x => x.1.pool.mem) e; simp at e; simp [← e]; first | done | assumption) | (simp [*, State.layStrict_mem (by assumption)]; done) | (simp [*, State.xferFault_r (by assumption)]; done) | simp)

theorem cmdFwActivate_keeps : cmdFwActivate.keeps := by
  intro w q s h
  unfold cmdFwActivate
  dsimp only
  repeat' (first | (simp [h]; done) | split)

@[simp] theorem State.setN_mem (s : State) (n : ℕ) : (State.setN s n).pool.mem = s.pool.mem := by
  simp [State.setN]

@[simp] theorem State.iterMeasure_mem (s : State) (ps : List ℕ) : (State.iterMeasure s ps).pool.mem = s.pool.mem := by
  simp [State.iterMeasure]

@[simp] theorem State.iterFast_mem (s : State) (k : ℕ) : (State.iterFast s k).pool.mem = s.pool.mem := by
  simp [State.iterFast]

@[simp] theorem State.spillBack_mem (s : State) (i : ℕ) (o : ℕ) (tc : ℕ) (ue : Bool) : (State.spillBack s i o tc ue).pool.mem = s.pool.mem := by
  unfold State.spillBack
  repeat' (first | (simp [*]; done) | split | (rename_i e; have e := congrArg (fun x => x.2.pool.mem) e; simp at e; simp [← e]; first | done | assumption) | simp)

theorem cmdCoreGetStatus_keeps : cmdCoreGetStatus.keeps := by
  intro w q s h
  simp [cmdCoreGetStatus, h]

theorem cmdCoreSetConfig_keeps : cmdCoreSetConfig.keeps := by
  intro w q s h
  unfold cmdCoreSetConfig
  dsimp only
  repeat' (first | (simp [h]; done) | split)

theorem State.layStrict_mem {s t : State} (h : s.layStrict = some t) : t.pool.mem = s.pool.mem := by
  unfold State.layStrict at h
  dsimp only at h
  obtain ⟨k, -, rfl⟩ := Option.map_eq_some_iff.mp h
  rw [State.modIso_mem, foldl_mem _ _ _ (fun t m => by simp), State.takeGateComp_mem, State.settleGateComps_mem,
    foldl_mem _ _ _ (fun t m => by simp)]

@[simp] theorem State.relayStrict_mem (s : State) : s.relayStrict.pool.mem = s.pool.mem := by
  unfold State.relayStrict
  split
  · rename_i e; exact State.layStrict_mem e
  · exact foldl_mem _ _ _ (fun t m => by simp)

@[simp] theorem State.strictDone_mem (s : State) : (State.strictDone s).pool.mem = s.pool.mem := by
  simp [State.strictDone]

@[simp] theorem State.strictOff_mem (s : State) : (State.strictOff s).pool.mem = s.pool.mem := by
  simp [State.strictOff]

@[simp] theorem State.gateTime_mem (s : State) (n : ℕ) : (State.gateTime s n).pool.mem = s.pool.mem := by
  simp [State.gateTime]

@[simp] theorem State.streamStop_mem (s : State) (p : ℕ) (cause : ℕ) : (State.streamStop s p cause).pool.mem = s.pool.mem := by
  simp [State.streamStop]

@[simp] theorem State.modPart_mem (s : State) (p : ℕ) (f : PartCfg → PartCfg) : (State.modPart s p f).pool.mem = s.pool.mem := by
  simp [State.modPart]

theorem cmdPartGet_keeps : cmdPartGet.keeps := by
  intro w q s h
  unfold cmdPartGet
  dsimp only
  repeat' (first | (simp [h]; done) | split)

theorem cmdPartSet_keeps : cmdPartSet.keeps := by
  intro w q s h
  unfold cmdPartSet
  dsimp only
  repeat' (first | (simp [h]; done) | split)

theorem cmdIsoGetStatus_keeps : cmdIsoGetStatus.keeps := by
  intro w q s h
  simp [cmdIsoGetStatus, h]

theorem cmdStrictSet_keeps : cmdStrictSet.keeps := by
  intro w q s h
  unfold cmdStrictSet
  dsimp only
  repeat' (first | with_reducible assumption | (simp [*]; done) | (with_reducible refine foldl_wf _ _ _ ?_ ?_ <;> try intro _ _ _) | split | (rename_i e; have e := congrArg (fun x => x.2.pool.mem) e; simp at e; simp [← e]; first | done | assumption) | (rename_i e; have e := congrArg (fun x => x.1.pool.mem) e; simp at e; simp [← e]; first | done | assumption) | (simp [*, State.layStrict_mem (by assumption)]; done) | (simp [*, State.xferFault_r (by assumption)]; done) | simp)

@[simp] theorem State.framing_mem (s : State) (l : ℕ) : (State.framing s l).pool.mem = s.pool.mem := by
  simp [State.framing]

@[simp] theorem State.packetDone_mem (s : State) (l : ℕ) (id : ℕ) (entered : Bool) (e : ℕ × List (BitVec 128)) : (State.packetDone s l id entered e).pool.mem = s.pool.mem := by
  simp [State.packetDone]

@[simp] theorem State.packetGoesOn_mem (s : State) (l : ℕ) (vc : ℕ) (id : ℕ) (entered : Bool) (us : List (BitVec 128)) : (State.packetGoesOn s l vc id entered us).pool.mem = s.pool.mem := by
  simp [State.packetGoesOn]

@[simp] theorem State.takeSlot_mem (s : State) (l : ℕ) (f : Flit) (sh : Bool) (ids : List ℕ) (g : RxVc → RxVc) : (State.takeSlot s l f sh ids g).pool.mem = s.pool.mem := by
  simp [State.takeSlot]

@[simp] theorem State.acceptFlit_mem (s : State) (l : ℕ) (f : Flit) (sh : Bool) (a : Parse) : (State.acceptFlit s l f sh a).pool.mem = s.pool.mem := by
  simp [State.acceptFlit]

@[simp] theorem State.acceptAbort_mem (s : State) (l : ℕ) (f : Flit) (sh : Bool) : (State.acceptAbort s l f sh).pool.mem = s.pool.mem := by
  simp [State.acceptAbort]

@[simp] theorem State.seqFlit_mem (s : State) (l : ℕ) (f : Flit) : (State.seqFlit s l f).pool.mem = s.pool.mem := by
  unfold State.seqFlit
  repeat' (first | (simp [*]; done) | split | (rename_i e; have e := congrArg (fun x => x.2.pool.mem) e; simp at e; simp [← e]; first | done | assumption) | simp)

@[simp] theorem State.flitIn_mem (s : State) (l : ℕ) (raw : Bytes) (decoded : Bool) (corrected : ℕ) : (State.flitIn s l raw decoded corrected).pool.mem = s.pool.mem := by
  unfold State.flitIn
  repeat' (first | (simp [*]; done) | split | (rename_i e; have e := congrArg (fun x => x.2.pool.mem) e; simp at e; simp [← e]; first | done | assumption) | simp)

@[simp] theorem State.replayTo_mem (s : State) (l : ℕ) : (State.replayTo s l).pool.mem = s.pool.mem := by
  simp [State.replayTo]

@[simp] theorem State.lresetOver_mem (s : State) (l : ℕ) : (State.lresetOver s l).pool.mem = s.pool.mem := by
  simp [State.lresetOver]

@[simp] theorem State.idleOver_mem (s : State) (l : ℕ) : (State.idleOver s l).pool.mem = s.pool.mem := by
  simp [State.idleOver]

@[simp] theorem State.beaconIn_mem (s : State) (l : ℕ) (r : TrainRec) : (State.beaconIn s l r).pool.mem = s.pool.mem := by
  simp [State.beaconIn]

@[simp] theorem State.detectTimeout_mem (s : State) (l : ℕ) : (State.detectTimeout s l).pool.mem = s.pool.mem := by
  simp [State.detectTimeout]

@[simp] theorem State.equalized_mem (s : State) (l : ℕ) (lanes : ℕ) : (State.equalized s l lanes).pool.mem = s.pool.mem := by
  simp [State.equalized]

@[simp] theorem State.trainFail_mem (s : State) (l : ℕ) (cause : ℕ) : (State.trainFail s l cause).pool.mem = s.pool.mem := by
  simp [State.trainFail]

@[simp] theorem State.equalizeTimeout_mem (s : State) (l : ℕ) : (State.equalizeTimeout s l).pool.mem = s.pool.mem := by
  simp [State.equalizeTimeout]

@[simp] theorem State.aligned_mem (s : State) (l : ℕ) (rx : List LaneRx) : (State.aligned s l rx).pool.mem = s.pool.mem := by
  simp [State.aligned]

@[simp] theorem State.alignTimeout_mem (s : State) (l : ℕ) : (State.alignTimeout s l).pool.mem = s.pool.mem := by
  simp [State.alignTimeout]

@[simp] theorem State.retryOver_mem (s : State) (l : ℕ) : (State.retryOver s l).pool.mem = s.pool.mem := by
  simp [State.retryOver]

@[simp] theorem State.resend_mem (s : State) (l : ℕ) (r : TrainRec) : (State.resend s l r).pool.mem = s.pool.mem := by
  simp [State.resend]

@[simp] theorem State.peerUp_mem (s : State) (l : ℕ) : (State.peerUp s l).pool.mem = s.pool.mem := by
  simp [State.peerUp]

@[simp] theorem State.enterUp_mem (s : State) (l : ℕ) (r : TrainRec) (rtt : ℕ) (width : ℕ) (rate : ℕ) (lanes : BitVec 4) : (State.enterUp s l r rtt width rate lanes).pool.mem = s.pool.mem := by
  unfold State.enterUp
  repeat' (first | (simp [*]; done) | split | (rename_i e; have e := congrArg (fun x => x.2.pool.mem) e; simp at e; simp [← e]; first | done | assumption) | simp)

@[simp] theorem State.trainIn_mem (s : State) (l : ℕ) (r : TrainRec) (interval : ℕ) : (State.trainIn s l r interval).pool.mem = s.pool.mem := by
  simp [State.trainIn]

@[simp] theorem State.lockLost_mem (s : State) (l : ℕ) (lane : ℕ) (ps : List PairRx) : (State.lockLost s l lane ps).pool.mem = s.pool.mem := by
  simp [State.lockLost]

@[simp] theorem State.signalLost_mem (s : State) (l : ℕ) (lane : ℕ) : (State.signalLost s l lane).pool.mem = s.pool.mem := by
  simp [State.signalLost]

@[simp] theorem State.frefLost_mem (s : State) : (State.frefLost s).pool.mem = s.pool.mem := by
  simp [State.frefLost]

@[simp] theorem State.linkBlockReset_mem (s : State) (l : ℕ) : (State.linkBlockReset s l).pool.mem = s.pool.mem := by
  unfold State.linkBlockReset
  repeat' (first | (simp [*]; done) | split | (rename_i e; have e := congrArg (fun x => x.2.pool.mem) e; simp at e; simp [← e]; first | done | assumption) | simp)

@[simp] theorem State.linkStart_mem (s : State) (l : ℕ) (caller : ℕ) (op : ℕ) (go : State → State) (h_go : ∀ t, (go t).pool.mem = t.pool.mem) : (State.linkStart s l caller op go).s.pool.mem = s.pool.mem := by
  unfold State.linkStart
  repeat' (first | (simp [*]; done) | split)

@[simp] theorem State.linkRestart_mem (s : State) (l : ℕ) : (State.linkRestart s l).pool.mem = s.pool.mem := by
  simp [State.linkRestart]

@[simp] theorem State.linkHandleOver_mem (s : State) (l : ℕ) : (State.linkHandleOver s l).pool.mem = s.pool.mem := by
  unfold State.linkHandleOver
  split <;> simp

theorem cmdLinkGetStatus_keeps : cmdLinkGetStatus.keeps := by
  intro w q s h
  unfold cmdLinkGetStatus
  dsimp only
  repeat' (first | (simp [h]; done) | split)

theorem cmdLinkSet_keeps : cmdLinkSet.keeps := by
  intro w q s h
  unfold cmdLinkSet
  dsimp only
  repeat' (first | (simp [h]; done) | split)

theorem cmdLinkReset_keeps : cmdLinkReset.keeps := by
  intro w q s h
  unfold cmdLinkReset
  dsimp only
  repeat' (first | (simp [h]; done) | split)

end Sys2Proof.Machine
end

