-- ==== Sys2Proof/Laws/CellsRetort.lean ====
section
/-! SUPPORT. The canonical form of the pool memory: what the collector, the counters and Retort do to the pool memory. -/

set_option linter.unusedTactic false
set_option linter.unreachableTactic false
set_option linter.unusedSimpArgs false
set_option linter.unusedVariables false

namespace Sys2Proof.Machine

open Sys2Proof

@[simp] theorem State.modInst_mem (s : State) (g : ℕ) (f : RtInst → RtInst) : (State.modInst s g f).pool.mem = s.pool.mem := by
  unfold State.modInst
  split <;> simp

@[simp] theorem State.modEngine_mem (s : State) (e : ℕ) (f : RtEngine → RtEngine) : (State.modEngine s e f).pool.mem = s.pool.mem := by
  simp [State.modEngine]

@[simp] theorem State.engineWrite_mem (s : State) (i : RtInst) (e : ℕ) (a : ℕ) (d : Bytes) (ro : Bool) (ep : Bool) : (State.engineWrite s i e a d ro ep).pool.mem = s.pool.mem := by
  unfold State.engineWrite
  repeat' (first | (simp; done) | (with_reducible refine (foldl_mem _ _ _ ?_).trans ?_ <;> try intro _ _) | split)

@[simp] theorem State.engineSend_mem (s : State) (i : RtInst) (e : ℕ) (m : ℕ) (k : EngPkt) : (State.engineSend s i e m k).pool.mem = s.pool.mem := by
  unfold State.engineSend
  repeat' (first | (simp [*]; done) | split | (simp [*, State.routePkt_mem (by assumption)]; done) | simp)

@[simp] theorem State.writeDoorbell_mem (s : State) (i : RtInst) (e : ℕ) (k : ℕ) (v : ℕ) : (State.writeDoorbell s i e k v).pool.mem = s.pool.mem := by
  simp [State.writeDoorbell]

@[simp] theorem State.flushRead_mem (s : State) (g : ℕ) (i : RtInst) (e : ℕ) (k : ℕ) (a : Word) : (State.flushRead s g i e k a).pool.mem = s.pool.mem := by
  unfold State.flushRead
  repeat' (first | (simp [*]; done) | split | (rename_i e; have e := congrArg (fun x => x.2.pool.mem) e; simp at e; simp [← e]; first | done | assumption) | simp)

@[simp] theorem State.ringOne_mem (s : State) (g : ℕ) (i : RtInst) (e : ℕ) (v : ℕ) (k : ℕ) : (State.ringOne s g i e v k).pool.mem = s.pool.mem := by
  simp [State.ringOne]

@[simp] theorem State.ringAll_mem (s : State) (g : ℕ) (e : ℕ) (opEnd : Bool) : (State.ringAll s g e opEnd).pool.mem = s.pool.mem := by
  unfold State.ringAll
  split <;> simp

@[simp] theorem State.retortVector_mem (s : State) (p : ℕ) (e : ℕ) : (State.retortVector s p e).pool.mem = s.pool.mem := by
  unfold State.retortVector
  split <;> simp

@[simp] theorem State.rtReport_mem (s : State) (g : ℕ) (i : RtInst) (cause : ℕ) (notice : Bool) : (State.rtReport s g i cause notice).pool.mem = s.pool.mem := by
  unfold State.rtReport
  split <;> simp

@[simp] theorem State.rtFail_mem (s : State) (g : ℕ) (cause : ℕ) (c : Option ℕ) (notice : optParam Bool false) : (State.rtFail s g cause c notice).pool.mem = s.pool.mem := by
  unfold State.rtFail
  split <;> simp

@[simp] theorem State.rtDiscard_mem (s : State) (g : ℕ) : (State.rtDiscard s g).pool.mem = s.pool.mem := by
  unfold State.rtDiscard
  split <;> simp

theorem State.condWrite_wf {s t : State} {e a : Nat} {d : Bytes} {ep : Bool} (hs : cellsWf s.pool.mem)
    (h : s.condWrite e a d ep = some t) : cellsWf t.pool.mem := by
  unfold State.condWrite at h
  dsimp only at h
  split at h
  · cases h
  · split at h
    · cases h
    · cases h
      simp [hs]

theorem foldl_wf2 {α β : Type} (f : State × β → α → State × β) (l : List α) (x : State × β)
    (h : ∀ t y, cellsWf t.1.pool.mem → cellsWf (f t y).1.pool.mem) (hs : cellsWf x.1.pool.mem) : cellsWf (l.foldl f x).1.pool.mem := by
  induction l generalizing x with
  | nil => exact hs
  | cons y r ih => exact ih _ (h _ _ hs)

@[simp] theorem State.writeBack_wf (s : State) (i : RtInst) (e k off : Nat) (d : Bytes) (ep : Bool) (h : cellsWf s.pool.mem) :
    cellsWf (s.writeBack i e k off d ep).1.pool.mem := by
  unfold State.writeBack
  refine foldl_wf2 _ _ _ (fun t n ht => ?_) h
  split
  · rename_i e; exact State.condWrite_wf ht e
  · exact ht

@[simp] theorem State.writeResult_wf (s : State) (i : RtInst) (c : Nat) (d : Bytes) (ep : Bool) (h : cellsWf s.pool.mem) :
    cellsWf (s.writeResult i c d ep).1.pool.mem := by
  unfold State.writeResult
  refine foldl_wf2 _ _ _ (fun t n ht => ?_) h
  dsimp only
  split
  · simp [ht]
  · simp [ht]

@[simp] theorem State.advance_wf (n : Nat) (s : State) (g : Nat) (h : cellsWf s.pool.mem) : cellsWf (State.advance n s g).pool.mem := by
  induction n generalizing s with
  | zero => exact h
  | succ k ih =>
    unfold State.advance
    split
    · exact h
    · split
      · exact h
      · dsimp only
        refine ih _ ?_
        split <;> simp [h]

@[simp] theorem State.emitChunk_wf (s : State) (g : ℕ) (c : ℕ) (d : Bytes) (h : cellsWf s.pool.mem) : cellsWf (State.emitChunk s g c d).pool.mem := by
  unfold State.emitChunk
  repeat' (first | (simp [*]; done) | split | (rename_i e; have e := congrArg (fun x => x.2.pool.mem) e; simp at e; simp [← e]; first | done | assumption) | simp)

@[simp] theorem State.sendPartial_mem (s : State) (g : ℕ) (c : ℕ) (i : RtInst) : (State.sendPartial s g c i).pool.mem = s.pool.mem := by
  simp [State.sendPartial]

@[simp] theorem State.chunkStep_wf (s : State) (g : ℕ) (c : ℕ) (h : cellsWf s.pool.mem) : cellsWf (State.chunkStep s g c).pool.mem := by
  unfold State.chunkStep
  repeat' (first | (simp [h]; done) | split)

@[simp] theorem State.openChunk_mem (s : State) (g : ℕ) (c : ℕ) : (State.openChunk s g c).pool.mem = s.pool.mem := by
  unfold State.openChunk
  split <;> simp

@[simp] theorem State.rtIngest_mem (s : State) (i : RtInst) (e : ℕ) (n : ℕ) : (State.rtIngest s i e n).pool.mem = s.pool.mem := by
  simp [State.rtIngest]

@[simp] theorem State.contribute_wf (s : State) (g : ℕ) (k : ℕ) (cs : ℕ) (byte : ℕ) (d : Bytes) (ep : Bool) (h : cellsWf s.pool.mem) : cellsWf (State.contribute s g k cs byte d ep).pool.mem := by
  unfold State.contribute
  repeat' (first | (simp [*]; done) | split | (rename_i e; have e := congrArg (fun x => x.2.pool.mem) e; simp at e; simp [← e]; first | done | assumption) | simp)

@[simp] theorem State.pullRead_wf (s : State) (g : ℕ) (c : ℕ) (k : ℕ) (ecc : Eccs) (h : cellsWf s.pool.mem) : cellsWf (State.pullRead s g c k ecc).pool.mem := by
  unfold State.pullRead
  repeat' (first | (simp [*]; done) | split | (rename_i e; have e := congrArg (fun x => x.2.pool.mem) e; simp at e; simp [← e]; first | done | assumption) | simp)

@[simp] theorem State.partialIn_wf (s : State) (g : ℕ) (i : RtInst) (k : EngPkt) (h : cellsWf s.pool.mem) : cellsWf (State.partialIn s g i k).pool.mem := by
  unfold State.partialIn
  repeat' (first | with_reducible assumption | (simp [*]; done) | (with_reducible refine foldl_wf _ _ _ ?_ ?_ <;> try intro _ _ _) | split | simp)

@[simp] theorem State.resultIn_wf (s : State) (g : ℕ) (i : RtInst) (k : EngPkt) (h : cellsWf s.pool.mem) : cellsWf (State.resultIn s g i k).pool.mem := by
  unfold State.resultIn
  repeat' (first | with_reducible assumption | (simp [*]; done) | (with_reducible refine foldl_wf _ _ _ ?_ ?_ <;> try intro _ _ _) | split | simp)

@[simp] theorem State.enginePkt_wf (s : State) (k : EngPkt) (h : cellsWf s.pool.mem) : cellsWf (State.enginePkt s k).pool.mem := by
  unfold State.enginePkt
  repeat' (first | (simp [*]; done) | split | (rename_i e; have e := congrArg (fun x => x.2.pool.mem) e; simp at e; simp [← e]; first | done | assumption) | simp)

@[simp] theorem State.flushDone_mem (s : State) (g : ℕ) (k : ℕ) (good : Bool) : (State.flushDone s g k good).pool.mem = s.pool.mem := by
  unfold State.flushDone
  repeat' (first | (simp; done) | split)

@[simp] theorem State.chunkTimer_mem (s : State) (g : ℕ) (c : ℕ) : (State.chunkTimer s g c).pool.mem = s.pool.mem := by
  unfold State.chunkTimer
  split <;> simp

@[simp] theorem State.moveOver_mem (s : State) (g : ℕ) : (State.moveOver s g).pool.mem = s.pool.mem := by
  unfold State.moveOver
  split <;> simp

@[simp] theorem State.dropInst_mem (s : State) (g : ℕ) : (State.dropInst s g).pool.mem = s.pool.mem := by
  simp [State.dropInst]

@[simp] theorem State.destroyOver_mem (s : State) (g : ℕ) : (State.destroyOver s g).pool.mem = s.pool.mem := by
  unfold State.destroyOver
  split <;> simp

@[simp] theorem State.retortFnReset_mem (s : State) (p : ℕ) : (State.retortFnReset s p).pool.mem = s.pool.mem := by
  simp [State.retortFnReset]

@[simp] theorem State.rtTargets_mem (s : State) : (State.rtTargets s).pool.mem = s.pool.mem := by
  simp [State.rtTargets]

@[simp] theorem State.forwardPart_mem (s : State) (i : RtInst) (g : ℕ) (e : ℕ) (o : ℕ) (c : ℕ) (slot : ℕ) (byte : ℕ) (d : Bytes) (ep : Bool) : (State.forwardPart s i g e o c slot byte d ep).pool.mem = s.pool.mem := by
  simp [State.forwardPart]

@[simp] theorem State.engineArrival_wf (s : State) (i : RtInst) (e : ℕ) (p : Pkt) (h : cellsWf s.pool.mem) : cellsWf (State.engineArrival s i e p).pool.mem := by
  unfold State.engineArrival
  repeat' (first | (simp [*]; done) | split | (rename_i e; have e := congrArg (fun x => x.2.pool.mem) e; simp at e; simp [← e]; first | done | assumption) | simp)

@[simp] theorem State.contribArrival_wf (s : State) (i : RtInst) (g : ℕ) (e : ℕ) (p : Pkt) (h : cellsWf s.pool.mem) : cellsWf (State.contribArrival s i g e p).pool.mem := by
  unfold State.contribArrival
  repeat' (first | (simp [*]; done) | split | (rename_i e; have e := congrArg (fun x => x.2.pool.mem) e; simp at e; simp [← e]; first | done | assumption) | simp)

@[simp] theorem State.retortPkt_wf (s0 : State) (p : Pkt) (h : cellsWf s0.pool.mem) : cellsWf (State.retortPkt s0 p).pool.mem := by
  unfold State.retortPkt
  repeat' (first | (simp [*]; done) | split | (rename_i e; have e := congrArg (fun x => x.2.pool.mem) e; simp at e; simp [← e]; first | done | assumption) | simp)

@[simp] theorem State.poolFlushes_mem (s : State) : (State.poolFlushes s).pool.mem = s.pool.mem := by
  simp [State.poolFlushes]

@[simp] theorem State.retortTake_wf (s : State) (h : cellsWf s.pool.mem) : cellsWf (State.retortTake s).pool.mem := by
  unfold State.retortTake
  repeat' (first | (simp [*]; done) | (with_reducible refine foldl_wf _ _ _ ?_ ?_ <;> try intro _ _ _) | split)

theorem cmdRtGetStatus_keeps : cmdRtGetStatus.keeps := by
  intro w q s h
  simp [cmdRtGetStatus, h]

theorem cmdRtPartSet_keeps : cmdRtPartSet.keeps := by
  intro w q s h
  unfold cmdRtPartSet
  dsimp only
  repeat' (first | (simp [h]; done) | split)

theorem cmdRtGroupCreate_keeps : cmdRtGroupCreate.keeps := by
  intro w q s h
  unfold cmdRtGroupCreate
  dsimp only
  repeat' (first | (simp [h]; done) | split)

theorem cmdRtGroupDestroy_keeps : cmdRtGroupDestroy.keeps := by
  intro w q s h
  unfold cmdRtGroupDestroy
  dsimp only
  repeat' (first | (simp [h]; done) | split)

theorem cmdRtGroupRead_keeps : cmdRtGroupRead.keeps := by
  intro w q s h
  unfold cmdRtGroupRead
  dsimp only
  repeat' (first | (simp [h]; done) | split)

theorem cmdRtGroupReset_keeps : cmdRtGroupReset.keeps := by
  intro w q s h
  unfold cmdRtGroupReset
  dsimp only
  repeat' (first | (simp [h]; done) | split)

theorem cmdRtGroupMove_keeps : cmdRtGroupMove.keeps := by
  intro w q s h
  unfold cmdRtGroupMove
  dsimp only
  repeat' (first | (simp [h]; done) | split)

@[simp] theorem State.netGroupReset_mem (s : State) (g : ℕ) : (State.netGroupReset s g).pool.mem = s.pool.mem := by
  simp [State.netGroupReset]

@[simp] theorem State.stationPortDown_mem (s : State) (n : ℕ) : (State.stationPortDown s n).pool.mem = s.pool.mem := by
  unfold State.stationPortDown
  repeat' (first | (simp; done) | split)

@[simp] theorem State.blockReset_wf (s : State) (b : ℕ) (h : cellsWf s.pool.mem) : cellsWf (State.blockReset s b).pool.mem := by
  unfold State.blockReset
  split <;> simp [h]

@[simp] theorem State.blockReady_mem (s : State) (b : ℕ) : (State.blockReady s b).pool.mem = s.pool.mem := by
  simp [State.blockReady]

@[simp] theorem State.shadowEnd_mem (s : State) (b : ℕ) : (State.shadowEnd s b).pool.mem = s.pool.mem := by
  simp [State.shadowEnd]

@[simp] theorem State.leaveService_mem (s : State) : (State.leaveService s).pool.mem = s.pool.mem := by
  simp [State.leaveService]

@[simp] theorem State.modAer_mem (s : State) (n : ℕ) (f : Aer → Aer) : (State.modAer s n f).pool.mem = s.pool.mem := by
  simp [State.modAer]

@[simp] theorem State.aerLog_mem (s : State) (src : ℕ) (port : Option ℕ) : (State.aerLog s src port).pool.mem = s.pool.mem := by
  unfold State.aerLog
  split <;> simp

@[simp] theorem State.accStruck_mem (s : State) (e : ℕ) : (State.accStruck s e).pool.mem = s.pool.mem := by
  unfold State.accStruck
  repeat' (first | (simp [*]; done) | split | (rename_i e; have e := congrArg (fun x => x.2.pool.mem) e; simp at e; simp [← e]; first | done | assumption) | simp)

@[simp] theorem State.detectedIn_mem (s : State) (src : ℕ) (addr : Word) : (State.detectedIn s src addr).pool.mem = s.pool.mem := by
  simp [State.detectedIn]

@[simp] theorem State.detected_mem (s0 : State) (src : ℕ) (attr : Option ℕ) (port : Option ℕ) (addr : Word) : (State.detected s0 src attr port addr).pool.mem = s0.pool.mem := by
  unfold State.detected
  repeat' (first | (simp [*]; done) | split | (rename_i e; have e := congrArg (fun x => x.2.pool.mem) e; simp at e; simp [← e]; first | done | assumption) | simp)

@[simp] theorem State.flashCopy_mem (s : State) : (State.flashCopy s).pool.mem = s.pool.mem := by
  simp [State.flashCopy]

@[simp] theorem State.flashCleared_mem (s : State) (good : Bool) : (State.flashCleared s good).pool.mem = s.pool.mem := by
  unfold State.flashCleared
  split <;> simp

@[simp] theorem State.clearBits_mem (s : State) (p : ℕ) (b : ℕ) (mask : BitVec 32) : (State.clearBits s p b mask).pool.mem = s.pool.mem := by
  simp [State.clearBits]

@[simp] theorem State.raiseTimes_mem (s : State) (src : Nat) (attr : Option Nat) (n : Nat) : (s.raiseTimes src attr n).pool.mem = s.pool.mem := by
  induction n generalizing s with
  | zero => rfl
  | succ k ih => unfold State.raiseTimes; rw [ih]; simp

theorem cmdFltGetSummary_keeps : cmdFltGetSummary.keeps := by
  intro w q s h
  simp [cmdFltGetSummary, h]

theorem cmdFltRead_keeps : cmdFltRead.keeps := by
  intro w q s h
  unfold cmdFltRead
  dsimp only
  repeat' (first | (simp [h]; done) | split)

theorem cmdFltClear_keeps : cmdFltClear.keeps := by
  intro w q s h
  unfold cmdFltClear
  dsimp only
  repeat' (first | (simp [h]; done) | split)

theorem cmdFltSetReaction_keeps : cmdFltSetReaction.keeps := by
  intro w q s h
  unfold cmdFltSetReaction
  dsimp only
  repeat' (first | (simp [h]; done) | split)

theorem cmdFltGetReaction_keeps : cmdFltGetReaction.keeps := by
  intro w q s h
  simp [cmdFltGetReaction, h]

theorem cmdFltLedgerRead_keeps : cmdFltLedgerRead.keeps := by
  intro w q s h
  simp [cmdFltLedgerRead, h]

theorem cmdFltLedgerClear_keeps : cmdFltLedgerClear.keeps := by
  intro w q s h
  unfold cmdFltLedgerClear
  dsimp only
  repeat' (first | (simp [h]; done) | split)

theorem cmdFltInject_keeps : cmdFltInject.keeps := by
  intro w q s h
  unfold cmdFltInject
  dsimp only
  repeat' (first | (simp [h]; done) | split)

theorem cmdFltAerRead_keeps : cmdFltAerRead.keeps := by
  intro w q s h
  unfold cmdFltAerRead
  dsimp only
  repeat' (first | (simp [h]; done) | split)

theorem cmdEvPop_keeps : cmdEvPop.keeps := by
  intro w q s h
  unfold cmdEvPop
  dsimp only
  repeat' (first | (simp [h]; done) | split)

@[simp] theorem State.sweep_mem (s : State) (span : ℕ) : (State.sweep s span).pool.mem = s.pool.mem := by
  simp [State.sweep]

@[simp] theorem State.sweepStore_wf (s : State) (p : ℕ) (a : ℕ) (d : Bytes) (h : cellsWf s.pool.mem) : cellsWf (State.sweepStore s p a d).pool.mem := by
  unfold State.sweepStore
  repeat' (first | with_reducible assumption | (simp [*]; done) | (with_reducible refine foldl_wf _ _ _ ?_ ?_ <;> try intro _ _ _) | split | simp)

@[simp] theorem State.sweepPut_wf (s : State) (p : ℕ) (x : Stream) (off : ℕ) (d : Bytes) (h : cellsWf s.pool.mem) : cellsWf (State.sweepPut s p x off d).pool.mem := by
  unfold State.sweepPut
  split <;> simp [h]

@[simp] theorem State.slotPut_wf (s : State) (p : Nat) (x : Stream) (off : Nat) (r d : Bytes) (h : cellsWf s.pool.mem) :
    cellsWf (s.slotPut p x off r d).pool.mem :=
  State.sweepPut_wf _ _ _ _ _ (State.sweepPut_wf _ _ _ _ _ (State.sweepPut_wf _ _ _ _ _ h))

@[simp] theorem State.slotWrite_wf (s : State) (p : ℕ) (h : cellsWf s.pool.mem) : cellsWf (State.slotWrite s p).pool.mem := by
  unfold State.slotWrite
  repeat' (first | (simp [*]; done) | split | (rename_i e; have e := congrArg (fun x => x.2.pool.mem) e; simp at e; simp [← e]; first | done | assumption) | simp)

@[simp] theorem State.checkStreams_mem (s : State) : (State.checkStreams s).pool.mem = s.pool.mem := by
  simp [State.checkStreams]

theorem cmdCntRead_keeps : cmdCntRead.keeps := by
  intro w q s h
  unfold cmdCntRead
  dsimp only
  repeat' (first | (simp [h]; done) | split)

theorem cmdCntSet_keeps : cmdCntSet.keeps := by
  intro w q s h
  unfold cmdCntSet
  dsimp only
  repeat' (first | (simp [h]; done) | split)

theorem cmdCntSweepSet_keeps : cmdCntSweepSet.keeps := by
  intro w q s h
  unfold cmdCntSweepSet
  dsimp only
  repeat' (first | (simp [h]; done) | split)

theorem cmdCntSweepGet_keeps : cmdCntSweepGet.keeps := by
  intro w q s h
  simp [cmdCntSweepGet, h]

end Sys2Proof.Machine
end

