-- ==== Sys2Proof/Laws/CellsPower.lean ====
section
/-! SUPPORT. The canonical form of the pool memory: what test, reset, the start sequence, power, the other agents and time do to the pool memory, and that every command of firmware 3.2 keeps its form. -/

set_option linter.unusedTactic false
set_option linter.unreachableTactic false
set_option linter.unusedSimpArgs false
set_option linter.unusedVariables false

namespace Sys2Proof.Machine

open Sys2Proof

@[simp] theorem State.portTested_mem (s : State) (n : ℕ) : (State.portTested s n).pool.mem = s.pool.mem := by
  simp [State.portTested]

@[simp] theorem State.bistBegin_mem (s : State) (b : ℕ) (kind : ℕ) (h : ℕ) : (State.bistBegin s b kind h).pool.mem = s.pool.mem := by
  unfold State.bistBegin
  split <;> simp

@[simp] theorem State.bistReset_mem (s : State) (b : ℕ) : (State.bistReset s b).pool.mem = s.pool.mem := by
  unfold State.bistReset
  split <;> simp

@[simp] theorem State.bistReturn_mem (s : State) (b : ℕ) : (State.bistReturn s b).pool.mem = s.pool.mem := by
  unfold State.bistReturn
  split <;> simp

@[simp] theorem State.logRepairs_mem (s : State) (b : Nat) (n : Nat) : (s.logRepairs b n).pool.mem = s.pool.mem := by
  induction n generalizing s with
  | zero => rfl
  | succ k ih => unfold State.logRepairs; rw [ih]; simp

@[simp] theorem State.marchRepair_mem (s : State) (b : ℕ) : (State.marchRepair s b).pool.mem = s.pool.mem := by
  simp [State.marchRepair]

@[simp] theorem State.bistDone_mem (s : State) (b : ℕ) (mMisr : ℕ) (lMisr : ℕ) (repairs : ℕ) (spare : Bool) (ms : ℕ) : (State.bistDone s b mMisr lMisr repairs spare ms).pool.mem = s.pool.mem := by
  simp [State.bistDone]

@[simp] theorem State.bootFailed_mem (s : State) (b : ℕ) : (State.bootFailed s b).pool.mem = s.pool.mem := by
  unfold State.bootFailed
  split <;> simp

@[simp] theorem State.bootBist_mem (s : State) (fails : List ℕ) : (State.bootBist s fails).pool.mem = s.pool.mem := by
  simp [State.bootBist]

@[simp] theorem State.rmaReject_mem (s : State) : (State.rmaReject s).pool.mem = s.pool.mem := by
  simp [State.rmaReject]

@[simp] theorem State.charSample_mem (s : State) (kind : ℕ) (i : ℕ) (margin : ℕ) (base : ℕ) (broken : Bool) : (State.charSample s kind i margin base broken).pool.mem = s.pool.mem := by
  simp [State.charSample]

@[simp] theorem State.planRail_mem (s : State) (m : PlanMeas) : (State.planRail s m).pool.mem = s.pool.mem := by
  simp [State.planRail]

@[simp] theorem State.planIter_mem (s : State) : (State.planIter s).pool.mem = s.pool.mem := by
  simp [State.planIter]

@[simp] theorem State.planThrottle_mem (s : State) (m : PlanMeas) : (State.planThrottle s m).pool.mem = s.pool.mem := by
  simp [State.planThrottle]

@[simp] theorem State.planLanes_mem (s : State) (m : PlanMeas) : (State.planLanes s m).pool.mem = s.pool.mem := by
  simp [State.planLanes]

@[simp] theorem State.budgetWarn_mem (s : State) : (State.budgetWarn s).pool.mem = s.pool.mem := by
  simp [State.budgetWarn]

@[simp] theorem State.planRecord_mem (s : State) (m : PlanMeas) : (s.planRecord m).pool.mem = s.pool.mem := by
  rw [State.planRecord, State.budgetWarn_mem, State.modNv_mem, State.modAge_mem]

@[simp] theorem State.planAll_mem (s : State) (m : PlanMeas) : (s.planAll m).pool.mem = s.pool.mem := by
  rw [State.planAll, State.endHandle_mem, State.planRecord_mem, State.planLanes_mem, State.planThrottle_mem, State.planIter_mem,
    State.planRail_mem, State.modAge_mem]

@[simp] theorem State.replan_mem (s : State) (m : PlanMeas) : (State.replan s m).pool.mem = s.pool.mem := by
  simp [State.replan]

theorem cmdBistRun_keeps : cmdBistRun.keeps := by
  intro w q s h
  unfold cmdBistRun
  dsimp only
  repeat' (first | (simp [h]; done) | split)

theorem cmdBistGet_keeps : cmdBistGet.keeps := by
  intro w q s h
  unfold cmdBistGet
  dsimp only
  repeat' (first | (simp [h]; done) | split)

theorem cmdLcAdvance_keeps : cmdLcAdvance.keeps := by
  intro w q s h
  unfold cmdLcAdvance
  dsimp only
  repeat' (first | (simp [h]; done) | split)

theorem cmdRmaChallenge_keeps : cmdRmaChallenge.keeps := by
  intro w q s h
  unfold cmdRmaChallenge
  dsimp only
  repeat' (first | (simp [h]; done) | split)

theorem cmdRmaUnlock_keeps : cmdRmaUnlock.keeps := by
  intro w q s h
  unfold cmdRmaUnlock
  dsimp only
  repeat' (first | (simp [h]; done) | split)

theorem cmdAgeGetStatus_keeps : cmdAgeGetStatus.keeps := by
  intro w q s h
  simp [cmdAgeGetStatus, h]

theorem cmdAgeSetConfig_keeps : cmdAgeSetConfig.keeps := by
  intro w q s h
  unfold cmdAgeSetConfig
  dsimp only
  repeat' (first | (simp [h]; done) | split)

@[simp] theorem State.poolFlush_wf (s : State) (h : cellsWf s.pool.mem) : cellsWf (State.poolFlush s).pool.mem := by
  unfold State.poolFlush
  repeat' (first | (simp [*]; done) | (with_reducible refine foldl_wf _ _ _ ?_ ?_ <;> try intro _ _ _) | split)

theorem PoolSt.puts_wf {α : Type} (f : PoolSt → α → PoolSt) (l : List α) (p : PoolSt) (hf : ∀ q x, cellsWf q.mem → cellsWf (f q x).mem)
    (h : cellsWf p.mem) : cellsWf (l.foldl f p).mem := by
  induction l generalizing p with
  | nil => exact h
  | cons x r ih => exact ih _ (hf _ _ h)

@[simp] theorem State.poolAsleep_wf (s : State) (h : cellsWf s.pool.mem) : cellsWf s.poolAsleep.pool.mem := by
  unfold State.poolAsleep
  split
  · exact h
  · dsimp only
    rw [State.modKept_mem, State.modPool_mem]
    exact PoolSt.puts_wf _ _ _ (fun q x hq => PoolSt.put_wf _ _ _ _ hq) (by simp [h])

@[simp] theorem State.moduleReset_wf (s : State) (src : ℕ) (sub : ℕ) (h : cellsWf s.pool.mem) : cellsWf (State.moduleReset s src sub).pool.mem := by
  unfold State.moduleReset
  split <;> simp [h]

@[simp] theorem State.coldReset_wf (s : State) (phase : Phase) (h : cellsWf s.pool.mem) : cellsWf (State.coldReset s phase).pool.mem := by
  simp [State.coldReset, h]

@[simp] theorem State.moduleResetPulse_wf (s : State) (ns : ℕ) (h : cellsWf s.pool.mem) : cellsWf (State.moduleResetPulse s ns).pool.mem := by
  unfold State.moduleResetPulse
  split <;> simp [h]

@[simp] theorem State.pulseEnd_mem (s : State) : (State.pulseEnd s).pool.mem = s.pool.mem := by
  simp [State.pulseEnd]

@[simp] theorem State.watchdogOver_wf (s : State) (h : cellsWf s.pool.mem) : cellsWf (State.watchdogOver s).pool.mem := by
  unfold State.watchdogOver
  split <;> simp [h]

@[simp] theorem State.warmDelayOver_wf (s : State) (h : cellsWf s.pool.mem) : cellsWf (State.warmDelayOver s).pool.mem := by
  unfold State.warmDelayOver
  split <;> simp [h]

@[simp] theorem State.startTimerOver_wf (s : State) (h : cellsWf s.pool.mem) : cellsWf (State.startTimerOver s).pool.mem := by
  unfold State.startTimerOver
  split <;> simp [h]

@[simp] theorem State.linkBoot_mem (s : State) (l : ℕ) : (State.linkBoot s l).pool.mem = s.pool.mem := by
  simp [State.linkBoot]

theorem settingCommands_keep : ∀ k ∈ settingCommands, k.keeps := by
  intro k hk
  simp only [settingCommands, List.mem_cons, List.not_mem_nil, or_false] at hk
  rcases hk with rfl | rfl | rfl | rfl | rfl | rfl | rfl | rfl | rfl | rfl | rfl | rfl | rfl | rfl | rfl | rfl
  exacts [cmdCoreSetConfig_keeps, cmdNetPortSet_keeps, cmdVnicCreate_keeps, cmdVnicSet_keeps, cmdVnicQpSet_keeps, cmdNetEmSet_keeps,
    cmdNetAclSet_keeps, cmdTmShaperSet_keeps, cmdTmSchedSet_keeps, cmdTmMeterSet_keeps, cmdTmWredSet_keeps, cmdTmGateSet_keeps,
    cmdPtpOutSet_keeps, cmdPtpInSet_keeps, cmdCntSet_keeps, cmdCntSweepSet_keeps]

@[simp] theorem State.applySetting_wf (s : State) (e : Nat × Bytes) (h : cellsWf s.pool.mem) : cellsWf (s.applySetting e).pool.mem := by
  unfold State.applySetting
  split
  · exact h
  · rename_i k hk
    dsimp only
    split
    · exact settingCommands_keep k (List.mem_of_find?_eq_some hk) _ _ _ h
    · exact h

@[simp] theorem State.loadOptions_mem (s : State) (o : OptionSet) (used smoulder : Bool) :
    (s.loadOptions o used smoulder).pool.mem = s.pool.mem := by
  unfold State.loadOptions
  rw [State.modPwr_mem, State.modKept_mem, State.modFlt_mem]

@[simp] theorem State.assignPower_mem (s : State) (o : OptionSet) : (State.assignPower s o).pool.mem = s.pool.mem := by
  simp [State.assignPower]

@[simp] theorem State.optionsIn_wf (s : State) (o : OptionSet) (used smoulder : Bool) (h : cellsWf s.pool.mem) :
    cellsWf (s.optionsIn o used smoulder).pool.mem := by
  unfold State.optionsIn
  rw [State.assignPower_mem]
  refine foldl_wf _ _ _ (fun t x ht => State.applySetting_wf t x ht) ?_
  refine foldl_wf _ _ _ (fun t l ht => by simp [ht]) ?_
  rw [State.loadOptions_mem]; exact h

@[simp] theorem State.strictLaid_mem (s : State) (o : OptionSet) : (s.strictLaid o).pool.mem = s.pool.mem := by
  unfold State.strictLaid
  split
  · cases hu : s.layStrict with
    | none => rfl
    | some t => rw [Option.getD_some, State.layStrict_mem hu]
  · rfl

@[simp] theorem State.commitOptions_wf (s : State) (o : OptionSet) (used smoulder : Bool) (h : cellsWf s.pool.mem) :
    cellsWf (s.commitOptions o used smoulder).pool.mem := by
  unfold State.commitOptions
  dsimp only
  rw [State.strictLaid_mem]
  exact State.optionsIn_wf _ _ _ _ h

@[simp] theorem State.countStart_mem (s : State) : (State.countStart s).1.pool.mem = s.pool.mem := by
  simp [State.countStart]

@[simp] theorem State.holdCheck_mem (s : State) : (State.holdCheck s).pool.mem = s.pool.mem := by
  simp [State.holdCheck]

@[simp] theorem State.poolRetained_mem (s : State) : (State.poolRetained s).pool.mem = s.pool.mem := by
  simp [State.poolRetained]

@[simp] theorem State.poolFresh_wf (s : State) (dpc : ℕ) (gib : ℕ) (retention : ℕ) (h : cellsWf s.pool.mem) : cellsWf (State.poolFresh s dpc gib retention).pool.mem := by
  simp [State.poolFresh, h]

@[simp] theorem State.poolLost_mem (s : State) (cs : List ℕ) : (State.poolLost s cs).pool.mem = s.pool.mem := by
  simp [State.poolLost]

@[simp] theorem State.ownersCheck_mem (s : State) : (State.ownersCheck s).pool.mem = s.pool.mem := by
  unfold State.ownersCheck
  repeat' (first | (simp; done) | (simp [*]; done) | (with_reducible refine (foldl_mem _ _ _ ?_).trans ?_ <;> try intro _ _) | split | (rename_i e; have e := congrArg (fun x => x.2.pool.mem) e; simp at e; simp [← e]; first | done | assumption) | (rename_i e; have e := congrArg (fun x => x.1.pool.mem) e; simp at e; simp [← e]; first | done | assumption) | simp)

@[simp] theorem State.poolStart_wf (s : State) (h : cellsWf s.pool.mem) : cellsWf (State.poolStart s).pool.mem := by
  unfold State.poolStart
  repeat' (first | (simp [*]; done) | split | (rename_i e; have e := congrArg (fun x => x.2.pool.mem) e; simp at e; simp [← e]; first | done | assumption) | simp)

@[simp] theorem State.raiseLatched_mem (s : State) : (State.raiseLatched s).pool.mem = s.pool.mem := by
  simp [State.raiseLatched]

@[simp] theorem State.portsStart_mem (s : State) : (State.portsStart s).pool.mem = s.pool.mem := by
  simp [State.portsStart]

@[simp] theorem State.firmwareReady_mem (s : State) : (State.firmwareReady s).pool.mem = s.pool.mem := by
  simp [State.firmwareReady]

@[simp] theorem State.firmwareStart_wf (s : State) (src : ℕ) (version : BitVec 32) (svn : ℕ) (h : cellsWf s.pool.mem) : cellsWf (State.firmwareStart s src version svn).pool.mem := by
  unfold State.firmwareStart
  repeat' (first | with_reducible assumption | (simp [*]; done) | (with_reducible refine foldl_wf _ _ _ ?_ ?_ <;> try intro _ _ _) | split | simp)

@[simp] theorem State.enterDownload_mem (s : State) : (State.enterDownload s).pool.mem = s.pool.mem := by
  simp [State.enterDownload]

@[simp] theorem State.startFrom_wf (l : List Nat) (s : State) (h : cellsWf s.pool.mem) : cellsWf (State.startFrom l s).pool.mem := by
  induction l generalizing s with
  | nil => simp [State.startFrom, h]
  | cons n r ih =>
    unfold State.startFrom
    dsimp only
    split
    · exact ih _ h
    · split
      · simp [h]
      · exact ih _ (by simp [h])

@[simp] theorem State.imageFetch_wf (s : State) (h : cellsWf s.pool.mem) : cellsWf (State.imageFetch s).pool.mem := by
  unfold State.imageFetch
  split <;> simp [h]

@[simp] theorem State.askImage_mem (s : State) : (State.askImage s).pool.mem = s.pool.mem := by
  unfold State.askImage
  repeat' (first | (simp; done) | split)

@[simp] theorem State.startDownloaded_wf (s : State) (src : ℕ) (image : Bytes) (h : cellsWf s.pool.mem) : cellsWf (State.startDownloaded s src image).pool.mem := by
  simp [State.startDownloaded, h]

@[simp] theorem State.downloadDone_wf (s : State) (image : Bytes) (good : Bool) (h : cellsWf s.pool.mem) : cellsWf (State.downloadDone s image good).pool.mem := by
  unfold State.downloadDone
  repeat' (first | with_reducible assumption | (simp [*]; done) | (with_reducible refine foldl_wf _ _ _ ?_ ?_ <;> try intro _ _ _) | split | simp)

@[simp] theorem State.peerImageIn_wf (s : State) (m : ℕ) (image : Bytes) (h : cellsWf s.pool.mem) : cellsWf (State.peerImageIn s m image).pool.mem := by
  unfold State.peerImageIn
  repeat' (first | (simp [h]; done) | split)

@[simp] theorem State.released_mem (s : State) (env : BootEnv) : (State.released s env).pool.mem = s.pool.mem := by
  simp [State.released]

@[simp] theorem State.startChecks_mem (s : State) (env : BootEnv) : (State.startChecks s env).pool.mem = s.pool.mem := by
  simp [State.startChecks]

@[simp] theorem State.optionStep_wf (s : State) (h : cellsWf s.pool.mem) : cellsWf (State.optionStep s).pool.mem := by
  simp [State.optionStep, h]

@[simp] theorem State.supervisorRelease_wf (s : State) (env : BootEnv) (h : cellsWf s.pool.mem) : cellsWf (State.supervisorRelease s env).pool.mem := by
  unfold State.supervisorRelease
  split <;> simp [h]

@[simp] theorem State.stableOver_mem (s : State) : (State.stableOver s).pool.mem = s.pool.mem := by
  unfold State.stableOver
  repeat' (first | (simp; done) | split)

@[simp] theorem State.tryStart_mem (s : State) : (State.tryStart s).pool.mem = s.pool.mem := by
  simp [State.tryStart]

@[simp] theorem State.softStartOver_mem (s : State) (chold : ℕ) : (State.softStartOver s chold).pool.mem = s.pool.mem := by
  simp [State.softStartOver]

@[simp] theorem State.railsGood_mem (s : State) : (State.railsGood s).pool.mem = s.pool.mem := by
  simp [State.railsGood]

@[simp] theorem State.latch_mem (s : State) (i : ℕ) : (State.latch s i).pool.mem = s.pool.mem := by
  simp [State.latch]

@[simp] theorem State.sagEvent_mem (s : State) (vhold : ℕ) (entered : Bool) (stop : Bool) (en : Bool) : (State.sagEvent s vhold entered stop en).pool.mem = s.pool.mem := by
  simp [State.sagEvent]

@[simp] theorem State.shadowCopy_mem (s : State) : (State.shadowCopy s).pool.mem = s.pool.mem := by
  simp [State.shadowCopy]

@[simp] theorem State.orderlyStop_wf (s : State) (vhold : ℕ) (en : Bool) (h : cellsWf s.pool.mem) : cellsWf (State.orderlyStop s vhold en).pool.mem := by
  simp [State.orderlyStop, h]

@[simp] theorem State.stopEnds_wf (s : State) (h : cellsWf s.pool.mem) : cellsWf (State.stopEnds s).pool.mem := by
  unfold State.stopEnds
  split <;> simp [h]

@[simp] theorem State.sagWarning_wf (s : State) (vhold : ℕ) (h : cellsWf s.pool.mem) : cellsWf (State.sagWarning s vhold).pool.mem := by
  unfold State.sagWarning
  repeat' (first | (simp [h]; done) | split)

@[simp] theorem State.warningClear_mem (s : State) (vhold : ℕ) : (State.warningClear s vhold).pool.mem = s.pool.mem := by
  simp [State.warningClear]

@[simp] theorem State.powerEnOn_mem (s : State) : (State.powerEnOn s).pool.mem = s.pool.mem := by
  simp [State.powerEnOn]

@[simp] theorem State.powerEnOff_wf (s : State) (h : cellsWf s.pool.mem) : cellsWf (State.powerEnOff s).pool.mem := by
  unfold State.powerEnOff
  repeat' (first | (simp [h]; done) | split)

@[simp] theorem State.resetThreshold_wf (s : State) (h : cellsWf s.pool.mem) : cellsWf (State.resetThreshold s).pool.mem := by
  unfold State.resetThreshold
  repeat' (first | (simp [h]; done) | split)

@[simp] theorem State.overVoltage_wf (s : State) (h : cellsWf s.pool.mem) : cellsWf (State.overVoltage s).pool.mem := by
  unfold State.overVoltage
  split <;> simp [h]

@[simp] theorem State.overVoltageOver_mem (s : State) : (State.overVoltageOver s).pool.mem = s.pool.mem := by
  simp [State.overVoltageOver]

@[simp] theorem State.releaseLevel_mem (s : State) : (State.releaseLevel s).pool.mem = s.pool.mem := by
  simp [State.releaseLevel]

@[simp] theorem State.holdoffOver_mem (s : State) : (State.holdoffOver s).pool.mem = s.pool.mem := by
  simp [State.holdoffOver]

@[simp] theorem State.thermalTrip_wf (s : State) (h : cellsWf s.pool.mem) : cellsWf (State.thermalTrip s).pool.mem := by
  unfold State.thermalTrip
  split <;> simp [h]

@[simp] theorem State.thermalTripOver_mem (s : State) : (State.thermalTripOver s).pool.mem = s.pool.mem := by
  simp [State.thermalTripOver]

@[simp] theorem State.efuseLimit_mem (s : State) : (State.efuseLimit s).pool.mem = s.pool.mem := by
  simp [State.efuseLimit]

@[simp] theorem State.efuseOff_wf (s : State) (h : cellsWf s.pool.mem) : cellsWf (State.efuseOff s).pool.mem := by
  unfold State.efuseOff
  split <;> simp [h]

@[simp] theorem State.efuseTimer_wf (s : State) (h : cellsWf s.pool.mem) : cellsWf (State.efuseTimer s).pool.mem := by
  unfold State.efuseTimer
  split <;> simp [h]

@[simp] theorem State.efuseRetryNow_mem (s : State) : (State.efuseRetryNow s).pool.mem = s.pool.mem := by
  simp [State.efuseRetryNow]

@[simp] theorem State.efuseHolds_mem (s : State) : (State.efuseHolds s).pool.mem = s.pool.mem := by
  simp [State.efuseHolds]

@[simp] theorem State.railOut_mem (s : State) (sensor : ℕ) (ten : Bool) : (State.railOut s sensor ten).pool.mem = s.pool.mem := by
  simp [State.railOut]

@[simp] theorem State.thermalWarning_mem (s : State) (tj : ℕ) : (State.thermalWarning s tj).pool.mem = s.pool.mem := by
  simp [State.thermalWarning]

@[simp] theorem State.telemetry_mem (s : State) (t : TeleSample) : (State.telemetry s t).pool.mem = s.pool.mem := by
  simp [State.telemetry]

@[simp] theorem State.warnChanged_mem (s : State) : (State.warnChanged s).pool.mem = s.pool.mem := by
  simp [State.warnChanged]

theorem cmdPwrGetStatus_keeps : cmdPwrGetStatus.keeps := by
  intro w q s h
  simp [cmdPwrGetStatus, h]

theorem cmdPwrSetConfig_keeps : cmdPwrSetConfig.keeps := by
  intro w q s h
  unfold cmdPwrSetConfig
  dsimp only
  repeat' (first | (simp [h]; done) | split)

@[simp] theorem State.jtagSelect_mem (s : State) (i : JtagInst) (dr : BitVec 32) : (State.jtagSelect s i dr).pool.mem = s.pool.mem := by
  simp [State.jtagSelect]

@[simp] theorem State.jtagBypass_mem (s : State) (b : Bool) : (State.jtagBypass s b).pool.mem = s.pool.mem := by
  simp [State.jtagBypass]

@[simp] theorem State.jtagSample_mem (s : State) (cells : List Bool) : (State.jtagSample s cells).pool.mem = s.pool.mem := by
  simp [State.jtagSample]

@[simp] theorem State.jtagTest_mem (s : State) (i : JtagInst) (f : Jtag → Jtag) : (State.jtagTest s i f).pool.mem = s.pool.mem := by
  simp [State.jtagTest]

@[simp] theorem State.clockRelease_mem (s : State) (d : ClkDom) : (State.clockRelease s d).pool.mem = s.pool.mem := by
  unfold State.clockRelease
  split <;> simp

@[simp] theorem State.ptpClockLost_mem (s : State) : (State.ptpClockLost s).pool.mem = s.pool.mem := by
  simp [State.ptpClockLost]

@[simp] theorem State.ptpClockBack_mem (s : State) : (State.ptpClockBack s).pool.mem = s.pool.mem := by
  simp [State.ptpClockBack]

@[simp] theorem State.nonceOver_mem (s : State) : (State.nonceOver s).pool.mem = s.pool.mem := by
  simp [State.nonceOver]

@[simp] theorem State.dueOne_wf (s : State) (d : Due) (h : cellsWf s.pool.mem) : cellsWf (State.dueOne s d).pool.mem := by
  unfold State.dueOne
  split <;> simp [h]

@[simp] theorem State.performDue_wf (n : Nat) (s : State) (h : cellsWf s.pool.mem) : cellsWf (State.performDue n s).pool.mem := by
  induction n generalizing s with
  | zero => exact h
  | succ k ih =>
    unfold State.performDue
    split
    · exact h
    · exact ih _ (by simp [h])

@[simp] theorem State.sendOneFormed_mem (s : State) (p : Pkt) : (State.sendOneFormed s p).pool.mem = s.pool.mem := by
  unfold State.sendOneFormed
  repeat' (first | (simp [*]; done) | split | (simp [*, State.routePkt_mem (by assumption)]; done))

@[simp] theorem State.sendFormed_mem (s : State) : (State.sendFormed s).pool.mem = s.pool.mem := by
  simp [State.sendFormed]

@[simp] theorem State.agents_wf (s : State) (h : cellsWf s.pool.mem) : cellsWf (State.agents s).pool.mem := by
  simp [State.agents, h]

@[simp] theorem State.announceReset_mem (s : State) : (State.announceReset s).pool.mem = s.pool.mem := by
  unfold State.announceReset
  split <;> simp

@[simp] theorem State.handled_mem (s : State) : (State.handled s).pool.mem = s.pool.mem := by
  simp [State.handled]

@[simp] theorem State.settle_wf (s : State) (h : cellsWf s.pool.mem) : cellsWf s.settle.pool.mem := by
  unfold State.settle
  dsimp only
  rw [State.handled_mem]
  have h1 := State.performDue_wf 256 s.announceReset (by simp [h])
  split
  · exact h1
  · exact State.performDue_wf 256 _ (State.agents_wf _ h1)

theorem commands_keep : ∀ k ∈ commands, k.keeps := by
  intro k hk
  unfold commands at hk
  rcases List.mem_append.mp hk with hk | hk <;> simp only [List.mem_cons, List.not_mem_nil, or_false] at hk
  · rcases hk with rfl | rfl | rfl | rfl | rfl | rfl | rfl | rfl | rfl | rfl | rfl | rfl | rfl | rfl | rfl | rfl | rfl | rfl | rfl |
      rfl | rfl | rfl | rfl | rfl | rfl | rfl | rfl | rfl | rfl | rfl | rfl | rfl | rfl | rfl | rfl | rfl | rfl | rfl |
      rfl | rfl | rfl | rfl | rfl | rfl | rfl | rfl | rfl | rfl | rfl | rfl | rfl | rfl | rfl | rfl
    exacts [cmdNop_keeps, cmdDeviceInfo_keeps, cmdGetOpStatus_keeps, cmdWarmReset_keeps, cmdCoreGetStatus_keeps,
      cmdCoreSetConfig_keeps, cmdHearthCtl_keeps, cmdFwGetStatus_keeps, cmdFwBegin_keeps, cmdFwWrite_keeps,
      cmdFwFinish_keeps, cmdFwActivate_keeps, cmdPortGetStatus_keeps, cmdPortSetConfig_keeps, cmdPortReset_keeps,
      cmdVdspBind_keeps, cmdVdspUnbind_keeps, cmdVdspGet_keeps, cmdWinStage_keeps, cmdWinCommit_keeps,
      cmdWinDiscard_keeps, cmdWinRead_keeps, cmdDevShare_keeps, cmdMigrateFence_keeps, cmdLinkGetStatus_keeps,
      cmdLinkSet_keeps, cmdLinkReset_keeps, cmdRouteSet_keeps, cmdRouteRead_keeps, cmdFabGetModule_keeps,
      cmdFabAdmit_keeps, cmdFabWithdraw_keeps, cmdFabRelay_keeps, cmdFabSetConfig_keeps, cmdPoolGetStatus_keeps,
      cmdPoolConfig_keeps, cmdSodAssign_keeps, cmdSodRelease_keeps, cmdSodQuery_keeps, cmdSodSet_keeps,
      cmdRtGetStatus_keeps, cmdRtPartSet_keeps, cmdRtGroupCreate_keeps, cmdRtGroupDestroy_keeps, cmdRtGroupRead_keeps,
      cmdRtGroupReset_keeps, cmdRtGroupMove_keeps, cmdNetGetStatus_keeps, cmdNetPortSet_keeps, cmdVnicCreate_keeps,
      cmdVnicDestroy_keeps, cmdVnicSet_keeps, cmdVnicQpSet_keeps, cmdNetEmSet_keeps]
  · rcases hk with rfl | rfl | rfl | rfl | rfl | rfl | rfl | rfl | rfl | rfl | rfl | rfl | rfl | rfl | rfl | rfl | rfl | rfl | rfl |
      rfl | rfl | rfl | rfl | rfl | rfl | rfl | rfl | rfl | rfl | rfl | rfl | rfl | rfl | rfl | rfl | rfl | rfl | rfl
    exacts [cmdNetAclSet_keeps, cmdNetPtpClock_keeps, cmdTmShaperSet_keeps, cmdTmSchedSet_keeps, cmdTmMeterSet_keeps,
      cmdTmWredSet_keeps, cmdTmGateSet_keeps, cmdTmGateGet_keeps, cmdPtpOutSet_keeps, cmdPtpInSet_keeps,
      cmdPtpInRead_keeps, cmdPartGet_keeps, cmdPartSet_keeps, cmdIsoGetStatus_keeps, cmdStrictSet_keeps,
      cmdFltGetSummary_keeps, cmdFltRead_keeps, cmdFltClear_keeps, cmdFltSetReaction_keeps, cmdFltGetReaction_keeps,
      cmdFltLedgerRead_keeps, cmdFltLedgerClear_keeps, cmdFltInject_keeps, cmdFltAerRead_keeps, cmdEvPop_keeps,
      cmdPwrGetStatus_keeps, cmdPwrSetConfig_keeps, cmdCntRead_keeps, cmdCntSet_keeps, cmdCntSweepSet_keeps,
      cmdCntSweepGet_keeps, cmdBistRun_keeps, cmdBistGet_keeps, cmdLcAdvance_keeps, cmdRmaChallenge_keeps,
      cmdRmaUnlock_keeps, cmdAgeGetStatus_keeps, cmdAgeSetConfig_keeps]

@[simp] theorem answerTo_wf (c : Path) (p op : Nat) (q : Req) (s : State) (h : cellsWf s.pool.mem) :
    cellsWf (answerTo c p op q s).s.pool.mem := by
  unfold answerTo
  split
  · rename_i k hk
    exact runCmd_wf (commands_keep k (List.mem_of_find?_eq_some hk)) _ _ _ _ h
  · split <;> simp [h]

@[simp] theorem State.execute_wf (s : State) (c : Path) (p op : Nat) (q : Req) (msgTag : Nat) (h : cellsWf s.pool.mem) :
    cellsWf (s.execute c p op q msgTag).pool.mem := by
  have e := answerTo_wf c p op q s h
  unfold State.execute
  dsimp only
  split
  · rw [Ans.deliver_mem]; exact e
  · rw [State.reply_mem, Ans.counted_mem]; exact e

@[simp] theorem State.takeCommand_wf (s : State) (part : Nat) (h : cellsWf s.pool.mem) : cellsWf (s.takeCommand part).pool.mem := by
  unfold State.takeCommand
  split
  · exact h
  · split
    · exact h
    · dsimp only
      split
      · exact State.execute_wf _ _ _ _ _ _ (by simp [h])
      · split
        · simp [h]
        · exact State.execute_wf _ _ _ _ _ _ (by simp [h])

@[simp] theorem State.pldmCommands_mem (s : State) (type : ℕ) : (State.pldmCommands s type).pool.mem = s.pool.mem := by
  simp [State.pldmCommands]

@[simp] theorem State.trackerEmpty_mem (s : State) (tracker : ℕ) : (State.trackerEmpty s tracker).pool.mem = s.pool.mem := by
  simp [State.trackerEmpty]

@[simp] theorem State.countTime_mem (s : State) : (State.countTime s).pool.mem = s.pool.mem := by
  simp [State.countTime]

@[simp] theorem State.drainTick_wf (s : State) (h : cellsWf s.pool.mem) : cellsWf (State.drainTick s).pool.mem := by
  unfold State.drainTick
  repeat' (first | (simp [*]; done) | (with_reducible refine foldl_wf _ _ _ ?_ ?_ <;> try intro _ _ _) | split)

@[simp] theorem State.issueAllTick_mem (s : State) : (State.issueAllTick s).pool.mem = s.pool.mem := by
  simp [State.issueAllTick]

@[simp] theorem State.dieTick_wf (s : State) (h : cellsWf s.pool.mem) : cellsWf (State.dieTick s).pool.mem := by
  simp [State.dieTick, h]

@[simp] theorem State.onTick_mem (s : State) : (State.onTick s).pool.mem = s.pool.mem := by
  simp [State.onTick]

@[simp] theorem State.tick_wf (s : State) (h : cellsWf s.pool.mem) : cellsWf s.tick.pool.mem := by
  unfold State.tick
  split
  · exact h
  · refine State.settle_wf _ ?_
    split
    · exact State.dieTick_wf _ (by simp [h])
    · simp [h]

/-- A command that keeps the form still keeps it after the other agents have acted. -/
theorem done_wf {s u t : State} (hu : cellsWf u.pool.mem) (e : s.done u = .next t) : cellsWf t.pool.mem := by
  cases e; exact State.settle_wf _ hu
theorem onDie_wf {s u t : State} (h : cellsWf s.pool.mem) (hu : cellsWf u.pool.mem) (e : s.onDie u = .next t) : cellsWf t.pool.mem := by
  refine done_wf ?_ e; split <;> assumption
theorem live_wf {s u t : State} (h : cellsWf s.pool.mem) (hu : cellsWf u.pool.mem) (e : s.live u = .next t) : cellsWf t.pool.mem := by
  refine done_wf ?_ e; split <;> assumption

end Sys2Proof.Machine
end

