-- ==== Sys2Proof/Laws/State.lean ====
section
/-! SUPPORT. What each update of State does to each field of State: the field it writes and the fields it leaves. -/

namespace Sys2Proof.Machine

open Sys2Proof

@[simp] theorem State.modPort_time (s : State) (n : Nat) (f : Port → Port) : (s.modPort n f).time = s.time := rfl
@[simp] theorem State.modPort_lands (s : State) (n : Nat) (f : Port → Port) : (s.modPort n f).lands = s.lands := rfl
@[simp] theorem State.modPort_boot (s : State) (n : Nat) (f : Port → Port) : (s.modPort n f).boot = s.boot := rfl
@[simp] theorem State.modPort_kept (s : State) (n : Nat) (f : Port → Port) : (s.modPort n f).kept = s.kept := rfl
@[simp] theorem State.modPort_nv (s : State) (n : Nat) (f : Port → Port) : (s.modPort n f).nv = s.nv := rfl
@[simp] theorem State.modPort_ember (s : State) (n : Nat) (f : Port → Port) : (s.modPort n f).ember = s.ember := rfl
@[simp] theorem State.modPort_ports (s : State) (n : Nat) (f : Port → Port) : (s.modPort n f).ports = tmod {} s.ports n f := rfl
@[simp] theorem State.modPort_vsw (s : State) (n : Nat) (f : Port → Port) : (s.modPort n f).vsw = s.vsw := rfl
@[simp] theorem State.modPort_vdsps (s : State) (n : Nat) (f : Port → Port) : (s.modPort n f).vdsps = s.vdsps := rfl
@[simp] theorem State.modPort_win (s : State) (n : Nat) (f : Port → Port) : (s.modPort n f).win = s.win := rfl
@[simp] theorem State.modPort_core (s : State) (n : Nat) (f : Port → Port) : (s.modPort n f).core = s.core := rfl
@[simp] theorem State.modPort_links (s : State) (n : Nat) (f : Port → Port) : (s.modPort n f).links = s.links := rfl
@[simp] theorem State.modPort_fab (s : State) (n : Nat) (f : Port → Port) : (s.modPort n f).fab = s.fab := rfl
@[simp] theorem State.modPort_pool (s : State) (n : Nat) (f : Port → Port) : (s.modPort n f).pool = s.pool := rfl
@[simp] theorem State.modPort_rt (s : State) (n : Nat) (f : Port → Port) : (s.modPort n f).rt = s.rt := rfl
@[simp] theorem State.modPort_net (s : State) (n : Nat) (f : Port → Port) : (s.modPort n f).net = s.net := rfl
@[simp] theorem State.modPort_tm (s : State) (n : Nat) (f : Port → Port) : (s.modPort n f).tm = s.tm := rfl
@[simp] theorem State.modPort_hearth (s : State) (n : Nat) (f : Port → Port) : (s.modPort n f).hearth = s.hearth := rfl
@[simp] theorem State.modPort_iso (s : State) (n : Nat) (f : Port → Port) : (s.modPort n f).iso = s.iso := rfl
@[simp] theorem State.modPort_flt (s : State) (n : Nat) (f : Port → Port) : (s.modPort n f).flt = s.flt := rfl
@[simp] theorem State.modPort_pwr (s : State) (n : Nat) (f : Port → Port) : (s.modPort n f).pwr = s.pwr := rfl
@[simp] theorem State.modPort_cnt (s : State) (n : Nat) (f : Port → Port) : (s.modPort n f).cnt = s.cnt := rfl
@[simp] theorem State.modPort_bist (s : State) (n : Nat) (f : Port → Port) : (s.modPort n f).bist = s.bist := rfl
@[simp] theorem State.modPort_age (s : State) (n : Nat) (f : Port → Port) : (s.modPort n f).age = s.age := rfl
@[simp] theorem State.modPort_jtag (s : State) (n : Nat) (f : Port → Port) : (s.modPort n f).jtag = s.jtag := rfl
@[simp] theorem State.modPort_free (s : State) (n : Nat) (f : Port → Port) : (s.modPort n f).free = s.free := rfl
@[simp] theorem State.modPort_out (s : State) (n : Nat) (f : Port → Port) : (s.modPort n f).out = s.out := rfl
@[simp] theorem State.modPort_pending (s : State) (n : Nat) (f : Port → Port) : (s.modPort n f).pending = s.pending := rfl

@[simp] theorem State.modVs_time (s : State) (n : Nat) (f : VSwitch → VSwitch) : (s.modVs n f).time = s.time := rfl
@[simp] theorem State.modVs_lands (s : State) (n : Nat) (f : VSwitch → VSwitch) : (s.modVs n f).lands = s.lands := rfl
@[simp] theorem State.modVs_boot (s : State) (n : Nat) (f : VSwitch → VSwitch) : (s.modVs n f).boot = s.boot := rfl
@[simp] theorem State.modVs_kept (s : State) (n : Nat) (f : VSwitch → VSwitch) : (s.modVs n f).kept = s.kept := rfl
@[simp] theorem State.modVs_nv (s : State) (n : Nat) (f : VSwitch → VSwitch) : (s.modVs n f).nv = s.nv := rfl
@[simp] theorem State.modVs_ember (s : State) (n : Nat) (f : VSwitch → VSwitch) : (s.modVs n f).ember = s.ember := rfl
@[simp] theorem State.modVs_ports (s : State) (n : Nat) (f : VSwitch → VSwitch) : (s.modVs n f).ports = s.ports := rfl
@[simp] theorem State.modVs_vsw (s : State) (n : Nat) (f : VSwitch → VSwitch) : (s.modVs n f).vsw = tmod {} s.vsw n f := rfl
@[simp] theorem State.modVs_vdsps (s : State) (n : Nat) (f : VSwitch → VSwitch) : (s.modVs n f).vdsps = s.vdsps := rfl
@[simp] theorem State.modVs_win (s : State) (n : Nat) (f : VSwitch → VSwitch) : (s.modVs n f).win = s.win := rfl
@[simp] theorem State.modVs_core (s : State) (n : Nat) (f : VSwitch → VSwitch) : (s.modVs n f).core = s.core := rfl
@[simp] theorem State.modVs_links (s : State) (n : Nat) (f : VSwitch → VSwitch) : (s.modVs n f).links = s.links := rfl
@[simp] theorem State.modVs_fab (s : State) (n : Nat) (f : VSwitch → VSwitch) : (s.modVs n f).fab = s.fab := rfl
@[simp] theorem State.modVs_pool (s : State) (n : Nat) (f : VSwitch → VSwitch) : (s.modVs n f).pool = s.pool := rfl
@[simp] theorem State.modVs_rt (s : State) (n : Nat) (f : VSwitch → VSwitch) : (s.modVs n f).rt = s.rt := rfl
@[simp] theorem State.modVs_net (s : State) (n : Nat) (f : VSwitch → VSwitch) : (s.modVs n f).net = s.net := rfl
@[simp] theorem State.modVs_tm (s : State) (n : Nat) (f : VSwitch → VSwitch) : (s.modVs n f).tm = s.tm := rfl
@[simp] theorem State.modVs_hearth (s : State) (n : Nat) (f : VSwitch → VSwitch) : (s.modVs n f).hearth = s.hearth := rfl
@[simp] theorem State.modVs_iso (s : State) (n : Nat) (f : VSwitch → VSwitch) : (s.modVs n f).iso = s.iso := rfl
@[simp] theorem State.modVs_flt (s : State) (n : Nat) (f : VSwitch → VSwitch) : (s.modVs n f).flt = s.flt := rfl
@[simp] theorem State.modVs_pwr (s : State) (n : Nat) (f : VSwitch → VSwitch) : (s.modVs n f).pwr = s.pwr := rfl
@[simp] theorem State.modVs_cnt (s : State) (n : Nat) (f : VSwitch → VSwitch) : (s.modVs n f).cnt = s.cnt := rfl
@[simp] theorem State.modVs_bist (s : State) (n : Nat) (f : VSwitch → VSwitch) : (s.modVs n f).bist = s.bist := rfl
@[simp] theorem State.modVs_age (s : State) (n : Nat) (f : VSwitch → VSwitch) : (s.modVs n f).age = s.age := rfl
@[simp] theorem State.modVs_jtag (s : State) (n : Nat) (f : VSwitch → VSwitch) : (s.modVs n f).jtag = s.jtag := rfl
@[simp] theorem State.modVs_free (s : State) (n : Nat) (f : VSwitch → VSwitch) : (s.modVs n f).free = s.free := rfl
@[simp] theorem State.modVs_out (s : State) (n : Nat) (f : VSwitch → VSwitch) : (s.modVs n f).out = s.out := rfl
@[simp] theorem State.modVs_pending (s : State) (n : Nat) (f : VSwitch → VSwitch) : (s.modVs n f).pending = s.pending := rfl

@[simp] theorem State.modVdsp_time (s : State) (p k : Nat) (f : Vdsp → Vdsp) : (s.modVdsp p k f).time = s.time := rfl
@[simp] theorem State.modVdsp_lands (s : State) (p k : Nat) (f : Vdsp → Vdsp) : (s.modVdsp p k f).lands = s.lands := rfl
@[simp] theorem State.modVdsp_boot (s : State) (p k : Nat) (f : Vdsp → Vdsp) : (s.modVdsp p k f).boot = s.boot := rfl
@[simp] theorem State.modVdsp_kept (s : State) (p k : Nat) (f : Vdsp → Vdsp) : (s.modVdsp p k f).kept = s.kept := rfl
@[simp] theorem State.modVdsp_nv (s : State) (p k : Nat) (f : Vdsp → Vdsp) : (s.modVdsp p k f).nv = s.nv := rfl
@[simp] theorem State.modVdsp_ember (s : State) (p k : Nat) (f : Vdsp → Vdsp) : (s.modVdsp p k f).ember = s.ember := rfl
@[simp] theorem State.modVdsp_ports (s : State) (p k : Nat) (f : Vdsp → Vdsp) : (s.modVdsp p k f).ports = s.ports := rfl
@[simp] theorem State.modVdsp_vsw (s : State) (p k : Nat) (f : Vdsp → Vdsp) : (s.modVdsp p k f).vsw = s.vsw := rfl
@[simp] theorem State.modVdsp_vdsps (s : State) (p k : Nat) (f : Vdsp → Vdsp) : (s.modVdsp p k f).vdsps = tmod {} s.vdsps (p * 64 + k) f := rfl
@[simp] theorem State.modVdsp_win (s : State) (p k : Nat) (f : Vdsp → Vdsp) : (s.modVdsp p k f).win = s.win := rfl
@[simp] theorem State.modVdsp_core (s : State) (p k : Nat) (f : Vdsp → Vdsp) : (s.modVdsp p k f).core = s.core := rfl
@[simp] theorem State.modVdsp_links (s : State) (p k : Nat) (f : Vdsp → Vdsp) : (s.modVdsp p k f).links = s.links := rfl
@[simp] theorem State.modVdsp_fab (s : State) (p k : Nat) (f : Vdsp → Vdsp) : (s.modVdsp p k f).fab = s.fab := rfl
@[simp] theorem State.modVdsp_pool (s : State) (p k : Nat) (f : Vdsp → Vdsp) : (s.modVdsp p k f).pool = s.pool := rfl
@[simp] theorem State.modVdsp_rt (s : State) (p k : Nat) (f : Vdsp → Vdsp) : (s.modVdsp p k f).rt = s.rt := rfl
@[simp] theorem State.modVdsp_net (s : State) (p k : Nat) (f : Vdsp → Vdsp) : (s.modVdsp p k f).net = s.net := rfl
@[simp] theorem State.modVdsp_tm (s : State) (p k : Nat) (f : Vdsp → Vdsp) : (s.modVdsp p k f).tm = s.tm := rfl
@[simp] theorem State.modVdsp_hearth (s : State) (p k : Nat) (f : Vdsp → Vdsp) : (s.modVdsp p k f).hearth = s.hearth := rfl
@[simp] theorem State.modVdsp_iso (s : State) (p k : Nat) (f : Vdsp → Vdsp) : (s.modVdsp p k f).iso = s.iso := rfl
@[simp] theorem State.modVdsp_flt (s : State) (p k : Nat) (f : Vdsp → Vdsp) : (s.modVdsp p k f).flt = s.flt := rfl
@[simp] theorem State.modVdsp_pwr (s : State) (p k : Nat) (f : Vdsp → Vdsp) : (s.modVdsp p k f).pwr = s.pwr := rfl
@[simp] theorem State.modVdsp_cnt (s : State) (p k : Nat) (f : Vdsp → Vdsp) : (s.modVdsp p k f).cnt = s.cnt := rfl
@[simp] theorem State.modVdsp_bist (s : State) (p k : Nat) (f : Vdsp → Vdsp) : (s.modVdsp p k f).bist = s.bist := rfl
@[simp] theorem State.modVdsp_age (s : State) (p k : Nat) (f : Vdsp → Vdsp) : (s.modVdsp p k f).age = s.age := rfl
@[simp] theorem State.modVdsp_jtag (s : State) (p k : Nat) (f : Vdsp → Vdsp) : (s.modVdsp p k f).jtag = s.jtag := rfl
@[simp] theorem State.modVdsp_free (s : State) (p k : Nat) (f : Vdsp → Vdsp) : (s.modVdsp p k f).free = s.free := rfl
@[simp] theorem State.modVdsp_out (s : State) (p k : Nat) (f : Vdsp → Vdsp) : (s.modVdsp p k f).out = s.out := rfl
@[simp] theorem State.modVdsp_pending (s : State) (p k : Nat) (f : Vdsp → Vdsp) : (s.modVdsp p k f).pending = s.pending := rfl

@[simp] theorem State.modLink_time (s : State) (l : Nat) (f : Link → Link) : (s.modLink l f).time = s.time := rfl
@[simp] theorem State.modLink_lands (s : State) (l : Nat) (f : Link → Link) : (s.modLink l f).lands = s.lands := rfl
@[simp] theorem State.modLink_boot (s : State) (l : Nat) (f : Link → Link) : (s.modLink l f).boot = s.boot := rfl
@[simp] theorem State.modLink_kept (s : State) (l : Nat) (f : Link → Link) : (s.modLink l f).kept = s.kept := rfl
@[simp] theorem State.modLink_nv (s : State) (l : Nat) (f : Link → Link) : (s.modLink l f).nv = s.nv := rfl
@[simp] theorem State.modLink_ember (s : State) (l : Nat) (f : Link → Link) : (s.modLink l f).ember = s.ember := rfl
@[simp] theorem State.modLink_ports (s : State) (l : Nat) (f : Link → Link) : (s.modLink l f).ports = s.ports := rfl
@[simp] theorem State.modLink_vsw (s : State) (l : Nat) (f : Link → Link) : (s.modLink l f).vsw = s.vsw := rfl
@[simp] theorem State.modLink_vdsps (s : State) (l : Nat) (f : Link → Link) : (s.modLink l f).vdsps = s.vdsps := rfl
@[simp] theorem State.modLink_win (s : State) (l : Nat) (f : Link → Link) : (s.modLink l f).win = s.win := rfl
@[simp] theorem State.modLink_core (s : State) (l : Nat) (f : Link → Link) : (s.modLink l f).core = s.core := rfl
@[simp] theorem State.modLink_links (s : State) (l : Nat) (f : Link → Link) : (s.modLink l f).links = tmod {} s.links l f := rfl
@[simp] theorem State.modLink_fab (s : State) (l : Nat) (f : Link → Link) : (s.modLink l f).fab = s.fab := rfl
@[simp] theorem State.modLink_pool (s : State) (l : Nat) (f : Link → Link) : (s.modLink l f).pool = s.pool := rfl
@[simp] theorem State.modLink_rt (s : State) (l : Nat) (f : Link → Link) : (s.modLink l f).rt = s.rt := rfl
@[simp] theorem State.modLink_net (s : State) (l : Nat) (f : Link → Link) : (s.modLink l f).net = s.net := rfl
@[simp] theorem State.modLink_tm (s : State) (l : Nat) (f : Link → Link) : (s.modLink l f).tm = s.tm := rfl
@[simp] theorem State.modLink_hearth (s : State) (l : Nat) (f : Link → Link) : (s.modLink l f).hearth = s.hearth := rfl
@[simp] theorem State.modLink_iso (s : State) (l : Nat) (f : Link → Link) : (s.modLink l f).iso = s.iso := rfl
@[simp] theorem State.modLink_flt (s : State) (l : Nat) (f : Link → Link) : (s.modLink l f).flt = s.flt := rfl
@[simp] theorem State.modLink_pwr (s : State) (l : Nat) (f : Link → Link) : (s.modLink l f).pwr = s.pwr := rfl
@[simp] theorem State.modLink_cnt (s : State) (l : Nat) (f : Link → Link) : (s.modLink l f).cnt = s.cnt := rfl
@[simp] theorem State.modLink_bist (s : State) (l : Nat) (f : Link → Link) : (s.modLink l f).bist = s.bist := rfl
@[simp] theorem State.modLink_age (s : State) (l : Nat) (f : Link → Link) : (s.modLink l f).age = s.age := rfl
@[simp] theorem State.modLink_jtag (s : State) (l : Nat) (f : Link → Link) : (s.modLink l f).jtag = s.jtag := rfl
@[simp] theorem State.modLink_free (s : State) (l : Nat) (f : Link → Link) : (s.modLink l f).free = s.free := rfl
@[simp] theorem State.modLink_out (s : State) (l : Nat) (f : Link → Link) : (s.modLink l f).out = s.out := rfl
@[simp] theorem State.modLink_pending (s : State) (l : Nat) (f : Link → Link) : (s.modLink l f).pending = s.pending := rfl

@[simp] theorem State.modSod_time (s : State) (n : Nat) (f : Sod → Sod) : (s.modSod n f).time = s.time := rfl
@[simp] theorem State.modSod_lands (s : State) (n : Nat) (f : Sod → Sod) : (s.modSod n f).lands = s.lands := rfl
@[simp] theorem State.modSod_boot (s : State) (n : Nat) (f : Sod → Sod) : (s.modSod n f).boot = s.boot := rfl
@[simp] theorem State.modSod_kept (s : State) (n : Nat) (f : Sod → Sod) : (s.modSod n f).kept = s.kept := rfl
@[simp] theorem State.modSod_nv (s : State) (n : Nat) (f : Sod → Sod) : (s.modSod n f).nv = s.nv := rfl
@[simp] theorem State.modSod_ember (s : State) (n : Nat) (f : Sod → Sod) : (s.modSod n f).ember = s.ember := rfl
@[simp] theorem State.modSod_ports (s : State) (n : Nat) (f : Sod → Sod) : (s.modSod n f).ports = s.ports := rfl
@[simp] theorem State.modSod_vsw (s : State) (n : Nat) (f : Sod → Sod) : (s.modSod n f).vsw = s.vsw := rfl
@[simp] theorem State.modSod_vdsps (s : State) (n : Nat) (f : Sod → Sod) : (s.modSod n f).vdsps = s.vdsps := rfl
@[simp] theorem State.modSod_win (s : State) (n : Nat) (f : Sod → Sod) : (s.modSod n f).win = s.win := rfl
@[simp] theorem State.modSod_core (s : State) (n : Nat) (f : Sod → Sod) : (s.modSod n f).core = s.core := rfl
@[simp] theorem State.modSod_links (s : State) (n : Nat) (f : Sod → Sod) : (s.modSod n f).links = s.links := rfl
@[simp] theorem State.modSod_fab (s : State) (n : Nat) (f : Sod → Sod) : (s.modSod n f).fab = s.fab := rfl
@[simp] theorem State.modSod_pool (s : State) (n : Nat) (f : Sod → Sod) : (s.modSod n f).pool = { s.pool with sods := tmod {} s.pool.sods n f } := rfl
@[simp] theorem State.modSod_rt (s : State) (n : Nat) (f : Sod → Sod) : (s.modSod n f).rt = s.rt := rfl
@[simp] theorem State.modSod_net (s : State) (n : Nat) (f : Sod → Sod) : (s.modSod n f).net = s.net := rfl
@[simp] theorem State.modSod_tm (s : State) (n : Nat) (f : Sod → Sod) : (s.modSod n f).tm = s.tm := rfl
@[simp] theorem State.modSod_hearth (s : State) (n : Nat) (f : Sod → Sod) : (s.modSod n f).hearth = s.hearth := rfl
@[simp] theorem State.modSod_iso (s : State) (n : Nat) (f : Sod → Sod) : (s.modSod n f).iso = s.iso := rfl
@[simp] theorem State.modSod_flt (s : State) (n : Nat) (f : Sod → Sod) : (s.modSod n f).flt = s.flt := rfl
@[simp] theorem State.modSod_pwr (s : State) (n : Nat) (f : Sod → Sod) : (s.modSod n f).pwr = s.pwr := rfl
@[simp] theorem State.modSod_cnt (s : State) (n : Nat) (f : Sod → Sod) : (s.modSod n f).cnt = s.cnt := rfl
@[simp] theorem State.modSod_bist (s : State) (n : Nat) (f : Sod → Sod) : (s.modSod n f).bist = s.bist := rfl
@[simp] theorem State.modSod_age (s : State) (n : Nat) (f : Sod → Sod) : (s.modSod n f).age = s.age := rfl
@[simp] theorem State.modSod_jtag (s : State) (n : Nat) (f : Sod → Sod) : (s.modSod n f).jtag = s.jtag := rfl
@[simp] theorem State.modSod_free (s : State) (n : Nat) (f : Sod → Sod) : (s.modSod n f).free = s.free := rfl
@[simp] theorem State.modSod_out (s : State) (n : Nat) (f : Sod → Sod) : (s.modSod n f).out = s.out := rfl
@[simp] theorem State.modSod_pending (s : State) (n : Nat) (f : Sod → Sod) : (s.modSod n f).pending = s.pending := rfl

@[simp] theorem State.modLport_time (s : State) (n : Nat) (f : LPort → LPort) : (s.modLport n f).time = s.time := rfl
@[simp] theorem State.modLport_lands (s : State) (n : Nat) (f : LPort → LPort) : (s.modLport n f).lands = s.lands := rfl
@[simp] theorem State.modLport_boot (s : State) (n : Nat) (f : LPort → LPort) : (s.modLport n f).boot = s.boot := rfl
@[simp] theorem State.modLport_kept (s : State) (n : Nat) (f : LPort → LPort) : (s.modLport n f).kept = s.kept := rfl
@[simp] theorem State.modLport_nv (s : State) (n : Nat) (f : LPort → LPort) : (s.modLport n f).nv = s.nv := rfl
@[simp] theorem State.modLport_ember (s : State) (n : Nat) (f : LPort → LPort) : (s.modLport n f).ember = s.ember := rfl
@[simp] theorem State.modLport_ports (s : State) (n : Nat) (f : LPort → LPort) : (s.modLport n f).ports = s.ports := rfl
@[simp] theorem State.modLport_vsw (s : State) (n : Nat) (f : LPort → LPort) : (s.modLport n f).vsw = s.vsw := rfl
@[simp] theorem State.modLport_vdsps (s : State) (n : Nat) (f : LPort → LPort) : (s.modLport n f).vdsps = s.vdsps := rfl
@[simp] theorem State.modLport_win (s : State) (n : Nat) (f : LPort → LPort) : (s.modLport n f).win = s.win := rfl
@[simp] theorem State.modLport_core (s : State) (n : Nat) (f : LPort → LPort) : (s.modLport n f).core = s.core := rfl
@[simp] theorem State.modLport_links (s : State) (n : Nat) (f : LPort → LPort) : (s.modLport n f).links = s.links := rfl
@[simp] theorem State.modLport_fab (s : State) (n : Nat) (f : LPort → LPort) : (s.modLport n f).fab = s.fab := rfl
@[simp] theorem State.modLport_pool (s : State) (n : Nat) (f : LPort → LPort) : (s.modLport n f).pool = s.pool := rfl
@[simp] theorem State.modLport_rt (s : State) (n : Nat) (f : LPort → LPort) : (s.modLport n f).rt = s.rt := rfl
@[simp] theorem State.modLport_net (s : State) (n : Nat) (f : LPort → LPort) : (s.modLport n f).net = { s.net with lports := tmod {} s.net.lports n f } := rfl
@[simp] theorem State.modLport_tm (s : State) (n : Nat) (f : LPort → LPort) : (s.modLport n f).tm = s.tm := rfl
@[simp] theorem State.modLport_hearth (s : State) (n : Nat) (f : LPort → LPort) : (s.modLport n f).hearth = s.hearth := rfl
@[simp] theorem State.modLport_iso (s : State) (n : Nat) (f : LPort → LPort) : (s.modLport n f).iso = s.iso := rfl
@[simp] theorem State.modLport_flt (s : State) (n : Nat) (f : LPort → LPort) : (s.modLport n f).flt = s.flt := rfl
@[simp] theorem State.modLport_pwr (s : State) (n : Nat) (f : LPort → LPort) : (s.modLport n f).pwr = s.pwr := rfl
@[simp] theorem State.modLport_cnt (s : State) (n : Nat) (f : LPort → LPort) : (s.modLport n f).cnt = s.cnt := rfl
@[simp] theorem State.modLport_bist (s : State) (n : Nat) (f : LPort → LPort) : (s.modLport n f).bist = s.bist := rfl
@[simp] theorem State.modLport_age (s : State) (n : Nat) (f : LPort → LPort) : (s.modLport n f).age = s.age := rfl
@[simp] theorem State.modLport_jtag (s : State) (n : Nat) (f : LPort → LPort) : (s.modLport n f).jtag = s.jtag := rfl
@[simp] theorem State.modLport_free (s : State) (n : Nat) (f : LPort → LPort) : (s.modLport n f).free = s.free := rfl
@[simp] theorem State.modLport_out (s : State) (n : Nat) (f : LPort → LPort) : (s.modLport n f).out = s.out := rfl
@[simp] theorem State.modLport_pending (s : State) (n : Nat) (f : LPort → LPort) : (s.modLport n f).pending = s.pending := rfl

@[simp] theorem State.modCluster_time (s : State) (n : Nat) (f : Cluster → Cluster) : (s.modCluster n f).time = s.time := rfl
@[simp] theorem State.modCluster_lands (s : State) (n : Nat) (f : Cluster → Cluster) : (s.modCluster n f).lands = s.lands := rfl
@[simp] theorem State.modCluster_boot (s : State) (n : Nat) (f : Cluster → Cluster) : (s.modCluster n f).boot = s.boot := rfl
@[simp] theorem State.modCluster_kept (s : State) (n : Nat) (f : Cluster → Cluster) : (s.modCluster n f).kept = s.kept := rfl
@[simp] theorem State.modCluster_nv (s : State) (n : Nat) (f : Cluster → Cluster) : (s.modCluster n f).nv = s.nv := rfl
@[simp] theorem State.modCluster_ember (s : State) (n : Nat) (f : Cluster → Cluster) : (s.modCluster n f).ember = s.ember := rfl
@[simp] theorem State.modCluster_ports (s : State) (n : Nat) (f : Cluster → Cluster) : (s.modCluster n f).ports = s.ports := rfl
@[simp] theorem State.modCluster_vsw (s : State) (n : Nat) (f : Cluster → Cluster) : (s.modCluster n f).vsw = s.vsw := rfl
@[simp] theorem State.modCluster_vdsps (s : State) (n : Nat) (f : Cluster → Cluster) : (s.modCluster n f).vdsps = s.vdsps := rfl
@[simp] theorem State.modCluster_win (s : State) (n : Nat) (f : Cluster → Cluster) : (s.modCluster n f).win = s.win := rfl
@[simp] theorem State.modCluster_core (s : State) (n : Nat) (f : Cluster → Cluster) : (s.modCluster n f).core = s.core := rfl
@[simp] theorem State.modCluster_links (s : State) (n : Nat) (f : Cluster → Cluster) : (s.modCluster n f).links = s.links := rfl
@[simp] theorem State.modCluster_fab (s : State) (n : Nat) (f : Cluster → Cluster) : (s.modCluster n f).fab = s.fab := rfl
@[simp] theorem State.modCluster_pool (s : State) (n : Nat) (f : Cluster → Cluster) : (s.modCluster n f).pool = s.pool := rfl
@[simp] theorem State.modCluster_rt (s : State) (n : Nat) (f : Cluster → Cluster) : (s.modCluster n f).rt = s.rt := rfl
@[simp] theorem State.modCluster_net (s : State) (n : Nat) (f : Cluster → Cluster) : (s.modCluster n f).net = s.net := rfl
@[simp] theorem State.modCluster_tm (s : State) (n : Nat) (f : Cluster → Cluster) : (s.modCluster n f).tm = s.tm := rfl
@[simp] theorem State.modCluster_hearth (s : State) (n : Nat) (f : Cluster → Cluster) : (s.modCluster n f).hearth = { s.hearth with clusters := tmod {} s.hearth.clusters n f } := rfl
@[simp] theorem State.modCluster_iso (s : State) (n : Nat) (f : Cluster → Cluster) : (s.modCluster n f).iso = s.iso := rfl
@[simp] theorem State.modCluster_flt (s : State) (n : Nat) (f : Cluster → Cluster) : (s.modCluster n f).flt = s.flt := rfl
@[simp] theorem State.modCluster_pwr (s : State) (n : Nat) (f : Cluster → Cluster) : (s.modCluster n f).pwr = s.pwr := rfl
@[simp] theorem State.modCluster_cnt (s : State) (n : Nat) (f : Cluster → Cluster) : (s.modCluster n f).cnt = s.cnt := rfl
@[simp] theorem State.modCluster_bist (s : State) (n : Nat) (f : Cluster → Cluster) : (s.modCluster n f).bist = s.bist := rfl
@[simp] theorem State.modCluster_age (s : State) (n : Nat) (f : Cluster → Cluster) : (s.modCluster n f).age = s.age := rfl
@[simp] theorem State.modCluster_jtag (s : State) (n : Nat) (f : Cluster → Cluster) : (s.modCluster n f).jtag = s.jtag := rfl
@[simp] theorem State.modCluster_free (s : State) (n : Nat) (f : Cluster → Cluster) : (s.modCluster n f).free = s.free := rfl
@[simp] theorem State.modCluster_out (s : State) (n : Nat) (f : Cluster → Cluster) : (s.modCluster n f).out = s.out := rfl
@[simp] theorem State.modCluster_pending (s : State) (n : Nat) (f : Cluster → Cluster) : (s.modCluster n f).pending = s.pending := rfl

@[simp] theorem State.modPage_time (s : State) (n : Nat) (f : Page → Page) : (s.modPage n f).time = s.time := rfl
@[simp] theorem State.modPage_lands (s : State) (n : Nat) (f : Page → Page) : (s.modPage n f).lands = s.lands := rfl
@[simp] theorem State.modPage_boot (s : State) (n : Nat) (f : Page → Page) : (s.modPage n f).boot = s.boot := rfl
@[simp] theorem State.modPage_kept (s : State) (n : Nat) (f : Page → Page) : (s.modPage n f).kept = s.kept := rfl
@[simp] theorem State.modPage_nv (s : State) (n : Nat) (f : Page → Page) : (s.modPage n f).nv = s.nv := rfl
@[simp] theorem State.modPage_ember (s : State) (n : Nat) (f : Page → Page) : (s.modPage n f).ember = { s.ember with pages := tmod {} s.ember.pages n f } := rfl
@[simp] theorem State.modPage_ports (s : State) (n : Nat) (f : Page → Page) : (s.modPage n f).ports = s.ports := rfl
@[simp] theorem State.modPage_vsw (s : State) (n : Nat) (f : Page → Page) : (s.modPage n f).vsw = s.vsw := rfl
@[simp] theorem State.modPage_vdsps (s : State) (n : Nat) (f : Page → Page) : (s.modPage n f).vdsps = s.vdsps := rfl
@[simp] theorem State.modPage_win (s : State) (n : Nat) (f : Page → Page) : (s.modPage n f).win = s.win := rfl
@[simp] theorem State.modPage_core (s : State) (n : Nat) (f : Page → Page) : (s.modPage n f).core = s.core := rfl
@[simp] theorem State.modPage_links (s : State) (n : Nat) (f : Page → Page) : (s.modPage n f).links = s.links := rfl
@[simp] theorem State.modPage_fab (s : State) (n : Nat) (f : Page → Page) : (s.modPage n f).fab = s.fab := rfl
@[simp] theorem State.modPage_pool (s : State) (n : Nat) (f : Page → Page) : (s.modPage n f).pool = s.pool := rfl
@[simp] theorem State.modPage_rt (s : State) (n : Nat) (f : Page → Page) : (s.modPage n f).rt = s.rt := rfl
@[simp] theorem State.modPage_net (s : State) (n : Nat) (f : Page → Page) : (s.modPage n f).net = s.net := rfl
@[simp] theorem State.modPage_tm (s : State) (n : Nat) (f : Page → Page) : (s.modPage n f).tm = s.tm := rfl
@[simp] theorem State.modPage_hearth (s : State) (n : Nat) (f : Page → Page) : (s.modPage n f).hearth = s.hearth := rfl
@[simp] theorem State.modPage_iso (s : State) (n : Nat) (f : Page → Page) : (s.modPage n f).iso = s.iso := rfl
@[simp] theorem State.modPage_flt (s : State) (n : Nat) (f : Page → Page) : (s.modPage n f).flt = s.flt := rfl
@[simp] theorem State.modPage_pwr (s : State) (n : Nat) (f : Page → Page) : (s.modPage n f).pwr = s.pwr := rfl
@[simp] theorem State.modPage_cnt (s : State) (n : Nat) (f : Page → Page) : (s.modPage n f).cnt = s.cnt := rfl
@[simp] theorem State.modPage_bist (s : State) (n : Nat) (f : Page → Page) : (s.modPage n f).bist = s.bist := rfl
@[simp] theorem State.modPage_age (s : State) (n : Nat) (f : Page → Page) : (s.modPage n f).age = s.age := rfl
@[simp] theorem State.modPage_jtag (s : State) (n : Nat) (f : Page → Page) : (s.modPage n f).jtag = s.jtag := rfl
@[simp] theorem State.modPage_free (s : State) (n : Nat) (f : Page → Page) : (s.modPage n f).free = s.free := rfl
@[simp] theorem State.modPage_out (s : State) (n : Nat) (f : Page → Page) : (s.modPage n f).out = s.out := rfl
@[simp] theorem State.modPage_pending (s : State) (n : Nat) (f : Page → Page) : (s.modPage n f).pending = s.pending := rfl

@[simp] theorem State.modEmber_time (s : State) (f : Ember → Ember) : (s.modEmber f).time = s.time := rfl
@[simp] theorem State.modEmber_lands (s : State) (f : Ember → Ember) : (s.modEmber f).lands = s.lands := rfl
@[simp] theorem State.modEmber_boot (s : State) (f : Ember → Ember) : (s.modEmber f).boot = s.boot := rfl
@[simp] theorem State.modEmber_kept (s : State) (f : Ember → Ember) : (s.modEmber f).kept = s.kept := rfl
@[simp] theorem State.modEmber_nv (s : State) (f : Ember → Ember) : (s.modEmber f).nv = s.nv := rfl
@[simp] theorem State.modEmber_ember (s : State) (f : Ember → Ember) : (s.modEmber f).ember = f s.ember := rfl
@[simp] theorem State.modEmber_ports (s : State) (f : Ember → Ember) : (s.modEmber f).ports = s.ports := rfl
@[simp] theorem State.modEmber_vsw (s : State) (f : Ember → Ember) : (s.modEmber f).vsw = s.vsw := rfl
@[simp] theorem State.modEmber_vdsps (s : State) (f : Ember → Ember) : (s.modEmber f).vdsps = s.vdsps := rfl
@[simp] theorem State.modEmber_win (s : State) (f : Ember → Ember) : (s.modEmber f).win = s.win := rfl
@[simp] theorem State.modEmber_core (s : State) (f : Ember → Ember) : (s.modEmber f).core = s.core := rfl
@[simp] theorem State.modEmber_links (s : State) (f : Ember → Ember) : (s.modEmber f).links = s.links := rfl
@[simp] theorem State.modEmber_fab (s : State) (f : Ember → Ember) : (s.modEmber f).fab = s.fab := rfl
@[simp] theorem State.modEmber_pool (s : State) (f : Ember → Ember) : (s.modEmber f).pool = s.pool := rfl
@[simp] theorem State.modEmber_rt (s : State) (f : Ember → Ember) : (s.modEmber f).rt = s.rt := rfl
@[simp] theorem State.modEmber_net (s : State) (f : Ember → Ember) : (s.modEmber f).net = s.net := rfl
@[simp] theorem State.modEmber_tm (s : State) (f : Ember → Ember) : (s.modEmber f).tm = s.tm := rfl
@[simp] theorem State.modEmber_hearth (s : State) (f : Ember → Ember) : (s.modEmber f).hearth = s.hearth := rfl
@[simp] theorem State.modEmber_iso (s : State) (f : Ember → Ember) : (s.modEmber f).iso = s.iso := rfl
@[simp] theorem State.modEmber_flt (s : State) (f : Ember → Ember) : (s.modEmber f).flt = s.flt := rfl
@[simp] theorem State.modEmber_pwr (s : State) (f : Ember → Ember) : (s.modEmber f).pwr = s.pwr := rfl
@[simp] theorem State.modEmber_cnt (s : State) (f : Ember → Ember) : (s.modEmber f).cnt = s.cnt := rfl
@[simp] theorem State.modEmber_bist (s : State) (f : Ember → Ember) : (s.modEmber f).bist = s.bist := rfl
@[simp] theorem State.modEmber_age (s : State) (f : Ember → Ember) : (s.modEmber f).age = s.age := rfl
@[simp] theorem State.modEmber_jtag (s : State) (f : Ember → Ember) : (s.modEmber f).jtag = s.jtag := rfl
@[simp] theorem State.modEmber_free (s : State) (f : Ember → Ember) : (s.modEmber f).free = s.free := rfl
@[simp] theorem State.modEmber_out (s : State) (f : Ember → Ember) : (s.modEmber f).out = s.out := rfl
@[simp] theorem State.modEmber_pending (s : State) (f : Ember → Ember) : (s.modEmber f).pending = s.pending := rfl

@[simp] theorem State.modFlt_time (s : State) (f : FaultSt → FaultSt) : (s.modFlt f).time = s.time := rfl
@[simp] theorem State.modFlt_lands (s : State) (f : FaultSt → FaultSt) : (s.modFlt f).lands = s.lands := rfl
@[simp] theorem State.modFlt_boot (s : State) (f : FaultSt → FaultSt) : (s.modFlt f).boot = s.boot := rfl
@[simp] theorem State.modFlt_kept (s : State) (f : FaultSt → FaultSt) : (s.modFlt f).kept = s.kept := rfl
@[simp] theorem State.modFlt_nv (s : State) (f : FaultSt → FaultSt) : (s.modFlt f).nv = s.nv := rfl
@[simp] theorem State.modFlt_ember (s : State) (f : FaultSt → FaultSt) : (s.modFlt f).ember = s.ember := rfl
@[simp] theorem State.modFlt_ports (s : State) (f : FaultSt → FaultSt) : (s.modFlt f).ports = s.ports := rfl
@[simp] theorem State.modFlt_vsw (s : State) (f : FaultSt → FaultSt) : (s.modFlt f).vsw = s.vsw := rfl
@[simp] theorem State.modFlt_vdsps (s : State) (f : FaultSt → FaultSt) : (s.modFlt f).vdsps = s.vdsps := rfl
@[simp] theorem State.modFlt_win (s : State) (f : FaultSt → FaultSt) : (s.modFlt f).win = s.win := rfl
@[simp] theorem State.modFlt_core (s : State) (f : FaultSt → FaultSt) : (s.modFlt f).core = s.core := rfl
@[simp] theorem State.modFlt_links (s : State) (f : FaultSt → FaultSt) : (s.modFlt f).links = s.links := rfl
@[simp] theorem State.modFlt_fab (s : State) (f : FaultSt → FaultSt) : (s.modFlt f).fab = s.fab := rfl
@[simp] theorem State.modFlt_pool (s : State) (f : FaultSt → FaultSt) : (s.modFlt f).pool = s.pool := rfl
@[simp] theorem State.modFlt_rt (s : State) (f : FaultSt → FaultSt) : (s.modFlt f).rt = s.rt := rfl
@[simp] theorem State.modFlt_net (s : State) (f : FaultSt → FaultSt) : (s.modFlt f).net = s.net := rfl
@[simp] theorem State.modFlt_tm (s : State) (f : FaultSt → FaultSt) : (s.modFlt f).tm = s.tm := rfl
@[simp] theorem State.modFlt_hearth (s : State) (f : FaultSt → FaultSt) : (s.modFlt f).hearth = s.hearth := rfl
@[simp] theorem State.modFlt_iso (s : State) (f : FaultSt → FaultSt) : (s.modFlt f).iso = s.iso := rfl
@[simp] theorem State.modFlt_flt (s : State) (f : FaultSt → FaultSt) : (s.modFlt f).flt = f s.flt := rfl
@[simp] theorem State.modFlt_pwr (s : State) (f : FaultSt → FaultSt) : (s.modFlt f).pwr = s.pwr := rfl
@[simp] theorem State.modFlt_cnt (s : State) (f : FaultSt → FaultSt) : (s.modFlt f).cnt = s.cnt := rfl
@[simp] theorem State.modFlt_bist (s : State) (f : FaultSt → FaultSt) : (s.modFlt f).bist = s.bist := rfl
@[simp] theorem State.modFlt_age (s : State) (f : FaultSt → FaultSt) : (s.modFlt f).age = s.age := rfl
@[simp] theorem State.modFlt_jtag (s : State) (f : FaultSt → FaultSt) : (s.modFlt f).jtag = s.jtag := rfl
@[simp] theorem State.modFlt_free (s : State) (f : FaultSt → FaultSt) : (s.modFlt f).free = s.free := rfl
@[simp] theorem State.modFlt_out (s : State) (f : FaultSt → FaultSt) : (s.modFlt f).out = s.out := rfl
@[simp] theorem State.modFlt_pending (s : State) (f : FaultSt → FaultSt) : (s.modFlt f).pending = s.pending := rfl

@[simp] theorem State.modFab_time (s : State) (f : Fabric → Fabric) : (s.modFab f).time = s.time := rfl
@[simp] theorem State.modFab_lands (s : State) (f : Fabric → Fabric) : (s.modFab f).lands = s.lands := rfl
@[simp] theorem State.modFab_boot (s : State) (f : Fabric → Fabric) : (s.modFab f).boot = s.boot := rfl
@[simp] theorem State.modFab_kept (s : State) (f : Fabric → Fabric) : (s.modFab f).kept = s.kept := rfl
@[simp] theorem State.modFab_nv (s : State) (f : Fabric → Fabric) : (s.modFab f).nv = s.nv := rfl
@[simp] theorem State.modFab_ember (s : State) (f : Fabric → Fabric) : (s.modFab f).ember = s.ember := rfl
@[simp] theorem State.modFab_ports (s : State) (f : Fabric → Fabric) : (s.modFab f).ports = s.ports := rfl
@[simp] theorem State.modFab_vsw (s : State) (f : Fabric → Fabric) : (s.modFab f).vsw = s.vsw := rfl
@[simp] theorem State.modFab_vdsps (s : State) (f : Fabric → Fabric) : (s.modFab f).vdsps = s.vdsps := rfl
@[simp] theorem State.modFab_win (s : State) (f : Fabric → Fabric) : (s.modFab f).win = s.win := rfl
@[simp] theorem State.modFab_core (s : State) (f : Fabric → Fabric) : (s.modFab f).core = s.core := rfl
@[simp] theorem State.modFab_links (s : State) (f : Fabric → Fabric) : (s.modFab f).links = s.links := rfl
@[simp] theorem State.modFab_fab (s : State) (f : Fabric → Fabric) : (s.modFab f).fab = f s.fab := rfl
@[simp] theorem State.modFab_pool (s : State) (f : Fabric → Fabric) : (s.modFab f).pool = s.pool := rfl
@[simp] theorem State.modFab_rt (s : State) (f : Fabric → Fabric) : (s.modFab f).rt = s.rt := rfl
@[simp] theorem State.modFab_net (s : State) (f : Fabric → Fabric) : (s.modFab f).net = s.net := rfl
@[simp] theorem State.modFab_tm (s : State) (f : Fabric → Fabric) : (s.modFab f).tm = s.tm := rfl
@[simp] theorem State.modFab_hearth (s : State) (f : Fabric → Fabric) : (s.modFab f).hearth = s.hearth := rfl
@[simp] theorem State.modFab_iso (s : State) (f : Fabric → Fabric) : (s.modFab f).iso = s.iso := rfl
@[simp] theorem State.modFab_flt (s : State) (f : Fabric → Fabric) : (s.modFab f).flt = s.flt := rfl
@[simp] theorem State.modFab_pwr (s : State) (f : Fabric → Fabric) : (s.modFab f).pwr = s.pwr := rfl
@[simp] theorem State.modFab_cnt (s : State) (f : Fabric → Fabric) : (s.modFab f).cnt = s.cnt := rfl
@[simp] theorem State.modFab_bist (s : State) (f : Fabric → Fabric) : (s.modFab f).bist = s.bist := rfl
@[simp] theorem State.modFab_age (s : State) (f : Fabric → Fabric) : (s.modFab f).age = s.age := rfl
@[simp] theorem State.modFab_jtag (s : State) (f : Fabric → Fabric) : (s.modFab f).jtag = s.jtag := rfl
@[simp] theorem State.modFab_free (s : State) (f : Fabric → Fabric) : (s.modFab f).free = s.free := rfl
@[simp] theorem State.modFab_out (s : State) (f : Fabric → Fabric) : (s.modFab f).out = s.out := rfl
@[simp] theorem State.modFab_pending (s : State) (f : Fabric → Fabric) : (s.modFab f).pending = s.pending := rfl

@[simp] theorem State.modPool_time (s : State) (f : PoolSt → PoolSt) : (s.modPool f).time = s.time := rfl
@[simp] theorem State.modPool_lands (s : State) (f : PoolSt → PoolSt) : (s.modPool f).lands = s.lands := rfl
@[simp] theorem State.modPool_boot (s : State) (f : PoolSt → PoolSt) : (s.modPool f).boot = s.boot := rfl
@[simp] theorem State.modPool_kept (s : State) (f : PoolSt → PoolSt) : (s.modPool f).kept = s.kept := rfl
@[simp] theorem State.modPool_nv (s : State) (f : PoolSt → PoolSt) : (s.modPool f).nv = s.nv := rfl
@[simp] theorem State.modPool_ember (s : State) (f : PoolSt → PoolSt) : (s.modPool f).ember = s.ember := rfl
@[simp] theorem State.modPool_ports (s : State) (f : PoolSt → PoolSt) : (s.modPool f).ports = s.ports := rfl
@[simp] theorem State.modPool_vsw (s : State) (f : PoolSt → PoolSt) : (s.modPool f).vsw = s.vsw := rfl
@[simp] theorem State.modPool_vdsps (s : State) (f : PoolSt → PoolSt) : (s.modPool f).vdsps = s.vdsps := rfl
@[simp] theorem State.modPool_win (s : State) (f : PoolSt → PoolSt) : (s.modPool f).win = s.win := rfl
@[simp] theorem State.modPool_core (s : State) (f : PoolSt → PoolSt) : (s.modPool f).core = s.core := rfl
@[simp] theorem State.modPool_links (s : State) (f : PoolSt → PoolSt) : (s.modPool f).links = s.links := rfl
@[simp] theorem State.modPool_fab (s : State) (f : PoolSt → PoolSt) : (s.modPool f).fab = s.fab := rfl
@[simp] theorem State.modPool_pool (s : State) (f : PoolSt → PoolSt) : (s.modPool f).pool = f s.pool := rfl
@[simp] theorem State.modPool_rt (s : State) (f : PoolSt → PoolSt) : (s.modPool f).rt = s.rt := rfl
@[simp] theorem State.modPool_net (s : State) (f : PoolSt → PoolSt) : (s.modPool f).net = s.net := rfl
@[simp] theorem State.modPool_tm (s : State) (f : PoolSt → PoolSt) : (s.modPool f).tm = s.tm := rfl
@[simp] theorem State.modPool_hearth (s : State) (f : PoolSt → PoolSt) : (s.modPool f).hearth = s.hearth := rfl
@[simp] theorem State.modPool_iso (s : State) (f : PoolSt → PoolSt) : (s.modPool f).iso = s.iso := rfl
@[simp] theorem State.modPool_flt (s : State) (f : PoolSt → PoolSt) : (s.modPool f).flt = s.flt := rfl
@[simp] theorem State.modPool_pwr (s : State) (f : PoolSt → PoolSt) : (s.modPool f).pwr = s.pwr := rfl
@[simp] theorem State.modPool_cnt (s : State) (f : PoolSt → PoolSt) : (s.modPool f).cnt = s.cnt := rfl
@[simp] theorem State.modPool_bist (s : State) (f : PoolSt → PoolSt) : (s.modPool f).bist = s.bist := rfl
@[simp] theorem State.modPool_age (s : State) (f : PoolSt → PoolSt) : (s.modPool f).age = s.age := rfl
@[simp] theorem State.modPool_jtag (s : State) (f : PoolSt → PoolSt) : (s.modPool f).jtag = s.jtag := rfl
@[simp] theorem State.modPool_free (s : State) (f : PoolSt → PoolSt) : (s.modPool f).free = s.free := rfl
@[simp] theorem State.modPool_out (s : State) (f : PoolSt → PoolSt) : (s.modPool f).out = s.out := rfl
@[simp] theorem State.modPool_pending (s : State) (f : PoolSt → PoolSt) : (s.modPool f).pending = s.pending := rfl

@[simp] theorem State.modCore_time (s : State) (f : CoreSt → CoreSt) : (s.modCore f).time = s.time := rfl
@[simp] theorem State.modCore_lands (s : State) (f : CoreSt → CoreSt) : (s.modCore f).lands = s.lands := rfl
@[simp] theorem State.modCore_boot (s : State) (f : CoreSt → CoreSt) : (s.modCore f).boot = s.boot := rfl
@[simp] theorem State.modCore_kept (s : State) (f : CoreSt → CoreSt) : (s.modCore f).kept = s.kept := rfl
@[simp] theorem State.modCore_nv (s : State) (f : CoreSt → CoreSt) : (s.modCore f).nv = s.nv := rfl
@[simp] theorem State.modCore_ember (s : State) (f : CoreSt → CoreSt) : (s.modCore f).ember = s.ember := rfl
@[simp] theorem State.modCore_ports (s : State) (f : CoreSt → CoreSt) : (s.modCore f).ports = s.ports := rfl
@[simp] theorem State.modCore_vsw (s : State) (f : CoreSt → CoreSt) : (s.modCore f).vsw = s.vsw := rfl
@[simp] theorem State.modCore_vdsps (s : State) (f : CoreSt → CoreSt) : (s.modCore f).vdsps = s.vdsps := rfl
@[simp] theorem State.modCore_win (s : State) (f : CoreSt → CoreSt) : (s.modCore f).win = s.win := rfl
@[simp] theorem State.modCore_core (s : State) (f : CoreSt → CoreSt) : (s.modCore f).core = f s.core := rfl
@[simp] theorem State.modCore_links (s : State) (f : CoreSt → CoreSt) : (s.modCore f).links = s.links := rfl
@[simp] theorem State.modCore_fab (s : State) (f : CoreSt → CoreSt) : (s.modCore f).fab = s.fab := rfl
@[simp] theorem State.modCore_pool (s : State) (f : CoreSt → CoreSt) : (s.modCore f).pool = s.pool := rfl
@[simp] theorem State.modCore_rt (s : State) (f : CoreSt → CoreSt) : (s.modCore f).rt = s.rt := rfl
@[simp] theorem State.modCore_net (s : State) (f : CoreSt → CoreSt) : (s.modCore f).net = s.net := rfl
@[simp] theorem State.modCore_tm (s : State) (f : CoreSt → CoreSt) : (s.modCore f).tm = s.tm := rfl
@[simp] theorem State.modCore_hearth (s : State) (f : CoreSt → CoreSt) : (s.modCore f).hearth = s.hearth := rfl
@[simp] theorem State.modCore_iso (s : State) (f : CoreSt → CoreSt) : (s.modCore f).iso = s.iso := rfl
@[simp] theorem State.modCore_flt (s : State) (f : CoreSt → CoreSt) : (s.modCore f).flt = s.flt := rfl
@[simp] theorem State.modCore_pwr (s : State) (f : CoreSt → CoreSt) : (s.modCore f).pwr = s.pwr := rfl
@[simp] theorem State.modCore_cnt (s : State) (f : CoreSt → CoreSt) : (s.modCore f).cnt = s.cnt := rfl
@[simp] theorem State.modCore_bist (s : State) (f : CoreSt → CoreSt) : (s.modCore f).bist = s.bist := rfl
@[simp] theorem State.modCore_age (s : State) (f : CoreSt → CoreSt) : (s.modCore f).age = s.age := rfl
@[simp] theorem State.modCore_jtag (s : State) (f : CoreSt → CoreSt) : (s.modCore f).jtag = s.jtag := rfl
@[simp] theorem State.modCore_free (s : State) (f : CoreSt → CoreSt) : (s.modCore f).free = s.free := rfl
@[simp] theorem State.modCore_out (s : State) (f : CoreSt → CoreSt) : (s.modCore f).out = s.out := rfl
@[simp] theorem State.modCore_pending (s : State) (f : CoreSt → CoreSt) : (s.modCore f).pending = s.pending := rfl

@[simp] theorem State.modWin_time (s : State) (f : Win → Win) : (s.modWin f).time = s.time := rfl
@[simp] theorem State.modWin_lands (s : State) (f : Win → Win) : (s.modWin f).lands = s.lands := rfl
@[simp] theorem State.modWin_boot (s : State) (f : Win → Win) : (s.modWin f).boot = s.boot := rfl
@[simp] theorem State.modWin_kept (s : State) (f : Win → Win) : (s.modWin f).kept = s.kept := rfl
@[simp] theorem State.modWin_nv (s : State) (f : Win → Win) : (s.modWin f).nv = s.nv := rfl
@[simp] theorem State.modWin_ember (s : State) (f : Win → Win) : (s.modWin f).ember = s.ember := rfl
@[simp] theorem State.modWin_ports (s : State) (f : Win → Win) : (s.modWin f).ports = s.ports := rfl
@[simp] theorem State.modWin_vsw (s : State) (f : Win → Win) : (s.modWin f).vsw = s.vsw := rfl
@[simp] theorem State.modWin_vdsps (s : State) (f : Win → Win) : (s.modWin f).vdsps = s.vdsps := rfl
@[simp] theorem State.modWin_win (s : State) (f : Win → Win) : (s.modWin f).win = f s.win := rfl
@[simp] theorem State.modWin_core (s : State) (f : Win → Win) : (s.modWin f).core = s.core := rfl
@[simp] theorem State.modWin_links (s : State) (f : Win → Win) : (s.modWin f).links = s.links := rfl
@[simp] theorem State.modWin_fab (s : State) (f : Win → Win) : (s.modWin f).fab = s.fab := rfl
@[simp] theorem State.modWin_pool (s : State) (f : Win → Win) : (s.modWin f).pool = s.pool := rfl
@[simp] theorem State.modWin_rt (s : State) (f : Win → Win) : (s.modWin f).rt = s.rt := rfl
@[simp] theorem State.modWin_net (s : State) (f : Win → Win) : (s.modWin f).net = s.net := rfl
@[simp] theorem State.modWin_tm (s : State) (f : Win → Win) : (s.modWin f).tm = s.tm := rfl
@[simp] theorem State.modWin_hearth (s : State) (f : Win → Win) : (s.modWin f).hearth = s.hearth := rfl
@[simp] theorem State.modWin_iso (s : State) (f : Win → Win) : (s.modWin f).iso = s.iso := rfl
@[simp] theorem State.modWin_flt (s : State) (f : Win → Win) : (s.modWin f).flt = s.flt := rfl
@[simp] theorem State.modWin_pwr (s : State) (f : Win → Win) : (s.modWin f).pwr = s.pwr := rfl
@[simp] theorem State.modWin_cnt (s : State) (f : Win → Win) : (s.modWin f).cnt = s.cnt := rfl
@[simp] theorem State.modWin_bist (s : State) (f : Win → Win) : (s.modWin f).bist = s.bist := rfl
@[simp] theorem State.modWin_age (s : State) (f : Win → Win) : (s.modWin f).age = s.age := rfl
@[simp] theorem State.modWin_jtag (s : State) (f : Win → Win) : (s.modWin f).jtag = s.jtag := rfl
@[simp] theorem State.modWin_free (s : State) (f : Win → Win) : (s.modWin f).free = s.free := rfl
@[simp] theorem State.modWin_out (s : State) (f : Win → Win) : (s.modWin f).out = s.out := rfl
@[simp] theorem State.modWin_pending (s : State) (f : Win → Win) : (s.modWin f).pending = s.pending := rfl

@[simp] theorem State.modRt_time (s : State) (f : Retort → Retort) : (s.modRt f).time = s.time := rfl
@[simp] theorem State.modRt_lands (s : State) (f : Retort → Retort) : (s.modRt f).lands = s.lands := rfl
@[simp] theorem State.modRt_boot (s : State) (f : Retort → Retort) : (s.modRt f).boot = s.boot := rfl
@[simp] theorem State.modRt_kept (s : State) (f : Retort → Retort) : (s.modRt f).kept = s.kept := rfl
@[simp] theorem State.modRt_nv (s : State) (f : Retort → Retort) : (s.modRt f).nv = s.nv := rfl
@[simp] theorem State.modRt_ember (s : State) (f : Retort → Retort) : (s.modRt f).ember = s.ember := rfl
@[simp] theorem State.modRt_ports (s : State) (f : Retort → Retort) : (s.modRt f).ports = s.ports := rfl
@[simp] theorem State.modRt_vsw (s : State) (f : Retort → Retort) : (s.modRt f).vsw = s.vsw := rfl
@[simp] theorem State.modRt_vdsps (s : State) (f : Retort → Retort) : (s.modRt f).vdsps = s.vdsps := rfl
@[simp] theorem State.modRt_win (s : State) (f : Retort → Retort) : (s.modRt f).win = s.win := rfl
@[simp] theorem State.modRt_core (s : State) (f : Retort → Retort) : (s.modRt f).core = s.core := rfl
@[simp] theorem State.modRt_links (s : State) (f : Retort → Retort) : (s.modRt f).links = s.links := rfl
@[simp] theorem State.modRt_fab (s : State) (f : Retort → Retort) : (s.modRt f).fab = s.fab := rfl
@[simp] theorem State.modRt_pool (s : State) (f : Retort → Retort) : (s.modRt f).pool = s.pool := rfl
@[simp] theorem State.modRt_rt (s : State) (f : Retort → Retort) : (s.modRt f).rt = f s.rt := rfl
@[simp] theorem State.modRt_net (s : State) (f : Retort → Retort) : (s.modRt f).net = s.net := rfl
@[simp] theorem State.modRt_tm (s : State) (f : Retort → Retort) : (s.modRt f).tm = s.tm := rfl
@[simp] theorem State.modRt_hearth (s : State) (f : Retort → Retort) : (s.modRt f).hearth = s.hearth := rfl
@[simp] theorem State.modRt_iso (s : State) (f : Retort → Retort) : (s.modRt f).iso = s.iso := rfl
@[simp] theorem State.modRt_flt (s : State) (f : Retort → Retort) : (s.modRt f).flt = s.flt := rfl
@[simp] theorem State.modRt_pwr (s : State) (f : Retort → Retort) : (s.modRt f).pwr = s.pwr := rfl
@[simp] theorem State.modRt_cnt (s : State) (f : Retort → Retort) : (s.modRt f).cnt = s.cnt := rfl
@[simp] theorem State.modRt_bist (s : State) (f : Retort → Retort) : (s.modRt f).bist = s.bist := rfl
@[simp] theorem State.modRt_age (s : State) (f : Retort → Retort) : (s.modRt f).age = s.age := rfl
@[simp] theorem State.modRt_jtag (s : State) (f : Retort → Retort) : (s.modRt f).jtag = s.jtag := rfl
@[simp] theorem State.modRt_free (s : State) (f : Retort → Retort) : (s.modRt f).free = s.free := rfl
@[simp] theorem State.modRt_out (s : State) (f : Retort → Retort) : (s.modRt f).out = s.out := rfl
@[simp] theorem State.modRt_pending (s : State) (f : Retort → Retort) : (s.modRt f).pending = s.pending := rfl

@[simp] theorem State.modNet_time (s : State) (f : Net → Net) : (s.modNet f).time = s.time := rfl
@[simp] theorem State.modNet_lands (s : State) (f : Net → Net) : (s.modNet f).lands = s.lands := rfl
@[simp] theorem State.modNet_boot (s : State) (f : Net → Net) : (s.modNet f).boot = s.boot := rfl
@[simp] theorem State.modNet_kept (s : State) (f : Net → Net) : (s.modNet f).kept = s.kept := rfl
@[simp] theorem State.modNet_nv (s : State) (f : Net → Net) : (s.modNet f).nv = s.nv := rfl
@[simp] theorem State.modNet_ember (s : State) (f : Net → Net) : (s.modNet f).ember = s.ember := rfl
@[simp] theorem State.modNet_ports (s : State) (f : Net → Net) : (s.modNet f).ports = s.ports := rfl
@[simp] theorem State.modNet_vsw (s : State) (f : Net → Net) : (s.modNet f).vsw = s.vsw := rfl
@[simp] theorem State.modNet_vdsps (s : State) (f : Net → Net) : (s.modNet f).vdsps = s.vdsps := rfl
@[simp] theorem State.modNet_win (s : State) (f : Net → Net) : (s.modNet f).win = s.win := rfl
@[simp] theorem State.modNet_core (s : State) (f : Net → Net) : (s.modNet f).core = s.core := rfl
@[simp] theorem State.modNet_links (s : State) (f : Net → Net) : (s.modNet f).links = s.links := rfl
@[simp] theorem State.modNet_fab (s : State) (f : Net → Net) : (s.modNet f).fab = s.fab := rfl
@[simp] theorem State.modNet_pool (s : State) (f : Net → Net) : (s.modNet f).pool = s.pool := rfl
@[simp] theorem State.modNet_rt (s : State) (f : Net → Net) : (s.modNet f).rt = s.rt := rfl
@[simp] theorem State.modNet_net (s : State) (f : Net → Net) : (s.modNet f).net = f s.net := rfl
@[simp] theorem State.modNet_tm (s : State) (f : Net → Net) : (s.modNet f).tm = s.tm := rfl
@[simp] theorem State.modNet_hearth (s : State) (f : Net → Net) : (s.modNet f).hearth = s.hearth := rfl
@[simp] theorem State.modNet_iso (s : State) (f : Net → Net) : (s.modNet f).iso = s.iso := rfl
@[simp] theorem State.modNet_flt (s : State) (f : Net → Net) : (s.modNet f).flt = s.flt := rfl
@[simp] theorem State.modNet_pwr (s : State) (f : Net → Net) : (s.modNet f).pwr = s.pwr := rfl
@[simp] theorem State.modNet_cnt (s : State) (f : Net → Net) : (s.modNet f).cnt = s.cnt := rfl
@[simp] theorem State.modNet_bist (s : State) (f : Net → Net) : (s.modNet f).bist = s.bist := rfl
@[simp] theorem State.modNet_age (s : State) (f : Net → Net) : (s.modNet f).age = s.age := rfl
@[simp] theorem State.modNet_jtag (s : State) (f : Net → Net) : (s.modNet f).jtag = s.jtag := rfl
@[simp] theorem State.modNet_free (s : State) (f : Net → Net) : (s.modNet f).free = s.free := rfl
@[simp] theorem State.modNet_out (s : State) (f : Net → Net) : (s.modNet f).out = s.out := rfl
@[simp] theorem State.modNet_pending (s : State) (f : Net → Net) : (s.modNet f).pending = s.pending := rfl

@[simp] theorem State.modTm_time (s : State) (f : Traffic → Traffic) : (s.modTm f).time = s.time := rfl
@[simp] theorem State.modTm_lands (s : State) (f : Traffic → Traffic) : (s.modTm f).lands = s.lands := rfl
@[simp] theorem State.modTm_boot (s : State) (f : Traffic → Traffic) : (s.modTm f).boot = s.boot := rfl
@[simp] theorem State.modTm_kept (s : State) (f : Traffic → Traffic) : (s.modTm f).kept = s.kept := rfl
@[simp] theorem State.modTm_nv (s : State) (f : Traffic → Traffic) : (s.modTm f).nv = s.nv := rfl
@[simp] theorem State.modTm_ember (s : State) (f : Traffic → Traffic) : (s.modTm f).ember = s.ember := rfl
@[simp] theorem State.modTm_ports (s : State) (f : Traffic → Traffic) : (s.modTm f).ports = s.ports := rfl
@[simp] theorem State.modTm_vsw (s : State) (f : Traffic → Traffic) : (s.modTm f).vsw = s.vsw := rfl
@[simp] theorem State.modTm_vdsps (s : State) (f : Traffic → Traffic) : (s.modTm f).vdsps = s.vdsps := rfl
@[simp] theorem State.modTm_win (s : State) (f : Traffic → Traffic) : (s.modTm f).win = s.win := rfl
@[simp] theorem State.modTm_core (s : State) (f : Traffic → Traffic) : (s.modTm f).core = s.core := rfl
@[simp] theorem State.modTm_links (s : State) (f : Traffic → Traffic) : (s.modTm f).links = s.links := rfl
@[simp] theorem State.modTm_fab (s : State) (f : Traffic → Traffic) : (s.modTm f).fab = s.fab := rfl
@[simp] theorem State.modTm_pool (s : State) (f : Traffic → Traffic) : (s.modTm f).pool = s.pool := rfl
@[simp] theorem State.modTm_rt (s : State) (f : Traffic → Traffic) : (s.modTm f).rt = s.rt := rfl
@[simp] theorem State.modTm_net (s : State) (f : Traffic → Traffic) : (s.modTm f).net = s.net := rfl
@[simp] theorem State.modTm_tm (s : State) (f : Traffic → Traffic) : (s.modTm f).tm = f s.tm := rfl
@[simp] theorem State.modTm_hearth (s : State) (f : Traffic → Traffic) : (s.modTm f).hearth = s.hearth := rfl
@[simp] theorem State.modTm_iso (s : State) (f : Traffic → Traffic) : (s.modTm f).iso = s.iso := rfl
@[simp] theorem State.modTm_flt (s : State) (f : Traffic → Traffic) : (s.modTm f).flt = s.flt := rfl
@[simp] theorem State.modTm_pwr (s : State) (f : Traffic → Traffic) : (s.modTm f).pwr = s.pwr := rfl
@[simp] theorem State.modTm_cnt (s : State) (f : Traffic → Traffic) : (s.modTm f).cnt = s.cnt := rfl
@[simp] theorem State.modTm_bist (s : State) (f : Traffic → Traffic) : (s.modTm f).bist = s.bist := rfl
@[simp] theorem State.modTm_age (s : State) (f : Traffic → Traffic) : (s.modTm f).age = s.age := rfl
@[simp] theorem State.modTm_jtag (s : State) (f : Traffic → Traffic) : (s.modTm f).jtag = s.jtag := rfl
@[simp] theorem State.modTm_free (s : State) (f : Traffic → Traffic) : (s.modTm f).free = s.free := rfl
@[simp] theorem State.modTm_out (s : State) (f : Traffic → Traffic) : (s.modTm f).out = s.out := rfl
@[simp] theorem State.modTm_pending (s : State) (f : Traffic → Traffic) : (s.modTm f).pending = s.pending := rfl

@[simp] theorem State.modPwr_time (s : State) (f : Power → Power) : (s.modPwr f).time = s.time := rfl
@[simp] theorem State.modPwr_lands (s : State) (f : Power → Power) : (s.modPwr f).lands = s.lands := rfl
@[simp] theorem State.modPwr_boot (s : State) (f : Power → Power) : (s.modPwr f).boot = s.boot := rfl
@[simp] theorem State.modPwr_kept (s : State) (f : Power → Power) : (s.modPwr f).kept = s.kept := rfl
@[simp] theorem State.modPwr_nv (s : State) (f : Power → Power) : (s.modPwr f).nv = s.nv := rfl
@[simp] theorem State.modPwr_ember (s : State) (f : Power → Power) : (s.modPwr f).ember = s.ember := rfl
@[simp] theorem State.modPwr_ports (s : State) (f : Power → Power) : (s.modPwr f).ports = s.ports := rfl
@[simp] theorem State.modPwr_vsw (s : State) (f : Power → Power) : (s.modPwr f).vsw = s.vsw := rfl
@[simp] theorem State.modPwr_vdsps (s : State) (f : Power → Power) : (s.modPwr f).vdsps = s.vdsps := rfl
@[simp] theorem State.modPwr_win (s : State) (f : Power → Power) : (s.modPwr f).win = s.win := rfl
@[simp] theorem State.modPwr_core (s : State) (f : Power → Power) : (s.modPwr f).core = s.core := rfl
@[simp] theorem State.modPwr_links (s : State) (f : Power → Power) : (s.modPwr f).links = s.links := rfl
@[simp] theorem State.modPwr_fab (s : State) (f : Power → Power) : (s.modPwr f).fab = s.fab := rfl
@[simp] theorem State.modPwr_pool (s : State) (f : Power → Power) : (s.modPwr f).pool = s.pool := rfl
@[simp] theorem State.modPwr_rt (s : State) (f : Power → Power) : (s.modPwr f).rt = s.rt := rfl
@[simp] theorem State.modPwr_net (s : State) (f : Power → Power) : (s.modPwr f).net = s.net := rfl
@[simp] theorem State.modPwr_tm (s : State) (f : Power → Power) : (s.modPwr f).tm = s.tm := rfl
@[simp] theorem State.modPwr_hearth (s : State) (f : Power → Power) : (s.modPwr f).hearth = s.hearth := rfl
@[simp] theorem State.modPwr_iso (s : State) (f : Power → Power) : (s.modPwr f).iso = s.iso := rfl
@[simp] theorem State.modPwr_flt (s : State) (f : Power → Power) : (s.modPwr f).flt = s.flt := rfl
@[simp] theorem State.modPwr_pwr (s : State) (f : Power → Power) : (s.modPwr f).pwr = f s.pwr := rfl
@[simp] theorem State.modPwr_cnt (s : State) (f : Power → Power) : (s.modPwr f).cnt = s.cnt := rfl
@[simp] theorem State.modPwr_bist (s : State) (f : Power → Power) : (s.modPwr f).bist = s.bist := rfl
@[simp] theorem State.modPwr_age (s : State) (f : Power → Power) : (s.modPwr f).age = s.age := rfl
@[simp] theorem State.modPwr_jtag (s : State) (f : Power → Power) : (s.modPwr f).jtag = s.jtag := rfl
@[simp] theorem State.modPwr_free (s : State) (f : Power → Power) : (s.modPwr f).free = s.free := rfl
@[simp] theorem State.modPwr_out (s : State) (f : Power → Power) : (s.modPwr f).out = s.out := rfl
@[simp] theorem State.modPwr_pending (s : State) (f : Power → Power) : (s.modPwr f).pending = s.pending := rfl

@[simp] theorem State.modCnt_time (s : State) (f : Counters → Counters) : (s.modCnt f).time = s.time := rfl
@[simp] theorem State.modCnt_lands (s : State) (f : Counters → Counters) : (s.modCnt f).lands = s.lands := rfl
@[simp] theorem State.modCnt_boot (s : State) (f : Counters → Counters) : (s.modCnt f).boot = s.boot := rfl
@[simp] theorem State.modCnt_kept (s : State) (f : Counters → Counters) : (s.modCnt f).kept = s.kept := rfl
@[simp] theorem State.modCnt_nv (s : State) (f : Counters → Counters) : (s.modCnt f).nv = s.nv := rfl
@[simp] theorem State.modCnt_ember (s : State) (f : Counters → Counters) : (s.modCnt f).ember = s.ember := rfl
@[simp] theorem State.modCnt_ports (s : State) (f : Counters → Counters) : (s.modCnt f).ports = s.ports := rfl
@[simp] theorem State.modCnt_vsw (s : State) (f : Counters → Counters) : (s.modCnt f).vsw = s.vsw := rfl
@[simp] theorem State.modCnt_vdsps (s : State) (f : Counters → Counters) : (s.modCnt f).vdsps = s.vdsps := rfl
@[simp] theorem State.modCnt_win (s : State) (f : Counters → Counters) : (s.modCnt f).win = s.win := rfl
@[simp] theorem State.modCnt_core (s : State) (f : Counters → Counters) : (s.modCnt f).core = s.core := rfl
@[simp] theorem State.modCnt_links (s : State) (f : Counters → Counters) : (s.modCnt f).links = s.links := rfl
@[simp] theorem State.modCnt_fab (s : State) (f : Counters → Counters) : (s.modCnt f).fab = s.fab := rfl
@[simp] theorem State.modCnt_pool (s : State) (f : Counters → Counters) : (s.modCnt f).pool = s.pool := rfl
@[simp] theorem State.modCnt_rt (s : State) (f : Counters → Counters) : (s.modCnt f).rt = s.rt := rfl
@[simp] theorem State.modCnt_net (s : State) (f : Counters → Counters) : (s.modCnt f).net = s.net := rfl
@[simp] theorem State.modCnt_tm (s : State) (f : Counters → Counters) : (s.modCnt f).tm = s.tm := rfl
@[simp] theorem State.modCnt_hearth (s : State) (f : Counters → Counters) : (s.modCnt f).hearth = s.hearth := rfl
@[simp] theorem State.modCnt_iso (s : State) (f : Counters → Counters) : (s.modCnt f).iso = s.iso := rfl
@[simp] theorem State.modCnt_flt (s : State) (f : Counters → Counters) : (s.modCnt f).flt = s.flt := rfl
@[simp] theorem State.modCnt_pwr (s : State) (f : Counters → Counters) : (s.modCnt f).pwr = s.pwr := rfl
@[simp] theorem State.modCnt_cnt (s : State) (f : Counters → Counters) : (s.modCnt f).cnt = f s.cnt := rfl
@[simp] theorem State.modCnt_bist (s : State) (f : Counters → Counters) : (s.modCnt f).bist = s.bist := rfl
@[simp] theorem State.modCnt_age (s : State) (f : Counters → Counters) : (s.modCnt f).age = s.age := rfl
@[simp] theorem State.modCnt_jtag (s : State) (f : Counters → Counters) : (s.modCnt f).jtag = s.jtag := rfl
@[simp] theorem State.modCnt_free (s : State) (f : Counters → Counters) : (s.modCnt f).free = s.free := rfl
@[simp] theorem State.modCnt_out (s : State) (f : Counters → Counters) : (s.modCnt f).out = s.out := rfl
@[simp] theorem State.modCnt_pending (s : State) (f : Counters → Counters) : (s.modCnt f).pending = s.pending := rfl

@[simp] theorem State.modBoot_time (s : State) (f : Boot → Boot) : (s.modBoot f).time = s.time := rfl
@[simp] theorem State.modBoot_lands (s : State) (f : Boot → Boot) : (s.modBoot f).lands = s.lands := rfl
@[simp] theorem State.modBoot_boot (s : State) (f : Boot → Boot) : (s.modBoot f).boot = f s.boot := rfl
@[simp] theorem State.modBoot_kept (s : State) (f : Boot → Boot) : (s.modBoot f).kept = s.kept := rfl
@[simp] theorem State.modBoot_nv (s : State) (f : Boot → Boot) : (s.modBoot f).nv = s.nv := rfl
@[simp] theorem State.modBoot_ember (s : State) (f : Boot → Boot) : (s.modBoot f).ember = s.ember := rfl
@[simp] theorem State.modBoot_ports (s : State) (f : Boot → Boot) : (s.modBoot f).ports = s.ports := rfl
@[simp] theorem State.modBoot_vsw (s : State) (f : Boot → Boot) : (s.modBoot f).vsw = s.vsw := rfl
@[simp] theorem State.modBoot_vdsps (s : State) (f : Boot → Boot) : (s.modBoot f).vdsps = s.vdsps := rfl
@[simp] theorem State.modBoot_win (s : State) (f : Boot → Boot) : (s.modBoot f).win = s.win := rfl
@[simp] theorem State.modBoot_core (s : State) (f : Boot → Boot) : (s.modBoot f).core = s.core := rfl
@[simp] theorem State.modBoot_links (s : State) (f : Boot → Boot) : (s.modBoot f).links = s.links := rfl
@[simp] theorem State.modBoot_fab (s : State) (f : Boot → Boot) : (s.modBoot f).fab = s.fab := rfl
@[simp] theorem State.modBoot_pool (s : State) (f : Boot → Boot) : (s.modBoot f).pool = s.pool := rfl
@[simp] theorem State.modBoot_rt (s : State) (f : Boot → Boot) : (s.modBoot f).rt = s.rt := rfl
@[simp] theorem State.modBoot_net (s : State) (f : Boot → Boot) : (s.modBoot f).net = s.net := rfl
@[simp] theorem State.modBoot_tm (s : State) (f : Boot → Boot) : (s.modBoot f).tm = s.tm := rfl
@[simp] theorem State.modBoot_hearth (s : State) (f : Boot → Boot) : (s.modBoot f).hearth = s.hearth := rfl
@[simp] theorem State.modBoot_iso (s : State) (f : Boot → Boot) : (s.modBoot f).iso = s.iso := rfl
@[simp] theorem State.modBoot_flt (s : State) (f : Boot → Boot) : (s.modBoot f).flt = s.flt := rfl
@[simp] theorem State.modBoot_pwr (s : State) (f : Boot → Boot) : (s.modBoot f).pwr = s.pwr := rfl
@[simp] theorem State.modBoot_cnt (s : State) (f : Boot → Boot) : (s.modBoot f).cnt = s.cnt := rfl
@[simp] theorem State.modBoot_bist (s : State) (f : Boot → Boot) : (s.modBoot f).bist = s.bist := rfl
@[simp] theorem State.modBoot_age (s : State) (f : Boot → Boot) : (s.modBoot f).age = s.age := rfl
@[simp] theorem State.modBoot_jtag (s : State) (f : Boot → Boot) : (s.modBoot f).jtag = s.jtag := rfl
@[simp] theorem State.modBoot_free (s : State) (f : Boot → Boot) : (s.modBoot f).free = s.free := rfl
@[simp] theorem State.modBoot_out (s : State) (f : Boot → Boot) : (s.modBoot f).out = s.out := rfl
@[simp] theorem State.modBoot_pending (s : State) (f : Boot → Boot) : (s.modBoot f).pending = s.pending := rfl

@[simp] theorem State.modLands_time (s : State) (f : Lands → Lands) : (s.modLands f).time = s.time := rfl
@[simp] theorem State.modLands_lands (s : State) (f : Lands → Lands) : (s.modLands f).lands = f s.lands := rfl
@[simp] theorem State.modLands_boot (s : State) (f : Lands → Lands) : (s.modLands f).boot = s.boot := rfl
@[simp] theorem State.modLands_kept (s : State) (f : Lands → Lands) : (s.modLands f).kept = s.kept := rfl
@[simp] theorem State.modLands_nv (s : State) (f : Lands → Lands) : (s.modLands f).nv = s.nv := rfl
@[simp] theorem State.modLands_ember (s : State) (f : Lands → Lands) : (s.modLands f).ember = s.ember := rfl
@[simp] theorem State.modLands_ports (s : State) (f : Lands → Lands) : (s.modLands f).ports = s.ports := rfl
@[simp] theorem State.modLands_vsw (s : State) (f : Lands → Lands) : (s.modLands f).vsw = s.vsw := rfl
@[simp] theorem State.modLands_vdsps (s : State) (f : Lands → Lands) : (s.modLands f).vdsps = s.vdsps := rfl
@[simp] theorem State.modLands_win (s : State) (f : Lands → Lands) : (s.modLands f).win = s.win := rfl
@[simp] theorem State.modLands_core (s : State) (f : Lands → Lands) : (s.modLands f).core = s.core := rfl
@[simp] theorem State.modLands_links (s : State) (f : Lands → Lands) : (s.modLands f).links = s.links := rfl
@[simp] theorem State.modLands_fab (s : State) (f : Lands → Lands) : (s.modLands f).fab = s.fab := rfl
@[simp] theorem State.modLands_pool (s : State) (f : Lands → Lands) : (s.modLands f).pool = s.pool := rfl
@[simp] theorem State.modLands_rt (s : State) (f : Lands → Lands) : (s.modLands f).rt = s.rt := rfl
@[simp] theorem State.modLands_net (s : State) (f : Lands → Lands) : (s.modLands f).net = s.net := rfl
@[simp] theorem State.modLands_tm (s : State) (f : Lands → Lands) : (s.modLands f).tm = s.tm := rfl
@[simp] theorem State.modLands_hearth (s : State) (f : Lands → Lands) : (s.modLands f).hearth = s.hearth := rfl
@[simp] theorem State.modLands_iso (s : State) (f : Lands → Lands) : (s.modLands f).iso = s.iso := rfl
@[simp] theorem State.modLands_flt (s : State) (f : Lands → Lands) : (s.modLands f).flt = s.flt := rfl
@[simp] theorem State.modLands_pwr (s : State) (f : Lands → Lands) : (s.modLands f).pwr = s.pwr := rfl
@[simp] theorem State.modLands_cnt (s : State) (f : Lands → Lands) : (s.modLands f).cnt = s.cnt := rfl
@[simp] theorem State.modLands_bist (s : State) (f : Lands → Lands) : (s.modLands f).bist = s.bist := rfl
@[simp] theorem State.modLands_age (s : State) (f : Lands → Lands) : (s.modLands f).age = s.age := rfl
@[simp] theorem State.modLands_jtag (s : State) (f : Lands → Lands) : (s.modLands f).jtag = s.jtag := rfl
@[simp] theorem State.modLands_free (s : State) (f : Lands → Lands) : (s.modLands f).free = s.free := rfl
@[simp] theorem State.modLands_out (s : State) (f : Lands → Lands) : (s.modLands f).out = s.out := rfl
@[simp] theorem State.modLands_pending (s : State) (f : Lands → Lands) : (s.modLands f).pending = s.pending := rfl

@[simp] theorem State.modKept_time (s : State) (f : Retained → Retained) : (s.modKept f).time = s.time := rfl
@[simp] theorem State.modKept_lands (s : State) (f : Retained → Retained) : (s.modKept f).lands = s.lands := rfl
@[simp] theorem State.modKept_boot (s : State) (f : Retained → Retained) : (s.modKept f).boot = s.boot := rfl
@[simp] theorem State.modKept_kept (s : State) (f : Retained → Retained) : (s.modKept f).kept = f s.kept := rfl
@[simp] theorem State.modKept_nv (s : State) (f : Retained → Retained) : (s.modKept f).nv = s.nv := rfl
@[simp] theorem State.modKept_ember (s : State) (f : Retained → Retained) : (s.modKept f).ember = s.ember := rfl
@[simp] theorem State.modKept_ports (s : State) (f : Retained → Retained) : (s.modKept f).ports = s.ports := rfl
@[simp] theorem State.modKept_vsw (s : State) (f : Retained → Retained) : (s.modKept f).vsw = s.vsw := rfl
@[simp] theorem State.modKept_vdsps (s : State) (f : Retained → Retained) : (s.modKept f).vdsps = s.vdsps := rfl
@[simp] theorem State.modKept_win (s : State) (f : Retained → Retained) : (s.modKept f).win = s.win := rfl
@[simp] theorem State.modKept_core (s : State) (f : Retained → Retained) : (s.modKept f).core = s.core := rfl
@[simp] theorem State.modKept_links (s : State) (f : Retained → Retained) : (s.modKept f).links = s.links := rfl
@[simp] theorem State.modKept_fab (s : State) (f : Retained → Retained) : (s.modKept f).fab = s.fab := rfl
@[simp] theorem State.modKept_pool (s : State) (f : Retained → Retained) : (s.modKept f).pool = s.pool := rfl
@[simp] theorem State.modKept_rt (s : State) (f : Retained → Retained) : (s.modKept f).rt = s.rt := rfl
@[simp] theorem State.modKept_net (s : State) (f : Retained → Retained) : (s.modKept f).net = s.net := rfl
@[simp] theorem State.modKept_tm (s : State) (f : Retained → Retained) : (s.modKept f).tm = s.tm := rfl
@[simp] theorem State.modKept_hearth (s : State) (f : Retained → Retained) : (s.modKept f).hearth = s.hearth := rfl
@[simp] theorem State.modKept_iso (s : State) (f : Retained → Retained) : (s.modKept f).iso = s.iso := rfl
@[simp] theorem State.modKept_flt (s : State) (f : Retained → Retained) : (s.modKept f).flt = s.flt := rfl
@[simp] theorem State.modKept_pwr (s : State) (f : Retained → Retained) : (s.modKept f).pwr = s.pwr := rfl
@[simp] theorem State.modKept_cnt (s : State) (f : Retained → Retained) : (s.modKept f).cnt = s.cnt := rfl
@[simp] theorem State.modKept_bist (s : State) (f : Retained → Retained) : (s.modKept f).bist = s.bist := rfl
@[simp] theorem State.modKept_age (s : State) (f : Retained → Retained) : (s.modKept f).age = s.age := rfl
@[simp] theorem State.modKept_jtag (s : State) (f : Retained → Retained) : (s.modKept f).jtag = s.jtag := rfl
@[simp] theorem State.modKept_free (s : State) (f : Retained → Retained) : (s.modKept f).free = s.free := rfl
@[simp] theorem State.modKept_out (s : State) (f : Retained → Retained) : (s.modKept f).out = s.out := rfl
@[simp] theorem State.modKept_pending (s : State) (f : Retained → Retained) : (s.modKept f).pending = s.pending := rfl

@[simp] theorem State.modNv_time (s : State) (f : Nv → Nv) : (s.modNv f).time = s.time := rfl
@[simp] theorem State.modNv_lands (s : State) (f : Nv → Nv) : (s.modNv f).lands = s.lands := rfl
@[simp] theorem State.modNv_boot (s : State) (f : Nv → Nv) : (s.modNv f).boot = s.boot := rfl
@[simp] theorem State.modNv_kept (s : State) (f : Nv → Nv) : (s.modNv f).kept = s.kept := rfl
@[simp] theorem State.modNv_nv (s : State) (f : Nv → Nv) : (s.modNv f).nv = f s.nv := rfl
@[simp] theorem State.modNv_ember (s : State) (f : Nv → Nv) : (s.modNv f).ember = s.ember := rfl
@[simp] theorem State.modNv_ports (s : State) (f : Nv → Nv) : (s.modNv f).ports = s.ports := rfl
@[simp] theorem State.modNv_vsw (s : State) (f : Nv → Nv) : (s.modNv f).vsw = s.vsw := rfl
@[simp] theorem State.modNv_vdsps (s : State) (f : Nv → Nv) : (s.modNv f).vdsps = s.vdsps := rfl
@[simp] theorem State.modNv_win (s : State) (f : Nv → Nv) : (s.modNv f).win = s.win := rfl
@[simp] theorem State.modNv_core (s : State) (f : Nv → Nv) : (s.modNv f).core = s.core := rfl
@[simp] theorem State.modNv_links (s : State) (f : Nv → Nv) : (s.modNv f).links = s.links := rfl
@[simp] theorem State.modNv_fab (s : State) (f : Nv → Nv) : (s.modNv f).fab = s.fab := rfl
@[simp] theorem State.modNv_pool (s : State) (f : Nv → Nv) : (s.modNv f).pool = s.pool := rfl
@[simp] theorem State.modNv_rt (s : State) (f : Nv → Nv) : (s.modNv f).rt = s.rt := rfl
@[simp] theorem State.modNv_net (s : State) (f : Nv → Nv) : (s.modNv f).net = s.net := rfl
@[simp] theorem State.modNv_tm (s : State) (f : Nv → Nv) : (s.modNv f).tm = s.tm := rfl
@[simp] theorem State.modNv_hearth (s : State) (f : Nv → Nv) : (s.modNv f).hearth = s.hearth := rfl
@[simp] theorem State.modNv_iso (s : State) (f : Nv → Nv) : (s.modNv f).iso = s.iso := rfl
@[simp] theorem State.modNv_flt (s : State) (f : Nv → Nv) : (s.modNv f).flt = s.flt := rfl
@[simp] theorem State.modNv_pwr (s : State) (f : Nv → Nv) : (s.modNv f).pwr = s.pwr := rfl
@[simp] theorem State.modNv_cnt (s : State) (f : Nv → Nv) : (s.modNv f).cnt = s.cnt := rfl
@[simp] theorem State.modNv_bist (s : State) (f : Nv → Nv) : (s.modNv f).bist = s.bist := rfl
@[simp] theorem State.modNv_age (s : State) (f : Nv → Nv) : (s.modNv f).age = s.age := rfl
@[simp] theorem State.modNv_jtag (s : State) (f : Nv → Nv) : (s.modNv f).jtag = s.jtag := rfl
@[simp] theorem State.modNv_free (s : State) (f : Nv → Nv) : (s.modNv f).free = s.free := rfl
@[simp] theorem State.modNv_out (s : State) (f : Nv → Nv) : (s.modNv f).out = s.out := rfl
@[simp] theorem State.modNv_pending (s : State) (f : Nv → Nv) : (s.modNv f).pending = s.pending := rfl

@[simp] theorem State.modHearth_time (s : State) (f : Hearth → Hearth) : (s.modHearth f).time = s.time := rfl
@[simp] theorem State.modHearth_lands (s : State) (f : Hearth → Hearth) : (s.modHearth f).lands = s.lands := rfl
@[simp] theorem State.modHearth_boot (s : State) (f : Hearth → Hearth) : (s.modHearth f).boot = s.boot := rfl
@[simp] theorem State.modHearth_kept (s : State) (f : Hearth → Hearth) : (s.modHearth f).kept = s.kept := rfl
@[simp] theorem State.modHearth_nv (s : State) (f : Hearth → Hearth) : (s.modHearth f).nv = s.nv := rfl
@[simp] theorem State.modHearth_ember (s : State) (f : Hearth → Hearth) : (s.modHearth f).ember = s.ember := rfl
@[simp] theorem State.modHearth_ports (s : State) (f : Hearth → Hearth) : (s.modHearth f).ports = s.ports := rfl
@[simp] theorem State.modHearth_vsw (s : State) (f : Hearth → Hearth) : (s.modHearth f).vsw = s.vsw := rfl
@[simp] theorem State.modHearth_vdsps (s : State) (f : Hearth → Hearth) : (s.modHearth f).vdsps = s.vdsps := rfl
@[simp] theorem State.modHearth_win (s : State) (f : Hearth → Hearth) : (s.modHearth f).win = s.win := rfl
@[simp] theorem State.modHearth_core (s : State) (f : Hearth → Hearth) : (s.modHearth f).core = s.core := rfl
@[simp] theorem State.modHearth_links (s : State) (f : Hearth → Hearth) : (s.modHearth f).links = s.links := rfl
@[simp] theorem State.modHearth_fab (s : State) (f : Hearth → Hearth) : (s.modHearth f).fab = s.fab := rfl
@[simp] theorem State.modHearth_pool (s : State) (f : Hearth → Hearth) : (s.modHearth f).pool = s.pool := rfl
@[simp] theorem State.modHearth_rt (s : State) (f : Hearth → Hearth) : (s.modHearth f).rt = s.rt := rfl
@[simp] theorem State.modHearth_net (s : State) (f : Hearth → Hearth) : (s.modHearth f).net = s.net := rfl
@[simp] theorem State.modHearth_tm (s : State) (f : Hearth → Hearth) : (s.modHearth f).tm = s.tm := rfl
@[simp] theorem State.modHearth_hearth (s : State) (f : Hearth → Hearth) : (s.modHearth f).hearth = f s.hearth := rfl
@[simp] theorem State.modHearth_iso (s : State) (f : Hearth → Hearth) : (s.modHearth f).iso = s.iso := rfl
@[simp] theorem State.modHearth_flt (s : State) (f : Hearth → Hearth) : (s.modHearth f).flt = s.flt := rfl
@[simp] theorem State.modHearth_pwr (s : State) (f : Hearth → Hearth) : (s.modHearth f).pwr = s.pwr := rfl
@[simp] theorem State.modHearth_cnt (s : State) (f : Hearth → Hearth) : (s.modHearth f).cnt = s.cnt := rfl
@[simp] theorem State.modHearth_bist (s : State) (f : Hearth → Hearth) : (s.modHearth f).bist = s.bist := rfl
@[simp] theorem State.modHearth_age (s : State) (f : Hearth → Hearth) : (s.modHearth f).age = s.age := rfl
@[simp] theorem State.modHearth_jtag (s : State) (f : Hearth → Hearth) : (s.modHearth f).jtag = s.jtag := rfl
@[simp] theorem State.modHearth_free (s : State) (f : Hearth → Hearth) : (s.modHearth f).free = s.free := rfl
@[simp] theorem State.modHearth_out (s : State) (f : Hearth → Hearth) : (s.modHearth f).out = s.out := rfl
@[simp] theorem State.modHearth_pending (s : State) (f : Hearth → Hearth) : (s.modHearth f).pending = s.pending := rfl

@[simp] theorem State.modIso_time (s : State) (f : Iso → Iso) : (s.modIso f).time = s.time := rfl
@[simp] theorem State.modIso_lands (s : State) (f : Iso → Iso) : (s.modIso f).lands = s.lands := rfl
@[simp] theorem State.modIso_boot (s : State) (f : Iso → Iso) : (s.modIso f).boot = s.boot := rfl
@[simp] theorem State.modIso_kept (s : State) (f : Iso → Iso) : (s.modIso f).kept = s.kept := rfl
@[simp] theorem State.modIso_nv (s : State) (f : Iso → Iso) : (s.modIso f).nv = s.nv := rfl
@[simp] theorem State.modIso_ember (s : State) (f : Iso → Iso) : (s.modIso f).ember = s.ember := rfl
@[simp] theorem State.modIso_ports (s : State) (f : Iso → Iso) : (s.modIso f).ports = s.ports := rfl
@[simp] theorem State.modIso_vsw (s : State) (f : Iso → Iso) : (s.modIso f).vsw = s.vsw := rfl
@[simp] theorem State.modIso_vdsps (s : State) (f : Iso → Iso) : (s.modIso f).vdsps = s.vdsps := rfl
@[simp] theorem State.modIso_win (s : State) (f : Iso → Iso) : (s.modIso f).win = s.win := rfl
@[simp] theorem State.modIso_core (s : State) (f : Iso → Iso) : (s.modIso f).core = s.core := rfl
@[simp] theorem State.modIso_links (s : State) (f : Iso → Iso) : (s.modIso f).links = s.links := rfl
@[simp] theorem State.modIso_fab (s : State) (f : Iso → Iso) : (s.modIso f).fab = s.fab := rfl
@[simp] theorem State.modIso_pool (s : State) (f : Iso → Iso) : (s.modIso f).pool = s.pool := rfl
@[simp] theorem State.modIso_rt (s : State) (f : Iso → Iso) : (s.modIso f).rt = s.rt := rfl
@[simp] theorem State.modIso_net (s : State) (f : Iso → Iso) : (s.modIso f).net = s.net := rfl
@[simp] theorem State.modIso_tm (s : State) (f : Iso → Iso) : (s.modIso f).tm = s.tm := rfl
@[simp] theorem State.modIso_hearth (s : State) (f : Iso → Iso) : (s.modIso f).hearth = s.hearth := rfl
@[simp] theorem State.modIso_iso (s : State) (f : Iso → Iso) : (s.modIso f).iso = f s.iso := rfl
@[simp] theorem State.modIso_flt (s : State) (f : Iso → Iso) : (s.modIso f).flt = s.flt := rfl
@[simp] theorem State.modIso_pwr (s : State) (f : Iso → Iso) : (s.modIso f).pwr = s.pwr := rfl
@[simp] theorem State.modIso_cnt (s : State) (f : Iso → Iso) : (s.modIso f).cnt = s.cnt := rfl
@[simp] theorem State.modIso_bist (s : State) (f : Iso → Iso) : (s.modIso f).bist = s.bist := rfl
@[simp] theorem State.modIso_age (s : State) (f : Iso → Iso) : (s.modIso f).age = s.age := rfl
@[simp] theorem State.modIso_jtag (s : State) (f : Iso → Iso) : (s.modIso f).jtag = s.jtag := rfl
@[simp] theorem State.modIso_free (s : State) (f : Iso → Iso) : (s.modIso f).free = s.free := rfl
@[simp] theorem State.modIso_out (s : State) (f : Iso → Iso) : (s.modIso f).out = s.out := rfl
@[simp] theorem State.modIso_pending (s : State) (f : Iso → Iso) : (s.modIso f).pending = s.pending := rfl

@[simp] theorem State.modAge_time (s : State) (f : Ageing → Ageing) : (s.modAge f).time = s.time := rfl
@[simp] theorem State.modAge_lands (s : State) (f : Ageing → Ageing) : (s.modAge f).lands = s.lands := rfl
@[simp] theorem State.modAge_boot (s : State) (f : Ageing → Ageing) : (s.modAge f).boot = s.boot := rfl
@[simp] theorem State.modAge_kept (s : State) (f : Ageing → Ageing) : (s.modAge f).kept = s.kept := rfl
@[simp] theorem State.modAge_nv (s : State) (f : Ageing → Ageing) : (s.modAge f).nv = s.nv := rfl
@[simp] theorem State.modAge_ember (s : State) (f : Ageing → Ageing) : (s.modAge f).ember = s.ember := rfl
@[simp] theorem State.modAge_ports (s : State) (f : Ageing → Ageing) : (s.modAge f).ports = s.ports := rfl
@[simp] theorem State.modAge_vsw (s : State) (f : Ageing → Ageing) : (s.modAge f).vsw = s.vsw := rfl
@[simp] theorem State.modAge_vdsps (s : State) (f : Ageing → Ageing) : (s.modAge f).vdsps = s.vdsps := rfl
@[simp] theorem State.modAge_win (s : State) (f : Ageing → Ageing) : (s.modAge f).win = s.win := rfl
@[simp] theorem State.modAge_core (s : State) (f : Ageing → Ageing) : (s.modAge f).core = s.core := rfl
@[simp] theorem State.modAge_links (s : State) (f : Ageing → Ageing) : (s.modAge f).links = s.links := rfl
@[simp] theorem State.modAge_fab (s : State) (f : Ageing → Ageing) : (s.modAge f).fab = s.fab := rfl
@[simp] theorem State.modAge_pool (s : State) (f : Ageing → Ageing) : (s.modAge f).pool = s.pool := rfl
@[simp] theorem State.modAge_rt (s : State) (f : Ageing → Ageing) : (s.modAge f).rt = s.rt := rfl
@[simp] theorem State.modAge_net (s : State) (f : Ageing → Ageing) : (s.modAge f).net = s.net := rfl
@[simp] theorem State.modAge_tm (s : State) (f : Ageing → Ageing) : (s.modAge f).tm = s.tm := rfl
@[simp] theorem State.modAge_hearth (s : State) (f : Ageing → Ageing) : (s.modAge f).hearth = s.hearth := rfl
@[simp] theorem State.modAge_iso (s : State) (f : Ageing → Ageing) : (s.modAge f).iso = s.iso := rfl
@[simp] theorem State.modAge_flt (s : State) (f : Ageing → Ageing) : (s.modAge f).flt = s.flt := rfl
@[simp] theorem State.modAge_pwr (s : State) (f : Ageing → Ageing) : (s.modAge f).pwr = s.pwr := rfl
@[simp] theorem State.modAge_cnt (s : State) (f : Ageing → Ageing) : (s.modAge f).cnt = s.cnt := rfl
@[simp] theorem State.modAge_bist (s : State) (f : Ageing → Ageing) : (s.modAge f).bist = s.bist := rfl
@[simp] theorem State.modAge_age (s : State) (f : Ageing → Ageing) : (s.modAge f).age = f s.age := rfl
@[simp] theorem State.modAge_jtag (s : State) (f : Ageing → Ageing) : (s.modAge f).jtag = s.jtag := rfl
@[simp] theorem State.modAge_free (s : State) (f : Ageing → Ageing) : (s.modAge f).free = s.free := rfl
@[simp] theorem State.modAge_out (s : State) (f : Ageing → Ageing) : (s.modAge f).out = s.out := rfl
@[simp] theorem State.modAge_pending (s : State) (f : Ageing → Ageing) : (s.modAge f).pending = s.pending := rfl

@[simp] theorem State.modJtag_time (s : State) (f : Jtag → Jtag) : (s.modJtag f).time = s.time := rfl
@[simp] theorem State.modJtag_lands (s : State) (f : Jtag → Jtag) : (s.modJtag f).lands = s.lands := rfl
@[simp] theorem State.modJtag_boot (s : State) (f : Jtag → Jtag) : (s.modJtag f).boot = s.boot := rfl
@[simp] theorem State.modJtag_kept (s : State) (f : Jtag → Jtag) : (s.modJtag f).kept = s.kept := rfl
@[simp] theorem State.modJtag_nv (s : State) (f : Jtag → Jtag) : (s.modJtag f).nv = s.nv := rfl
@[simp] theorem State.modJtag_ember (s : State) (f : Jtag → Jtag) : (s.modJtag f).ember = s.ember := rfl
@[simp] theorem State.modJtag_ports (s : State) (f : Jtag → Jtag) : (s.modJtag f).ports = s.ports := rfl
@[simp] theorem State.modJtag_vsw (s : State) (f : Jtag → Jtag) : (s.modJtag f).vsw = s.vsw := rfl
@[simp] theorem State.modJtag_vdsps (s : State) (f : Jtag → Jtag) : (s.modJtag f).vdsps = s.vdsps := rfl
@[simp] theorem State.modJtag_win (s : State) (f : Jtag → Jtag) : (s.modJtag f).win = s.win := rfl
@[simp] theorem State.modJtag_core (s : State) (f : Jtag → Jtag) : (s.modJtag f).core = s.core := rfl
@[simp] theorem State.modJtag_links (s : State) (f : Jtag → Jtag) : (s.modJtag f).links = s.links := rfl
@[simp] theorem State.modJtag_fab (s : State) (f : Jtag → Jtag) : (s.modJtag f).fab = s.fab := rfl
@[simp] theorem State.modJtag_pool (s : State) (f : Jtag → Jtag) : (s.modJtag f).pool = s.pool := rfl
@[simp] theorem State.modJtag_rt (s : State) (f : Jtag → Jtag) : (s.modJtag f).rt = s.rt := rfl
@[simp] theorem State.modJtag_net (s : State) (f : Jtag → Jtag) : (s.modJtag f).net = s.net := rfl
@[simp] theorem State.modJtag_tm (s : State) (f : Jtag → Jtag) : (s.modJtag f).tm = s.tm := rfl
@[simp] theorem State.modJtag_hearth (s : State) (f : Jtag → Jtag) : (s.modJtag f).hearth = s.hearth := rfl
@[simp] theorem State.modJtag_iso (s : State) (f : Jtag → Jtag) : (s.modJtag f).iso = s.iso := rfl
@[simp] theorem State.modJtag_flt (s : State) (f : Jtag → Jtag) : (s.modJtag f).flt = s.flt := rfl
@[simp] theorem State.modJtag_pwr (s : State) (f : Jtag → Jtag) : (s.modJtag f).pwr = s.pwr := rfl
@[simp] theorem State.modJtag_cnt (s : State) (f : Jtag → Jtag) : (s.modJtag f).cnt = s.cnt := rfl
@[simp] theorem State.modJtag_bist (s : State) (f : Jtag → Jtag) : (s.modJtag f).bist = s.bist := rfl
@[simp] theorem State.modJtag_age (s : State) (f : Jtag → Jtag) : (s.modJtag f).age = s.age := rfl
@[simp] theorem State.modJtag_jtag (s : State) (f : Jtag → Jtag) : (s.modJtag f).jtag = f s.jtag := rfl
@[simp] theorem State.modJtag_free (s : State) (f : Jtag → Jtag) : (s.modJtag f).free = s.free := rfl
@[simp] theorem State.modJtag_out (s : State) (f : Jtag → Jtag) : (s.modJtag f).out = s.out := rfl
@[simp] theorem State.modJtag_pending (s : State) (f : Jtag → Jtag) : (s.modJtag f).pending = s.pending := rfl

end Sys2Proof.Machine
end

