-- ==== Sys2Proof/Safety.lean ====
section
/-! DEFINITION. What counts as a safe run, and the terms in which the statements speak of one: what a command leaves
behind, when an event of the main die takes place, and when Ember serves a command. -/

namespace Sys2Proof.Machine

open Sys2Proof

/-- The step from `s` neither faults nor is refused. -/
def safeStep (s : State) : Bool :=
  match step s with
  | .next _ => true
  | .fault _ => false
  | .refused _ => false

/-- `n` steps from `s`, each of them safe. -/
def safeRun : Nat → State → Bool
  | 0, _ => true
  | n + 1, s =>
    match step s with
    | .next t => safeRun n t
    | .fault _ => false
    | .refused _ => false

/-- State a command issued in `s` leaves when its own effect leaves `t`: the other agents have taken what `t` hands
them, and the queue is as it was. -/
def State.after (s t : State) : State := { t.settle with pending := s.pending }

/-- State after command row `op` that came on path `c` from partition `p` as request `q`, when its body answers `a`. -/
def State.answered (s : State) (a : Ans) (c : Path) (p op : Nat) (q : Req) : State := s.after (a.deliver c p op q 0)

/-- The data path is in service (R250, R460, R496): its events happen. -/
def State.working (s : State) : Prop := s.inService = true

/-- Ember takes command `k`, arriving on path `c` as request `q` of partition `p`, past the checks of orders 1 to 6 of
R67: its mailbox service runs, the path exists and is not busy, the frame is well made, and the caller may issue it. -/
structure State.serves (s : State) (k : Cmd) (c : Path) (p : Nat) (q : Req) : Prop where
  /-- Ember's mailbox service runs (R54). -/
  ready : s.ember.fwReady = true
  /-- The path attributes its commands to partition `p` (R54, R56). -/
  path : s.partOf c = some p
  /-- No other command of the partition is executing (R72). -/
  idle : tlook s.ember.running p = none
  /-- LENGTH is at most 4,064 (R67 order 1). -/
  fits : q.length ≤ 4064
  /-- LENGTH is a multiple of 4 (R67 order 1). -/
  whole : q.length % 4 = 0
  /-- The reserved header fields and TARGET are in order (R67 order 3). -/
  header : headerFault q = none
  /-- The module is not in Smoulder mode, or the opcode is allowed there (R67 order 4, R68). -/
  mode : s.ember.smoulder = true → smoulderAllows k.op = true
  /-- Only partition 0 acts on behalf of another (R67 order 5, R74). -/
  behalf : q.onBehalf = true → p = 0
  /-- The attributed partition may issue the command (R67 order 5). -/
  rights : k.allowed (whoOf c p q) q s = true
  /-- LENGTH matches the command's definition (R67 order 6). -/
  length : k.lenOk q = true

/-- Nothing an event has left for another agent: no reset to announce, no reaction owed, no fault fresh, no drain, tracker, instance,
stream or packet in hand, no receive queue waiting, no cluster that has been started, no image asked for. -/
structure State.Calm (s : State) : Prop where
  /-- No warm reset is still to be announced (R80). -/
  announce : s.boot.announce = none
  /-- No reaction is owed (R434, R437). -/
  due : s.flt.due = []
  /-- No fault was recorded by the command in hand (R438). -/
  fresh : s.flt.fresh = []
  /-- No drain runs (R140). -/
  drains : s.win.drains = []
  /-- No tracker entry is to be freed (R151). -/
  trackers : Win.freeTrackers s.win = s.win
  /-- Retort holds no instance (R289). -/
  instances : s.rt.inst = []
  /-- No counter stream is defined (R513). -/
  streams : s.cnt.streams = []
  /-- No packet waits in an issue queue (R167). -/
  issue : s.core.issue = []
  /-- No attachment has formed a packet (R154). -/
  formed : s.core.formed = []
  /-- The core has handed no packet to an attachment (R176). -/
  delivered : s.core.delivered = []
  /-- No WRED average is kept (R373). -/
  averages : s.tm.avg = []
  /-- No logical port is in use (R325). -/
  lports : s.net.lports = []
  /-- No vNIC exists (R340). -/
  vnics : s.net.vnics = []
  /-- No frame waits for a receive descriptor (R356). -/
  waiting : s.net.rxWait = []
  /-- No Hearth cluster has been started (R390). -/
  clusters : s.hearth.clusters = []
  /-- The start sequence does not wait for a peer's image (R468). -/
  phase : s.boot.phase ≠ .peerDownload

end Sys2Proof.Machine
end

