-- ==== Sys2Proof/Laws/Outcome.lean ====
section
/-! SUPPORT. What exec's shared operations answer: an event that takes place, one that does not, and a command Ember
serves. -/

namespace Sys2Proof.Machine

open Sys2Proof

/-- A command of the block always answers a next state. -/
theorem State.done_eq (s t : State) : s.done t = .next (s.after t) := rfl

/-- What a command leaves has the queue as it was. -/
@[simp] theorem State.after_pending (s t : State) : (s.after t).pending = s.pending := rfl

/-- An event of the main die takes place while the die is out of reset (R460). -/
theorem State.onDie_up {s : State} (h : s.dieUp = true) (t : State) : s.onDie t = .next (s.after t) := by
  simp [State.onDie, h, State.done_eq]

/-- An event of the main die does nothing while the die is in reset (R460). -/
theorem State.onDie_down {s : State} (h : s.dieUp = false) (t : State) : s.onDie t = .next (s.after s) := by
  simp [State.onDie, h, State.done_eq]

/-- A die that works is out of reset (R460). -/
theorem State.working.dieUp {s : State} (h : s.working) : s.dieUp = true := by
  have : s.inService = true := h
  simp only [State.inService, Bool.and_eq_true] at this
  exact this.1.1

/-- An event of the data path takes place while the die works (R460, R496). -/
theorem State.live_working {s : State} (h : s.working) (t : State) : s.live t = .next (s.after t) := by
  simp [State.live, show s.inService = true from h, State.done_eq]

/-- The data path does nothing while the die is in reset or its load is shed (R460, R496). -/
theorem State.live_not {s : State} (h : ¬ s.working) (t : State) : s.live t = .next (s.after s) := by
  simp only [State.live, if_neg (show ¬ s.inService = true from h), State.done_eq]

/-- Past the checks of orders 1 to 6, a command is its body (R67). -/
theorem State.serves.runCmd {s : State} {k : Cmd} {c : Path} {p : Nat} {q : Req} (h : s.serves k c p q) :
    Machine.runCmd k c p q s = k.body (whoOf c p q) q s := by
  have h1 := h.mode; have h2 := h.behalf; have h3 := h.rights
  have hf := h.fits
  simp only [Machine.runCmd, h.header, h.length, h.whole, h3]
  have e1 : ¬ (4064 < q.length ∨ 0 ≠ 0) := by omega
  have e2 : ¬ (s.ember.smoulder = true ∧ (!smoulderAllows k.op) = true) := by
    rintro ⟨a, b⟩; simp [h1 a] at b
  have e3 : ¬ (((whoOf c p q).onBehalf = true ∧ (whoOf c p q).caller ≠ 0) ∨ (!true) = true) := by
    rintro (⟨a, b⟩ | a)
    · exact b (h2 a)
    · cases a
  rw [if_neg e1, if_neg e2, if_neg e3]; rfl

/-- A command Ember serves answers what its body answers (R67). -/
theorem State.serves.direct {s : State} {k : Cmd} {c : Path} {p : Nat} {q : Req} (h : s.serves k c p q) :
    s.done (Machine.direct k c q s) = .next (s.answered (k.body (whoOf c p q) q s) c p k.op q) := by
  rw [State.done_eq, State.answered]
  simp [Machine.direct, h.ready, h.path, h.idle, h.runCmd]

end Sys2Proof.Machine
end

