-- ==== Sys2Proof/WellFormed.lean ====
section
/-! DEFINITION. Well-formed commands: every operand in the range the specification gives it. A command
that is not well formed names something the module does not have. -/

namespace Sys2Proof

/-- A transmit descriptor has 32 bytes. -/
def TxRaw.wf (d : TxRaw) : Bool := d.desc.length == 32

/-- An optional number below `n`. -/
def optBelow (n : Nat) : Option Nat → Bool
  | none => true
  | some v => decide (v < n)

/-- Sizes of a memory access of a core. -/
def accessSize (n : Nat) : Bool := n == 1 || n == 2 || n == 4 || n == 8

/-- A path names a partition, cluster or module that exists (R54, R245). -/
def Path.wf : Path → Bool
  | .page p => decide (p < 32)
  | .vdm p => decide (p < 32)
  | .sideband => true
  | .hearth c => decide (c < 4)
  | .relay m => decide (m < 64)

/-- The header fields fit their widths, and the payload its buffer (R66). -/
def Req.wf (q : Req) : Bool :=
  decide (q.flags < 2 ^ 16) && decide (q.length < 2 ^ 32) && decide (q.target < 256) &&
    decide (q.payload.length ≤ 4064)

/-- A link and its four receive lanes (R196). -/
def LinkAlign.wf (a : LinkAlign) : Bool := decide (a.l < 16) && decide (a.rx.length = 4)

/-- A receive lane (R196). -/
def LaneRun.wf (a : LaneRun) : Bool := decide (a.lane < 4)

/-- A PCIe port (R116). -/
def PerstPulse.wf (a : PerstPulse) : Bool := decide (a.port < 40)

/-- The flit header fields fit their widths (R197). -/
def Flit.wf (f : Flit) : Bool :=
  decide (f.ftype < 16) && decide (f.vc < 8) && decide (f.units < 16) && decide (f.first < 16) &&
    decide (f.last < 16) && decide (f.payload.length ≤ 15)

/-- The fields of a TRAIN record fit their widths (R217). -/
def TrainRec.wf (r : TrainRec) : Bool :=
  decide (r.module < 256) && decide (r.link < 256) && decide (r.cause < 256) && decide (r.turnNs < 65536)

/-- A request has a length and a tag of the width the link gives it. -/
def MemReq.wf (r : MemReq) : Bool :=
  decide (r.tag < 2 ^ 14) && decide (r.rid < 65536) && decide (r.atField < 4) && decide (r.len ≤ 4096) &&
    decide (r.data.length ≤ 4096)

/-- A configuration request names an aligned register of the 4 KiB space and a function by bus, device and function. -/
def CfgReq.wf (r : CfgReq) : Bool :=
  decide (r.reg < 4096) && r.reg % 4 == 0 && decide (r.bus < 256) && decide (r.dev < 32) && decide (r.fn < 8)

/-- The cell header fields of a packet fit their widths (R154). -/
def Pkt.wf (p : Pkt) : Bool :=
  decide (p.part < 32) && decide (p.smod < 64) && decide (p.src < 80) && decide (p.dst < 80) &&
    decide (p.dmod < 64) && decide (p.tc < 8) && decide (p.colour < 3) && decide (p.ptype < 8)

/-- The fields of an engine packet fit their widths (R309). -/
def EngPkt.wf (k : EngPkt) : Bool :=
  decide (k.group < 4096) && decide (k.pkind < 4) && decide (k.gen < 256) && decide (k.smod < 64)

/-- What is lost is a port or a module that can exist. -/
def LostTarget.wf : LostTarget → Bool
  | .port n => decide (n < 40)
  | .module m => decide (m < 64)

/-- A clocked domain of the module. -/
def ClkDom.wf : ClkDom → Bool
  | .fabric => true
  | .ethernet => true
  | .station n => decide (n < 10)

/-- A register space of a partition, function or cluster that can exist. -/
def RegSpace.wf : RegSpace → Bool
  | .bar0 p => decide (p < 32)
  | .bar2 p => decide (p < 32)
  | .rom p => decide (p < 32)
  | .vnic f => decide (f < 1024)
  | .cluster c => decide (c < 4)

/-- A pool access names a sod number and a byte within it. -/
def PoolAcc.wf : PoolAcc → Bool
  | .queued => true
  | .direct _ sod off _ => decide (sod < 8192) && decide (off < 2 ^ 30)

/-- Every operand of the command is in its range. -/
def Instr.wf : Instr → Bool
  | .go pg _ => decide (pg < 36)
  | .ack pg => decide (pg < 36)
  | .commandTaken part => decide (part < 32)
  | .registerWrite sp off _ _ => sp.wf && decide (off < 1048576)
  | .mctpCommandMessage c msgTag _ _ => c.wf && decide (msgTag < 8)
  | .setEndpointId c _ eid => c.wf && decide (eid < 256)
  | .getEndpointId c => c.wf
  | .getMctpVersionSupport c msgType => c.wf && decide (msgType < 256)
  | .getMessageTypeSupport c => c.wf
  | .getVendorDefinedMessageSupport c selector => c.wf && decide (selector < 256)
  | .dynamicAddressAssignment addr => decide (addr < 128)
  | .getTid => true
  | .getPldmVersion type => decide (type < 256)
  | .getPldmTypes => true
  | .getPldmCommands type => decide (type < 256)
  | .getPdrRepositoryInfo => true
  | .getPdr record => decide (record < 4294967296)
  | .getSensorReading sensor => decide (sensor < 65536)
  | .nop c q => c.wf && q.wf
  | .deviceInfo c q => c.wf && q.wf
  | .getOpStatus c q => c.wf && q.wf
  | .warmReset c q => c.wf && q.wf
  | .warmResetDelayExpiry => true
  | .coreGetStatus c q => c.wf && q.wf
  | .coreSetConfig c q => c.wf && q.wf
  | .hearthCtl c q => c.wf && q.wf
  | .fwGetStatus c q => c.wf && q.wf
  | .fwBegin c q => c.wf && q.wf
  | .fwEraseComplete _ => true
  | .fwWrite c q => c.wf && q.wf
  | .fwFinish c q => c.wf && q.wf
  | .fwVerifyComplete _ => true
  | .fwActivate c q => c.wf && q.wf
  | .hostMemoryRequest port r => decide (port < 40) && r.wf
  | .deviceMemoryRequest port r => decide (port < 40) && r.wf
  | .admissionRetry _ => true
  | .npSlotReserved port _ => decide (port < 80)
  | .egressTlpIssue port => decide (port < 40)
  | .pcieAckReceived port => decide (port < 40)
  | .completionReceived port _ => decide (port < 40)
  | .pcieMessageReceived port _ _ => decide (port < 40)
  | .completionTimeout port tag => decide (port < 40) && decide (tag < 1024)
  | .tagQuarantineEnd port tag => decide (port < 40) && decide (tag < 1024)
  | .pcieLinkDown port => decide (port < 40)
  | .configurationRequest p r => decide (p < 32) && r.wf
  | .barWrite p k fn bar _ => decide (p < 32) && decide (k < 48) && decide (fn < 65536) && decide (bar < 6)
  | .memorySpaceEnableWrite p k fn _ => decide (p < 32) && decide (k < 48) && decide (fn < 65536)
  | .powerControllerControlWrite p k _ => decide (p < 32) && decide (k < 48)
  | .dpcTriggerStatusClear p k => decide (p < 32) && decide (k < 48)
  | .dpcSoftwareTrigger p k => decide (p < 32) && decide (k < 48)
  | .secondaryBusReset p k => decide (p < 32) && decide (k < 48)
  | .functionFlr p k fn => decide (p < 32) && decide (k < 48) && decide (fn < 65536)
  | .mgmtFunctionFlr p => decide (p < 32)
  | .unplugTimerExpiry p k => decide (p < 32) && decide (k < 48)
  | .targetLost t => t.wf
  | .vdspDrainEnd p k => decide (p < 32) && decide (k < 48)
  | .presenceChange port _ => decide (port < 40)
  | .perstHoldExpiry port => decide (port < 40)
  | .dataLinkActive port _ _ _ => decide (port < 40)
  | .linkDetectTimeout port => decide (port < 40)
  | .configWaitExpiry port => decide (port < 40)
  | .deviceNotReadyTimeout port => decide (port < 40)
  | .upstreamPerstNAssert a => a.wf
  | .upstreamPerstNRelease port => decide (port < 40)
  | .hotReset port => decide (port < 40)
  | .portGetStatus c q => c.wf && q.wf
  | .portSetConfig c q => c.wf && q.wf
  | .portReset c q => c.wf && q.wf
  | .portResetComplete port _ => decide (port < 40)
  | .vdspBind c q => c.wf && q.wf
  | .vdspUnbind c q => c.wf && q.wf
  | .vdspGet c q => c.wf && q.wf
  | .fenceTimeExpiry port fn => decide (port < 40) && decide (fn < 65536)
  | .winStage c q => c.wf && q.wf
  | .winCommit c q => c.wf && q.wf
  | .commitDrainWaitExpiry part => decide (part < 32)
  | .drainComplete tracker => decide (tracker < 8)
  | .winDiscard c q => c.wf && q.wf
  | .winRead c q => c.wf && q.wf
  | .devShare c q => c.wf && q.wf
  | .devShareComplete port _ => decide (port < 40)
  | .migrateFence c q => c.wf && q.wf
  | .planeCellTime plane => decide (plane < 4)
  | .iterationMeasurement _ => true
  | .iterationFastLower plane => decide (plane < 4)
  | .spillReadback i o tc _ => decide (i < 80) && decide (o < 80) && decide (tc < 8)
  | .flitTime l => decide (l < 16)
  | .flitReceived l head rest _ _ => decide (l < 16) && decide (head.length = 12) && decide (rest.length = 244)
  | .nakTimeout l => decide (l < 16)
  | .replayTimeout l => decide (l < 16)
  | .lresetExpiry l => decide (l < 16)
  | .electricalIdleExpiry l => decide (l < 16)
  | .beaconReceived l rec => decide (l < 16) && rec.wf
  | .detectTimeout l => decide (l < 16)
  | .equalizationComplete l lanes => decide (l < 16) && decide (lanes < 16)
  | .equalizeTimeout l => decide (l < 16)
  | .alignComplete a => a.wf
  | .alignTimeout l => decide (l < 16)
  | .trainingRetryWaitExpiry l => decide (l < 16)
  | .trainRecordReceived l rec _ => decide (l < 16) && rec.wf
  | .laneLockLost l a => decide (l < 16) && a.wf
  | .signalLost l lane => decide (l < 16) && decide (lane < 4)
  | .frefclkLoss => true
  | .linkGetStatus c q => c.wf && q.wf
  | .linkSet c q => c.wf && q.wf
  | .linkReset c q => c.wf && q.wf
  | .linkHandleTimeout l => decide (l < 16)
  | .fabricPacketReceived l pkt => decide (l < 16) && pkt.wf
  | .doneReport m tc _ => decide (m < 64) && decide (tc < 8)
  | .writeAckReceived _ _ => true
  | .relayedCommand m _ _ _ => decide (m < 64)
  | .extractingAnnouncement m _ => decide (m < 64)
  | .getVersion l => decide (l < 16)
  | .getCapabilities l => decide (l < 16)
  | .negotiateAlgorithms l => decide (l < 16)
  | .getDigests l => decide (l < 16)
  | .getCertificate l _ _ => decide (l < 16)
  | .challenge l _ => decide (l < 16)
  | .getMeasurements l => decide (l < 16)
  | .spdmResponseReceived l _ => decide (l < 16)
  | .spdmRetryTimer l => decide (l < 16)
  | .failoverTimer l => decide (l < 16)
  | .revertTimer d j => decide (d < 64) && decide (j < 4)
  | .flowMoveComplete d b => decide (d < 64) && decide (b < 16)
  | .extractReq => true
  | .extractFilterExpiry => true
  | .neighbourRerouteReport m => decide (m < 64)
  | .extractDrainComplete => true
  | .extractTimeout => true
  | .routeSet c q => c.wf && q.wf
  | .routeRead c q => c.wf && q.wf
  | .fabGetModule c q => c.wf && q.wf
  | .fabAdmit c q => c.wf && q.wf
  | .fabWithdraw c q => c.wf && q.wf
  | .fabRelay c q => c.wf && q.wf
  | .relayResponse _ _ => true
  | .relayTimeout part => decide (part < 32)
  | .fabSetConfig c q => c.wf && q.wf
  | .peerImageRequest m => decide (m < 64)
  | .poolAccess m a _ => decide (m < 4) && a.wf
  | .zeroingComplete sod => decide (sod < 8192)
  | .scrubComplete sod _ => decide (sod < 8192)
  | .poolFenceComplete _ => true
  | .patrolScrubRead sod line _ => decide (sod < 8192) && decide (line < 16777216)
  | .channelLost ch => decide (ch < 16)
  | .poolGetStatus c q => c.wf && q.wf
  | .poolConfig c q => c.wf && q.wf
  | .sodAssign c q => c.wf && q.wf
  | .sodRelease c q => c.wf && q.wf
  | .sodQuery c q => c.wf && q.wf
  | .sodSet c q => c.wf && q.wf
  | .contribution g slot _ _ _ _ => decide (g < 4096) && decide (slot < 256)
  | .enginePacket k => k.wf
  | .pullReadComplete g _ slot _ => decide (g < 4096) && decide (slot < 256)
  | .flushReadComplete g slot _ => decide (g < 4096) && decide (slot < 256)
  | .chunkTimeout g _ => decide (g < 4096)
  | .groupMoveComplete g => decide (g < 4096)
  | .groupDestroyComplete g => decide (g < 4096)
  | .rtGetStatus c q => c.wf && q.wf
  | .rtPartSet c q => c.wf && q.wf
  | .rtGroupCreate c q => c.wf && q.wf
  | .rtGroupDestroy c q => c.wf && q.wf
  | .rtGroupRead c q => c.wf && q.wf
  | .rtGroupReset c q => c.wf && q.wf
  | .rtGroupMove c q => c.wf && q.wf
  | .frameReceived lport _ _ => decide (lport < 32)
  | .pfcFrameReceived lport mask _ => decide (lport < 32) && decide (mask < 256)
  | .pfcRefresh lport prio => decide (lport < 32) && decide (prio < 8)
  | .pfcPauseExpiry lport prio => decide (lport < 32) && decide (prio < 8)
  | .pauseWatchExpiry lport tc => decide (lport < 32) && decide (tc < 8)
  | .qpTxTailWrite f qp _ => decide (f < 1024) && decide (qp < 64)
  | .qpRxTailWrite f qp _ => decide (f < 1024) && decide (qp < 64)
  | .transmitSchedule lport => decide (lport < 32)
  | .descriptorFetchComplete f qp descs _ => decide (f < 1024) && decide (qp < 64) && descs.all TxRaw.wf
  | .egressFrameStart lport => decide (lport < 32)
  | .vnicReceive f qp _ => decide (f < 1024) && decide (qp < 64)
  | .rxWaitTimeout f qp => decide (f < 1024) && decide (qp < 64)
  | .itrExpiry f qp => decide (f < 1024) && decide (qp < 64)
  | .logicalPortLinkChange lport _ => decide (lport < 32)
  | .vnicFunctionReset f => decide (f < 1024)
  | .qpDisableComplete f qp => decide (f < 1024) && decide (qp < 64)
  | .netPortTrainingEnd lport _ => decide (lport < 32)
  | .netGetStatus c q => c.wf && q.wf
  | .netPortSet c q => c.wf && q.wf
  | .vnicCreate c q => c.wf && q.wf
  | .vnicDestroy c q => c.wf && q.wf
  | .vnicSet c q => c.wf && q.wf
  | .vnicQpSet c q => c.wf && q.wf
  | .netEmSet c q => c.wf && q.wf
  | .netAclSet c q => c.wf && q.wf
  | .netPtpClock c q => c.wf && q.wf
  | .gateEntryTransition lport => decide (lport < 32)
  | .gateChangeTime lport => decide (lport < 32)
  | .ptpOutputEdge k => decide (k < 3)
  | .ptpInputEdge k _ => decide (k < 3)
  | .ptpClockLoss => true
  | .ptpClockRelock => true
  | .tmShaperSet c q => c.wf && q.wf
  | .tmSchedSet c q => c.wf && q.wf
  | .tmMeterSet c q => c.wf && q.wf
  | .tmWredSet c q => c.wf && q.wf
  | .tmGateSet c q => c.wf && q.wf
  | .tmGateGet c q => c.wf && q.wf
  | .ptpOutSet c q => c.wf && q.wf
  | .ptpInSet c q => c.wf && q.wf
  | .ptpInRead c q => c.wf && q.wf
  | .load cl k rd _ size _ _ => decide (cl < 4) && decide (k < 8) && decide (rd < 32) && accessSize size
  | .store cl k _ size _ => decide (cl < 4) && decide (k < 8) && accessSize size
  | .instructionFetch cl k _ size _ => decide (cl < 4) && decide (k < 8) && (size == 2 || size == 4)
  | .lr cl k rd _ size _ => decide (cl < 4) && decide (k < 8) && decide (rd < 32) && (size == 4 || size == 8)
  | .sc cl k rd _ size _ _ => decide (cl < 4) && decide (k < 8) && decide (rd < 32) && (size == 4 || size == 8)
  | .amo cl k _ rd _ size _ _ => decide (cl < 4) && decide (k < 8) && decide (rd < 32) && (size == 4 || size == 8)
  | .fence cl k pred succ => decide (cl < 4) && decide (k < 8) && decide (pred < 16) && decide (succ < 16)
  | .fenceI cl k => decide (cl < 4) && decide (k < 8)
  | .kfence cl k word => decide (cl < 4) && decide (k < 8) && decide (word < 2 ^ 32) && word % 128 == 11
  | .fenceRetire cl k => decide (cl < 4) && decide (k < 8)
  | .mpuCsrWrite cl k n _ _ => decide (cl < 4) && decide (k < 8) && decide (n < 16)
  | .kattrCsrWrite cl k csr _ => decide (cl < 4) && decide (k < 8) && decide (0x7E0 ≤ csr) && decide (csr ≤ 0x7E2)
  | .ksterrWrite cl k _ => decide (cl < 4) && decide (k < 8)
  | .fenceWatchExpiry cl k => decide (cl < 4) && decide (k < 8)
  | .alarmRequest cl => decide (cl < 4)
  | .alarmRelease cl => decide (cl < 4)
  | .alarmFire cl => decide (cl < 4)
  | .machineTimerInterrupt cl k => decide (cl < 4) && decide (k < 8)
  | .msipWrite cl k _ => decide (cl < 4) && decide (k < 8)
  | .abstractCommand cl k _ => decide (cl < 4) && decide (k < 8)
  | .systemBusAccess cl _ _ size _ => decide (cl < 4) && accessSize size
  | .clusterStopComplete cl => decide (cl < 4)
  | .partGet c q => c.wf && q.wf
  | .partSet c q => c.wf && q.wf
  | .isoGetStatus c q => c.wf && q.wf
  | .strictSet c q => c.wf && q.wf
  | .faultDetected src attr port _ => decide (src < 2048) && optBelow 32 attr && optBelow 84 port
  | .blockReady b => decide (b < 64)
  | .reactionShadowEnd b => decide (b < 64)
  | .ledgerFlashCopy => true
  | .fltGetSummary c q => c.wf && q.wf
  | .fltRead c q => c.wf && q.wf
  | .fltClear c q => c.wf && q.wf
  | .fltSetReaction c q => c.wf && q.wf
  | .fltGetReaction c q => c.wf && q.wf
  | .fltLedgerRead c q => c.wf && q.wf
  | .fltLedgerClear c q => c.wf && q.wf
  | .ledgerFlashClearComplete _ => true
  | .fltInject c q => c.wf && q.wf
  | .fltAerRead c q => c.wf && q.wf
  | .evPop c q => c.wf && q.wf
  | .powerOn => true
  | .auxRailLost => true
  | .moduleReset _ => true
  | .watchdogExpiry => true
  | .resetPulseEnd => true
  | .supervisorRelease _ => true
  | .startTimerExpiry => true
  | .stableIntervalExpiry => true
  | .hostDownloadGo => true
  | .hostDownloadComplete _ _ => true
  | .peerImageReceived m _ => decide (m < 64)
  | .powerEnAsserted => true
  | .powerEnDeasserted => true
  | .softStartComplete _ => true
  | .railsGood => true
  | .resetThreshold => true
  | .overVoltageLockout => true
  | .overVoltageRelease => true
  | .resetReleaseLevel => true
  | .brownoutHoldoffExpiry => true
  | .thermalTrip => true
  | .thermalTripClear => true
  | .sagWarning _ => true
  | .warningClear _ => true
  | .efuseFaultTimer => true
  | .efuseShortCircuit => true
  | .efuseRetry => true
  | .railOutOfTolerance sensor _ => decide (sensor < 65536)
  | .thermalWarning _ => true
  | .telemetrySample _ => true
  | .pwrGetStatus c q => c.wf && q.wf
  | .pwrSetConfig c q => c.wf && q.wf
  | .sweep _ => true
  | .sweepSlotWrite p => decide (p < 32)
  | .cntRead c q => c.wf && q.wf
  | .cntSet c q => c.wf && q.wf
  | .cntSweepSet c q => c.wf && q.wf
  | .cntSweepGet c q => c.wf && q.wf
  | .charSample kind _ _ _ _ => decide (kind < 3)
  | .marginReplan _ => true
  | .bistComplete block _ _ _ _ _ => decide (block < 64)
  | .nonceExpiry => true
  | .bistRun c q => c.wf && q.wf
  | .bistGet c q => c.wf && q.wf
  | .lcAdvance c q => c.wf && q.wf
  | .rmaChallenge c q => c.wf && q.wf
  | .rmaUnlock c q => c.wf && q.wf
  | .ageGetStatus c q => c.wf && q.wf
  | .ageSetConfig c q => c.wf && q.wf
  | .bypass _ => true
  | .idcode => true
  | .samplePreload _ => true
  | .extest => true
  | .intest => true
  | .clamp => true
  | .highz => true
  | .efuseCurrentLimit => true
  | .efuseOnInterval => true
  | .propagatedResetComplete p => decide (p < 32)
  | .clockDomainRelease d => d.wf

end Sys2Proof
end

