-- ==== Sys2Proof/Certificates/Slice0/Obligations.lean ====
section
/-! DEFINITION. The statements about the model, each a proposition; their proofs are the provers'. -/

open Sys2Proof Sys2Proof.Machine

/-- A step of a state with command `c` at the front of its queue is `exec c` on that state with the queue's rest (the queue is the model's own, logs 18 and 19). -/
def Obligations.StepTakesFrontCommand : Prop :=
  ∀ (c : Instr) (s : State) (r : List Instr),
    step { s with pending := c :: r } = exec c { s with pending := r }

/-- On an empty queue a step answers the state after one tick, and without auxiliary power a tick changes nothing: the model's choice of what an idle step is (log 20). -/
def Obligations.EmptyQueueIsOneTick : Prop :=
  ∀ s : State, s.pending = [] → step s = .next s.tick ∧ (s.boot.phase = .off → step s = .next s)

/-- Every command of the table, in every state, answers a next state whose queue is that of the state it was issued in; no command faults and none is refused. -/
def Obligations.EveryCommandAnswersNextState : Prop :=
  ∀ (c : Instr) (s : State), ∃ t, exec c s = .next (s.after t) ∧ (s.after t).pending = s.pending

/-- From every state with queue `cs`, `cs.length` steps are safe, and after `k` of them the queue is `cs` without its first `k` commands (logs 18, 19). -/
def Obligations.RunTakesCommandsInOrder : Prop :=
  ∀ (s : State) (cs : List Instr), safeRun cs.length { s with pending := cs } = true ∧
    ∀ k ≤ cs.length, ∃ t, Host.Core.run core k { s with pending := cs } = .next t ∧ t.pending = cs.drop k

/-- The pool memory after reset is canonical and every byte of it reads 0 (the model's choice for memory nothing has written, log 11). -/
def Obligations.ResetPoolMemoryIsCanonical : Prop :=
  Memory.wf 0 State.reset.pool.mem = true ∧ ∀ a, mget 0 State.reset.pool.mem a = 0

/-- The invariant of the pool memory: every step, whatever the command, keeps it in its canonical form. -/
def Obligations.StepKeepsPoolMemoryCanonical : Prop :=
  ∀ s t : State, Memory.wf 0 s.pool.mem = true → step s = .next t → Memory.wf 0 t.pool.mem = true

/-- The other agents change nothing of a state in which nothing is left for them: the frame of every statement below that says a command leaves `s.after t`. -/
def Obligations.QuietStateStaysAsItIs : Prop :=
  ∀ s t : State, t.Calm → s.after t = { t with pending := s.pending }

/-- The headroom figure H is the ceiling of (RTT + 20 ns) / t plus 2, where t is the time, in ns, of the 2,048 bits of one flit at the link's width and rate (R213). -/
def Obligations.HeadroomFigure : Prop :=
  ∀ rtt width rate : Nat, 0 < width →
    (headroom rtt width rate : ℤ) = ⌈((rtt : ℚ) + 20) / (2048 / ((width : ℚ) * laneRate rate))⌉ + 2

/-- The shared-admission test with ALPHA code `k` passes exactly when Q + n ≤ 2^(k-4) × F; codes are below 8, and 4 after reset (R163). -/
def Obligations.AlphaIsPowerOfTwo : Prop :=
  (∀ k q n f : Nat, alphaTest k q n f = true ↔ ((q : ℚ) + n ≤ (2 : ℚ) ^ ((k : ℤ) - 4) * f)) ∧
  (∀ (g : CoreCfg) (c : Nat), g.alphaCode c < 8) ∧
  (∀ c < 8, State.reset.core.cfg.alphaCode c = 4)

/-- XOFF bit `v` of every flit sent is set below H free private slots, clear from min(H + 8, P) on, and unchanged between (R214). -/
def Obligations.XoffFollowsFreeSlots : Prop :=
  ∀ (s : State) (l v : Nat) (f : Flit), v < 8 →
    let k := (s.rxRefresh l).link l
    (k.privateFree v < k.h → (k.stamp f).xoff.getLsbD v = true) ∧
    (¬ k.privateFree v < k.h → Nat.min (k.h + 8) k.p ≤ k.privateFree v → (k.stamp f).xoff.getLsbD v = false) ∧
    (¬ k.privateFree v < k.h → k.privateFree v < Nat.min (k.h + 8) k.p →
      (k.stamp f).xoff.getLsbD v = (s.link l).xoffTx.getLsbD v)

/-- Smoulder mode refuses every command but NOP, DEVICE_INFO, GET_OP_STATUS, WARM_RESET and group 0x0C, and carries those out (R68). -/
def Obligations.SmoulderAcceptsOnlyItsOpcodes : Prop :=
  (∀ (k : Cmd) (c : Path) (p : Nat) (q : Req) (s : State), s.ember.smoulder = true → q.length ≤ 4064 → q.length % 4 = 0 →
      headerFault q = none →
      k.op ≠ cmdNop.op → k.op ≠ cmdDeviceInfo.op → k.op ≠ cmdGetOpStatus.op → k.op ≠ cmdWarmReset.op → k.op / 256 ≠ 0x0C →
      runCmd k c p q s = failWith s rcNotReady) ∧
  (∀ (k : Cmd) (c : Path) (p : Nat) (q : Req) (s : State), s.ember.smoulder = true → q.length ≤ 4064 → q.length % 4 = 0 →
      headerFault q = none → (q.onBehalf = true → p = 0) → k.allowed (whoOf c p q) q s = true → k.lenOk q = true →
      (k.op = cmdNop.op ∨ k.op = cmdDeviceInfo.op ∨ k.op = cmdGetOpStatus.op ∨ k.op = cmdWarmReset.op ∨ k.op / 256 = 0x0C) →
      runCmd k c p q s = k.body (whoOf c p q) q s)

/-- Power Controller Control written while a vDSP is CONTAINED or REMOVING is only recorded, and DPC Trigger Status cleared while the port behind is contained changes nothing (R113). -/
def Obligations.PowerControlWhileContained : Prop :=
  (∀ (s : State) (p k : Nat) (off : Bool), s.working → k < (s.vs p).vdspCount →
      (s.vdsp p k).st = .contained ∨ (s.vdsp p k).st = .removing →
      exec (.powerControllerControlWrite p k off) s = .next (s.after (s.modVdsp p k (fun v => { v with powerOff := off })))) ∧
  (∀ (s : State) (p k : Nat), s.working → k < (s.vs p).vdspCount → (s.vdsp p k).st = .contained →
      ((s.vdsp p k).kind = 1 ∧ ((s.dpcRelease (s.vdsp p k).port).port (s.vdsp p k).port).dpc = true ∨
       (s.vdsp p k).kind = 2 ∧ (s.port (s.vdsp p k).port).dpc = true) →
      exec (.dpcTriggerStatusClear p k) s = .next (s.after s))

/-- TM_GATE_SET under strict partition mode, and STRICT_SET enabling it over a user schedule, answer BUSY_RESOURCE and change nothing, once their fields are in range (R384). -/
def Obligations.GateEngineHasOneOwner : Prop :=
  (∀ (w : Who) (q : Req) (s : State), (cmdTmGateSet.body w q s).status ≠ rcBadField → s.iso.strict = true →
      cmdTmGateSet.body w q s = failWith s rcBusy) ∧
  (∀ (w : Who) (q : Req) (s : State), (cmdStrictSet.body w q s).status ≠ rcBadField → q.u8 0x20 = 1 → s.iso.strict = false →
      s.userSchedule = true → cmdStrictSet.body w q s = failWith s rcBusy)

/-- The channel of a byte of a sod, wide or contained, and what follows for aligned 1 KiB blocks and for contained sods (R263, the channel column). -/
def Obligations.PoolChannelInterleave : Prop :=
  ∀ (p : PoolSt) (n b : Nat),
    (n < p.wide → p.channel n b = b / 256 % 16) ∧
    (∀ m i, m < 4 → i < p.contained → n = p.wide + m * p.contained + i →
      p.channel n b = 4 * m + b / 256 % 4 ∧ p.channel n b / 4 = m) ∧
    (n < p.wide → ∀ j < 1024, p.channel n (1024 * b + j) / 4 = b % 4 ∧ p.channel n (1024 * b + j) % 4 = j / 256)

/-- Reading one byte of the pool's cells after a write of `d` at `a` with enables `en`: the byte written where it is covered, enabled and on a channel in service; else as before. -/
def Obligations.PoolBytesAfterWrite : Prop :=
  ∀ (p : PoolSt) (a : Nat) (d : Bytes) (en : Nat → Bool) (x : Nat),
    mget 0 (p.put a d en).mem x =
      if a ≤ x ∧ x < a + d.length ∧ en x = true ∧ p.lostAt (x / 2 ^ 30) (x % 2 ^ 30) = false then d.getD (x - a) 0
      else mget 0 p.mem x

/-- The result of OP 0 from the accumulated contributions `l` of one element, row by row of R298's table; `S` is the exact sum of the finite contributions. -/
def Obligations.SpecialValuesOfSum : Prop :=
  ∀ (n : Nat) (rz sat : Bool) (l : List Nat), n < 6 → l ≠ [] →
    let f := fmtOf n
    let a := l.foldl (fun a r => a.add (f.elem r)) ({} : AccEl)
    let S : Int := (l.map (fun r => (f.elem r).sum)).sum
    let out := f.round rz sat a
    let nan := ∃ r ∈ l, f.isNan r = true
    let pinf := ∃ r ∈ l, f.isInf r = true ∧ f.neg r = false
    let ninf := ∃ r ∈ l, f.isInf r = true ∧ f.neg r = true
    (n = 5 → (0x7FFFFFFF < S → out = { raw := 0x7FFFFFFF, ovf := true }) ∧ (S < -0x80000000 → out = { raw := 0x80000000, ovf := true }) ∧
      (-0x80000000 ≤ S → S ≤ 0x7FFFFFFF → out = { raw := (BitVec.ofInt 32 S).toNat })) ∧
    (n < 5 →
      (nan → out.raw = f.qnan ∧ out.ovf = false) ∧ (nan → ¬ (pinf ∧ ninf) → out.nan = false) ∧
      (¬ nan → pinf → ninf → out = { raw := f.qnan, nan := true }) ∧
      (¬ nan → pinf → ¬ ninf → out = { raw := f.infCode }) ∧
      (¬ nan → ¬ pinf → ninf → out = { raw := f.signed true f.infCode }) ∧
      (¬ nan → ¬ pinf → ¬ ninf → S = 0 → (∀ r ∈ l, f.neg r = true ∧ f.mag r = 0) → out = { raw := f.signed true 0 }) ∧
      (¬ nan → ¬ pinf → ¬ ninf → S = 0 → ¬ (∀ r ∈ l, f.neg r = true ∧ f.mag r = 0) → out = { raw := 0 }) ∧
      (¬ nan → ¬ pinf → ¬ ninf → S ≠ 0 → f.value f.maxFin < f.roundMag rz S.natAbs →
        out = { raw := if n = 3 then (if sat then 0x7F else f.signed (decide (S < 0)) 0x7E)
                       else f.signed (decide (S < 0)) (if rz then f.maxFin else f.infCode), ovf := true }))

/-- Contributions in any order, split over two partial accumulators in any way, accumulate to the same element (R297): the result is bit-identical whatever the arrival order or the shape of the fabric. -/
def Obligations.SumIgnoresOrderAndShape : Prop :=
  ∀ (n : Nat) (l l₁ l₂ : List Nat), l.Perm (l₁ ++ l₂) →
    let acc : List Nat → AccEl := fun k => k.foldl (fun a r => a.add ((fmtOf n).elem r)) {}
    acc l = (acc l₁).add (acc l₂) ∧
    ∀ rz sat, (fmtOf n).round rz sat (acc l) = (fmtOf n).round rz sat ((acc l₁).add (acc l₂))

/-- Writing a record to the event ring of partition `p` (R448, R449). -/
def Obligations.EventRingInOrder : Prop :=
  ∀ (s : State) (p : Nat) (r : EvRec),
    let g := s.ring p
    let h := (s.ringWrite p r).ring p
    ((g.ringEn = false ∨ bit (g.vectorOf r.id) 7 = false) → s.ringWrite p r = s) ∧
    (g.ringEn = true → bit (g.vectorOf r.id) 7 = true → (g.prod + 65536 - g.cons) % 65536 = 4096 →
      h.overflow = true ∧ h.lost = min 65535 (g.lost + 1) ∧ h.ring = g.ring ∧ h.prod = g.prod ∧ h.seq = g.seq) ∧
    (g.ringEn = true → bit (g.vectorOf r.id) 7 = true → (g.prod + 65536 - g.cons) % 65536 ≠ 4096 →
      tget {} h.ring (g.prod % 4096) = { r with seq := g.seq } ∧ h.prod = (g.prod + 1) % 65536 ∧
      (∀ i, i ≠ g.prod % 4096 → tget {} h.ring i = tget {} g.ring i) ∧ h.overflow = g.overflow ∧ h.lost = g.lost)

/-- What each mailbox, register, MCTP and PLDM event does where it takes effect (R17, R62, R75, R78, R80, R82, R83, R501, R555). -/
def Obligations.MailboxEventsTakeEffect : Prop :=
  (∀ (s : State) (pg : Nat) (ack : Bool), s.dieUp = true → s.pageOpen pg = true → s.boot.phase ≠ .hostDownload →
      (s.page pg).st = .idle → ack = false →
      exec (.go pg ack) s = .next (s.after ((s.modPage pg (fun g => { g with st := .queued, cmdSeen := g.cmdBuf })).modEmber
        (fun e => { e with arrivals := e.arrivals.filter (fun a => a != pg) ++ [pg] })))) ∧
  (∀ (s : State) (pg : Nat), s.dieUp = true → s.pageOpen pg = true → s.boot.phase ≠ .hostDownload → (s.page pg).st ≠ .idle →
      exec (.go pg false) s = .next (s.after (s.modPage pg (fun g => { g with dbErr := true })))) ∧
  (∀ (s : State) (pg : Nat), s.dieUp = true → s.pageOpen pg = true →
      exec (.ack pg) s = .next (s.after (s.modPage pg (fun g => if g.st = .done then { g with st := .idle } else { g with dbErr := true })))) ∧
  (∀ (s : State) (part a : Nat), s.dieUp = true → s.ember.fwReady = true → tlook s.ember.running part = none →
      s.ember.arrivals.find? (fun x => s.partOf (posPath x) == some part) = some a → a < 64 →
      exec (.commandTaken part) s = .next (s.after
        (((s.modEmber (fun e => { e with arrivals := e.arrivals.erase a })).modPage a (fun g => { g with st := .busy })).execute
          (posPath a) part (reqOfBytes (mread 0 (s.page a).cmdSeen 0 4096)).1 (reqOfBytes (mread 0 (s.page a).cmdSeen 0 4096)).2 0))) ∧
  (∀ (s : State) (part a : Nat) (m : QCmd), s.dieUp = true → s.ember.fwReady = true → tlook s.ember.running part = none →
      s.ember.arrivals.find? (fun x => s.partOf (posPath x) == some part) = some a → 64 ≤ a → tlook s.ember.msgQ a = some m →
      exec (.commandTaken part) s = .next (s.after
        ((s.modEmber (fun e => { e with arrivals := e.arrivals.erase a, msgQ := tdel e.msgQ a })).execute (posPath a) part m.opcode m.req m.msgTag))) ∧
  (∀ (s : State) (p off size : Nat) (v : Word), s.dieUp = true → s.barsOpen p = true → off < 0x20000 →
      exec (.registerWrite (.bar0 p) off size v) s = .next (s.after (s.bar0Write p off size v.toNat))) ∧
  (∀ (s : State) (f off size : Nat) (v : Word) (x : Vnic), s.dieUp = true → s.vnic f = some x → x.memEn = true → x.d3 = false →
      exec (.registerWrite (.vnic f) off size v) s = .next (s.after (s.vnicStore f off size v.toNat))) ∧
  (∀ (s : State) (c off size : Nat) (v : Word) (t : State), s.dieUp = true → c < 4 → off < 2 ^ 20 →
      s.localWrite (c * 2 ^ 20 + off) size v.toNat = some t →
      exec (.registerWrite (.cluster c) off size v) s = .next (s.after t)) ∧
  (∀ (s : State) (p off size : Nat) (v : Word),
      exec (.registerWrite (.bar2 p) off size v) s = .next (s.after s) ∧ exec (.registerWrite (.rom p) off size v) s = .next (s.after s)) ∧
  (∀ (s : State) (c : Path) (tag : Nat) (body : Bytes), s.dieUp = true → s.mctpAnswers c = true → 36 ≤ body.length →
      slice body 0 1 = [0x7E] → beNat (slice body 1 2) = Config.vendorId.toNat → slice body 3 1 = [1] → s.eidReady c = true →
      s.ember.arrivals.contains (posOf c) = false →
      exec (.mctpCommandMessage c tag true body) s = .next (s.after (s.modEmber (fun e =>
        { e with msgQ := tset e.msgQ (posOf c) { opcode := (reqOfBytes (body.drop 4)).1, req := (reqOfBytes (body.drop 4)).2, msgTag := tag },
                 arrivals := e.arrivals ++ [posOf c] })))) ∧
  (∀ (s : State) (op eid : Nat), s.dieUp = true → s.mctpAnswers .sideband = true → op ≤ 1 → 0 < eid → eid < 255 →
      exec (.setEndpointId .sideband op eid) s = .next (s.after
        ((s.modEmber (fun e => { e with sbEid := eid })).mctpReply .sideband 1 0 [0, eid, 0]))) ∧
  (∀ (s : State) (c : Path), s.dieUp = true → s.mctpAnswers c = true →
      exec (.getEndpointId c) s = .next (s.after (s.mctpReply c 2 0 [s.eidOf c, 0, 0])) ∧
      exec (.getMctpVersionSupport c 0xFF) s = .next (s.after (s.mctpReply c 4 0 [1, 0xF1, 0xF3, 0xFF, 0])) ∧
      exec (.getMessageTypeSupport c) s = .next (s.after (s.mctpReply c 5 0 (if c = .sideband then [2, 1, 0x7E] else [1, 0x7E]))) ∧
      exec (.getVendorDefinedMessageSupport c 0) s = .next (s.after
        (s.mctpReply c 6 0 [0xFF, 0, Config.vendorId.toNat / 256, Config.vendorId.toNat % 256, 0, 1]))) ∧
  (∀ (s : State) (addr : Nat), s.boot.phase ≠ .off →
      exec (.dynamicAddressAssignment addr) s = .next (s.after (s.modLands (fun l => { l with dynAddr := some (addr % 128) })))) ∧
  (∀ s : State, s.dieUp = true → s.pldmAnswers = true →
      exec .getTid s = .next (s.after (s.emit (.mctp .sideband 2 0 (Config.pldmData 2 0)))) ∧
      (∀ type, exec (.getPldmVersion type) s = .next (s.after (s.emit (.mctp .sideband 3 0 (Config.pldmData 3 type))))) ∧
      exec .getPldmTypes s = .next (s.after (s.emit (.mctp .sideband 4 0 [5, 0, 0, 0, 0, 0, 0, 0]))) ∧
      exec (.getPldmCommands 0) s = .next (s.after (s.emit (.mctp .sideband 5 0 (bitField 32 [2, 3, 4, 5])))) ∧
      exec (.getPldmCommands 2) s = .next (s.after (s.emit (.mctp .sideband 5 0 (bitField 32 [0x11, 0x50, 0x51])))) ∧
      exec .getPdrRepositoryInfo s = .next (s.after (s.emit (.mctp .sideband 0x50 0 (Config.pldmData 0x50 0)))) ∧
      (∀ r, exec (.getPdr r) s = .next (s.after (s.emit (.mctp .sideband 0x51 0 (Config.pldmData 0x51 r))))) ∧
      (∀ i v, s.pwr.tele.reading i = some v →
        exec (.getSensorReading i) s = .next (s.after (s.emit (.mctp .sideband 0x11 0 (leBytes 2 v)))))) ∧
  (∀ (s : State) (sub : Nat), s.boot.pendingReset = some sub →
      exec .warmResetDelayExpiry s = .next (s.after (s.moduleReset 4 sub))) ∧
  (∀ (s : State) (x : Xfer), s.dieUp = true → s.ember.xfer = some x → x.op = .erase →
      exec (.fwEraseComplete true) s = .next (s.after
        ((((s.modEmber (fun e => { e with xfer := some { x with erased := true, op := .none } })).fwDone 0x0C01 rcOk).endHandle
          x.handle rcOk).closeIfDue))) ∧
  (∀ (s : State) (x : Xfer), s.dieUp = true → s.ember.xfer = some x → x.op = .verify →
      let r := s.nv.verdict (s.nv.slot x.slot).image (x.ptr == x.size)
      exec (.fwVerifyComplete true) s = .next (s.after
        (((((s.modEmber (fun e => { e with xfer := none })).modNv (fun v => v.modSlot x.slot (fun o =>
          if r.1 = rcOk then { o with st := .valid, good := true, version := Config.imageVersion (s.nv.slot x.slot).image,
                                      svn := Config.imageSvn (s.nv.slot x.slot).image % 65536 }
          else { o with st := .invalid, good := false }))).fwDone 0x0C03 r.1).endHandle x.handle r.1 r.2))))

/-- Where each device, core, Hearth and firmware command completes, and what it answers and leaves (R66, R70, R80, R82, R83, R85). -/
def Obligations.DeviceCommandsComplete : Prop :=
  (∀ s c p q, s.serves cmdNop c p q → exec (.nop c q) s = .next (s.answered (ok s (q.bytes 0x20 q.length)) c p 0x0100 q)) ∧
  (∀ s c p q, s.serves cmdDeviceInfo c p q →
      ∃ d, d.length = 64 ∧ exec (.deviceInfo c q) s = .next (s.answered (ok s d) c p 0x0101 q)) ∧
  (∀ s c p q h, s.serves cmdGetOpStatus c p q → q.zero 0x24 4 = true →
      s.ember.handles.find? (fun h => handleNumber h.id == q.u32 0x20 && h.part == (whoOf c p q).subject) = some h → h.running = false →
      exec (.getOpStatus c q) s = .next (s.answered (ok { s with free := s.free + 1 }
        (leBytes 4 (q.u32 0x20) ++ [1, 100] ++ leBytes 2 h.final ++ leBytes 2 h.opcode ++ [0, 0] ++ leBytes 4 h.detail)) c p 0x0102 q)) ∧
  (∀ s c p q, s.serves cmdWarmReset c p q → 10 ≤ q.u32 0x20 → q.u32 0x20 ≤ 10000 →
      exec (.warmReset c q) s = .next (s.answered (ok ((s.modKept (fun k => { k with bkp1 := BitVec.ofNat 32 (q.u32 0x24) })).modBoot
        (fun b => { b with pendingReset := some 1, announce := some (q.u32 0x20) }))) c p 0x0103 q)) ∧
  (∀ (s : State) (d : Nat), s.boot.announce = some d →
      s.announceReset = (s.modBoot (fun b => { b with announce := none })).event 0x801 s.allParts d) ∧
  (∀ s c p q, s.serves cmdCoreGetStatus c p q →
      ∃ d, d.length = 76 ∧ exec (.coreGetStatus c q) s = .next (s.answered (ok s d) c p 0x0104 q)) ∧
  (∀ s c p q, s.serves cmdCoreSetConfig c p q →
      let v := q.u16 0x20
      let w := (List.range 8).map (fun i => q.u8 (0x28 + i))
      let d := (List.range 8).map (fun i => q.u8 (0x30 + i))
      v < 32 → v ≠ 0 → namedOk (bit v 0) (q.u8 0x22) (q.u8 0x22 < 128) = true → q.zero 0x23 1 = true →
      namedOk (bit v 1) (q.u32 0x24) (q.u32 0x24 < 2 ^ 24) = true →
      (∀ i < 8, namedOk (bit v 2) (lget 0 w i) (if i = 7 then lget 0 w i == 0 else lget 0 w i != 0) = true) →
      (∀ i < 8, namedOk (bit v 3) (lget 0 d i) (lget 0 d i == 255 || (i != 7 && decide (lget 0 d i < 16))) = true) →
      namedOk (bit v 4) (q.u8 0x38) (1 ≤ q.u8 0x38 ∧ q.u8 0x38 ≤ 32) = true →
      namedOk (bit v 4) (q.u8 0x39) (q.u8 0x38 ≤ q.u8 0x39 ∧ q.u8 0x39 ≤ 48) = true → q.zero 0x3A 6 = true →
      exec (.coreSetConfig c q) s = .next (s.answered (ok (s.modCore (fun k => { k with cfg :=
        { k.cfg with
          lossyMask := if bit v 0 then BitVec.ofNat 8 (q.u8 0x22) else k.cfg.lossyMask
          alpha := if bit v 1 then BitVec.ofNat 32 (q.u32 0x24) else k.cfg.alpha
          weight := if bit v 2 then w else k.cfg.weight
          drop := if bit v 3 then d else k.cfg.drop
          holdQuota := if bit v 4 then q.u8 0x38 else k.cfg.holdQuota
          holdTotal := if bit v 4 then q.u8 0x39 else k.cfg.holdTotal } }))) c p 0x0105 q)) ∧
  (∀ s c p q, s.serves cmdHearthCtl c p q → q.u8 0x20 < 4 → q.u8 0x21 = 1 → q.u8 0x22 < 32 → q.u8 0x23 ≠ 0 → q.zero 0x24 4 = true →
      s.pcOk (q.u8 0x20) (q.u64 0x28) = true → (s.cluster (q.u8 0x20)).st = .stopped → s.masked (0x2E + q.u8 0x20) = false →
      exec (.hearthCtl c q) s = .next (s.answered (ok (s.clusterStart (q.u8 0x20) (q.u8 0x22) (q.u8 0x23) (q.u64 0x28))
        ((s.clusterStart (q.u8 0x20) (q.u8 0x22) (q.u8 0x23) (q.u64 0x28)).clusterState (q.u8 0x20))) c p 0x0106 q)) ∧
  (∀ s c p q, s.serves cmdFwGetStatus c p q →
      ∃ d, d.length = 32 ∧ exec (.fwGetStatus c q) s = .next (s.answered (ok s d) c p 0x0C00 q)) ∧
  (∀ s c p q, s.serves cmdFwBegin c p q → q.u8 0x20 ≤ 1 → q.zero 0x21 3 = true → 4 ≤ q.u32 0x24 → q.u32 0x24 ≤ 0x03000000 →
      q.u32 0x24 % 4 = 0 → s.runningSlot ≠ some (q.u8 0x20) → s.ember.xfer = none → s.handleFree (whoOf c p q).caller = true →
      let h := s.newHandle (whoOf c p q).caller 0x0C01
      exec (.fwBegin c q) s = .next (s.answered (pend ((h.2.modNv (fun v => v.modSlot (q.u8 0x20) (fun o =>
          { st := .opened, size := q.u32 0x24, data := mclear o.data 0 (eraseSectors (q.u32 0x24) * 65536) }))).modEmber (fun e =>
            { e with xfer := some { slot := q.u8 0x20, size := q.u32 0x24, owner := p, path := c, op := .erase, handle := h.1 } })) h.1)
        c p 0x0C01 q)) ∧
  (∀ s c p q x, s.serves cmdFwWrite c p q → s.ember.xfer = some x → x.slot = q.u8 0x20 → q.zero 0x21 3 = true → q.u32 0x24 = x.ptr →
      4 ≤ q.u32 0x28 → q.u32 0x28 ≤ 4048 → q.u32 0x28 % 4 = 0 → x.ptr + q.u32 0x28 ≤ x.size → q.zero 0x2C 4 = true →
      x.owner = p → x.path = c → x.op ≠ .verify → x.erased = true →
      exec (.fwWrite c q) s = .next (s.answered (if s.freeBit.1 then
          { status := rcHwFault, s := (s.freeBit.2.raiseAt 0x3A 2).fwDone 0x0C02 rcHwFault }
        else ok ((((s.freeBit.2.modNv (fun v => v.modSlot x.slot (fun o =>
          { o with data := mwrite 0xFF o.data x.ptr (q.bytes 0x30 (q.u32 0x28)) }))).modEmber
            (fun e => { e with xfer := some { x with ptr := x.ptr + q.u32 0x28 } }))).fwDone 0x0C02 rcOk)
        (leBytes 4 (x.ptr + q.u32 0x28) ++ leBytes 4 0)) c p 0x0C02 q)) ∧
  (∀ s c p q x, s.serves cmdFwFinish c p q → s.ember.xfer = some x → x.slot = q.u8 0x20 → q.zero 0x21 3 = true →
      x.owner = p → x.path = c → x.op ≠ .verify → x.erased = true → s.handleFree (whoOf c p q).caller = true →
      let h := s.newHandle (whoOf c p q).caller 0x0C03
      exec (.fwFinish c q) s = .next (s.answered
        (pend (h.2.modEmber (fun e => { e with xfer := some { x with op := .verify, handle := h.1 } })) h.1) c p 0x0C03 q)) ∧
  (∀ s c p q, s.serves cmdFwActivate c p q → q.u8 0x20 ≤ 1 → (s.nv.slot (q.u8 0x20)).st = .valid → q.u8 0x21 = 1 → q.u8 0x22 = 0 →
      q.zero 0x23 1 = true →
      exec (.fwActivate c q) s = .next (s.answered (if s.freeBit.1 then
          { status := rcHwFault, s := (s.freeBit.2.raiseAt 0x3A 2).fwDone 0x0C04 rcHwFault }
        else ok (((s.freeBit.2.modNv (fun v => { v with activation := some (q.u8 0x20) })).fwDone
        0x0C04 rcOk).modBoot (fun b => { b with pendingReset := some 2 }))) c p 0x0C04 q))

/-- What each PCIe transaction event does where it takes effect (R94, R96, R101, R103, R121, R126, R162). -/
def Obligations.PcieTrafficTakesEffect : Prop :=
  (∀ (s : State) (n : Nat) (r : MemReq), s.working → (s.port n).role = .upstream → (s.port n).dlActive = true →
      s.noCredit n r.kind.asks = false →
      let p := (s.port n).part
      let s1 := s.stationCount n true (some p) ((s.port n).coreTc r.ptc) r.data.length
      (s1.mgmtRange p r.addr.toNat = none →
        exec (.hostMemoryRequest n r) s = .next (s.after ((s1.count { block := 0x33, event := 0x10, part := some p }).hostLookup n r))) ∧
      (∀ off, s1.mgmtRange p r.addr.toNat = some (0, off) →
        exec (.hostMemoryRequest n r) s = .next (s.after (s1.bar0Request n p off r)))) ∧
  (∀ (s : State) (n : Nat) (r : MemReq), s.working → (s.port n).role = .downstream → (s.port n).dlActive = true → (s.port n).dpc = false →
      s.noCredit n r.kind.asks = false →
      let part := (idMatch s.win.bank n r.rid r.pasid).map ePartHi
      exec (.deviceMemoryRequest n r) s = .next (s.after (((s.stationCount n true part ((s.port n).coreTc r.ptc) r.data.length).count
        { block := 0x33, event := 0x10, part := part }).deviceLookup n r))) ∧
  (∀ (s : State) (i : Nat) (w : WPkt) (pl : Place), s.working → s.core.waiting[i]? = some w → w.why ≠ .move →
      (s.core.waiting.take i).any (fun x => voqOf x.pkt == voqOf w.pkt) = false → s.planesIn ≠ [] →
      s.verdict w.pkt w.n = .put pl →
      exec (.admissionRetry i) s = .next (s.after
        ((s.modCore (fun k => { k with waiting := dropAt k.waiting i })).enqueue w.pkt (if w.pkt.more then w.n else w.pkt.cells) pl
          (s.cutsThrough w.pkt)))) ∧
  (∀ (s : State) (n i : Nat) (p : Pkt), s.working → (s.port n).npWait[i]? = some p → s.slotFree p.dst n = true →
      ((s.port n).npWait.take i).any (fun k => k.dst == p.dst) = false →
      exec (.npSlotReserved n i) s = .next (s.after ((s.modPort n (fun k => { k with npWait := dropAt k.npWait i })).enterCore p))) ∧
  (∀ (s : State) (n : Nat) (k : Pkt) (r : List Pkt), s.working → (s.port n).dlActive = true →
      takeOrdered (fun x => (s.port n).issuable x && (!x.nonPosted || s.cplRoom n x)) (s.port n).mayPass [] (s.port n).egress = some (k, r) →
      k.abort = false →
      let s1 := s.modPort n (fun q => { q with egress := r })
      (k.ptype = 1 → exec (.egressTlpIssue n) s = .next (s.after (s1.issueCpl n k))) ∧
      (∀ t, k.ptype ≠ 1 → k.nonPosted = true → (s.port n).freeTag = some t →
        exec (.egressTlpIssue n) s = .next (s.after (s1.issueNp n t k))) ∧
      (k.ptype ≠ 1 → k.nonPosted = false → exec (.egressTlpIssue n) s = .next (s.after (s1.issuePosted n k)))) ∧
  (∀ (s : State) (n : Nat) (k : Pkt) (r : List Pkt), s.working → (s.port n).unacked = k :: r →
      exec (.pcieAckReceived n) s = .next (s.after ((s.modPort n (fun p => { p with unacked := r })).leave k))) ∧
  (∀ (s : State) (n : Nat) (c : Cpl) (t : TagRec), s.working → (s.port n).tags.find? (fun r => r.tag == c.tag) = some t →
      exec (.completionReceived n c) s = .next (s.after ((s.stationCount n true (some t.part) t.tc c.data.length).completionIn n c))) ∧
  (∀ (s : State) (n rid : Nat) (m : PcieMsg) (p k : Nat), s.working → (s.port n).role = .downstream → s.vdspOfRid n rid = some (p, k) →
      m.code = 0x30 → exec (.pcieMessageReceived n rid m) s = .next (s.after (s.errorUp n p k (s.vridOf n rid) 0x30))) ∧
  (∀ (s : State) (n t : Nat) (r : TagRec), s.dieUp = true → (s.port n).tags.find? (fun r => r.tag == t) = some r →
      exec (.completionTimeout n t) s = .next (s.after ((s.answerTag n r csCa).raiseAt (n / 4) 2 (some r.part) (some n)))) ∧
  (∀ (s : State) (n t : Nat), s.dieUp = true →
      exec (.tagQuarantineEnd n t) s = .next (s.after (s.modPort n (fun p =>
        { p with quar := p.quar.filter (fun q => q.1 != t), kept := p.kept.filter (fun r => r.tag != t || s.leavingFns r.fns) }))))

/-- What each configuration, hot-plug and reset event of a virtual switch does where it takes effect (R106 to R125). -/
def Obligations.PcieConfigurationTakesEffect : Prop :=
  (∀ (s : State) (p : Nat) (r : CfgReq), s.working → (s.vs p).up.isSome = true → (s.vs p).inReset = false → s.ember.fwReady = true →
      s.ember.smoulder = false → s.boot.phase ≠ .hostDownload → (s.vs p).rrs = false →
      let t := s.captureBus p r
      (t.cfgTarget p r = none → exec (.configurationRequest p r) s = .next (s.after ((t.cfgDone p r csUr 0).mgmtUnmask p))) ∧
      (t.cfgTarget p r = some .bridge → r.write = false → exec (.configurationRequest p r) s = .next (s.after
        ((t.cfgDone p r 0 (t.bridgeRead p r.reg)).mgmtUnmask p))) ∧
      (t.cfgTarget p r = some .bridge → r.write = true → exec (.configurationRequest p r) s = .next (s.after
        (((t.modVs p (fun v => { v with bridge := cfgStore 0 v.bridge r.reg r.reg r.be r.value })).cfgDone p r 0 0).mgmtUnmask p))) ∧
      (t.cfgTarget p r = some .mgmt → r.write = false → exec (.configurationRequest p r) s = .next (s.after
        ((t.cfgDone p r 0 ((t.vs p).mgmtRead r.reg)).mgmtUnmask p))) ∧
      (∀ k, t.cfgTarget p r = some (.vdsp k) → r.write = false → exec (.configurationRequest p r) s = .next (s.after
        ((t.cfgDone p r 0 (t.vdspRead p k r.reg)).mgmtUnmask p))) ∧
      (∀ k, t.cfgTarget p r = some (.vdsp k) → r.write = true → exec (.configurationRequest p r) s = .next (s.after
        (((t.vdspWrite p k r).cfgDone p r 0 0).mgmtUnmask p)))) ∧
  (∀ (s : State) (p k fn bar : Nat) (v : Word), s.working → (s.vdsp p k).bound = true → s.barSize p (s.vdsp p k) fn bar ≠ 0 →
      let a : Word := BitVec.ofNat 64 (v.toNat / 2 ^ s.barSize p (s.vdsp p k) fn bar * 2 ^ s.barSize p (s.vdsp p k) fn bar)
      exec (.barWrite p k fn bar v) s = .next (s.after ((s.modVdsp p k (fun x =>
        { x with bars := tset x.bars (fn * 6 + bar) a })).mapBar p k fn bar (s.barKeys p k fn bar)))) ∧
  (∀ (s : State) (p k fn : Nat) (en : Bool), s.working → (s.vdsp p k).bound = true → (s.vdsp p k).kind ≠ 6 →
      exec (.memorySpaceEnableWrite p k fn en) s = .next (s.after ([0, 1, 2, 3, 4, 5].foldl
        (fun t bar => t.mapBar p k fn bar (t.barKeys p k fn bar)) (s.modVdsp p k (fun v => { v with memEn := tset v.memEn fn en }))))) ∧
  (∀ (s : State) (p k : Nat), s.working → k < (s.vs p).vdspCount → (s.vdsp p k).st = .present →
      exec (.powerControllerControlWrite p k true) s = .next (s.after (((s.modVdsp p k (fun v => { v with powerOff := true })).modVdsp p k
        (fun v => { v with st := .poweredOff, linkActive := false, linkChanged := true })).targetReset p k)) ∧
      exec (.powerControllerControlWrite p k false) s = .next (s.after (s.modVdsp p k (fun v => { v with powerOff := false })))) ∧
  (∀ (s : State) (p k : Nat), s.working → k < (s.vs p).vdspCount → (s.vdsp p k).st = .contained → 3 ≤ (s.vdsp p k).kind →
      exec (.dpcTriggerStatusClear p k) s = .next (s.after ((s.targetReset p k).modVdsp p k (fun v =>
        if v.powerOff then { v with st := .poweredOff, dpcStatus := false }
        else { v with st := .present, dpcStatus := false, linkActive := true })))) ∧
  (∀ (s : State) (p k : Nat), s.working → (s.vdsp p k).bound = true → (s.vdsp p k).st = .present →
      exec (.dpcSoftwareTrigger p k) s = .next (s.after (s.modVdsp p k (fun v =>
        { v with st := .contained, dpcStatus := true, linkActive := false, linkChanged := v.linkChanged || !v.dpcEnable })))) ∧
  (∀ (s : State) (p k : Nat), s.working → (s.vdsp p k).bound = true →
      exec (.secondaryBusReset p k) s = .next (s.after (((s.unmapBelow p k).modVdsp p k Vdsp.belowReset).targetReset p k))) ∧
  (∀ (s : State) (p k fn : Nat), s.working → (s.vdsp p k).bound = true → (s.vdsp p k).kind = 1 → (s.vdsp p k).resetPending = false →
      exec (.functionFlr p k fn) s = .next (s.after ((s.fnReset p k fn).sendFlr (s.vdsp p k).port fn))) ∧
  (∀ (s : State) (p : Nat), s.working → (s.vs p).up.isSome = true →
      exec (.mgmtFunctionFlr p) s = .next (s.after ((s.modVs p (fun v => { v with mgmt := {} })).pReset p false))) ∧
  (∀ (s : State) (p k : Nat), s.dieUp = true → (s.vdsp p k).st = .unplug → (s.vdsp p k).timer = true →
      ((s.vdsp p k).unbind = none → exec (.unplugTimerExpiry p k) s = .next (s.after
        (s.surpriseRemoval p k (!s.targetExists (s.vdsp p k))))) ∧
      (∀ h, (s.vdsp p k).unbind = some h →
        let s1 := (s.modVdsp p k (fun v => { v with st := .present, timer := false, unbind := none })).endHandle h rcTimeout
        (s.fab.extract.step = 0 → (s.vdsp p k).kind ≠ 3 → exec (.unplugTimerExpiry p k) s = .next (s.after s1)) ∧
        (s.fab.extract.step ≠ 0 → exec (.unplugTimerExpiry p k) s = .next (s.after
          (s1.surpriseRemoval p k (!s.targetExists (s.vdsp p k))))))) ∧
  (∀ (s : State), s.dieUp = true →
      (∀ n, exec (.targetLost (.port n)) s = .next (s.after ((s.boundTo n).foldl (fun a e => a.surpriseRemoval e.1 e.2 true) s))) ∧
      (∀ m, exec (.targetLost (.module m)) s = .next (s.after
        ((s.vdspsWhere (fun v => v.bound && v.kind == 3 && v.module == m)).foldl (fun a e => a.surpriseRemoval e.1 e.2 true) s)))) ∧
  (∀ (s : State) (p k : Nat), s.dieUp = true → (s.vdsp p k).st = .removing → s.drained p k = true →
      exec (.vdspDrainEnd p k) s = .next (s.after (s.removeBinding p k)))

/-- What each PCIe link, presence and PERST event does where it takes effect (R92, R95, R104, R115 to R120). -/
def Obligations.PcieLinksTakeEffect : Prop :=
  (∀ (s : State) (n : Nat), s.dieUp = true → (s.port n).dlActive = true →
      ((s.port n).role = .upstream → exec (.pcieLinkDown n) s = .next (s.after
        (((s.portDrop n 0).raiseAt (n / 4) 8 none (some n)).upstreamReset n))) ∧
      ((s.port n).role = .downstream → exec (.pcieLinkDown n) s = .next (s.after
        ((((s.portDrop n 0).raiseAt (n / 4) 8 none (some n)).surpriseDown n).dpcTrigger n)))) ∧
  (∀ (s : State) (n : Nat) (pr : Bool), s.dieUp = true → (s.port n).role = .downstream → (s.port n).present ≠ pr →
      let s1 := (s.modPort n (fun p => { p with present := pr })).event 0x80F [0] (n + b2n pr * 256)
      exec (.presenceChange n pr) s = .next (s.after
        (if pr then (s1.perstLost n).bringUp n else s1.modPort n (fun p => { p with step := 0, enumerated := false })))) ∧
  (∀ (s : State) (n : Nat), s.dieUp = true →
      ((s.port n).step = 1 → exec (.perstHoldExpiry n) s = .next (s.after
        (s.modPort n (fun p => { p with step := 2, perst := false, ltssm := 1 })))) ∧
      ((s.port n).step = 2 → exec (.linkDetectTimeout n) s = .next (s.after
        (s.modPort n (fun p => { p with step := 0, present := false, ltssm := 0 })))) ∧
      ((s.port n).step = 3 → exec (.configWaitExpiry n) s = .next (s.after
        ((s.modPort n (fun p => { p with step := 4 })).emberCfg n (Config.functionRid n 0) 0 none))) ∧
      ((s.port n).step = 4 → exec (.deviceNotReadyTimeout n) s = .next (s.after
        (s.modPort n (fun p => { p with step := 0, notReady := true, unbound := true }))))) ∧
  (∀ (s : State) (n width rate : Nat) (flit : Bool), s.working → (s.port n).role ≠ .absent → (s.port n).dpc = false →
      (s.port n).disabled = false → s.blockAway (n / 4) = false → s.boot.stationHeld.contains (n / 4) = false →
      (s.port n).canTrain width rate = true → (s.port n).step = 2 →
      exec (.dataLinkActive n width rate flit) s = .next (s.after
        ((s.portUp n width rate (flit || rate == 6)).modPort n (fun q => { q with step := 3, present := true })))) ∧
  (∀ (s : State) (n ns : Nat), 1000 ≤ ns → (s.port n).role = .upstream → tget false s.lands.perstLow n = false → (s.port n).dlActive = false →
      exec (.upstreamPerstNAssert { port := n, ns := ns }) s = .next (s.after
        (((s.modLands (fun l => { l with perstLow := tset l.perstLow n true })).modVs (s.port n).part
          (fun v => { v with inReset := true })).hierReset (s.port n).part))) ∧
  (∀ (s : State) (n : Nat), (s.port n).role = .upstream →
      exec (.upstreamPerstNRelease n) s = .next (s.after
        ((s.modLands (fun l => { l with perstLow := tset l.perstLow n false })).modVs (s.port n).part
          (fun v => { v with inReset := false, rrs := v.rrs || v.inReset })))) ∧
  (∀ (s : State) (n : Nat), s.working → (s.port n).role = .upstream → (s.vs (s.port n).part).inReset = false →
      exec (.hotReset n) s = .next (s.after
        ((s.hierReset (s.port n).part).modVs (s.port n).part (fun v => { v with rrs := true })))) ∧
  (∀ (s : State) (n h : Nat), s.dieUp = true → (s.port n).reset = some h → (s.port n).sharePending = false → (s.port n).step ≠ 0 →
      exec (.portResetComplete n true) s = .next (s.after ((s.modPort n (fun p =>
        { p with reset := none, ltssm := if p.dlActive then 3 else p.ltssm })).endHandle h rcOk)))

/-- Where each port and vDSP command completes, and what it answers and leaves (R99, R100, R114 to R118, R125). -/
def Obligations.PcieCommandsComplete : Prop :=
  (∀ s c p q, s.serves cmdPortGetStatus c p q → q.u8 0x20 < 40 → q.zero 0x21 3 = true →
      exec (.portGetStatus c q) s = .next (s.answered (ok s (s.portStatus (q.u8 0x20))) c p 0x0300 q)) ∧
  (∀ s c p q, s.serves cmdPortSetConfig c p q →
      let n := q.u8 0x20
      let v := q.u8 0x21
      n < 40 → s.portPresent n = true → v < 16 → v ≠ 0 → (bit v 1 = true → 1 ≤ q.u8 0x22 ∧ q.u8 0x22 ≤ 6) →
      (bit v 3 = true → q.u8 0x23 = 0 ∨ q.u8 0x23 = 1 ∧ (s.port n).role = .downstream) →
      (bit v 0 = true → 1 ≤ q.u32 0x24 ∧ q.u32 0x24 ≤ 4000) → (bit v 2 = true → tcMapOk (q.u32 0x28) = true) → q.zero 0x2C 4 = true →
      (s.port n).reset = none →
      exec (.portSetConfig c q) s = .next (s.answered (ok (s.modPort n (fun k =>
        { k with
          ctoMs := if bit v 0 then q.u32 0x24 else k.ctoMs
          ltssm := if bit v 1 ∧ q.u8 0x22 ≠ k.targetRate ∧ k.dlActive then 4 else k.ltssm
          targetRate := if bit v 1 then q.u8 0x22 else k.targetRate
          tcMap := if bit v 2 then BitVec.ofNat 32 (q.u32 0x28) else k.tcMap
          aspm := if bit v 3 then q.u8 0x23 else k.aspm }))) c p 0x0301 q)) ∧
  (∀ s c p q, s.serves cmdPortReset c p q →
      let n := q.u8 0x20
      n < 40 → (s.port n).role = .downstream → s.portPresent n = true → q.u8 0x21 ≤ 5 → (q.u8 0x21 = 5 → (s.port n).dpc = true) →
      q.zero 0x22 2 = true → (if q.u8 0x21 = 1 then 150 ≤ q.u32 0x24 ∧ q.u32 0x24 ≤ 1000 else q.u32 0x24 = 0) →
      (s.port n).reset = none → s.masked (n / 4) = false → s.handleFree p = true →
      exec (.portReset c q) s = .next (s.answered (pend (((s.newHandle p 0x0302).2.portResetStart n (q.u8 0x21)).modPort n
        (fun k => { k with reset := some (s.newHandle p 0x0302).1 })) (s.newHandle p 0x0302).1) c p 0x0302 q)) ∧
  (∀ s c p q, s.serves cmdVdspBind c p q →
      1 ≤ q.u8 0x20 → q.u8 0x20 ≤ 31 → q.u8 0x21 < (s.vs (q.u8 0x20)).vdspCount → (s.vdsp (q.u8 0x20) (q.u8 0x21)).st = .empty →
      q.u8 0x22 = 1 → q.zero 0x23 1 = true → q.u8 0x24 < 40 → (s.port (q.u8 0x24)).role = .downstream → q.u8 0x25 = s.own →
      q.u16 0x26 = 0 → q.u16 0x28 = 1 → q.zero 0x2A 6 = true →
      s.holders (q.u8 0x20) 1 (q.u8 0x24) 0 1 = [] → s.bindFault (q.u8 0x20) 1 (q.u8 0x24) 0 1 = none →
      s.fenced [(q.u8 0x24, 0xFFFF)] = false → s.masked (q.u8 0x24 / 4) = false →
      (({ kind := 1, count := 1, port := q.u8 0x24 } : Vdsp).idEntries (q.u8 0x20) (q.u8 0x21)).length ≤ s.freeIds.length →
      exec (.vdspBind c q) s = .next (s.answered (ok (s.bind (q.u8 0x20) (q.u8 0x21) 1 (q.u8 0x24) s.own 0 1)) c p 0x0303 q)) ∧
  (∀ s c p q, s.serves cmdVdspUnbind c p q →
      1 ≤ q.u8 0x20 → q.u8 0x20 ≤ 31 → q.u8 0x21 < (s.vs (q.u8 0x20)).vdspCount → (s.vdsp (q.u8 0x20) (q.u8 0x21)).bound = true →
      q.u8 0x22 = 0 → q.zero 0x23 1 = true → q.u32 0x24 ≤ 600 → (s.vdsp (q.u8 0x20) (q.u8 0x21)).st = .present → s.handleFree p = true →
      exec (.vdspUnbind c q) s = .next (s.answered (pend (((s.newHandle p 0x0304).2.modVdsp (q.u8 0x20) (q.u8 0x21)
        (fun v => { v with unbind := some (s.newHandle p 0x0304).1 })).unplugRequest (q.u8 0x20) (q.u8 0x21)) (s.newHandle p 0x0304).1)
        c p 0x0304 q)) ∧
  (∀ s c p q, s.serves cmdVdspGet c p q → 1 ≤ q.u8 0x20 → q.u8 0x20 ≤ 31 → q.u8 0x21 < 48 → q.zero 0x22 2 = true →
      ∃ d, d.length = 16 ∧ exec (.vdspGet c q) s = .next (s.answered (ok s d) c p 0x0305 q))

/-- Where each window, sharing and fence command completes and each of their events takes effect (R135 to R144, R151 to R153). -/
def Obligations.WindowEventsAndCommandsComplete : Prop :=
  (∀ (s : State) (n fn : Nat), s.dieUp = true →
      (∀ h ∈ s.ember.handles, h.running = false) →
      let s1 := s.modWin (fun w => { w with fences := w.fences.filter (fun f => !(f.port == n && f.fn == fn)) })
      exec (.fenceTimeExpiry n fn) s = .next (s.after
        { s1 with ports := tmap s1.ports (fun _ p =>
          { p with kept := p.kept.filter (fun r => !r.fns.any (fun g => g.1 == n && sameFn g.2 fn) || s1.fenced r.fns) }) })) ∧
  (∀ (s : State) (p t : Nat) (d : Drain), s.dieUp = true → (tget ({} : RunCmd) s.ember.running p).wait = .drain t →
      s.win.drains.find? (fun d => d.tracker == t && d.handle == 0 && d.part == p) = some d →
      exec (.commitDrainWaitExpiry p) s = .next (s.after (((s.newHandle p 0x0801 .drain).2.modWin (fun w =>
        { w with drains := w.drains.map (fun x =>
            if x.tracker = t ∧ x.handle = 0 ∧ x.part = p then { x with handle := (s.newHandle p 0x0801 .drain).1 } else x) })).finishRun
        p rcDrainPending (s.newHandle p 0x0801 .drain).1 d.reply))) ∧
  (∀ (s : State) (t : Nat), s.dieUp = true → (tget ({} : Tracker) s.win.trackers t).free = false →
      (tget ({} : Tracker) s.win.trackers t).isOpen = false → (tget ({} : Tracker) s.win.trackers t).empty = true →
      exec (.drainComplete t) s = .next (s.after s.settleDrains)) ∧
  (∀ (s : State) (n h : Nat), s.dieUp = true → (s.port n).sharePending = true → (s.port n).reset = some h →
      exec (.devShareComplete n true) s = .next (s.after
        ((s.modPort n (fun x => { x with sharePending := false, reset := none })).endHandle h rcOk)) ∧
      (let s1 := s.modPort n (fun x => { x with sharePending := false, reset := none, mode := .unassigned })
       ((s.port n).mode = .unassigned → exec (.devShareComplete n false) s = .next (s.after (s1.endHandle h rcTimeout))) ∧
       ((s.port n).mode ≠ .unassigned → exec (.devShareComplete n false) s = .next (s.after
        ((s1.invalidateRange (faMake s.own 1 (n * 2 ^ 48)).toNat (2 ^ 48)).endHandle h rcTimeout))))) ∧
  (∀ s c p q, s.serves cmdWinStage c p q → 1 ≤ q.u16 0x20 → q.u16 0x20 ≤ 101 → q.zero 0x22 6 = true →
      s.opsFault (p == 0) q (q.u16 0x20) = none →
      (∀ o ∈ opsOf q, eEmber (bankGet s.win.bank o.key) = false) →
      (p ≠ 0 → ∀ o ∈ opsOf q, eLock (bankGet s.win.bank o.key) = false) →
      let w := (whoOf c p q).subject
      let set := (opsOf q).foldl (stageOne s.win.stamps (p == 0)) (tget [] s.win.staging w)
      set.length ≤ 1024 →
      exec (.winStage c q) s = .next (s.answered (ok (s.modWin (fun x => { x with staging := tset x.staging w set }))
        (leBytes 2 set.length ++ List.replicate 6 0)) c p 0x0800 q)) ∧
  (∀ s c p q b, s.serves cmdWinCommit c p q → q.zero 0x21 3 = true →
      let w := (whoOf c p q).subject
      let ops := tget [] s.win.staging w
      s.commitCheck ops (q.u8 0x20 == 1 || s.handleFree p) = .inr b →
      (q.u8 0x20 = 1 → exec (.winCommit c q) s = .next (s.answered (ok s (leBytes 2 ((whoOf c p q).shown s.iso.strict s.win.epoch.toNat) ++ List.replicate 6 0))
        c p 0x0801 q)) ∧
      (q.u8 0x20 = 0 →
        let deps := commitDeps s.win.bank b ops
        let ws := ops.map (fun o => (o.key, bankGet b o.key)) ++ deps.map (fun k => (k, invalidated (bankGet b k)))
        let t := s.win.commit ws
        let parts := (ws.flatMap (fun e => (([e.2, bankGet s.win.bank e.1]).filter eValid).map (entryOwner (tableOfKey e.1)))).eraseDups
        let d : Drain := { tracker := t.1, parts := parts,
                           epoch := BitVec.ofNat 16 ((whoOf c p q).shown s.iso.strict t.2.epoch.toNat), applied := ops.length, inval := deps.length, part := p }
        let w1 : Win := { t.2 with staging := tdel t.2.staging w,
                                   byZero := (ops.filter (fun o => o.byZero)).map (fun o => o.key) ++
                                     t.2.byZero.filter (fun k => !ops.any (fun o => o.key == k)) }
        w1.drainDone d = true →
        exec (.winCommit c q) s = .next (s.answered
          (ok ((({ s with win := w1 }).tellInvalidated s.win.bank deps).modWin Win.freeTrackers) d.reply) c p 0x0801 q))) ∧
  (∀ s c p q, s.serves cmdWinDiscard c p q →
      exec (.winDiscard c q) s = .next (s.answered
        (ok (s.modWin (fun x => { x with staging := tdel x.staging (whoOf c p q).subject }))) c p 0x0802 q)) ∧
  (∀ s c p q, s.serves cmdWinRead c p q → q.u8 0x20 = 3 ∨ q.u8 0x20 = 4 → q.u8 0x21 = 0 → q.u8 0x22 = 0 → q.zero 0x23 1 = true →
      q.u16 0x24 < winCount (q.u8 0x20) → 1 ≤ q.u16 0x26 → q.u16 0x26 ≤ 126 → q.u16 0x24 + q.u16 0x26 ≤ winCount (q.u8 0x20) →
      exec (.winRead c q) s = .next (s.answered (ok s (leBytes 2 ((whoOf c p q).shown s.iso.strict s.win.epoch.toNat) ++ leBytes 2 (q.u16 0x26) ++ [0, 0, 0, 0] ++
        (List.range (q.u16 0x26)).flatMap (fun i =>
          let e := bankGet s.win.bank (winKey (q.u8 0x20) 0 (q.u16 0x24 + i))
          if p = 0 ∨ entryOwner (q.u8 0x20) e = p then leBytes 32 e.toNat else List.replicate 32 0))) c p 0x0803 q)) ∧
  (∀ s c p q, s.serves cmdDevShare c p q →
      let n := q.u8 0x20
      n < 40 → (s.port n).role = .downstream → q.u8 0x21 = 0 → q.u8 0x22 = 0 → q.zero 0x23 1 = true → q.u16 0x24 = 0 → q.u16 0x26 ≤ 1024 →
      (s.port n).mode ≠ .exclusive → s.boundTo n = [] → (s.port n).sharePending = false → s.handleFree p = true →
      exec (.devShare c q) s = .next (s.answered
        (pend ((((s.newHandle p 0x0805).2.invalidateRange (faMake s.own 1 (n * 2 ^ 48)).toNat (2 ^ 48)).vfWrites n 0).modPort n (fun x =>
          { x with sharePending := true, reset := some (s.newHandle p 0x0805).1, mode := .unassigned }))
          (s.newHandle p 0x0805).1) c p 0x0805 q)) ∧
  (∀ s c p q, s.serves cmdMigrateFence c p q →
      let n := q.u8 0x20
      n < 40 → (s.port n).role = .downstream → (s.port n).mode = .unassigned → q.u8 0x21 = 1 → q.u16 0x22 = 0 → q.u16 0x24 = 1 →
      q.zero 0x26 2 = true → s.vdsps.any (fun e => e.2.onPort n) = false →
      (s.fenced [(n, 0xFFFF)] = false → exec (.migrateFence c q) s = .next (s.answered (ok s) c p 0x0806 q)) ∧
      (s.fenced [(n, 0xFFFF)] = true → s.handleFree p = true →
        exec (.migrateFence c q) s = .next (s.answered (pend (s.newHandle p 0x0806 (.fences [(n, 0xFFFF)])).2
          (s.newHandle p 0x0806 (.fences [(n, 0xFFFF)])).1) c p 0x0806 q)))

/-- What each event of the switch core does where it takes effect (R168 to R176, R184, R188). -/
def Obligations.CoreEventsTakeEffect : Prop :=
  (∀ (s : State) (k : Nat), s.working → (s.plane k).inService = true →
      let s0 := s.modPlane k (fun p => { p with
        n := s.core.n
        cal := if !s.iso.strict then none else if p.cellNo % 32 = 0 then some s.sharedCalendar else p.cal })
      let m := iterations s.core.cfg.weight (s0.requests k) (s0.plane k).n true (s0.plane k, [])
      let s2 := (s0.countSlots k m.2).modPlane k (fun p =>
        { p with gptr := m.1.gptr, aptr := m.1.aptr, tcptr := m.1.tcptr, credit := m.1.credit, cellNo := p.cellNo + 1 })
      exec (.planeCellTime k) s = .next (s.after
        ((s2.modCore (fun c => { c with q := m.2.foldl (fun q v => crossOne k v q) c.q })).checkCells.releaseAll.planeDrained k))) ∧
  (∀ (s : State) (k : Nat), s.working → (s.plane k).inService = false → exec (.planeCellTime k) s = .next (s.after s)) ∧
  (∀ (s : State) (ps : List Nat), s.working →
      let s1 := (List.range 4).foldl (fun t k => t.modPlane k (fun p => { p with meanPs := lget p.meanPs ps k })) s
      ((∀ t ∈ ps, t ≤ 4900) → exec (.iterationMeasurement ps) s = .next (s.after s1)) ∧
      (s.ember.fwReady = true → 2 < s.core.n → (∃ t ∈ ps, 4900 < t) →
        exec (.iterationMeasurement ps) s = .next (s.after (s1.setN (s.core.n - 1))))) ∧
  (∀ (s : State) (k : Nat), s.working → 2 < s.core.n →
      exec (.iterationFastLower k) s = .next (s.after ((s.setN (s.core.n - 1)).raiseAt (0x22 + k % 4) 1))) ∧
  (∀ (s : State) (i o tc : Nat) (e : QPkt) (l : Nat), s.working →
      s.core.q.find? (fun e => e.place == .spilled && e.pkt.src == i && e.pkt.dst == o && e.pkt.tc == tc) = some e →
      s.spillRoom o e.n = true → (stripe s.planesIn (tget 0 s.core.rot i) e.pkt.formedCells).getLast? = some l →
      ∃ k q, exec (.spillReadback i o tc false) s = .next (s.after (((s.modCore (fun c => { c with q := q, rot := tset c.rot i ((l + 1) % 4) })).count
        { block := 0x38, event := 0x11, raw := e.n }))) ∧ k ∈ q ∧ k.place = (if s.heldOut o then .held else .shared) ∧
        k.pkt = { e.pkt with spilled := true } ∧ q.length = s.core.q.length)

/-- What each training, reset and lane event of a fabric link does where it takes effect (R217 to R219, R223). -/
def Obligations.LinkTrainingTakesEffect : Prop :=
  (∀ (s : State) (l : Nat), s.working →
      ((s.link l).st = .lreset → exec (.lresetExpiry l) s = .next (s.after (s.linkTo l (fun k => { k with st := .idle })))) ∧
      ((s.link l).st = .idle → exec (.electricalIdleExpiry l) s = .next (s.after (s.toDetect l))) ∧
      ((s.link l).st = .detect → exec (.detectTimeout l) s = .next (s.after (s.beacon l))) ∧
      ((s.link l).st = .equalize → exec (.equalizeTimeout l) s = .next (s.after (s.trainFail l 11))) ∧
      (∀ rx, (s.link l).st = .align → lanesAlign (s.link l).lanesOk rx = true → exec (.alignComplete { l := l, rx := rx }) s = .next (s.after
        (s.linkTo l (fun k => { k with st := .negotiate, aligned := true, trainDue := k.leader, laneOrder := rx.map LaneRx.lane })))) ∧
      ((s.link l).st = .align → exec (.alignTimeout l) s = .next (s.after (s.trainFail l 12))) ∧
      ((s.link l).st = .retry → exec (.trainingRetryWaitExpiry l) s = .next (s.after (s.toDetect l)))) ∧
  (∀ (s : State) (l : Nat) (r : TrainRec), s.working → (s.link l).st = .detect → s.boot.fabricHeld = false → s.lands.frefOk = true →
      exec (.beaconReceived l r) s = .next (s.after (s.linkTo l (fun k =>
        { k with st := .equalize, peerRec := some r, peerModule := r.module, peerLink := r.link, leader := decide (s.own < r.module) })))) ∧
  (∀ (s : State) (l lanes : Nat), s.working → (s.link l).st = .equalize → lanes % 16 ≠ 0 →
      exec (.equalizationComplete l lanes) s = .next (s.after
        (s.linkTo l (fun k => { k with st := .align, lanesOk := BitVec.ofNat 4 lanes })))) ∧
  (∀ (s : State) (l : Nat) (r : TrainRec) (interval : Nat), s.working → (s.link l).st = .negotiate →
      let s1 := s.modLink l (fun k =>
        { k with peerRec := some r, peerModule := r.module, peerLink := r.link, trainDue := k.trainDue || r.echoReq,
                 echoTick := if r.echoReq then s.time.ticks else k.echoTick, leader := decide (s.own < r.module) })
      let rtt := interval - r.turnNs
      let w := trainWidth ((s.link l).lanesOk &&& r.lanesOk) (Nat.min (s.link l).reqWidth r.reqWidth)
      let rate := Nat.min (s.link l).reqRate r.reqRate
      (r.module = s.own → exec (.trainRecordReceived l r interval) s = .next (s.after (s1.trainFail l 9))) ∧
      (r.module ≠ s.own → r.echoRsp = false → exec (.trainRecordReceived l r interval) s = .next (s.after s1)) ∧
      (r.module ≠ s.own → r.echoRsp = true → w.1 ≠ 0 → 80 < headroom rtt w.1 rate →
        exec (.trainRecordReceived l r interval) s = .next (s.after
          ((s1.modLink l (fun k => { k with rttNs := rtt, h := headroom rtt w.1 rate })).trainFail l 10))) ∧
      (r.module ≠ s.own → r.echoRsp = true → w.1 ≠ 0 → headroom rtt w.1 rate ≤ 80 →
        exec (.trainRecordReceived l r interval) s = .next (s.after (s1.enterUp l r rtt w.1 rate w.2)))) ∧
  (∀ (s : State) (l lane : Nat), s.working → (s.link l).lanesUse.getLsbD lane = true →
      (∀ pairs, laneUnlocks pairs = true → exec (.laneLockLost l { lane := lane, pairs := pairs }) s = .next (s.after (s.linkReset l 4))) ∧
      exec (.signalLost l lane) s = .next (s.after (s.linkReset l 5))) ∧
  (∀ (s : State), s.boot.phase ≠ .off →
      exec .frefclkLoss s = .next (s.after ((List.range 16).foldl (fun t l => t.linkReset l 4) { s with lands := { s.lands with frefOk := false } }))) ∧
  (∀ (s : State) (l h : Nat), s.dieUp = true → (s.link l).handle = some h → (s.link l).st ≠ .up →
      exec (.linkHandleTimeout l) s = .next (s.after ((s.modLink l (fun k => { k with handle := none })).endHandle h rcTimeout)))

/-- What the flit events of a link that is UP do (R198 to R207, R214). -/
def Obligations.LinkFlitsTakeEffect : Prop :=
  (∀ (s : State) (l : Nat), s.working → (s.link l).st = .up →
      let s0 := s.rxRefresh l
      let k := s0.link l
      (∀ i r, k.st = .up → k.replayAt = some i → k.replay[i]? = some r →
        exec (.flitTime l) s = .next (s.after ((s0.modLink l (fun k =>
          { k with replayAt := if i + 1 < k.replay.length then some (i + 1) else none })).sendFlit l (k.stamp r.flit)))) ∧
      (k.st = .up → k.replayAt = none → k.nakDue = true →
        exec (.flitTime l) s = .next (s.after ((s0.modLink l (fun k => { k with nakDue := false, nakOut := true })).sendFlit l
          (k.stamp { seq := k.seq, ftype := 3, payload := [] })))) ∧
      (k.st = .up → k.replayAt = none → k.nakDue = false → k.trainDue = true →
        exec (.flitTime l) s = .next (s.after ((s0.modLink l (fun k => { k with trainDue := false })).sendFlit l
          (k.stamp { seq := k.seq, ftype := 5, payload := (s0.echoRec l).payload })))) ∧
      (∀ v, k.st = .up → k.replayAt = none → k.nakDue = false → k.trainDue = false → s0.linkTurn l = some v →
        exec (.flitTime l) s = .next (s.after (s0.sendData l v))) ∧
      (k.st = .up → k.replayAt = none → k.nakDue = false → k.trainDue = false → s0.linkTurn l = none →
        exec (.flitTime l) s = .next (s.after (s0.sendFlit l (k.stamp { seq := k.seq, ftype := 0, payload := [] }))))) ∧
  (∀ (s : State) (l n : Nat) (head rest : Bytes), s.working → (s.link l).st = .up →
      let raw := head ++ rest
      let s0 (decoded : Bool) := (s.rxRefresh l).modLink l (fun k =>
        { k with fecCorr := if decoded then sat (2 ^ 32 - 1) k.fecCorr n else k.fecCorr })
      let good := (s0 true).modLink l (fun k =>
        { k with xoffRx := (flitOf raw).xoff, xoffSeen := (flitOf raw).xoff })
      exec (.flitReceived l head rest false n) s = .next (s.after
        (((((s0 false).modLink l (fun k =>
          { k with crcErrs := sat (2 ^ 32 - 1) k.crcErrs 1, fecUncorr := sat (2 ^ 32 - 1) k.fecUncorr 1 })).linkFault l 1).linkFault l 0).owesNak l)) ∧
      (flitCrcOk raw = false → exec (.flitReceived l head rest true n) s = .next (s.after
        ((((s0 true).modLink l (fun k =>
          { k with crcErrs := sat (2 ^ 32 - 1) k.crcErrs 1, xoffRx := k.xoffRx ||| (flitOf raw).xoff })).linkFault l 0).owesNak l))) ∧
      (flitCrcOk raw = true → (flitOf raw).ackv = true → (flitOf raw).ftype = 0 →
        exec (.flitReceived l head rest true n) s = .next (s.after (good.linkAck l (flitOf raw).ack))) ∧
      (flitCrcOk raw = true → (flitOf raw).ackv = false → (flitOf raw).ftype = 1 →
        exec (.flitReceived l head rest true n) s = .next (s.after (good.seqFlit l (flitOf raw)))) ∧
      (flitCrcOk raw = true → (flitOf raw).ackv = false → (flitOf raw).ftype = 3 →
        exec (.flitReceived l head rest true n) s = .next (s.after ((good.nakIn l (flitOf raw)).linkLeft l))) ∧
      (flitCrcOk raw = true → (flitOf raw).ackv = false → (flitOf raw).ftype = 4 →
        exec (.flitReceived l head rest true n) s = .next (s.after (good.linkReset l 2)))) ∧
  (∀ (s : State) (l : Nat), s.working →
      exec (.nakTimeout l) s = .next (s.after (s.modLink l (fun k => { k with nakOut := false }))) ∧
      ((s.link l).st = .up → (s.link l).replay ≠ [] →
        exec (.replayTimeout l) s = .next (s.after ((s.replayFrom l 0).linkLeft l))))

/-- Where each fabric link command completes, and what it answers and leaves (R223 to R227). -/
def Obligations.LinkCommandsComplete : Prop :=
  (∀ s c p q, s.serves cmdLinkGetStatus c p q → q.u8 0x20 < 16 → q.zero 0x21 3 = true →
      exec (.linkGetStatus c q) s = .next (s.answered (ok s (s.linkStatus ((whoOf c p q).shown s.iso.strict) (q.u8 0x20))) c p 0x0400 q)) ∧
  (∀ s c p q, s.serves cmdLinkSet c p q →
      let l := q.u8 0x20
      let v := q.u8 0x21
      l < 16 → v < 32 → v ≠ 0 → (bit v 0 = true → q.u8 0x22 ≤ 1) → (bit v 1 = true → q.u8 0x23 = 1 ∨ q.u8 0x23 = 2 ∨ q.u8 0x23 = 4) →
      (bit v 2 = true → q.u8 0x24 = 1 ∨ q.u8 0x24 = 2) → q.zero 0x25 1 = true →
      (bit v 4 = true → 16 ≤ q.u16 0x26 ∧ q.u16 0x26 ≤ 256) → (bit v 3 = true → vcMapOk (q.u32 0x28) = true) → q.zero 0x2C 4 = true →
      (s.link l).handle = none →
      let n := (s.link l).set v q
      (n.enabled = true → s.masked (0x0A + l) = false → (s.link l).st ≠ .disabled → (s.link l).maxWidth = n.maxWidth → (s.link l).maxRate = n.maxRate →
        (s.link l).vcMap = n.vcMap →
        exec (.linkSet c q) s = .next (s.answered (ok (s.modLink l (fun _ => n))) c p 0x0401 q)) ∧
      (n.enabled = false → (s.link l).st ≠ .disabled →
        exec (.linkSet c q) s = .next (s.answered (ok (((s.modLink l (fun _ => n)).makeFailed l).failover l)) c p 0x0401 q))) ∧
  (∀ s c p q, s.serves cmdLinkReset c p q → q.u8 0x20 < 16 → q.u8 0x21 ≤ 1 → q.zero 0x22 2 = true →
      (s.link (q.u8 0x20)).handle = none → (s.link (q.u8 0x20)).st = .up →
      exec (.linkReset c q) s = .next (s.answered (s.linkStart (q.u8 0x20) p 0x0402
        (fun t => if q.u8 0x21 = 1 then t.makeFailed (q.u8 0x20) else t.linkRestart (q.u8 0x20))) c p 0x0402 q))

/-- What a packet received over the fabric does where it takes effect (R33, R231, R241). -/
def Obligations.FabricPacketsTakeEffect : Prop :=
  (∀ (s : State) (l : Nat) (k : Pkt), s.working → (s.link l).st = .up → k.ptype ≠ 4 →
      let p := { k with src := 40 + l, epoch := s.win.epoch.toNat, trk := 0, trkv := false, spilled := false }
      let known := (s.adm k.smod).st = .admitted
      (((s.link l).quarantined = true ∨ ¬ known) → exec (.fabricPacketReceived l k) s = .next (s.after (s.dropForeign l p))) ∧
      ((s.link l).quarantined = false → known → k.dmod = s.own → k.ptype = 1 → s.portPresent (cplPort k.d.faddr) = true →
        exec (.fabricPacketReceived l k) s = .next (s.after (s.submit (localPkt p (cplPort k.d.faddr))))) ∧
      ((s.link l).quarantined = false → known → k.dmod = s.own → k.ptype ≠ 1 → faClass k.d.faddr < 4 →
        exec (.fabricPacketReceived l k) s = .next (s.after (s.deliverHere l p))) ∧
      (∀ o, (s.link l).quarantined = false → known → k.dmod = s.own → k.ptype = 3 → faClass k.d.faddr < 4 →
        s.attachment k.d.faddr = some o →
        exec (.fabricPacketReceived l k) s = .next (s.after (s.submit (localPkt p o)))) ∧
      ((s.link l).quarantined = false → known → k.dmod = s.own → k.ptype ≠ 1 → 4 ≤ faClass k.d.faddr →
        exec (.fabricPacketReceived l k) s = .next (s.after (s.refuseForeign l 2 p))) ∧
      (∀ p1 s1, (s.link l).quarantined = false → known → k.dmod ≠ s.own → k.hops = 0 → s.routePkt p k.dmod = some (p1, s1) →
        exec (.fabricPacketReceived l k) s = .next (s.after (s1.submit p1))) ∧
      ((s.link l).quarantined = false → known → k.dmod ≠ s.own → k.hops ≠ 0 →
        exec (.fabricPacketReceived l k) s = .next (s.after (s.refuseForeign l 5 p)))) ∧
  (∀ (s : State) (m tc v : Nat), s.working → exec (.doneReport m tc v) s = .next (s.after (s.modSpray m tc (fun y =>
      { y with done_ := BitVec.ofNat 32 v, sprayed := y.sprayed && y.sent - BitVec.ofNat 32 v - y.lost != 0 })))) ∧
  (∀ (s : State) (id : Nat), s.working →
      (s.storeOf id = none → ∀ d, exec (.writeAckReceived id d) s = .next (s.after s)) ∧
      (∀ i e, s.storeOf id = some (i, e) →
        let t := s.modHcore (i / 8) (i % 8) (fun h => { h with unacked := h.unacked.filter (fun x => x.id != id) })
        exec (.writeAckReceived id true) s = .next (s.after t) ∧
        exec (.writeAckReceived id false) s = .next (s.after (t.recordStore (i / 8) (i % 8) e.addr))))

/-- What each fabric management event does where it takes effect (R236 to R253). -/
def Obligations.FabricManagementTakesEffect : Prop :=
  (∀ (s : State) (m n : Nat) (fr : Bytes), s.dieUp = true → s.ember.fwReady = true →
      (s.boot.opt.managers.contains m = true → (s.adm m).st = .admitted → tlook s.ember.msgQ (128 + m) = none →
        exec (.relayedCommand m true n fr) s = .next (s.after (s.modEmber (fun e =>
          { e with msgQ := tset e.msgQ (128 + m) { opcode := (reqOfBytes fr).1, req := (reqOfBytes fr).2, msgTag := n },
                   arrivals := e.arrivals ++ [128 + m] })))) ∧
      (exec (.relayedCommand m false n fr) s = .next (s.after (s.control m (.relayRsp n
        (Rsp.bytes { opcode := (reqOfBytes fr).1, status := rcDenied, tag := (reqOfBytes fr).2.tag })))))) ∧
  (∀ (s : State) (m : Nat), s.dieUp = true →
      ((s.adm m).st = .admitted → let s1 := (s.modAdm m (fun a => { a with st := .extracting })).event 0x809 s.allParts m
        exec (.extractingAnnouncement m false) s = .next (s.after (((s1.vdspsWhere (fun v => v.bound && v.kind == 3 && v.module == m)).foldl
          (fun t e => t.emberUnbind e.1 e.2) s1).reportReroutes s))) ∧
      ((s.adm m).st = .extracting → exec (.extractingAnnouncement m true) s = .next (s.after (s.withdraw m 0)))) ∧
  (∀ (s : State) (l : Nat), s.dieUp = true → (s.link l).st = .up → s.ember.fwReady = true →
      let say := fun name content => Host.Outcome.next (s.after (s.controlOn l (.spdmRsp name content)))
      exec (.getVersion l) s = say 0 (s.spdmContent 0 0 0) ∧ exec (.getCapabilities l) s = say 1 (s.spdmContent 1 0 0) ∧
      exec (.negotiateAlgorithms l) s = say 2 (s.spdmContent 2 0 0) ∧ exec (.getDigests l) s = say 3 (s.spdmContent 3 0 0) ∧
      (∀ o n, exec (.getCertificate l o n) s = say 4 (s.spdmContent 4 o n)) ∧
      (∀ n, exec (.challenge l n) s = say 5 (s.spdmContent 5 n 0)) ∧
      exec (.getMeasurements l) s = say 6 (s.spdmContent 6 0 0)) ∧
  (∀ (s : State) (l : Nat), s.dieUp = true → (s.link l).st = .up → (s.link l).spdmRun = true →
      (exec (.spdmResponseReceived l .progress) s = .next (s.after ((s.modLink l (fun k =>
        { k with spdmStep := Nat.min 6 (k.spdmStep + 1) })).controlOn l
          (.spdmReq (Nat.min 6 ((s.link l).spdmStep + 1)))))) ∧
      (∀ d fw svn, exec (.spdmResponseReceived l (.success d fw svn)) s = .next (s.after (s.spdmSuccess l d fw svn))) ∧
      exec (.spdmResponseReceived l .failed) s = .next (s.after (s.spdmFail l))) ∧
  (∀ (s : State) (l : Nat), s.dieUp = true → (s.link l).st = .up → (s.link l).quarantined = true → (s.link l).spdmRun = false →
      (s.link l).spdmOk = false → 1 ≤ (s.link l).spdmTries → (s.link l).spdmTries ≤ 2 →
      exec (.spdmRetryTimer l) s = .next (s.after (s.spdmStart l))) ∧
  (∀ (s : State) (l : Nat), s.dieUp = true → (s.link l).st ≠ .up →
      exec (.failoverTimer l) s = .next (s.after ((s.failPaths (fun k => k == l)).moveFailed))) ∧
  (∀ (s : State) (d j : Nat), s.dieUp = true → s.fab.revertMs ≠ 0 → s.pathUsable d j = true →
      exec (.revertTimer d j) s = .next (s.after (((List.range 16).filter (fun b =>
        bucketPath (routeBuckets (s.route d).entry) b == j && bucketPath (s.route d).oper b != j && !s.moving d b)).foldl (fun t b =>
          t.startMove d b (routeLink (s.route d).entry (bucketPath (s.route d).oper b)) j 0) s))) ∧
  (∀ (s : State) (d b : Nat) (v : Move), s.dieUp = true → s.fab.moves.find? (fun v => v.dmod == d && v.bucket == b) = some v →
      s.moveReady v = true → exec (.flowMoveComplete d b) s = .next (s.after (s.finishMove v))) ∧
  (∀ (s : State), s.fab.extract.step = 0 → exec .extractReq s = .next (s.after (State.modFab { s with lands := { s.lands with extractReq := true } }
      (fun f => { f with extract := { f.extract with filter := true } })))) ∧
  (∀ (s : State), s.dieUp = true → s.fab.extract.filter = true → s.lands.extractReq = true → s.fab.extract.step = 0 →
      let s1 := s.modFab (fun f => { f with extract := { filter := false, step := 3, rerouted := [] } })
      let s2 := ((List.range 64).filter (fun m => (s.adm m).st == .admitted)).foldl (fun t m => t.control m (.extracting false)) s1
      let s3 := s2.event 0x809 s2.allParts s2.own
      exec .extractFilterExpiry s = .next (s.after ((s3.vdspsWhere (fun v => v.bound)).foldl (fun t e => t.emberUnbind e.1 e.2) s3))) ∧
  (∀ (s : State) (m : Nat), s.dieUp = true → exec (.neighbourRerouteReport m) s = .next (s.after (s.modFab (fun f => { f with extract :=
      { f.extract with rerouted := if f.extract.rerouted.contains m then f.extract.rerouted else f.extract.rerouted ++ [m] } })))) ∧
  (∀ (s : State), s.dieUp = true →
      (s.extractDrained = true → exec .extractDrainComplete s = .next (s.after s.leaveService)) ∧
      (s.fab.extract.step = 3 → exec .extractTimeout s = .next (s.after s.leaveService))) ∧
  (∀ (s : State) (n : Nat) (fr : Bytes) (r : RelayWait), s.dieUp = true → tlook s.fab.relays n = some r →
      exec (.relayResponse n fr) s = .next (s.after ((s.modFab (fun f => { f with relays := tdel f.relays n })).finishRun r.part rcOk 0 fr))) ∧
  (∀ (s : State) (p n : Nat) (r : RunCmd), s.dieUp = true → tlook s.ember.running p = some r → r.wait = .relay n →
      exec (.relayTimeout p) s = .next (s.after ((s.modFab (fun f => { f with relays := tdel f.relays n })).finishRun p rcTimeout 0 []))) ∧
  (∀ (s : State) (m : Nat), s.dieUp = true → s.ember.fwReady = true → (s.adm m).st = .authenticated ∨ (s.adm m).st = .admitted →
      exec (.peerImageRequest m) s = .next (s.after (s.control m (.image s.runningImage))))

/-- Where each fabric command completes, and what it answers and leaves (R229, R230, R242 to R250, R256). -/
def Obligations.FabricCommandsComplete : Prop :=
  (∀ s c p q, s.serves cmdRouteSet c p q →
      let n := q.u8 0x20
      let rs := (List.range n).map (routeRec q)
      1 ≤ n → n ≤ 63 → q.u8 0x21 ≤ 1 → q.zero 0x22 6 = true → (∀ i < n, s.routeOk q i = true) →
      (∀ r ∈ rs, routeState (s.route r.m).entry ≠ 2 ∧ s.fab.moves.any (fun v => v.dmod == r.m) = false) →
      (∀ r ∈ rs, s.routeMoves r = []) →
      exec (.routeSet c q) s = .next (s.answered (ok ((s.setRoutes rs).reportReroutes s)) c p 0x0403 q)) ∧
  (∀ s c p q, s.serves cmdRouteRead c p q → q.u8 0x20 < 64 → 1 ≤ q.u8 0x21 → q.u8 0x21 ≤ 64 → q.u8 0x20 + q.u8 0x21 ≤ 64 →
      q.zero 0x22 2 = true →
      exec (.routeRead c q) s = .next (s.answered (ok s ((List.range (q.u8 0x21)).flatMap (fun i =>
        leBytes 8 (s.entryOf (q.u8 0x20 + i)).toNat ++ leBytes 4 (s.route (q.u8 0x20 + i)).oper.toNat ++
          leBytes 1 (bitsOf 4 (s.pathUsable (q.u8 0x20 + i))) ++ [0, 0, 0]))) c p 0x0404 q)) ∧
  (∀ s c p q, s.serves cmdFabGetModule c p q → q.u8 0x20 < 64 → q.zero 0x21 3 = true →
      ∃ d, d.length = 64 ∧ exec (.fabGetModule c q) s = .next (s.answered (ok s d) c p 0x0405 q)) ∧
  (∀ s c p q, s.serves cmdFabAdmit c p q →
      let m := q.u8 0x20
      let d := BitVec.ofNat 384 (leNat (q.bytes 0x28 48))
      m < 64 → m ≠ s.own → q.u8 0x21 ≤ 1 → q.zero 0x22 6 = true → (s.adm m).st = .authenticated →
      ((s.adm m).digest = none ∨ (s.adm m).digest = some d) →
      ((s.adm m).verified = true → (s.adm m).fwVersion.toNat / 2 ^ 24 < 3 → q.u8 0x21 = 1) →
      exec (.fabAdmit c q) s = .next (s.answered (ok (s.admitModule m d (q.u8 0x21 == 1))) c p 0x0406 q)) ∧
  (∀ s c p q, s.serves cmdFabWithdraw c p q → q.u8 0x20 < 64 → q.u8 0x20 ≠ s.own → q.zero 0x21 3 = true →
      (s.adm (q.u8 0x20)).st ≠ .unknown → (s.adm (q.u8 0x20)).st ≠ .withdrawn → s.handleFree p = true →
      exec (.fabWithdraw c q) s = .next (s.answered (pend ((s.newHandle p 0x0407).2.withdraw (q.u8 0x20) (s.newHandle p 0x0407).1)
        (s.newHandle p 0x0407).1) c p 0x0407 q)) ∧
  (∀ s c p q, s.serves cmdFabRelay c p q → q.u8 0x20 < 64 → q.zero 0x21 7 = true → (s.adm (q.u8 0x20)).st = .admitted →
      routeState (s.entryOf (q.u8 0x20)) = 1 →
      exec (.fabRelay c q) s = .next (s.answered
        { status := rcOk, wait := some (.relay s.fab.relaySeq),
          s := (s.modFab (fun f => { f with relays := tset f.relays s.fab.relaySeq { target := q.u8 0x20, part := p },
                                            relaySeq := s.fab.relaySeq + 1 })).control (q.u8 0x20)
            (.relay s.fab.relaySeq (p == 0) (q.bytes 0x28 (q.length - 8))) } c p 0x0408 q)) ∧
  (∀ s c p q, s.serves cmdFabSetConfig c p q →
      let v := q.u8 0x20
      v < 8 → v ≠ 0 → q.zero 0x21 3 = true → (bit v 0 = true → 1 ≤ q.u32 0x24 ∧ q.u32 0x24 ≤ 1000) →
      (bit v 1 = true → q.u32 0x28 = 0 ∨ 100 ≤ q.u32 0x28 ∧ q.u32 0x28 ≤ 60000) → (bit v 2 = true → 10 ≤ q.u32 0x2C ∧ q.u32 0x2C ≤ 600) →
      exec (.fabSetConfig c q) s = .next (s.answered (ok (s.modFab (fun f =>
        { f with failoverMs := if bit v 0 then q.u32 0x24 else f.failoverMs, revertMs := if bit v 1 then q.u32 0x28 else f.revertMs,
                 extractS := if bit v 2 then q.u32 0x2C else f.extractS }))) c p 0x0409 q))

/-- What an access that reaches a pool port does (R262, R270) and what the patrol scrub does (R276). -/
def Obligations.PoolPortsTakeEffect : Prop :=
  (∀ (s : State) (m n off len : Nat) (g : PoolAgent) (ecc : Eccs), s.working → s.pool.present = true → s.agentHeld g = false →
      let a := poolKey n off
      (agentAdmits g (s.sod n) off (.read len) = true →
        let s1 := (s.eccAt a len ecc none).poolCount m 0x10 (linesOf a len).length none
        exec (.poolAccess m (.direct g n off (.read len)) ecc) s = .next (s.after
          ((if s1.pool.tainted a len then s1.emberPoison g n ecc else s1).poolResult
            (if s1.pool.tainted a len then csCa else 0) (s1.pool.bytes a len)))) ∧
      (∀ d ep, agentAdmits g (s.sod n) off (.write d ep) = true →
        exec (.poolAccess m (.direct g n off (.write d ep)) ecc) s = .next (s.after
          (((s.poolWrite a d ep (fun _ => true)).poolCount m 0x11 (linesOf a d.length).length none).poolResult 0 []))) ∧
      (∀ v, agentAdmits g (s.sod n) off (.fetchAdd 8 v) = true →
        exec (.poolAccess m (.direct g n off (.fetchAdd 8 v)) ecc) s = .next (s.after (s.directAtomic m a opcFetchAdd v.toNat 0 ecc))) ∧
      (∀ v, agentAdmits g (s.sod n) off (.swap 8 v) = true →
        exec (.poolAccess m (.direct g n off (.swap 8 v)) ecc) s = .next (s.after (s.directAtomic m a opcSwap v.toNat 0 ecc))) ∧
      (∀ x v, agentAdmits g (s.sod n) off (.cas 16 x v) = true →
        exec (.poolAccess m (.direct g n off (.cas 16 x v)) ecc) s = .next (s.after (s.directAtomic m a opcCas x.toNat v.toNat ecc))) ∧
      (∀ agent d, agentPort g = some agent → agentAdmits g (s.sod n) off (.conditional d) = true →
        exec (.poolAccess m (.direct g n off (.conditional d)) ecc) s = .next (s.after
          (s.directConditional m a agent (d.take (256 - a % 256))))) ∧
      (∀ op, agentAdmits g (s.sod n) off op = false →
        exec (.poolAccess m (.direct g n off op) ecc) s = .next (s.after
          ((s.raiseAt (0x26 + m) 5 none (some (64 + m)) (faMake s.own 0 a)).poolResult csUr [])))) ∧
  (∀ (s : State) (m : Nat) (ecc : Eccs) (p : Pkt) (r : List Pkt), s.working → s.blockAway (0x26 + m) = false →
      poolPick s.poolHeld [] (tget [] s.core.delivered (64 + m)) = some (p, r) →
      exec (.poolAccess m .queued ecc) s = .next (s.after
        ((s.modCore (fun k => { k with delivered := tset k.delivered (64 + m) r })).poolExec m p ecc))) ∧
  (∀ (s : State) (n k : Nat), s.working → s.pool.present = true → k < 2 ^ 24 → (s.sod n).st ≠ .absent → (s.sod n).st ≠ .retired →
      let l := n * 2 ^ 24 + k
      let s1 := s.modEmber (fun e => { e with sincePatrol := l * 100 / (Nat.max 1 s.pool.total * 2 ^ 24) })
      exec (.patrolScrubRead n k .ok) s = .next (s.after s1) ∧
      exec (.patrolScrubRead n k .bad) s = .next (s.after (s1.lineBad (l * 64) 2 none)) ∧
      (∀ dev, exec (.patrolScrubRead n k (.corrected dev)) s = .next (s.after (s1.lineCorrected (l * 64) dev))))

/-- What the events of a sod's life do where they take effect (R269, R271, R277). -/
def Obligations.SodLifeTakesEffect : Prop :=
  (∀ (s : State) (n : Nat), s.dieUp = true → (s.sod n).st = .zeroing →
      exec (.zeroingComplete n) s = .next (s.after (State.initPool 4 ((s.modPool (fun p =>
        { p with mem := mclear p.mem (poolKey n 0) (2 ^ 30), poisoned := p.poisoned.filter (fun l => l / 2 ^ 24 != n) })).modSod n
          (fun d => { d with st := .scrubbing, scrubbed := false }))))) ∧
  (∀ (s : State) (n : Nat), s.dieUp = true → (s.sod n).st = .scrubbing → (s.sod n).scrubbed = false →
      (s.pool.lostUnder n = [] → exec (.scrubComplete n false) s = .next (s.after
        ((s.modSod n (fun d => { d with scrubbed := true })).sodDone n))) ∧
      exec (.scrubComplete n true) s = .next (s.after
        ((s.modPool (fun p => { p with ue := sat (2 ^ 32 - 1) p.ue 1 })).retireSod n))) ∧
  (∀ (s : State) (id : Nat) (f : PFence), s.dieUp = true → s.pool.fences.find? (fun f => f.id == id) = some f →
      s.fenceReached f = true →
      let s1 := s.modPool (fun p => { p with fences := p.fences.filter (fun g => g.id != id) })
      let s2 := f.sods.foldl (fun t n => if (t.sod n).fenced then (t.modSod n (fun d => { d with fenced := false })).sodDone n else t) s1
      (f.handle = 0 → exec (.poolFenceComplete id) s = .next (s.after s2)) ∧
      (f.handle ≠ 0 → exec (.poolFenceComplete id) s = .next (s.after (s2.endHandle f.handle rcOk)))) ∧
  (∀ (s : State) (ch : Nat), s.dieUp = true → s.pool.present = true → s.pool.chLost.getLsbD ch = false →
      let s1 := ((s.modPool (fun p => { p with chLost := p.chLost ||| (1#16 <<< ch) })).raiseAt (0x26 + ch / 4) 4).poolEvent 4 ch
      let hit (n : Nat) : Bool := decide (n < s.pool.wide) || s.pool.channel n 0 / 4 == ch / 4
      let s2 := s1.modPool (fun p =>
        { p with sods := tmap p.sods (fun n d => if hit n && d.st != .free && d.st != .retired then { d with chlost := true } else d) })
      let dead := (s2.pool.sods.filter (fun e => hit e.1 && e.2.st == .free)).map (fun e => e.1)
      exec (.channelLost ch) s = .next (s.after ((dead.foldl (fun t n => t.retireSod n) s2).romCopyLost)))

/-- What each command of the memory pool answers when it is executed (R284 to R288, R271). -/
def Obligations.PoolCommandsComplete : Prop :=
  (∀ (s : State) (c : Path) (p : Nat) (q : Req), s.serves cmdPoolGetStatus c p q →
      ∃ d, d.length = 40 ∧ exec (.poolGetStatus c q) s = .next (s.answered (ok s d) c p 0x0500 q)) ∧
  (∀ (s : State) (c : Path) (p : Nat) (q : Req), s.serves cmdPoolConfig c p q → q.u8 0x20 = 1 → q.zero 0x21 3 = true →
      q.u16 0x24 = s.pool.wide → s.pool.wide % 4 = 0 → ceilDiv (s.pool.spillSods + 1) 4 * 4 ≤ s.pool.wide → s.pool.present = true →
      s.pool.wide ≤ s.pool.total →
      exec (.poolConfig c q) s = .next (s.answered
        (ok (({ s with nv := { s.nv with wideSods := some s.pool.wide } }).resizeSpill s.pool.spillSods)) c p 0x0501 q)) ∧
  (∀ (s : State) (c : Path) (p : Nat) (q : Req), s.serves cmdSodAssign c p q → q.u8 0x20 = 1 → q.u8 0x21 < 32 → q.u8 0x22 = 0 →
      q.u8 0x23 = 0xFF → 1 ≤ q.u16 0x24 → q.u16 0x24 ≤ 4096 → q.u16 0x26 + q.u16 0x24 ≤ 8192 → s.pool.present = true →
      ¬ (q.u16 0x26 ≤ s.pool.reserve ∧ s.pool.reserve < q.u16 0x26 + q.u16 0x24) →
      (∀ i ∈ runList (q.u16 0x26) (q.u16 0x24), (s.sod i).st = .free) →
      let s1 := (runList (q.u16 0x26) (q.u16 0x24)).foldl (fun t i => t.modSod i (fun d =>
        { d with st := .assigned, kind := 1, target := q.u8 0x21, exported := false })) s
      exec (.sodAssign c q) s = .next (s.answered
        (ok s1 (leBytes 2 (q.u16 0x26) ++ leBytes 2 (q.u16 0x24) ++ leBytes 2 (s1.sodsHeld 1 (q.u8 0x21)) ++ [0, 0])) c p 0x0502 q)) ∧
  (∀ (s : State) (c : Path) (p : Nat) (q : Req), s.serves cmdSodRelease c p q → q.u16 0x20 < 8192 → 1 ≤ q.u16 0x22 → q.u16 0x22 ≤ 4096 →
      q.u16 0x20 + q.u16 0x22 ≤ 8192 → s.pool.present = true →
      ¬ (q.u16 0x20 ≤ s.pool.reserve ∧ s.pool.reserve < q.u16 0x20 + q.u16 0x22) → (s.sod (q.u16 0x20)).kind ≠ 2 →
      (∀ i ∈ runList (q.u16 0x20) (q.u16 0x22), s.sodRunning i = false ∧ (s.sod i).st = .assigned ∧ (s.sod i).exported = false ∧
        (s.sod i).kind = (s.sod (q.u16 0x20)).kind ∧ (s.sod i).target = (s.sod (q.u16 0x20)).target) →
      s.handleFree p = true →
      let run := runList (q.u16 0x20) (q.u16 0x22)
      let h := s.newHandle p 0x0503 (.sods run)
      let s1 := h.2.invalidateRange (faMake s.own 0 (poolKey (q.u16 0x20) 0)).toNat (q.u16 0x22 * 2 ^ 30)
      exec (.sodRelease c q) s = .next (s.answered
        (pend ((run.foldl (fun t i => t.zeroSod i true h.1) s1).poolFence run 0 none) h.1) c p 0x0503 q)) ∧
  (∀ (s : State) (c : Path) (p : Nat) (q : Req), s.serves cmdSodQuery c p q → q.u16 0x20 < 8192 → 1 ≤ q.u16 0x22 → q.u16 0x22 ≤ 1000 →
      q.u16 0x20 + q.u16 0x22 ≤ 8192 → q.onBehalf = false →
      exec (.sodQuery c q) s = .next (s.answered (ok s (leBytes 2 (q.u16 0x20) ++ leBytes 2 (q.u16 0x22) ++ [0, 0, 0, 0] ++
        (runList (q.u16 0x20) (q.u16 0x22)).flatMap (fun i => leBytes 4 (if p == 0 || ((s.sod i).st == .assigned &&
          (s.sod i).kind != 3 && (s.sod i).target == p) then s.sodRecord i else 0)))) c p 0x0504 q)) ∧
  (∀ (s : State) (c : Path) (p : Nat) (q : Req), s.serves cmdSodSet c p q → q.u16 0x20 < 8192 → 1 ≤ q.u16 0x22 → q.u16 0x22 ≤ 4096 →
      q.u16 0x20 + q.u16 0x22 ≤ 8192 → q.zero 0x25 3 = true → s.pool.present = true →
      let run := runList (q.u16 0x20) (q.u16 0x22)
      let each (t : State) (f : Sod → Sod) : State := run.foldl (fun t i => t.modSod i f) t
      (∀ i ∈ run, s.sodRunning i = false ∧ s.sodFencing i = false) →
      (q.u8 0x24 = 0 → exec (.sodSet c q) s = .next (s.answered (ok (each s (fun d => { d with poison := false }))) c p 0x0505 q)) ∧
      (q.u8 0x24 = 2 → (∀ i ∈ run, (s.sod i).st = .assigned) →
        exec (.sodSet c q) s = .next (s.answered (ok (each s (fun d => { d with exported := false }))) c p 0x0505 q)) ∧
      (q.u8 0x24 = 1 → (∀ i ∈ run, (s.sod i).st = .assigned) → s.handleFree p = true →
        let h := s.newHandle p 0x0505
        exec (.sodSet c q) s = .next (s.answered
          (pend ((each h.2 (fun d => { d with exported := true })).poolFence run h.1 none) h.1) c p 0x0505 q)) ∧
      (q.u8 0x24 = 3 → (∀ i ∈ run, (s.sod i).st = .retired) → s.handleFree p = true →
        let h := s.newHandle p 0x0505 (.sods run)
        let s1 := { h.2 with nv := { h.2.nv with retired := h.2.nv.retired.filter (fun i => !run.contains i) } }
        exec (.sodSet c q) s = .next (s.answered (pend (run.foldl (fun t i => t.zeroSod i false h.1) s1) h.1) c p 0x0505 q)))

/-- What a contribution, an engine packet, a pull read and a flush read do to an instance (R299 to R312). -/
def Obligations.RetortTrafficTakesEffect : Prop :=
  (∀ (s : State) (g k cs byte : Nat) (d : Bytes) (ep : Bool), s.working →
      (s.inst g = none → exec (.contribution g k cs byte d ep) s = .next (s.after (s.raiseAt 0x33 2))) ∧
      (∀ i, s.inst g = some i → i.live = false → exec (.contribution g k cs byte d ep) s = .next (s.after (s.rtDiscard g))) ∧
      (∀ i, s.inst g = some i → i.live = true → i.nlocal ≤ k → exec (.contribution g k cs byte d ep) s = .next (s.after
        (s.rtFail g 2 (some (i.chunkOfSlot cs))))) ∧
      (∀ i, s.inst g = some i → i.live = true → k < i.nlocal → entPull (i.part k) = false → byte % i.fmt.bytes = 0 →
        d.length % i.fmt.bytes = 0 →
        let c := i.chunkOfSlot cs
        i.ahead c < i.window → byte + d.length ≤ i.chunkLen c → (i.chunk c).st ≠ .done →
        tget 0 (i.chunk c).recv k + d.length ≤ i.chunkLen c →
        let s1 := (s.openChunk g c).modInst g (fun j =>
          (j.addEls c (byte / i.fmt.bytes) d).modChunk c (fun x => { x with recv := tmod 0 x.recv k (· + d.length), poison := x.poison || ep }))
        let s2 := s1.rtIngest i (i.engineFor c) d.length
        exec (.contribution g k cs byte d ep) s = .next (s.after
          ((if ep then s2.raiseAt (0x2A + i.engine) 3 (some i.owner) (some (68 + i.engine)) else s2).chunkStep g c)))) ∧
  (∀ (s : State) (k : EngPkt) (i : RtInst), s.working → s.inst k.group = some i →
      (i.live = false → exec (.enginePacket k) s = .next (s.after (s.rtDiscard k.group))) ∧
      (k.gen ≠ i.gen → exec (.enginePacket k) s = .next (s.after (s.rtDiscard k.group))) ∧
      (i.live = true → k.gen = i.gen → i.ahead k.chunk < i.window → k.pkind = 3 → exec (.enginePacket k) s = .next (s.after
        (s.rtFail k.group (if k.cause = 0 then 5 else k.cause) (if (i.chunk k.chunk).st = .idle then none else some k.chunk) true))) ∧
      (i.live = true → k.gen = i.gen → i.ahead k.chunk < i.window → k.pkind = 0 → i.role = 1 → i.leafList.contains k.smod = true →
        exec (.enginePacket k) s = .next (s.after (s.partialIn k.group i k))) ∧
      (i.live = true → k.gen = i.gen → i.ahead k.chunk < i.window → k.pkind = 1 → i.role = 2 → k.smod = i.root →
        exec (.enginePacket k) s = .next (s.after (s.resultIn k.group i k)))) ∧
  (∀ (s : State) (g c k : Nat) (ecc : Eccs) (i : RtInst), s.working → s.inst g = some i → i.live = true → (i.chunk c).st = .opened →
      k < i.nlocal → entPull (i.part k) = true → tget 0 (i.chunk c).recv k ≠ i.chunkLen c →
      let e := i.engineFor c
      let a := i.pullKey k (i.place c * 4096)
      (agentAdmits (.retort e) (s.sod (a / 2 ^ 30)) (a % 2 ^ 30) .reserve = false → exec (.pullReadComplete g c k ecc) s = .next (s.after
        ((s.raiseAt (0x26 + s.poolPort (a / 2 ^ 30) (a % 2 ^ 30)) 5 none none (faMake s.own 0 a)).rtFail g 2 (some c)))) ∧
      (agentAdmits (.retort e) (s.sod (a / 2 ^ 30)) (a % 2 ^ 30) .reserve = true →
        let s2 := (List.range (ceilDiv (i.chunkLen c) 256)).foldl (fun t x =>
          let m := t.poolPort ((a + 256 * x) / 2 ^ 30) ((a + 256 * x) % 2 ^ 30)
          (t.modPool (fun p => p.addResv { agent := 68 + e, port := m, granule := (a + 256 * x) / 256 })).poolCount m 0x10 4 none) (s.eccAt a (i.chunkLen c) ecc none)
        let bad := s2.pool.tainted a (i.chunkLen c)
        let s3 := s2.modInst g (fun j => (j.addEls c 0 (s2.pool.bytes a (i.chunkLen c))).modChunk c (fun x =>
          { x with recv := tset x.recv k (i.chunkLen c), poison := x.poison || bad }))
        exec (.pullReadComplete g c k ecc) s = .next (s.after
          ((if bad then s3.raiseAt (0x2A + e) 3 (some i.owner) (some (68 + e)) else s3).chunkStep g c)))) ∧
  (∀ (s : State) (g k : Nat) (good : Bool) (i : RtInst) (f : Flush) (rest : List Flush), s.working → s.inst g = some i → i.live = true →
      takeFirst (fun (f : Flush) => f.slot == k) i.flushes = some (f, rest) → s.resultsOut i k = true →
      (good = true → exec (.flushReadComplete g k good) s = .next (s.after
        ((s.setInst g { i with flushes := rest }).writeDoorbell i i.engine k f.value.toNat))) ∧
      (good = false → faClass (BitVec.ofNat 64 (entRes (i.part k))) = 1 → exec (.flushReadComplete g k good) s = .next (s.after
        (s.rtFail g 7 none))))

/-- What the timers and completions of Retort do where they take effect (R312, R317, R291). -/
def Obligations.RetortTimersTakeEffect : Prop :=
  (∀ (s : State) (g c : Nat) (i : RtInst), s.working → s.inst g = some i →
      ((i.chunk c).timer = true → (i.chunk c).st = .opened ∨ (i.chunk c).st = .await →
        exec (.chunkTimeout g c) s = .next (s.after (s.rtFail g 1 (some c)))) ∧
      (i.moveFrom ≠ none → i.oldDone = true ∨ i.st = .failed → s.groupTraffic g = false →
        exec (.groupMoveComplete g) s = .next (s.after
          ((s.setInst g { i with moveFrom := none, oldDone := false, handle := 0, st := if i.st = .moving then .active else i.st }).endHandle
            i.handle rcOk))) ∧
      (i.destroying = true → s.groupTraffic g = false →
        exec (.groupDestroyComplete g) s = .next (s.after ((s.dropInst g).endHandle i.handle rcOk))) ∧
      (s.groupTraffic g = true → exec (.groupMoveComplete g) s = .next (s.after s) ∧
        exec (.groupDestroyComplete g) s = .next (s.after s)))

/-- What each command of Retort answers when it is executed (R321 to R324, R315, R316). -/
def Obligations.RetortCommandsComplete : Prop :=
  (∀ (s : State) (c : Path) (p : Nat) (q : Req), s.serves cmdRtGetStatus c p q →
      ∃ d, d.length = 72 ∧ exec (.rtGetStatus c q) s = .next (s.answered (ok s d) c p 0x0600 q)) ∧
  (∀ (s : State) (c : Path) (p : Nat) (q : Req), s.serves cmdRtPartSet c p q → 1 ≤ q.u8 0x20 → q.u8 0x20 < 32 → q.zero 0x21 3 = true →
      q.u16 0x24 < 4096 → q.u16 0x24 % q.u16 0x26 = 0 → q.u16 0x26 ≠ 0 → isPow2 (q.u16 0x26) = true → q.u16 0x26 ≤ 64 →
      q.u16 0x24 + q.u16 0x26 ≤ 4096 →
      s.rt.blocks.any (fun e => e.1 != q.u8 0x20 && blocksTouch (q.u16 0x24) (q.u16 0x26) e.2.gbase e.2.gcount) = false →
      s.boundKind (q.u8 0x20) 5 = false →
      s.rt.inst.any (fun e => e.2.owner == q.u8 0x20 && !decide (q.u16 0x24 ≤ e.1 ∧ e.1 < q.u16 0x24 + q.u16 0x26)) = false →
      exec (.rtPartSet c q) s = .next (s.answered (ok (s.modRt (fun r =>
        { r with blocks := tset r.blocks (q.u8 0x20) { gbase := q.u16 0x24, gcount := q.u16 0x26 } }))) c p 0x0601 q)) ∧
  (∀ (s : State) (c : Path) (p : Nat) (q : Req) (i0 : RtInst), s.serves cmdRtGroupCreate c p q → firstBad (s.createChecks q) = none →
      s.creating q = some i0 → s.entryFault i0 q = none →
      let g := bits (leNat (q.bytes 0x28 32)) 11 0
      let i := i0.withEntries q
      ¬ (i.st = .active ∧ i.posting.isEmpty = true ∧ ¬ (i.role = 1 ∧ i.leafList ≠ [])) →
      (q.u8 0x20 = 1 → exec (.rtGroupCreate c q) s = .next (s.answered
        (ok (s.setInst g i) (leBytes 1 i.engine ++ leBytes 1 (rtStCode i.st) ++ leBytes 2 i.defined ++ [0, 0, 0, 0])) c p 0x0602 q)) ∧
      (q.u8 0x20 ≠ 1 → s.inst g = none → q.u8 0x21 ≠ 0xFF → s.engineTakes (q.u8 0x21) i.granules = true → s.rt.inst ≠ [] →
        s.rt.inst.length < 512 → s.participants + i.nlocal ≤ 256 →
        exec (.rtGroupCreate c q) s = .next (s.answered
          (ok (s.setInst g { i with engine := q.u8 0x21 })
            (leBytes 1 (q.u8 0x21) ++ leBytes 1 (rtStCode i.st) ++ leBytes 2 i.defined ++ [0, 0, 0, 0])) c p 0x0602 q))) ∧
  (∀ (s : State) (c : Path) (p : Nat) (q : Req) (i : RtInst), s.serves cmdRtGroupDestroy c p q → s.inst (q.u16 0x20) = some i →
      q.zero 0x22 2 = true → i.moveFrom = none → i.destroying = false → s.handleFree p = true →
      let h := s.newHandle p 0x0603
      exec (.rtGroupDestroy c q) s = .next (s.answered
        (pend ((h.2.setInst (q.u16 0x20) { i with destroying := true, handle := h.1, chunks := [], flushes := [] }).invalidateRange
          (faMake s.own 2 (q.u16 0x20 * 2 ^ 30)).toNat (2 ^ 30)) h.1) c p 0x0603 q)) ∧
  (∀ (s : State) (c : Path) (p : Nat) (q : Req) (i : RtInst), s.serves cmdRtGroupRead c p q → s.inst (q.u16 0x20) = some i →
      q.u16 0x22 ≤ i.nlocal → q.u16 0x24 ≤ 245 → q.u16 0x22 + q.u16 0x24 ≤ i.nlocal → q.zero 0x26 2 = true →
      ∃ d, exec (.rtGroupRead c q) s = .next (s.answered (ok s d) c p 0x0604 q) ∧
        d.take 40 = leBytes 32 i.descNow.toNat ++ leBytes 1 i.failCause ++ [0, 0, 0] ++ leBytes 4 i.failChunk ∧
        d.drop 96 = (List.range (q.u16 0x24)).flatMap (fun k => leBytes 16 (i.part (q.u16 0x22 + k)).toNat)) ∧
  (∀ (s : State) (c : Path) (p : Nat) (q : Req) (i : RtInst), s.serves cmdRtGroupReset c p q → s.inst (q.u16 0x20) = some i →
      q.u8 0x22 ≠ i.gen → q.zero 0x23 1 = true → i.st = .active ∨ i.st = .failed → i.moveFrom = none → i.destroying = false →
      let cd := i.opseq * i.cpo % 2 ^ 32
      let i1 := { i with chunks := [], flushes := [], cdone := cd, opPos := 0, gen := q.u8 0x22, st := .active, failCause := 0, failChunk := 0,
                         missing := [], missingLeaves := 0, stPoison := false, stNan := false, stOvf := false, stTimeout := false,
                         stErr := false, dbPoison := false, dbNan := false, dbOvf := false }
      exec (.rtGroupReset c q) s = .next (s.answered (ok (s.setInst (q.u16 0x20) i1) (leBytes 4 cd ++ [0, 0, 0, 0])) c p 0x0605 q)) ∧
  (∀ (s : State) (c : Path) (p : Nat) (q : Req) (i : RtInst), s.serves cmdRtGroupMove c p q → s.inst (q.u16 0x20) = some i →
      q.u8 0x22 < 4 → q.u8 0x22 ≠ i.engine → q.zero 0x23 1 = true → i.st ≠ .failed → i.moveFrom = none → i.destroying = false →
      s.engineTakes (q.u8 0x22) i.granules = true →
      (i.st = .defining → exec (.rtGroupMove c q) s = .next (s.answered
        (ok (s.setInst (q.u16 0x20) { i with engine := q.u8 0x22 })) c p 0x0606 q)) ∧
      (i.st ≠ .defining → s.handleFree p = true →
        let h := s.newHandle p 0x0606
        exec (.rtGroupMove c q) s = .next (s.answered (pend (h.2.setInst (q.u16 0x20)
          { i with st := .moving, moveFrom := some i.engine, engine := q.u8 0x22, cutover := i.cutoverNow,
                   oldDone := i.cutoverNow == i.cdone, handle := h.1 }) h.1) c p 0x0606 q)))

/-- What the events of frames and pauses at a logical port do (R326, R351). -/
def Obligations.FramesTakeEffect : Prop :=
  (∀ (s : State) (lp : Nat) (f : Bytes), s.working → s.hasLport lp = true → (s.lport lp).enabled = true →
      (s.lport lp).linkUp = true → s.blockAway (netBlock lp) = false →
      let s1 := s.modLport lp (fun l => { l with rxFrames := up64 l.rxFrames 1, rxBytes := up64 l.rxBytes (f.length + 4) })
      let s2 := (s.modLport lp (fun l => { l with rxFcsErr := up64 l.rxFcsErr 1 })).raiseAt (netBlock lp) 0 none (some (56 + lp / 4))
      (64 ≤ f.length + 4 → f.length + 4 ≤ (s.lport lp).maxFrame → be16 f 12 = 0x8808 →
        exec (.frameReceived lp f true) s = .next (s.after (s1.macControl lp f))) ∧
      (64 ≤ f.length + 4 → f.length + 4 ≤ (s.lport lp).maxFrame → be16 f 12 ≠ 0x8808 →
        exec (.frameReceived lp f true) s = .next (s.after (s1.frameLookup lp f false))) ∧
      (f.length ≤ 224 ∨ be16 f 12 = 0x8808 → exec (.frameReceived lp f false) s = .next (s.after (s2.netDropped lp none))) ∧
      (224 < f.length → be16 f 12 ≠ 0x8808 → exec (.frameReceived lp f false) s = .next (s.after
        (s2.frameLookup lp (f.take ((s.lport lp).maxFrame - 4)) true)))) ∧
  (∀ (s : State) (lp : Nat) (f : Bytes) (good : Bool), s.working → (s.lport lp).linkUp = false →
      exec (.frameReceived lp f good) s = .next (s.after s)) ∧
  (∀ (s : State) (lp mask : Nat) (times : List Nat), s.working → s.hasLport lp = true → (s.lport lp).linkUp = true →
      exec (.pfcFrameReceived lp mask times) s = .next (s.after (s.modLport lp (fun l =>
        { l with pfcRx := up64 l.pfcRx 1
                 paused := (bitList 8 mask).foldl (fun t p =>
                   if l.pfcEn.getLsbD p then tset t p (decide (0 < lget 0 times p)) else t) l.paused })))) ∧
  (∀ (s : State) (lp p : Nat), s.working →
      ((s.lport lp).linkUp = true → p < 8 → (s.lport lp).xoff.getLsbD p = true →
        exec (.pfcRefresh lp p) s = .next (s.after (s.emit (.pfc lp (2 ^ p) 0xFFFF)))) ∧
      (tget false (s.lport lp).paused p = true → exec (.pfcPauseExpiry lp p) s = .next (s.after
        (s.modLport lp (fun l => { l with paused := tset l.paused p false })))) ∧
      (lp < 32 → (s.lport lp).tcPaused p = true → exec (.pauseWatchExpiry lp p) s = .next (s.after
        (s.raiseAt (netBlock lp) 7 none (some (56 + lp / 4))))))

/-- What the events of a queue pair and of a port's egress do (R336, R337, R340, R347, R364). -/
def Obligations.QueuePairsTakeEffect : Prop :=
  (∀ (s : State) (f q value : Nat) (v : Vnic), s.working → s.vnic f = some v → q < v.nqp →
      let tx := s.modQp f q (fun k => { k with txTail := value % 2 ^ 15 })
      let rx := s.modQp f q (fun k => { k with rxTail := value % 2 ^ 15 })
      (value % 2 ^ 15 < 2 ^ (v.qp q).txLog2 → exec (.qpTxTailWrite f q value) s = .next (s.after tx)) ∧
      ((v.qp q).enabled = true → (v.qp q).error = false → 2 ^ (v.qp q).txLog2 ≤ value % 2 ^ 15 →
        exec (.qpTxTailWrite f q value) s = .next (s.after (tx.qpError f q 6))) ∧
      (value % 2 ^ 15 < 2 ^ (v.qp q).rxLog2 → exec (.qpRxTailWrite f q value) s = .next (s.after rx)) ∧
      ((v.qp q).enabled = true → (v.qp q).error = false → 2 ^ (v.qp q).rxLog2 ≤ value % 2 ^ 15 →
        exec (.qpRxTailWrite f q value) s = .next (s.after (rx.qpError f q 6)))) ∧
  (∀ (s : State) (lp : Nat), s.working →
      let committed := s.pickFn lp (s.lport lp).txPtr (fun n => (s.shaper n).qualifies 0)
      let excess := s.pickFn lp (s.lport lp).txPtrX (fun n => (s.shaper n).qualifies 1 || (s.shaper n).qualifies 2)
      (∀ f, committed = some f → exec (.transmitSchedule lp) s = .next (s.after
        ((s.modLport lp (fun l => { l with txPtr := (f + 1) % 1024 })).txTurn f 0))) ∧
      (∀ f, committed = none → excess = some f → exec (.transmitSchedule lp) s = .next (s.after
        ((s.modLport lp (fun l => { l with txPtrX := (f + 1) % 1024 })).txTurn f (if (s.shaper f).enabled then 1 else 2)))) ∧
      (committed = none → excess = none → exec (.transmitSchedule lp) s = .next (s.after s))) ∧
  (∀ (s : State) (f q : Nat) (descs : List TxRaw) (v : Vnic), s.working → s.vnic f = some v → (v.qp q).fetching = true →
      let s1 := s.modQp f q (fun k => { k with fetching := false })
      let ds := (uptoEop (descs.map TxRaw.decode)).take (ringAvail (v.qp q).txLog2 (v.qp q).fetchTo (v.qp q).txHead)
      ((v.qp q).enabled = false → exec (.descriptorFetchComplete f q descs true) s = .next (s.after s1)) ∧
      (∀ d r, (v.qp q).enabled = true → (v.qp q).error = false → ds = d :: r →
        exec (.descriptorFetchComplete f q descs true) s = .next (s.after
          ((ds.foldl (fun t b => t.dmaRead f q true b.addr b.len) s1).txPacket f q v ds d))) ∧
      ((v.qp q).enabled = true → (v.qp q).error = false → ds = [] →
        exec (.descriptorFetchComplete f q descs false) s = .next (s.after (s1.qpError f q 5)))) ∧
  (∀ (s : State) (lp : Nat), s.working → s.hasLport lp = true → (s.lport lp).linkUp = true →
      (∀ p, (s.lport lp).sending = some p → exec (.egressFrameStart lp) s = .next (s.after (s.underrun lp p))) ∧
      ∀ c, (s.lport lp).sending = none →
      let s1 := (List.range 8).foldl (fun t c => State.gateDrop lp c (t.lport lp).egress.length t) s
      let elig := (List.range 8).map (fun c => s1.tcEligible lp c)
      [7, 6, 5, 4, 3, 2, 1, 0].find? (fun c => (s1.lport lp).strict.getLsbD c && lget false elig c) = some c →
      exec (.egressFrameStart lp) s = .next (s.after (s1.startFrame lp c))) ∧
  (∀ (s : State) (f q : Nat) (bufs : List Nat) (w : Pkt), s.working → s.net.rxWait.find? (fun w => w.func == f && w.qp == q) = some w →
      let k := s.qpOf f q
      let n := k.bufsFor w.data.length
      (s.rxTakes w = true → n ≤ k.rxFree → n ≤ bufs.length →
        exec (.vnicReceive f q bufs) s = .next (s.after (((List.range n).foldl (fun t i => t.rxBuffer w k bufs n i)
          ((s.modNet (fun x => { x with rxWait := x.rxWait.erase w })).leave w)).modQp f q
            (fun k => { k with rxHead := (k.rxHead + n) % 2 ^ k.rxLog2 })))) ∧
      (k.rxFree < n → exec (.rxWaitTimeout f q) s = .next (s.after (s.rxDrop w true))) ∧
      (n ≤ k.rxFree → exec (.rxWaitTimeout f q) s = .next (s.after s))) ∧
  (∀ (s : State) (f q : Nat), s.working → (s.qpOf f q).itrWait = true →
      ((s.qpOf f q).itrPend = true → exec (.itrExpiry f q) s = .next (s.after
        ((s.modQp f q (fun k => { k with itrPend := false })).vnicMsix f q))) ∧
      ((s.qpOf f q).itrPend = false → exec (.itrExpiry f q) s = .next (s.after (s.modQp f q (fun k => { k with itrWait := false })))))

/-- What the link change, function reset, disable and training events of the network do (R336, R354, R358, R359). -/
def Obligations.PortAndFunctionEventsTakeEffect : Prop :=
  (∀ (s : State) (lp : Nat), s.working → s.hasLport lp = true → (s.lport lp).enabled = true →
      ((s.lport lp).linkUp = false → s.boot.etherHeld = false → s.blockAway (netBlock lp) = false →
        exec (.logicalPortLinkChange lp true) s = .next (s.after (s.lportLink lp true))) ∧
      ((s.lport lp).linkUp = true → exec (.logicalPortLinkChange lp false) s = .next (s.after
        ((s.lportLink lp false).raiseAt (netBlock lp) 2 none (some (56 + lp / 4)))))) ∧
  (∀ (s : State) (f : Nat) (v : Vnic), s.working → s.vnic f = some v →
      exec (.vnicFunctionReset f) s = .next (s.after (s.setVnic f
        { v with resetting := true, qps := tmap v.qps (fun _ k => { k with enabled := false, tso := [], wb := [] }) }))) ∧
  (∀ (s : State) (f q h : Nat), s.dieUp = true → (s.qpOf f q).disabling = some h → (s.qpOf f q).fetching = false → (s.qpOf f q).wb = [] →
      exec (.qpDisableComplete f q) s = .next (s.after ((s.modQp f q (fun k => { k with disabling := none })).endHandle h rcOk))) ∧
  (∀ (s : State) (lp h : Nat), s.dieUp = true → (s.lport lp).training = some h →
      exec (.netPortTrainingEnd lp false) s = .next (s.after
        ((s.modLport lp (fun l => { l with training := none })).endHandle h rcTimeout)) ∧
      (((s.linkChange lp true).lport lp).linkUp = true → exec (.netPortTrainingEnd lp true) s = .next (s.after
        (((s.linkChange lp true).modLport lp (fun l => { l with training := none })).endHandle h rcOk))))

/-- What each command of the Ethernet block answers when it is executed (R332 to R359, R383). -/
def Obligations.NetCommandsComplete : Prop :=
  (∀ (s : State) (c : Path) (p : Nat) (q : Req), s.serves cmdNetGetStatus c p q → s.hasLport (q.u8 0x20) = true → q.zero 0x21 3 = true →
      ∃ d, d.length = 112 ∧ exec (.netGetStatus c q) s = .next (s.answered (ok s d) c p 0x0700 q)) ∧
  (∀ (s : State) (c : Path) (p : Nat) (q : Req), s.serves cmdNetPortSet c p q → firstBad (s.portSetChecks q) = none →
      bit (q.u8 0x21) 0 = false → bit (q.u8 0x21) 1 = false → bit (q.u8 0x21) 2 = false → (s.lport (q.u8 0x20)).training = none →
      (∀ i < 4, (s.modLport (q.u8 0x20) (portSetOf q)).stagingFits (q.u8 0x20 / 4 * 4 + i) = true) →
      exec (.netPortSet c q) s = .next (s.answered (ok (s.modLport (q.u8 0x20) (portSetOf q))) c p 0x0701 q)) ∧
  (∀ (s : State) (c : Path) (p : Nat) (q : Req), s.serves cmdVnicCreate c p q → q.u16 0x20 < 1024 → q.u8 0x22 < 32 →
      s.hasLport (q.u8 0x23) = true → 1 ≤ q.u8 0x24 → q.u8 0x24 ≤ 64 → q.u8 0x25 / 4 = 0 → pvidOk (q.u8 0x25) (q.u16 0x26) = true →
      q.zero 0x2E 2 = true → s.vnic (q.u16 0x20) = none → s.net.vnics.countP (fun e => e.2.part == q.u8 0x22) < 32 →
      s.net.vnics.length < 1024 → s.qpsUsed + q.u8 0x24 ≤ 16384 →
      let v : Vnic := { part := q.u8 0x22, lport := q.u8 0x23, nqp := q.u8 0x24, mac := BitVec.ofNat 48 (beNat (q.bytes 0x28 6)),
                        spoofChk := bit (q.u8 0x25) 0, vlanForce := bit (q.u8 0x25) 1, pvid := q.u16 0x26, rssKey0 := (s.freeBytes 40).1 }
      let s1 := (s.freeBytes 40).2.setVnic (q.u16 0x20) { v.created with link := (s.lport (q.u8 0x23)).linkUp }
      exec (.vnicCreate c q) s = .next (s.answered (ok s1 (leBytes 2 (16384 - s1.qpsUsed) ++ List.replicate 6 0)) c p 0x0702 q)) ∧
  (∀ (s : State) (c : Path) (p : Nat) (q : Req) (v : Vnic), s.serves cmdVnicDestroy c p q → s.vnic (q.u16 0x20) = some v →
      q.zero 0x22 2 = true → s.vnicBound (q.u16 0x20) = false → v.destroying = none → s.handleFree p = true →
      let h := s.newHandle p 0x0703
      exec (.vnicDestroy c q) s = .next (s.answered (pend ((h.2.modVnic (q.u16 0x20) (fun v => { v with destroying := some h.1 })).vnicReset
        (q.u16 0x20)) h.1) c p 0x0703 q)) ∧
  (∀ (s : State) (c : Path) (p : Nat) (q : Req) (v : Vnic), s.serves cmdVnicSet c p q → s.vnic (q.u16 0x20) = some v → q.u8 0x22 = 2 →
      q.u8 0x23 ≤ 1 → q.zero 0x26 2 = true → q.zero 0xD7 1 = true → q.zero 0xDA 6 = true → v.destroying = none →
      exec (.vnicSet c q) s = .next (s.answered (ok (s.setVnic (q.u16 0x20) { v with rxStrip := q.u8 0x23 == 1 })) c p 0x0704 q)) ∧
  (∀ (s : State) (c : Path) (p : Nat) (q : Req) (v : Vnic), s.serves cmdVnicQpSet c p q → s.vnic (q.u16 0x20) = some v → q.u8 0x22 < v.nqp →
      q.u8 0x27 < 16 → q.u16 0x38 ≤ 10000 → q.zero 0x3A 6 = true → v.destroying = none →
      (q.u8 0x23 = 1 → 6 ≤ q.u8 0x24 → q.u8 0x24 ≤ 15 → 6 ≤ q.u8 0x25 → q.u8 0x25 ≤ 15 → 2 ≤ q.u8 0x26 → q.u8 0x26 ≤ 16 →
        q.u64 0x28 % 4096 = 0 → q.u64 0x30 % 4096 = 0 → (v.qp (q.u8 0x22)).enabled = false → (v.qp (q.u8 0x22)).error = false →
        (v.qp (q.u8 0x22)).disabling = none →
        exec (.vnicQpSet c q) s = .next (s.answered (ok (s.modQp (q.u16 0x20) (q.u8 0x22) (fun k => k.setUp q))) c p 0x0705 q)) ∧
      (q.u8 0x23 = 2 → (v.qp (q.u8 0x22)).error = true → (v.qp (q.u8 0x22)).disabling = none → exec (.vnicQpSet c q) s = .next (s.answered
        (ok (s.modQp (q.u16 0x20) (q.u8 0x22) (fun k => { k.stopTx with error := false }))) c p 0x0705 q)) ∧
      (q.u8 0x23 = 0 → (v.qp (q.u8 0x22)).disabling = none → s.handleFree p = true →
        let h := s.newHandle p 0x0705
        exec (.vnicQpSet c q) s = .next (s.answered
          (pend (h.2.modQp (q.u16 0x20) (q.u8 0x22) (fun k => { k.stopTx with disabling := some h.1 })) h.1) c p 0x0705 q))) ∧
  (∀ (s : State) (c : Path) (p : Nat) (q : Req) (t : Tab (BitVec 128)), s.serves cmdNetEmSet c p q → 1 ≤ q.u16 0x20 → q.u16 0x20 ≤ 253 →
      q.zero 0x22 6 = true → (∀ i < q.u16 0x20, s.emRecordOk (emRecord q i) = true) →
      emApply ((List.range (q.u16 0x20)).map (fun i => (i, emRecord q i))) s.net.em = .ok t →
      exec (.netEmSet c q) s = .next (s.answered
        (ok (s.modNet (fun x => { x with em := t })) (leBytes 4 t.length ++ [0, 0, 0, 0])) c p 0x0706 q)) ∧
  (∀ (s : State) (c : Path) (p : Nat) (q : Req), s.serves cmdNetAclSet c p q → q.u16 0x20 < 4096 → 1 ≤ q.u16 0x22 → q.u16 0x22 ≤ 63 →
      q.u16 0x20 + q.u16 0x22 ≤ 4096 → q.zero 0x24 4 = true →
      (∀ k < q.u16 0x22, ∀ e ∈ aclRecordChecks q k, e.2 = true) →
      exec (.netAclSet c q) s = .next (s.answered
        (ok (s.modNet (fun x => { x with acl := tfill x.acl (q.u16 0x20) (q.u16 0x22) (fun k => aclRecord q (k - q.u16 0x20)) })))
        c p 0x0707 q)) ∧
  (∀ (s : State) (c : Path) (p : Nat) (q : Req), s.serves cmdNetPtpClock c p q → q.zero 0x21 3 = true → q.zero 0x3C 4 = true →
      let said (t : State) : Ans := ok t (leBytes 8 t.time.ptpSec ++ leBytes 4 t.time.ptpNs ++ leBytes 4 (BitVec.ofInt 32 t.time.ppb).toNat)
      (q.u8 0x20 = 0 → exec (.netPtpClock c q) s = .next (s.answered (said s) c p 0x0708 q)) ∧
      (q.u8 0x20 = 1 → q.u32 0x24 < 1000000000 → q.u64 0x28 < 2 ^ 48 → exec (.netPtpClock c q) s = .next (s.answered
        (said (s.setPtp (ptpOf (q.u64 0x28) (q.u32 0x24))).clockMoved) c p 0x0708 q)) ∧
      (q.u8 0x20 = 2 → exec (.netPtpClock c q) s = .next (s.answered
        (said (s.setPtp (((s.ptpNow : Int) + signed 64 (q.u64 0x30)) % ((2 ^ 48 * 1000000000 : Nat) : Int)).toNat).clockMoved) c p 0x0708 q)) ∧
      (q.u8 0x20 = 3 → -500000 ≤ signed 32 (q.u32 0x38) → signed 32 (q.u32 0x38) ≤ 500000 → exec (.netPtpClock c q) s = .next (s.answered
        (said { s with time := { s.time with ppb := signed 32 (q.u32 0x38) } }) c p 0x0708 q)))

/-- What the timed events of traffic management do where they take effect (R378, R387, R388). -/
def Obligations.GateAndPtpEventsTakeEffect : Prop :=
  (∀ (s : State) (n : Nat) (l : GateList), s.working → (s.gate n).oper = some l →
      exec (.gateEntryTransition n) s = .next (s.after (s.modGate n (fun g =>
        match g.oper with | none => g | some l => { g with pos := l.entryAt (l.offset s.ptpNow) })))) ∧
  (∀ (s : State) (n : Nat) (l : GateList), s.working → (s.gate n).pend = some l → (s.gate n).byStrict = false →
      let s1 := (s.modGate n (fun g => { g with oper := some l, pend := none, pos := 0 })).settleGateComps
      (n < 32 → exec (.gateChangeTime n) s = .next (s.after (s1.event 0x80B [0] n))) ∧
      (32 ≤ n → exec (.gateChangeTime n) s = .next (s.after s1))) ∧
  (∀ (s : State) (k : Nat), s.working → (s.ptpOut k).enabled = true →
      let s1 := s.modTm (fun t => { t with outs := tset t.outs k { s.ptpOut k with high := !(s.ptpOut k).high } })
      exec (.ptpOutputEdge k) s = .next (s.after (s1.driveLand (outLand k) true (!(s.ptpOut k).high)))) ∧
  (∀ (s : State) (g : Nat) (out level : Bool), s.driveLand g out level =
      { s with lands := { s.lands with gpio := tset s.lands.gpio g { out := out, level := level } } }) ∧
  (∀ (s : State) (k : Nat) (falling : Bool), s.working →
      let i := s.ptpIn k
      (i.selects falling = false → exec (.ptpInputEdge k falling) s = .next (s.after s)) ∧
      (i.selects falling = true → i.event = false → k ≠ 0 → i.queue.length < 64 →
        let j : PtpIn := { i with queue := i.queue ++ [(s.time.ptpSec, s.time.ptpNs, b2n falling)] }
        exec (.ptpInputEdge k falling) s = .next (s.after (s.modTm (fun t => { t with ins := tset t.ins k j })))) ∧
      (i.selects falling = true → i.event = false → k ≠ 0 → 64 ≤ i.queue.length →
        let j : PtpIn := { i with lost := sat 65535 i.lost 1 }
        exec (.ptpInputEdge k falling) s = .next (s.after (s.modTm (fun t => { t with ins := tset t.ins k j }))))) ∧
  (∀ (s : State), s.boot.phase ≠ .off →
      (s.time.ptpLocked = true →
        let s1 := s.modLands (fun l => { l with ptpClkOk := false })
        exec .ptpClockLoss s = .next (s.after ({ s1 with time := { s1.time with ptpLocked := false } }.ledgerOnly 0x35))) ∧
      (let s1 := s.modLands (fun l => { l with ptpClkOk := true })
       exec .ptpClockRelock s = .next (s.after { s1 with time := { s1.time with ptpLocked := s1.time.ptpExternal } })))

/-- What each command of traffic management answers when it is executed (R366 to R388). -/
def Obligations.TrafficCommandsComplete : Prop :=
  (∀ (s : State) (c : Path) (p : Nat) (q : Req), s.serves cmdTmShaperSet c p q → (s.vnic (q.u16 0x20)).isSome = true → q.u8 0x22 = 1 →
      q.u8 0x23 ≤ 1 → q.u32 0x24 ≤ q.u32 0x28 → 1 ≤ q.u32 0x28 → q.u32 0x28 ≤ 400000 → 1518 ≤ q.u32 0x2C → q.u32 0x2C < 2 ^ 24 →
      1518 ≤ q.u32 0x30 → q.u32 0x30 < 2 ^ 24 →
      exec (.tmShaperSet c q) s = .next (s.answered (ok (s.modShaper (q.u16 0x20) (fun _ =>
        { enabled := true, cir := q.u32 0x24, pir := q.u32 0x28, cbs := q.u32 0x2C, pbs := q.u32 0x30,
          ct := if q.u8 0x23 = 0 then (200 * q.u32 0x2C : Nat) else 0,
          pt := if q.u8 0x23 = 0 then (200 * q.u32 0x30 : Nat) else 0 }))) c p 0x0709 q)) ∧
  (∀ (s : State) (c : Path) (p : Nat) (q : Req), s.serves cmdTmSchedSet c p q → s.hasLport (q.u8 0x20) = true → q.zero 0x22 2 = true →
      (∀ t < 8, if bit (q.u8 0x21) t then q.u16 (0x24 + 2 * t) = 0 else 1 ≤ q.u16 (0x24 + 2 * t) ∧ q.u16 (0x24 + 2 * t) ≤ 4095) →
      exec (.tmSchedSet c q) s = .next (s.answered (ok (s.modLport (q.u8 0x20) (fun l =>
        { l with strict := BitVec.ofNat 8 (q.u8 0x21), quantum := (List.range 8).map (fun t => q.u16 (0x24 + 2 * t)), deficit := [],
                 dwrrIn := false }))) c p 0x070A q)) ∧
  (∀ (s : State) (c : Path) (p : Nat) (q : Req), s.serves cmdTmMeterSet c p q → q.u16 0x20 < 4096 →
      let m := tget {} s.tm.meters (q.u16 0x20)
      let out := leBytes 8 m.greenPkts ++ leBytes 8 m.yellowPkts ++ leBytes 8 m.redPkts ++ leBytes 8 m.dropped
      (q.u8 0x22 = 0xFF → (∀ i < 29, q.u8 (0x23 + i) = 0) → exec (.tmMeterSet c q) s = .next (s.answered (ok s out) c p 0x070B q)) ∧
      (q.u8 0x22 ≤ 1 → q.u8 0x23 ≤ 1 → 1 ≤ q.u32 0x24 → q.u32 0x24 ≤ q.u32 0x28 → q.u32 0x28 ≤ 400000 → 1518 ≤ q.u32 0x2C →
        q.u32 0x2C < 2 ^ 24 → 1518 ≤ q.u32 0x30 → q.u32 0x30 < 2 ^ 24 → actionOk (q.u32 0x34) = true → actionOk (q.u32 0x38) = true →
        actionOk (q.u32 0x3C) = true →
        exec (.tmMeterSet c q) s = .next (s.answered (ok (s.modMeter (q.u16 0x20) (fun _ =>
          { enabled := q.u8 0x22 == 1, aware := q.u8 0x23 == 1, cir := q.u32 0x24, pir := q.u32 0x28, cbs := q.u32 0x2C, pbs := q.u32 0x30,
            tc := 200 * q.u32 0x2C, tp := 200 * q.u32 0x30, green := BitVec.ofNat 32 (q.u32 0x34),
            yellow := BitVec.ofNat 32 (q.u32 0x38), red := BitVec.ofNat 32 (q.u32 0x3C) })) out) c p 0x070B q))) ∧
  (∀ (s : State) (c : Path) (p : Nat) (q : Req), s.serves cmdTmWredSet c p q → q.u8 0x20 < 16 → q.zero 0x22 2 = true →
      let w := tget {} s.tm.wred (q.u8 0x20)
      let out := leBytes 8 w.drops ++ leBytes 8 w.marks
      (q.u8 0x21 = 0 → (∀ o ∈ [0x24, 0x30, 0x3C], q.zero o 12 = true) →
        exec (.tmWredSet c q) s = .next (s.answered (ok s out) c p 0x070C q)) ∧
      (q.u8 0x21 = 1 → (∀ o ∈ [0x24, 0x30, 0x3C], q.u32 o < q.u32 (o + 4) ∧ q.u32 (o + 4) ≤ 524288 ∧ q.u8 (o + 9) ≤ 15 ∧
          q.u8 (o + 10) ≤ 1 ∧ q.zero (o + 11) 1 = true) →
        let w1 : Wred := { w with cols := [0x24, 0x30, 0x3C].map (wredCol q) }
        exec (.tmWredSet c q) s = .next (s.answered
          (ok (s.modTm (fun t => { t with wred := tset t.wred (q.u8 0x20) w1 })) out) c p 0x070C q))) ∧
  (∀ (s : State) (c : Path) (p : Nat) (q : Req), s.serves cmdTmGateSet c p q → s.hasLport (q.u8 0x20) = true → q.zero 0x34 4 = true →
      s.iso.strict = false → (∀ e ∈ gateEntryChecks q, e.2 = true) →
      (q.u8 0x21 = 0 → q.u16 0x22 = 0 →
        exec (.tmGateSet c q) s = .next (s.answered (ok (s.gateRemove (q.u8 0x20)) (List.replicate 16 0)) c p 0x070D q)) ∧
      (∀ k, let l := gateListOf q
       let t := firstAt l.base l.cycleNs (s.ptpNow + 10000)
       let s1 := (s.modGate (q.u8 0x20) (fun g => { g with pend := none })).settleGateComps
       q.u8 0x21 = 1 → 1 ≤ q.u16 0x22 → q.u16 0x22 ≤ 256 → 1000 ≤ l.cycleNs → l.cycleNs ≤ 1000000000 → l.cycleNs % 8 = 0 →
       l.baseSec < 2 ^ 48 → l.baseNs < 1000000000 → s1.gateComp t = some k →
       exec (.tmGateSet c q) s = .next (s.answered (ok ((s1.takeGateComp k t).modGate (q.u8 0x20) (fun g =>
          { g with pend := some l, changeSec := t / 1000000000, changeNs := t % 1000000000, adjusted := t != l.base }))
        (leBytes 8 (t / 1000000000) ++ leBytes 4 (t % 1000000000) ++ leBytes 1 (b2n (t != l.base)) ++ [0, 0, 0])) c p 0x070D q))) ∧
  (∀ (s : State) (c : Path) (p : Nat) (q : Req), s.serves cmdTmGateGet c p q → s.hasLport (q.u8 0x20) = true → q.u8 0x21 ≤ 1 →
      q.zero 0x22 2 = true →
      let g := s.gate (q.u8 0x20)
      let l := (if q.u8 0x21 = 0 then g.oper else g.pend).getD {}
      ∃ d, exec (.tmGateGet c q) s = .next (s.answered (ok s d) c p 0x070E q) ∧ d.length = 40 + 8 * l.entries.length ∧
        lget 0 d 1 = (if g.byStrict then 3 else if g.pend.isSome then 2 else if g.oper.isSome then 1 else 0)) ∧
  (∀ (s : State) (c : Path) (p : Nat) (q : Req), s.serves cmdPtpOutSet c p q → q.zero 0x22 2 = true → q.zero 0x38 8 = true →
      (q.u8 0x20 = 0xFF → q.u8 0x21 = 0 → q.u64 0x24 = 0 → q.u32 0x2C = 0 → q.u32 0x30 = 0 → q.u32 0x34 = 0 →
        exec (.ptpOutSet c q) s = .next (s.answered (ok s s.holders4) c p 0x070F q)) ∧
      (q.u8 0x20 ≤ 2 → q.u8 0x21 = 0 →
        let s0 := if (s.ptpOut (q.u8 0x20)).enabled then s.driveLand (outLand (q.u8 0x20)) false false else s
        let s1 := (s0.modTm (fun t => { t with outs := tset t.outs (q.u8 0x20) {} })).dropComp (holdOut (q.u8 0x20))
        exec (.ptpOutSet c q) s = .next (s.answered (ok s1 s1.holders4) c p 0x070F q)) ∧
      (∀ i, q.u8 0x20 ≤ 2 → q.u8 0x21 = 1 → q.u64 0x24 < 2 ^ 48 → q.u32 0x2C < 1000000000 → 1000 ≤ q.u32 0x30 →
        q.u32 0x30 ≤ 1000000000 → q.u32 0x30 % 8 = 0 → 8 ≤ q.u32 0x34 → q.u32 0x34 + 8 ≤ q.u32 0x30 → q.u32 0x34 % 8 = 0 →
        s.tm.slotPower.contains (outLand (q.u8 0x20)) = false → q.u8 0x20 = 0 ∨ (s.ptpIn (q.u8 0x20)).enabled = false →
        (s.ptpOut (q.u8 0x20)).enabled = false → s.freeComp = some i →
        let o : PtpOut := { enabled := true, startSec := q.u64 0x24, startNs := q.u32 0x2C, periodNs := q.u32 0x30, widthNs := q.u32 0x34 }
        let s1 := (s.setComp i (holdOut (q.u8 0x20))).modTm (fun t => { t with outs := tset t.outs (q.u8 0x20) (o.replan (s.ptpNow + 10000)) })
        exec (.ptpOutSet c q) s = .next (s.answered (ok (s1.driveLand (outLand (q.u8 0x20)) true false) s1.holders4) c p 0x070F q))) ∧
  (∀ (s : State) (c : Path) (p : Nat) (q : Req), s.serves cmdPtpInSet c p q → q.u8 0x20 ≤ 2 → q.u8 0x23 ≤ 1 →
      (q.u8 0x21 = 0 → q.u8 0x22 = 0 → exec (.ptpInSet c q) s = .next (s.answered
        (ok (s.modTm (fun t => { t with ins := tset t.ins (q.u8 0x20) {} }))) c p 0x0710 q)) ∧
      (q.u8 0x21 = 1 → q.u8 0x22 ≤ 2 → s.tm.slotPower.contains (inLand (q.u8 0x20)) = false →
        q.u8 0x20 = 0 ∨ (s.ptpOut (q.u8 0x20)).enabled = false →
        let on (i : PtpIn) : PtpIn := { i with enabled := true, edge := q.u8 0x22, event := q.u8 0x23 == 1 }
        exec (.ptpInSet c q) s = .next (s.answered
          (ok (s.modTm (fun t => { t with ins := tmod {} t.ins (q.u8 0x20) on }))) c p 0x0710 q))) ∧
  (∀ (s : State) (c : Path) (p : Nat) (q : Req), s.serves cmdPtpInRead c p q → q.u8 0x20 ≤ 2 → 1 ≤ q.u8 0x21 → q.u8 0x21 ≤ 64 →
      q.zero 0x22 2 = true →
      let i := s.ptpIn (q.u8 0x20)
      let got := i.queue.take (q.u8 0x21)
      let j : PtpIn := { i with queue := i.queue.drop (q.u8 0x21), lost := 0 }
      exec (.ptpInRead c q) s = .next (s.answered (ok (s.modTm (fun t => { t with ins := tset t.ins (q.u8 0x20) j }))
        (leBytes 1 got.length ++ leBytes 1 (i.queue.length - got.length) ++ leBytes 2 i.lost ++ [0, 0, 0, 0] ++
          got.flatMap (fun e => leBytes 8 e.1 ++ leBytes 4 e.2.1 ++ leBytes 1 e.2.2 ++ [0, 0, 0]))) c p 0x0711 q))

/-- What the memory accesses of a core do where they take effect (R395 to R399, R410). -/
def Obligations.HearthAccessesTakeEffect : Prop :=
  (∀ (s : State) (c k rd size : Nat) (addr : Word) (sgn : Bool) (ecc : Eccs) (v : Word), s.working → s.hRuns c k = true →
      let g := s.mpuInForce c k
      (∀ ps, g.2.checkPieces c g.1 (s.hcore c k) (rdKind rd) (cut64 addr.toNat size) = .ok ps →
        exec (.load c k rd addr size sgn ecc) s = .next (s.after (State.loadGo c k rd size sgn addr.toNat ecc g.2 [] ps))) ∧
      (∀ e, g.2.checkPieces c g.1 (s.hcore c k) (rdKind rd) (cut64 addr.toNat size) = .error e →
        exec (.load c k rd addr size sgn ecc) s = .next (s.after (g.2.hFault c k e.1 (s.faultPc c k rd addr.toNat) e.2))) ∧
      (∀ ps, g.2.checkPieces c g.1 (s.hcore c k) (rdKind 32) (cut64 addr.toNat size) = .ok ps →
        exec (.instructionFetch c k addr size ecc) s = .next (s.after (State.loadGo c k 32 size false addr.toNat ecc g.2 [] ps))) ∧
      (∀ ps, g.2.checkPieces c g.1 (s.hcore c k) .store (cut64 addr.toNat size) = .ok ps →
        let a := g.2.attrInForce c k
        exec (.store c k addr size v) s = .next (s.after ((State.storePieces c k a.1 a.2 (leBytes size v.toNat) ps).retire c k))) ∧
      (∀ e, g.2.checkPieces c g.1 (s.hcore c k) .store (cut64 addr.toNat size) = .error e →
        exec (.store c k addr size v) s = .next (s.after (g.2.hFault c k e.1 (s.hcore c k).pc.toNat e.2)))) ∧
  (∀ (s t : State) (c k rd size key : Nat) (addr v : Word) (ecc : Eccs) (op : AmoOp), s.working → s.hRuns c k = true →
      let t1 := t.eccAt key size ecc (some (s.cluster c).part)
      (s.atomicAt c k .load addr size = .inr (t, key) → t1.pool.tainted key size = false →
        exec (.lr c k rd addr size ecc) s = .next (s.after ((t1.modHcore c k (fun h =>
          ({ h with reservation := some (key / 64) }).setX rd (extend true size (leNat (t1.pool.bytes key size))))).retire c k))) ∧
      (s.atomicAt c k .load addr size = .inr (t, key) → t1.pool.tainted key size = true →
        exec (.lr c k rd addr size ecc) s = .next (s.after (t1.hFault c k (5, true) (s.hcore c k).pc.toNat addr.toNat))) ∧
      (s.atomicAt c k .store addr size = .inr (t, key) → (t.hcore c k).reservation = some (key / 64) →
        exec (.sc c k rd addr size v false) s = .next (s.after (((t.poolWrite key (leBytes size v.toNat) false (fun _ => true)).modHcore c k
          (fun h => ({ h with reservation := none }).setX rd 0)).retire c k))) ∧
      (∀ spurious, s.atomicAt c k .store addr size = .inr (t, key) → (t.hcore c k).reservation ≠ some (key / 64) ∨ spurious = true →
        exec (.sc c k rd addr size v spurious) s = .next (s.after ((t.modHcore c k
          (fun h => ({ h with reservation := none }).setX rd 1)).retire c k))) ∧
      (s.atomicAt c k .store addr size = .inr (t, key) → t1.pool.tainted key size = false →
        let old := leNat (t1.pool.bytes key size)
        let mine := (t1.hcore c k).reservation
        exec (.amo c k op rd addr size v ecc) s = .next (s.after
          (((t1.poolWrite key (leBytes size (amoResult op size old v.toNat)) false (fun _ => true)).modHcore c k
            (fun h => ({ h with reservation := mine }).setX rd (extend true size old))).retire c k))) ∧
      (s.atomicAt c k .store addr size = .inr (t, key) → t1.pool.tainted key size = true →
        exec (.amo c k op rd addr size v ecc) s = .next (s.after (t1.hFault c k (7, true) (s.hcore c k).pc.toNat addr.toNat))) ∧
      (addr.toNat % size ≠ 0 →
        exec (.lr c k rd addr size ecc) s = .next (s.after (s.hTrap c k 4 addr.toNat)) ∧
        exec (.amo c k op rd addr size v ecc) s = .next (s.after (s.hTrap c k 6 addr.toNat)))) ∧
  (∀ (s : State) (c k rd size : Nat) (addr v : Word) (sgn : Bool) (ecc : Eccs), s.working → s.hRuns c k = false →
      exec (.load c k rd addr size sgn ecc) s = .next (s.after s) ∧ exec (.store c k addr size v) s = .next (s.after s))

/-- What fences, CSR writes, the alarm and the interrupts of a cluster do where they take effect (R400 to R417). -/
def Obligations.HearthFencesTakeEffect : Prop :=
  (∀ (s : State) (c k pred succ word n csr : Nat) (v : Word), s.working → s.hRuns c k = true →
      exec (.fence c k pred succ) s = .next (s.after (s.sysFence c k (pred % 16))) ∧
      exec (.fenceI c k) s = .next (s.after ((s.drainAll c k).retire c k)) ∧
      (let s1 := s.modHcore c k (fun h => { h with mpuEff := h.mpu, attrEff := h.attr })
       kfenceOk word = true →
        (bits word 29 28 = 0 → exec (.kfence c k word) s = .next (s.after (s1.retire c k))) ∧
        (bits word 29 28 = 1 → exec (.kfence c k word) s = .next (s.after ((s1.drainAll c k).retire c k))) ∧
        (bits word 29 28 = 2 → exec (.kfence c k word) s = .next (s.after (s1.sysFence c k (bits word 27 24))))) ∧
      (kfenceOk word = false → exec (.kfence c k word) s = .next (s.after (s.hIllegal c k word))) ∧
      ((s.hcore c k).mode = .m →
        (∀ cfg, exec (.mpuCsrWrite c k n cfg v) s = .next (s.after ((s.modHcore c k (fun h => h.mpuWrite n cfg v.toNat)).retire c k))) ∧
        exec (.kattrCsrWrite c k csr v) s = .next (s.after ((s.modHcore c k (fun h => h.attrWrite csr v.toNat)).retire c k)) ∧
        exec (.ksterrWrite c k v) s = .next (s.after ((s.modHcore c k (fun h => h.ksterrWrite v.toNat)).retire c k))) ∧
      ((s.hcore c k).mode = .u →
        (∀ cfg, exec (.mpuCsrWrite c k n cfg v) s = .next (s.after (s.hIllegal c k 0))) ∧
        exec (.kattrCsrWrite c k csr v) s = .next (s.after (s.hIllegal c k 0)) ∧
        exec (.ksterrWrite c k v) s = .next (s.after (s.hIllegal c k 0)))) ∧
  (∀ (s : State) (c k pred : Nat), s.working → (s.cluster c).st = .running → (s.hcore c k).wait = some (.fence pred) →
      ((s.hcore c k).fenceMet pred = true → exec (.fenceRetire c k) s = .next (s.after ((s.retire c k).modHcore c k HCore.fenceRetire))) ∧
      ((s.hcore c k).fenceMet pred = false → exec (.fenceRetire c k) s = .next (s.after s)) ∧
      ((s.hcore c k).running = true → (s.hcore c k).kfwatch ≠ 0 → exec (.fenceWatchExpiry c k) s = .next (s.after
        (s.modHcore c k (fun h => { h with sip16 := true })).hInterrupts))) ∧
  (∀ (s : State) (c : Nat), s.working →
      (∀ n, (s.cluster c).alarmComp = none → s.freeComp = some n → s.hearthComps < 2 → exec (.alarmRequest c) s = .next (s.after
        ((s.setComp n (holdHearth c)).modCluster c (fun x => { x with alarmComp := some n, alarmStatus := rcOk })))) ∧
      ((s.cluster c).alarmComp = none → s.freeComp = none → exec (.alarmRequest c) s = .next (s.after
        (s.modCluster c (fun x => { x with alarmStatus := rcBusy })))) ∧
      exec (.alarmRelease c) s = .next (s.after
        ((s.dropComp (holdHearth c)).modCluster c (fun x => { x with alarmComp := none }))) ∧
      ((s.cluster c).alarmComp ≠ none → (s.cluster c).alarmCmp.toNat ≤ s.time.frcNs → exec (.alarmFire c) s = .next (s.after
        ((s.modCluster c (fun x => { x with alarmFired := true })).setMip c 0 17 true))) ∧
      (∀ k, (s.cluster c).cmpOf k ≤ s.time.ticks → exec (.machineTimerInterrupt c k) s = .next (s.after
        (s.setMip c k 7 true).hInterrupts)) ∧
      (∀ k v, exec (.msipWrite c k v) s = .next (s.after
        ((s.modCluster c (fun x => { x with msip := BitVec.ofNat 8 (setBits x.msip.toNat k k v) })).setMip c k 3 (bit v 0)))) ∧
      ((s.cluster c).st = .stopping → s.clusterBusy c = false → exec (.clusterStopComplete c) s = .next (s.after (s.clusterStopped c))))

/-- What the debug module's accesses do where they take effect (R415). -/
def Obligations.DebugModuleTakesEffect : Prop :=
  (∀ (s : State) (c k r n size : Nat) (v a : Word), s.working →
      let give (x : Word) : State := (s.modHearth (fun h => { h with dbgData := x })).debugEnd true 0
      exec (.abstractCommand c k (.readX r)) s = .next (s.after (give (if r % 32 = 0 then 0 else tget 0 (s.hcore c k).x (r % 32)))) ∧
      exec (.abstractCommand c k (.writeX r v)) s = .next (s.after ((s.modHcore c k (fun h => h.setX (r % 32) v)).debugEnd true 0)) ∧
      exec (.abstractCommand c k (.readF r)) s = .next (s.after (give (tget 0 (s.hcore c k).f (r % 32)))) ∧
      exec (.abstractCommand c k (.writeF r v)) s = .next (s.after
        ((s.modHcore c k (fun h => { h with f := tset h.f (r % 32) v })).debugEnd true 0)) ∧
      exec (.abstractCommand c k (.readCsr n)) s = .next (s.after (give (BitVec.ofNat 64 (s.csrRead c k n)))) ∧
      exec (.abstractCommand c k (.writeCsr n v)) s = .next (s.after
        ((s.modHcore c k (fun h => h.csrPut n v.toNat)).debugEnd true 0).hInterrupts) ∧
      (s.debugRefused c a.toNat = false →
        exec (.abstractCommand c k (.readMem a size)) s = .next (s.after (s.debugRead true c k a.toNat size)) ∧
        exec (.abstractCommand c k (.writeMem a size v)) s = .next (s.after (s.debugWrite true c k a.toNat size v.toNat)) ∧
        exec (.systemBusAccess c false a size v) s = .next (s.after (s.debugRead false c 0 a.toNat size)) ∧
        exec (.systemBusAccess c true a size v) s = .next (s.after (s.debugWrite false c 0 a.toNat size v.toNat))) ∧
      (s.debugRefused c a.toNat = true →
        let s1 := s.raiseAt (0x2E + c) 4 (some (s.cluster c).part) (some 73)
        (∀ write, exec (.systemBusAccess c write a size v) s = .next (s.after (s1.debugEnd false (debugError false)))) ∧
        exec (.abstractCommand c k (.readMem a size)) s = .next (s.after (s1.debugEnd true (debugError true)))))

/-- What the events of the fault collector and the ledger do where they take effect (R430 to R451). -/
def Obligations.FaultEventsTakeEffect : Prop :=
  (∀ (s : State) (src : Nat) (attr port : Option Nat) (addr : Word),
      let s1 := s.detectedIn src addr
      (s.dieUp = false → exec (.faultDetected src attr port addr) s = .next (s.after s)) ∧
      (s.dieUp = true → s1.flt.corrupt.find? (fun e => e.1 == src) = none →
        exec (.faultDetected src attr port addr) s = .next (s.after ((s1.aerLog src port).raise src attr port addr false))) ∧
      (∀ e, s.dieUp = true → s1.flt.corrupt.find? (fun e => e.1 == src) = some e →
        exec (.faultDetected src attr port addr) s = .next (s.after
          (((s1.modFlt (fun f => { f with corrupt := f.corrupt.erase e })).aerLog src port).raise src attr port addr true)))) ∧
  (∀ (s : State) (b : Nat), s.dieUp = true →
      let ready := s.modFlt (fun f => { f with handling := f.handling.map (fun h => if h.block = b then { h with resetting := false } else h) })
      let resets := s.flt.handling.any (fun h => h.block == b && h.resetting)
      (resets = true → blockKind b ≠ .plane → (blockKind b = .hearth → (s.cluster (b - 0x2E)).st = .stopped) → exec (.blockReady b) s = .next (s.after ready)) ∧
      (resets = true → blockKind b = .plane → (s.plane (b - 0x22)).leaving = false → (s.plane (b - 0x22)).leaveFor = 1 →
        exec (.blockReady b) s = .next (s.after (ready.planeReturn (b - 0x22)))) ∧
      (resets = false → exec (.blockReady b) s = .next (s.after s)) ∧
      exec (.reactionShadowEnd b) s = .next (s.after (s.modFlt (fun f =>
        { f with handling := f.handling.filter (fun h => h.block != b || h.resetting) })))) ∧
  (∀ (s : State), s.dieUp = true →
      (s.ember.fwReady = true → exec .ledgerFlashCopy s = .next (s.after
        { s with nv := { s.nv with ledger := some s.flt.ledger }, flt := { s.flt with flashAge := 0 } })) ∧
      (∀ h r, s.flt.flashWait = h :: r →
        let s1 := s.modFlt (fun f => { f with flashWait := r })
        exec (.ledgerFlashClearComplete true) s = .next (s.after
          ({ s1 with nv := { s1.nv with ledger := some [] }, flt := { s1.flt with flashAge := 0 } }.endHandle h rcOk)) ∧
        exec (.ledgerFlashClearComplete false) s = .next (s.after (((s1.freeBit.2.modNv (fun v =>
          { v with ledger := if s1.freeBit.1 then none else v.ledger })).raiseAt 0x3A 2).endHandle h rcHwFault))))

/-- What each command of the isolation group answers when it is executed (R419, R425 to R429). -/
def Obligations.IsolationCommandsComplete : Prop :=
  (∀ (s : State) (c : Path) (p : Nat) (q : Req), s.serves cmdPartGet c p q → q.u8 0x20 < 32 → q.zero 0x21 3 = true →
      ∃ d, d.length = 16 ∧ exec (.partGet c q) s = .next (s.answered (ok s d) c p 0x0200 q)) ∧
  (∀ (s : State) (c : Path) (p : Nat) (q : Req), s.serves cmdPartSet c p q → q.u8 0x20 < 32 → q.u8 0x22 < 4 →
      (q.u8 0x21 = 1 → q.u8 0x20 ≠ 0 → exec (.partSet c q) s = .next (s.answered
        (ok (s.modPart (q.u8 0x20) (fun x => { x with fabricAdmin := bit (q.u8 0x22) 0 }))) c p 0x0201 q)) ∧
      (q.u8 0x21 = 4 → q.u8 0x23 < 32 → s.slotsGiven - (s.partCfg (q.u8 0x20)).strictSlots + q.u8 0x23 ≤ 31 →
        let s1 := s.modPart (q.u8 0x20) (fun x => { x with strictSlots := q.u8 0x23 })
        exec (.partSet c q) s = .next (s.answered (ok (if s.iso.strict then s1.relayStrict else s1)) c p 0x0201 q))) ∧
  (∀ (s : State) (c : Path) (p : Nat) (q : Req), s.serves cmdIsoGetStatus c p q →
      ∃ d, d.length = 16 ∧ d.take 1 = leBytes 1 s.isoConditions ∧ exec (.isoGetStatus c q) s = .next (s.answered (ok s d) c p 0x0202 q)) ∧
  (∀ (s : State) (c : Path) (p : Nat) (q : Req), s.serves cmdStrictSet c p q → q.zero 0x21 3 = true →
      (q.u8 0x20 = 0 → exec (.strictSet c q) s = .next (s.answered (ok (if s.iso.strict then s.strictOff else s)) c p 0x0203 q)) ∧
      (q.u8 0x20 = 1 → 1000 ≤ q.u32 0x24 → q.u32 0x24 ≤ 100000 → q.u32 0x24 % 8 = 0 →
        (s.iso.strict = true → s.iso.gateNs = q.u32 0x24 → exec (.strictSet c q) s = .next (s.answered (ok s) c p 0x0203 q)) ∧
        (∀ t, q.onBehalf = false → s.iso.strict = false → s.userSchedule = false → s.handleFree p = true →
          (s.modIso (fun i => { i with gateNs := q.u32 0x24 })).layStrict = some t →
          let h := t.newHandle p 0x0203
          exec (.strictSet c q) s = .next (s.answered
            (pend (h.2.modIso (fun i => { i with handles := h.1 :: i.handles })) h.1) c p 0x0203 q))))

/-- What each command of the fault group answers when it is executed (R431 to R452). -/
def Obligations.FaultCommandsComplete : Prop :=
  (∀ (s : State) (c : Path) (p : Nat) (q : Req), s.serves cmdFltGetSummary c p q →
      ∃ d, d.length = 16 ∧ exec (.fltGetSummary c q) s = .next (s.answered (ok s d) c p 0x0A00 q)) ∧
  (∀ (s : State) (c : Path) (p : Nat) (q : Req), s.serves cmdFltRead c p q → q.onBehalf = false → 1 ≤ q.u8 0x21 → q.u8 0x20 + q.u8 0x21 ≤ 64 →
      q.zero 0x22 2 = true → exec (.fltRead c q) s = .next (s.answered (ok s ((List.range (q.u8 0x21)).flatMap (fun i =>
        leBytes 4 (s.sBits p (q.u8 0x20 + i)).toNat ++ leBytes 4 (s.mBits p (q.u8 0x20 + i)).toNat))) c p 0x0A01 q)) ∧
  (∀ (s : State) (c : Path) (p : Nat) (q : Req), s.serves cmdFltClear c p q → q.onBehalf = false → q.u8 0x20 < 64 → q.zero 0x21 3 = true →
      let s1 := s.clearBits p (q.u8 0x20) (BitVec.ofNat 32 (q.u32 0x24))
      exec (.fltClear c q) s = .next (s.answered (ok s1 (leBytes 4 (s1.sBits p (q.u8 0x20)).toNat ++ leBytes 4 0)) c p 0x0A02 q)) ∧
  (∀ (s : State) (c : Path) (p : Nat) (q : Req), s.serves cmdFltSetReaction c p q → q.zero 0x23 1 = true →
      (q.u8 0x20 < 64 → q.u8 0x21 < 4 → reactionValid (q.u8 0x20) (q.u8 0x21) (q.u8 0x22) = true →
        reactionDenied (q.u8 0x20) (q.u8 0x21) (q.u8 0x22) = false → exec (.fltSetReaction c q) s = .next (s.answered
          (ok (s.modFlt (fun f => { f with react := tset f.react (q.u8 0x20 * 4 + q.u8 0x21) (q.u8 0x22) }))) c p 0x0A03 q)) ∧
      (q.u8 0x20 = 0xFF → q.u8 0x21 = 0 → q.u8 0x22 ≤ 1 → exec (.fltSetReaction c q) s = .next (s.answered
          (ok (s.modFlt (fun f => { f with sbAlert := q.u8 0x22 == 1 }))) c p 0x0A03 q))) ∧
  (∀ (s : State) (c : Path) (p : Nat) (q : Req), s.serves cmdFltGetReaction c p q →
      exec (.fltGetReaction c q) s = .next (s.answered (ok s ((List.range 256).flatMap (fun i => leBytes 1 (s.reaction (i / 4) (i % 4))) ++
        leBytes 1 (b2n s.flt.sbAlert) ++ leBytes 3 0)) c p 0x0A04 q)) ∧
  (∀ (s : State) (c : Path) (p : Nat) (q : Req), s.serves cmdFltLedgerRead c p q →
      ∃ d, d.length = 1032 ∧ d.drop 8 = (List.range 512).flatMap (fun i => leBytes 2 (tget 0 s.flt.ledger i)) ∧
        exec (.fltLedgerRead c q) s = .next (s.answered (ok s d) c p 0x0A05 q)) ∧
  (∀ (s : State) (c : Path) (p : Nat) (q : Req), s.serves cmdFltLedgerClear c p q → q.onBehalf = false → s.lifecycle = 0 ∨ s.lifecycle = 2 →
      s.handleFree p = true →
      let h := s.newHandle p 0x0A06
      exec (.fltLedgerClear c q) s = .next (s.answered (pend ((h.2.modFlt (fun f =>
        { f with ledger := [], flashWait := f.flashWait ++ [h.1] })).modKept (fun k => { k with ledgerShadow := [] })) h.1) c p 0x0A06 q)) ∧
  (∀ (s : State) (c : Path) (p : Nat) (q : Req), s.serves cmdFltInject c p q → q.zero 0x25 3 = true → (faultClass (q.u16 0x20)).isSome = true →
      (q.u8 0x22 = 0 → q.u8 0x23 = 0xFF → q.u8 0x24 ≠ 0 →
        exec (.fltInject c q) s = .next (s.answered (ok (s.raiseTimes (q.u16 0x20) none (q.u8 0x24))) c p 0x0A07 q)) ∧
      (q.u8 0x22 = 1 ∨ q.u8 0x22 = 2 → q.u8 0x23 = 0xFF → q.u8 0x24 = 1 → sramSource (q.u16 0x20) = true →
        exec (.fltInject c q) s = .next (s.answered
          (ok (s.modFlt (fun f => { f with corrupt := f.corrupt ++ [(q.u16 0x20, q.u8 0x22, 0xFF)] }))) c p 0x0A07 q))) ∧
  (∀ (s : State) (c : Path) (p : Nat) (q : Req), s.serves cmdFltAerRead c p q → q.u8 0x20 < 40 → (s.port (q.u8 0x20)).role = .downstream →
      q.zero 0x22 2 = true →
      let a := (s.port (q.u8 0x20)).aer
      let out := leBytes 4 a.uncStatus.toNat ++ leBytes 4 a.uncMask.toNat ++ leBytes 4 a.uncSev.toNat ++ leBytes 4 a.corStatus.toNat ++
        leBytes 4 a.corMask.toNat ++ leBytes 4 a.capCtl.toNat ++ leBytes 16 a.hdrLog.toNat
      (q.u8 0x21 = 0 → exec (.fltAerRead c q) s = .next (s.answered (ok s out) c p 0x0A08 q)) ∧
      (q.u8 0x21 = 1 → exec (.fltAerRead c q) s = .next (s.answered
        (ok (s.modAer (q.u8 0x20) (fun x => { x with uncStatus := 0, corStatus := 0 })) out) c p 0x0A08 q))) ∧
  (∀ (s : State) (c : Path) (p : Nat) (q : Req), s.serves cmdEvPop c p q → 1 ≤ q.u8 0x20 → q.u8 0x20 ≤ 126 → q.zero 0x21 3 = true →
      let got := s.flt.sb.take (q.u8 0x20)
      let left := s.flt.sb.drop (q.u8 0x20)
      exec (.evPop c q) s = .next (s.answered (ok (s.modFlt (fun f => { f with sb := left, sbLost := 0 }))
        (leBytes 1 got.length ++ leBytes 1 (Nat.min 255 left.length) ++ leBytes 2 s.flt.sbLost ++ leBytes 4 0 ++
          got.flatMap EvRec.bytes)) c p 0x0A09 q))

/-- What the events of reset and of the start do where they take effect (R453 to R472). -/
def Obligations.ResetEventsTakeEffect : Prop :=
  (∀ (s : State), let cold (ph : Phase) : State :=
        { State.reset with
          lands := s.lands.cold
          boot := { phase := ph }
          nv := s.closeXfer.nv.lifeTaken s.boot.nextLifecycle
          flt := { ledger := s.closeXfer.nv.ledger.getD [], ledgerSrc := if s.closeXfer.nv.ledger.isNone then 2 else 0 }
          free := s.free
          out := s.out
          pending := s.pending }
      exec .powerOn s = .next (s.after (cold .railsOff)) ∧ exec .auxRailLost s = .next (s.after (cold .off))) ∧
  (∀ (s : State) (ns : Nat), (1000 ≤ ns → exec (.moduleReset ns) s = .next (s.after (s.moduleReset 3 0))) ∧
      (ns < 100 → exec (.moduleReset ns) s = .next (s.after s))) ∧
  (∀ (s : State),
      (s.boot.watchdog = true → exec .watchdogExpiry s = .next (s.after ((s.raiseAt 0x32 3).moduleReset 4 0))) ∧
      (s.boot.watchdog = false → exec .watchdogExpiry s = .next (s.after s)) ∧
      (s.boot.srcPulse = true → exec .resetPulseEnd s = .next (s.after (s.modBoot (fun b =>
        { b with srcPulse := false, phase := if b.phase = .held then .hold else b.phase })))) ∧
      (s.boot.startTimer = true → s.boot.phase ≠ .hostDownload → s.boot.phase ≠ .peerDownload →
        exec .startTimerExpiry s = .next (s.after (s.moduleReset 4 4)))) ∧
  (∀ (s : State) (env : BootEnv), s.boot.phase = .hold →
      let s1 : State := { s with
        time := { s.time with counting := true, ticks := 0 }
        boot := { s.boot with straps := s.lands.straps, env := env } }
      let c := s1.countStart
      let s2 := (c.1.modEmber (fun e => { e with smoulder := c.2 })).modBoot (fun b => { b with startTimer := !c.2 })
      let s3 := env.newRepairs.foldl State.marchRepair (if s2.boot.straps.testMode ∧ s2.lifecycle = 1 then s2.raiseAt 0x37 0 else s2)
      let o := s3.nv.optionSet
      let s5 := (if o.2.2 then s3 else s3.raiseAt 0x3A 3).commitOptions o.1 o.2.1 s3.ember.smoulder
      exec (.supervisorRelease env) s = .next (s.after
        (if (List.range 10).any (fun n => s5.boot.clkMode n == 3) then s5.raiseAt 0x3A 0 else s5).imageFetch)) ∧
  (∀ (s : State), s.dieUp = true → s.boot.stableWait = true →
      let s1 := (s.modBoot (fun b => { b with stableWait := false })).modKept (fun k => (k.putBoot 30 30 0).putBoot 26 24 0)
      (s.runningSlot = none → exec .stableIntervalExpiry s = .next (s.after s1)) ∧
      (∀ n, s.runningSlot = some n → s.nv.activation.getD s.boot.firstSlot = n → exec .stableIntervalExpiry s = .next (s.after s1)) ∧
      (∀ n, s.runningSlot = some n → s.nv.activation.getD s.boot.firstSlot ≠ n →
        exec .stableIntervalExpiry s = .next (s.after (s1.modNv (fun v => { v with activation := some n }))))) ∧
  (∀ (s : State) (image : Bytes), s.dieUp = true → s.boot.phase = .hostDownload →
      let g := s.page s.dlPart
      let addr := leNat (mread 0 g.cmdBuf 0 8)
      let size := leNat (mread 0 g.cmdBuf 8 4)
      let s1 := s.modBoot (fun b => { b with dlAddr := BitVec.ofNat 64 addr, dlSize := BitVec.ofNat 32 size })
      (g.st = .idle → size < 4 ∨ 0x03000000 < size ∨ size % 4 ≠ 0 →
        exec .hostDownloadGo s = .next (s.after (s1.downloadEnd rcBadLength))) ∧
      (g.st = .idle → 4 ≤ size → size ≤ 0x03000000 → size % 4 = 0 → (s.vs s.dlPart).mgmt.busMaster = true →
        exec .hostDownloadGo s = .next (s.after (((s1.modPage s.dlPart (fun g => { g with st := .busy })).modBoot (fun b =>
          { b with dlBusy := true })).emit (.downloadRead (BitVec.ofNat 64 addr) size)))) ∧
      (s.boot.dlBusy = true → exec (.hostDownloadComplete image true) s = .next (s.after
        (if s.imageStatus image = rcOk then (s.downloadEnd rcOk).startDownloaded 2 image
         else s.downloadEnd (s.imageStatus image)))) ∧
      (s.boot.dlBusy = true → exec (.hostDownloadComplete image false) s = .next (s.after (s.downloadEnd rcHwFault)))) ∧
  (∀ (s : State) (m : Nat) (image : Bytes), s.dieUp = true → s.boot.phase = .peerDownload → s.boot.peerWait = true →
      s.boot.asked.getLast? = some m →
      exec (.peerImageReceived m image) s = .next (s.after
        (if s.imageStatus image = rcOk then s.startDownloaded 3 image else s.modBoot (fun b => { b with peerWait := false }))))

/-- What the events of the supply do where they take effect (R484 to R502). -/
def Obligations.PowerEventsTakeEffect : Prop :=
  (∀ (s : State), s.boot.phase ≠ .off →
      exec .powerEnAsserted s = .next (s.after ((s.modLands (fun l => { l with powerEn := true })).modPwr (fun w => { w with enLow := 0 })).tryStart) ∧
      (let s1 := (s.modLands (fun l => { l with powerEn := false })).modPwr (fun w => { w with enLow := 0 })
       (s.pwr.stopping = false → s.railsDown = true → exec .powerEnDeasserted s = .next (s.after
          ((s1.modPwr (fun w => { w with efuseOn := false, softStart := false, railRamp := false })).modBoot (fun b => { b with phase := .railsOff })))) ∧
       (s.pwr.stopping = false → s.railsDown = false → exec .powerEnDeasserted s = .next (s.after (s1.freeNat.2.orderlyStop s1.freeNat.1 true))) ∧
       (s.pwr.stopping = true → exec .powerEnDeasserted s = .next (s.after s1))) ∧
      (s.boot.phase ≠ .railsOff → s.pwr.stopping = false → exec .resetThreshold s = .next (s.after
        ((s.modPwr (fun w => { w with belowReset := true })).moduleReset 2 0))) ∧
      exec .overVoltageLockout s = .next (s.after (((s.modPwr (fun w => { w with ovLock := true, efuseOn := false })).latch 6).moduleReset 2 1)) ∧
      exec .thermalTrip s = .next (s.after (((s.modLands (fun l => { l with thermTrip := true })).latch 10).moduleReset 2 2)) ∧
      exec .resetReleaseLevel s = .next (s.after (s.modPwr (fun w => { w with belowReset := false })).tryStart) ∧
      (∀ v, s.pwr.warnActive = false → exec (.warningClear v) s = .next (s.after
        (s.modPwr (fun w => { w with warnArmed := true, warnActive := false, needClear := w.needClear && w.stopping })).tryStart))) ∧
  (∀ (s : State),
      exec .overVoltageRelease s = .next (s.after (s.modPwr (fun w => { w with ovLock := false })).tryStart) ∧
      exec .brownoutHoldoffExpiry s = .next (s.after (s.modPwr (fun w => { w with holdoff := false })).tryStart) ∧
      exec .thermalTripClear s = .next (s.after (s.modLands (fun l => { l with thermTrip := false })).tryStart) ∧
      exec .efuseRetry s = .next (s.after (s.modPwr (fun w => { w with efuseRetry := false })).tryStart) ∧
      (∀ n, s.boot.phase = .ramp → s.pwr.softStart = true → exec (.softStartComplete n) s = .next (s.after
        (s.modPwr (fun w => { w with softStart := false, railRamp := true, choldUf := n % 65536 })))) ∧
      (s.boot.phase = .ramp → s.pwr.railRamp = true → exec .railsGood s = .next (s.after
        ((s.modPwr (fun w => { w with railRamp := false, railsUp := true })).modBoot (fun b => { b with phase := .hold })))) ∧
      (s.pwr.efuseOn = true →
        let off := ((s.modPwr (fun w => { w with efuseOn := false, efuseLimit := false, efuseFails := s.pwr.efuseFails + 1,
                                                  efuseRetry := decide (s.pwr.efuseFails + 1 < 3) })).latch 5).moduleReset 2 3
        exec .efuseShortCircuit s = .next (s.after off) ∧
        (s.pwr.efuseLimit = true → exec .efuseFaultTimer s = .next (s.after off)) ∧
        (s.railsDown = false → exec .efuseCurrentLimit s = .next (s.after ((s.modPwr (fun w => { w with efuseLimit := true })).raiseAt 0x36 4))) ∧
        exec .efuseOnInterval s = .next (s.after (s.modPwr (fun w => { w with efuseFails := 0, efuseLimit := false })))) ∧
      (s.pwr.efuseOn = false → exec .efuseShortCircuit s = .next (s.after s))) ∧
  (∀ (s : State) (v n tj : Nat) (t : TeleSample), s.railsDown = false →
      (let s2 := ((s.modPwr (fun w => { w with warnActive := true })).modKept (fun k => { k with sags := sat 65535 k.sags 1 })).raiseAt 0x36 0
       s.boot.phase ≠ .off → s.pwr.warnArmed = true → s.pwr.warnActive = false → s.pwr.stopping = false →
        (s.kept.power.sagAction = 0 → exec (.sagWarning v) s = .next (s.after (s2.orderlyStop v false))) ∧
        (s.kept.power.sagAction ≠ 0 → exec (.sagWarning v) s = .next (s.after (s2.sagEvent v true false false).shadowCopy))) ∧
      (5 ≤ n → n ≤ 13 →
        let s1 := (s.modPwr (fun w => { w with railBand := true })).raiseAt 0x36 7
        exec (.railOutOfTolerance n false) s = .next (s.after s1) ∧
        exec (.railOutOfTolerance n true) s = .next (s.after (s1.raiseAt 0x36 8))) ∧
      (s.kept.power.thermWarn ≤ tj → exec (.thermalWarning tj) s = .next (s.after
        ((s.modPwr (fun w => { w with thermWarn := true })).raiseAt 0x36 9))) ∧
      (tj < s.kept.power.thermWarn → exec (.thermalWarning tj) s = .next (s.after (s.modPwr (fun w => { w with thermWarn := false })))) ∧
      exec (.telemetrySample t) s = .next (s.after (s.modPwr (fun w =>
        { w with tele := teleOf t, efuseLimit := w.efuseLimit && decide (15000 ≤ t.iin),
                 thermWarn := w.thermWarn && decide (2 * s.kept.power.thermWarn ≤ t.tj),
                 railBand := w.railBand && !railsNear s.age.vddSet t })))) ∧
  (∀ (s : State), s.boot.phase = .off →
      exec .powerEnAsserted s = .next (s.after s) ∧ exec .resetThreshold s = .next (s.after s) ∧ exec .thermalTrip s = .next (s.after s) ∧
      exec .overVoltageLockout s = .next (s.after s) ∧ exec .resetReleaseLevel s = .next (s.after s))

/-- What each command of power and ageing answers when it is executed (R505, R506, R545, R549). -/
def Obligations.PowerCommandsComplete : Prop :=
  (∀ (s : State) (c : Path) (p : Nat) (q : Req), s.serves cmdPwrGetStatus c p q →
      ∃ d, d.length = 32 ∧ exec (.pwrGetStatus c q) s = .next (s.answered (ok s d) c p 0x0D00 q)) ∧
  (∀ (s : State) (c : Path) (p : Nat) (q : Req), s.serves cmdPwrSetConfig c p q → q.zero 0x26 2 = true →
      s.kept.power.sagAction ≠ 0 ∨ holdEnough s.kept.power.vWarn s.pwr.choldUf = true → s.pwr.sagForced = false →
      (q.u8 0x20 = 4 → q.u8 0x24 < 16 → exec (.pwrSetConfig c q) s = .next (s.answered
        (ok (s.modKept (fun k => { k with power := { k.power with alertMask := BitVec.ofNat 4 (q.u8 0x24) } }))) c p 0x0D01 q)) ∧
      (q.u8 0x20 = 8 → 85 ≤ q.u8 0x25 → q.u8 0x25 ≤ 110 → exec (.pwrSetConfig c q) s = .next (s.answered
        (ok (s.modKept (fun k => { k with power := { k.power with thermWarn := q.u8 0x25 } }))) c p 0x0D01 q))) ∧
  (∀ (s : State) (c : Path) (p : Nat) (q : Req), s.serves cmdAgeGetStatus c p q →
      ∃ d, d.length = 32 ∧ exec (.ageGetStatus c q) s = .next (s.answered (ok s d) c p 0x0D02 q)) ∧
  (∀ (s : State) (c : Path) (p : Nat) (q : Req), s.serves cmdAgeSetConfig c p q → q.zero 0x23 1 = true →
      (q.u8 0x20 = 3 → q.u8 0x21 < 16 → s.lifecycle ≠ 1 → 70 ≤ q.u8 0x22 → q.u8 0x22 ≤ 105 → exec (.ageSetConfig c q) s = .next (s.answered
        (ok (s.modAge (fun a => { a with stepEn := BitVec.ofNat 4 (q.u8 0x21), tjPlanMin := q.u8 0x22 }))) c p 0x0D03 q)) ∧
      (q.u8 0x20 = 4 → q.onBehalf = false → s.age.planning = false → s.handleFree p = true →
        let h := s.newHandle p 0x0D03
        exec (.ageSetConfig c q) s = .next (s.answered
          (pend (h.2.modAge (fun a => { a with planning := true, planHandle := h.1 })) h.1) c p 0x0D03 q)))

/-- What the sweep and the counter commands do (R513 to R524). -/
def Obligations.CountersTakeEffect : Prop :=
  (∀ (s : State) (span : Nat), s.working →
      let n := (s.cnt.seq + 1) % 2 ^ 32
      let r : SwRec := { seq := n, time := s.time.ticks, ptpSec := s.time.ptpSec, ptpNs := s.time.ptpNs, span := span % 65536,
                         owners := (List.range 4).map s.clusterOwner, ctrs := s.cnt.ctrs }
      exec (.sweep span) s = .next (s.after (s.modCnt (fun c =>
        { c with seq := n, streams := tmap c.streams (fun p x => x.take (s.streamWrites p x) r) })))) ∧
  (∀ (s : State) (p : Nat), s.working →
      let x : Stream := tget {} s.cnt.streams p
      (x.due = none → exec (.sweepSlotWrite p) s = .next (s.after s)) ∧
      (∀ r, x.due = some r → x.enabled = true → s.streamWrites p x = true →
        let w := (x.wcount + 1) % 2 ^ 32
        exec (.sweepSlotWrite p) s = .next (s.after
          ((s.slotPut p x (x.wcount % x.slots * 8192) (r.records p) (s.sweepHeader p w x r)).modCnt (fun c =>
            { c with streams := tmod {} c.streams p (fun y => { y with wcount := w, skipSlot := 0, due := none }) }))))) ∧
  (∀ (s : State) (c : Path) (p : Nat) (q : Req), s.serves cmdCntRead c p q → 1 ≤ q.u16 0x22 → q.u16 0x22 ≤ 253 →
      q.u16 0x20 + q.u16 0x22 ≤ 512 →
      exec (.cntRead c q) s = .next (s.answered (ok s (leBytes 2 (q.u16 0x20) ++ leBytes 2 (q.u16 0x22) ++ leBytes 4 0 ++
        (List.range (q.u16 0x22)).flatMap (fun i =>
          let x : Ctr := tget {} s.cnt.ctrs (q.u16 0x20 + i)
          if p = 0 ∨ s.ctrOwner (q.u16 0x20 + i) = p then
            leBytes 8 (withOwner x.cfg.toNat (s.ctrOwner (q.u16 0x20 + i))) ++
              leBytes 8 (x.value + b2n x.ovf * 2 ^ 48 + b2n x.wrcoll * 2 ^ 49)
          else List.replicate 16 0))) c p 0x0900 q)) ∧
  (∀ (s : State) (c : Path) (p : Nat) (q : Req), s.serves cmdCntSet c p q → 1 ≤ q.u16 0x20 → q.u16 0x20 ≤ 169 → q.zero 0x22 6 = true →
      let t := setCounters s.cnt.ctrs q
      (∀ i < q.u16 0x20, s.ctrRecordOk p q i = true ∧ chainsOk t (q.u16 (ctrOff i)) = true) →
      exec (.cntSet c q) s = .next (s.answered (ok (s.modCnt (fun x => { x with ctrs := t }))) c p 0x0901 q)) ∧
  (∀ (s : State) (c : Path) (p : Nat) (q : Req), s.serves cmdCntSweepSet c p q → q.zero 0x32 6 = true →
      (q.u8 0x20 = 1 → 1 ≤ q.u32 0x24 → q.u32 0x24 ≤ 1000000 → exec (.cntSweepSet c q) s = .next (s.answered
        (ok (s.modCnt (fun x => { x with periodUs := q.u32 0x24 }))) c p 0x0902 q)) ∧
      (q.u8 0x20 = 2 → q.u8 0x21 = 0 → q.onBehalf = false →
        let y : Stream := { tget {} s.cnt.streams p with enabled := false, cause := 1, due := none }
        exec (.cntSweepSet c q) s = .next (s.answered
          (ok (s.modCnt (fun x => { x with streams := tset x.streams p y }))) c p 0x0902 q)) ∧
      (q.u8 0x20 = 2 → q.u8 0x21 = 1 → q.onBehalf = false → q.u8 0x22 = 0 → q.u8 0x23 = 0 → q.u64 0x28 = 0 → q.u16 0x30 ≠ 0 →
        s.pool.present = true →
        let y : Stream := { enabled := true, dest := 0, slotsLog2 := 0, addr := 0, divider := q.u16 0x30, cause := (tget ({} : Stream) s.cnt.streams p).cause }
        exec (.cntSweepSet c q) s = .next (s.answered
          (ok (s.modCnt (fun x => { x with streams := tset x.streams p y }))) c p 0x0902 q))) ∧
  (∀ (s : State) (c : Path) (p : Nat) (q : Req), s.serves cmdCntSweepGet c p q →
      ∃ d, d.length = 32 ∧ d.take 8 = leBytes 4 s.cnt.periodUs ++ leBytes 4 s.cnt.seq ∧
        exec (.cntSweepGet c q) s = .next (s.answered (ok s d) c p 0x0903 q))

/-- What the events and commands of test, lifecycle and margin do (R526 to R539). -/
def Obligations.TestAndAgeingTakeEffect : Prop :=
  (∀ (s : State) (i margin base : Nat) (broken : Bool), s.dieUp = true →
      let l : Lane := { margin := margin, base := base, bad := broken }
      let s1 := s.modAge (fun a => { a with lanes := tset a.lanes i l })
      let s2 := s.modAge (fun a => { a with ddr := tset a.ddr i l })
      (broken = false ∨ (tget {} s.age.lanes i).bad = true → exec (.charSample 1 i margin base broken) s = .next (s.after s1)) ∧
      (broken = true → (tget {} s.age.lanes i).bad = false → exec (.charSample 1 i margin base broken) s = .next (s.after (s1.raiseAt 0x37 8))) ∧
      (broken = false → exec (.charSample 2 i margin base broken) s = .next (s.after s2))) ∧
  (∀ (s : State) (m : PlanMeas), s.dieUp = true →
      (s.ember.fwReady = true → s.ember.smoulder = false → s.boot.stableWait = false →
        exec (.marginReplan m) s = .next (s.after (s.planAll m))) ∧
      exec .nonceExpiry s = .next (s.after (s.modEmber (fun e => { e with rmaNonce := none })))) ∧
  (∀ (s : State) (b mM lM repairs ms : Nat) (spare : Bool), s.dieUp = true → (s.bistOf b).st = 1 → blockKind b ≠ .plane →
      (s.bistOf b).kind = 2 →
      let t := s.bistOf b
      let r := s.bistResult b 2 mM lM repairs spare
      let s1 := (s.modBist b (fun t =>
        { t with st := if r ≤ 2 then 0 else 2, result := r, mMisr := if bit t.kind 0 then BitVec.ofNat 32 mM else t.mMisr,
                 lMisr := if bit t.kind 1 then BitVec.ofNat 32 lM else t.lMisr, lastMs := ms % 2 ^ 32, runs := sat 65535 t.runs 1,
                 fails := sat 65535 t.fails (b2n (!decide (r ≤ 2))), handle := 0 })).bistReset b
      (r ≤ 2 → exec (.bistComplete b mM lM repairs spare ms) s = .next (s.after ((s1.bistReturn b).endHandle t.handle rcOk))) ∧
      (2 < r → exec (.bistComplete b mM lM repairs spare ms) s = .next (s.after ((s1.raiseAt 0x37 1).endHandle t.handle rcHwFault)))) ∧
  (∀ (s : State) (c : Path) (p : Nat) (q : Req), s.serves cmdBistRun c p q → bistKind (q.u8 0x20) = true → 1 ≤ q.u8 0x21 → q.u8 0x21 ≤ 3 →
      q.zero 0x22 2 = true → (s.bistOf (q.u8 0x20)).st ≠ 1 → s.bistReady (q.u8 0x20) = rcOk → s.inTest.length < 8 →
      blockKind (q.u8 0x20) ≠ .plane → q.onBehalf = false → s.handleFree p = true →
      let h := s.newHandle p 0x0B00
      exec (.bistRun c q) s = .next (s.answered (pend (h.2.bistBegin (q.u8 0x20) (q.u8 0x21) h.1) h.1) c p 0x0B00 q)) ∧
  (∀ (s : State) (c : Path) (p : Nat) (q : Req), s.serves cmdBistGet c p q → q.u8 0x20 < 64 → q.zero 0x21 3 = true →
      ∃ d, d.length = 32 ∧ exec (.bistGet c q) s = .next (s.answered (ok s d) c p 0x0B01 q)) ∧
  (∀ (s : State) (c : Path) (p : Nat) (q : Req), s.serves cmdLcAdvance c p q → q.u32 0x20 = 0xA5C3 → s.lifecycle = 0 →
      s.boot.straps.testMode = false →
      exec (.lcAdvance c q) s = .next (s.answered (if s.freeBit.1 then { status := rcHwFault, s := s.freeBit.2 }
        else ok ((s.freeBit.2.modBoot (fun b =>
          { b with nextLifecycle := some 1, pendingReset := some 1 })).modKept (fun k => { k with bkp1 := 0 }))) c p 0x0B02 q)) ∧
  (∀ (s : State) (c : Path) (p : Nat) (q : Req), s.serves cmdRmaChallenge c p q → s.lifecycle = 1 → s.ember.rmaRejects < 3 →
      let n := s.freeNat.1 % 2 ^ 256
      exec (.rmaChallenge c q) s = .next (s.answered (ok (s.freeNat.2.modEmber (fun e => { e with rmaNonce := some n }))
        (leBytes 32 n ++ leBytes 16 Config.serial.toNat)) c p 0x0B03 q)) ∧
  (∀ (s : State) (c : Path) (p : Nat) (q : Req), s.serves cmdRmaUnlock c p q → s.lifecycle = 1 → q.u32 0x20 = 0x4B56524D →
      q.zero 0x24 12 = true → q.field 16 0x30 = Config.serial.toNat → s.ember.rmaNonce = some (q.field 32 0x40) →
      let used := s.modEmber (fun e => { e with rmaNonce := none })
      exec (.rmaUnlock c q) s = .next (s.answered
        (if Config.rmaSigned (q.bytes 0x20 64) (q.bytes 0x60 96) = false then { status := rcDenied, s := used.rmaReject }
        else if used.freeBit.1 then { status := rcHwFault, s := used.freeBit.2 }
        else ok ((used.freeBit.2.modBoot (fun b =>
          { b with nextLifecycle := some 2, pendingReset := some 1 })).modKept (fun k => { k with bkp1 := 0 }))) c p 0x0B04 q))

/-- What the JTAG instructions and the last steps of a reset do (R556, R117, R460). -/
def Obligations.JtagAndPinsTakeEffect : Prop :=
  (∀ (s : State) (b : Bool) (cells : List Bool), s.boot.phase ≠ .off →
      let sel (i : JtagInst) (v : BitVec 32) : State := s.modJtag (fun j => { j with inst := i, dr := v, driving := false, highz := false })
      exec (.bypass b) s = .next (s.after (sel .bypass (if b then 1 else 0))) ∧
      exec .idcode s = .next (s.after (sel .idcode idcodeValue)) ∧
      exec (.samplePreload cells) s = .next (s.after ((sel .sample 0).modJtag (fun j => { j with boundary := (List.range cells.length).zip cells }))) ∧
      (s.boot.straps.testMode = true →
        exec .extest s = .next (s.after ((sel .extest 0).modJtag (fun j => { j with driving := true }))) ∧
        exec .intest s = .next (s.after ((sel .intest 0).modJtag (fun j => { j with driving := true }))) ∧
        exec .clamp s = .next (s.after ((sel .clamp 0).modJtag (fun j => { j with driving := true }))) ∧
        exec .highz s = .next (s.after ((sel .highz 0).modJtag (fun j => { j with highz := true })))) ∧
      (s.boot.straps.testMode = false →
        exec .extest s = .next (s.after (sel .bypass 0)) ∧ exec .intest s = .next (s.after (sel .bypass 0)) ∧
        exec .clamp s = .next (s.after (sel .bypass 0)) ∧ exec .highz s = .next (s.after (sel .bypass 0)))) ∧
  (∀ (s : State) (b : Bool), s.boot.phase = .off → exec (.bypass b) s = .next (s.after s) ∧ exec .idcode s = .next (s.after s) ∧
      exec .extest s = .next (s.after s)) ∧
  (∀ (s : State) (p : Nat), s.dieUp = true → s.vdspsOf p = [] →
      exec (.propagatedResetComplete p) s = .next (s.after (s.modVs p (fun v => { v with rrs := false })))) ∧
  (∀ (s : State) (p k : Nat), s.dieUp = true → s.vdspsOf p = [k] →
      let s1 := s.modVs p (fun v => { v with rrs := false })
      exec (.propagatedResetComplete p) s = .next (s.after ((s1.flrsDone (s1.vdsp p k)).modVdsp p k (fun v =>
        if v.st = .removing then v else { v with resetPending := false })))) ∧
  (∀ (s : State), s.boot.phase ≠ .off →
      exec (.clockDomainRelease .fabric) s = .next (s.after ((List.range 16).foldl (fun t l => if (t.link l).st = .detect then t.beacon l else t)
        ((s.modLands (fun l => { l with frefOk := true })).modBoot (fun b => { b with fabricHeld := false })))) ∧
      exec (.clockDomainRelease .ethernet) s = .next (s.after
        ((s.modLands (fun l => { l with erefOk := true })).modBoot (fun b => { b with etherHeld := false }))) ∧
      (∀ n, exec (.clockDomainRelease (.station n)) s = .next (s.after
        ((s.modLands (fun l => { l with srefLost := l.srefLost.filter (fun k => k != n) })).modBoot (fun b =>
          { b with stationHeld := b.stationHeld.filter (fun k => k != n) })))))

/-- Orders 1 and 3 to 6 of R67, for every command at once. -/
def Obligations.ChecksRunInOrder : Prop :=
  ∀ (k : Cmd) (c : Path) (p : Nat) (q : Req) (s : State),
    let refused (rc detail : Nat) : Ans := { status := rc, detail := detail, s := s }
    let long := 4064 < q.length ∨ q.length % 4 ≠ 0
    let dark := s.ember.smoulder = true ∧ smoulderAllows k.op = false
    let denied := (q.onBehalf = true ∧ p ≠ 0) ∨ k.allowed (whoOf c p q) q s = false
    (long → runCmd k c p q s = refused rcBadLength 0) ∧
    (∀ off, ¬ long → headerFault q = some off → runCmd k c p q s = refused rcBadField off) ∧
    (¬ long → headerFault q = none → dark → runCmd k c p q s = refused rcNotReady 0) ∧
    (¬ long → headerFault q = none → ¬ dark → denied → runCmd k c p q s = refused rcDenied 0) ∧
    (¬ long → headerFault q = none → ¬ dark → ¬ denied → k.lenOk q = false → runCmd k c p q s = refused rcBadLength 0) ∧
    (¬ long → headerFault q = none → ¬ dark → ¬ denied → k.lenOk q = true → runCmd k c p q s = k.body (whoOf c p q) q s)

/-- The frame of delivering an answer (R61, R72). -/
def Obligations.AnswerFrame : Prop :=
  ∀ (a : Ans) (c : Path) (p op n : Nat) (q : Req),
    let t := a.deliver c p op q n
    { t with ember := a.s.ember, cnt := a.s.cnt, out := a.s.out, core := { t.core with formed := a.s.core.formed } } = a.s ∧
    ((∀ m, c ≠ .relay m) → t.core = a.s.core) ∧
    { t.ember with running := a.s.ember.running, lastRsp := a.s.ember.lastRsp } = a.s.ember ∧
    { t.cnt with ctrs := a.s.cnt.ctrs } = a.s.cnt ∧
    (a.wait = none → t.ember.running = a.s.ember.running ∧ t.ember.lastRsp =
      { opcode := op, status := a.status, tag := q.tag, detail := a.detail,
        handle := if a.handle = 0 then 0 else handleNumber a.handle, payload := a.payload }) ∧
    (a.wait ≠ none → t.ember.lastRsp = a.s.ember.lastRsp ∧ t.out = a.s.out ∧
      (tlook t.ember.running p).isSome = true ∧ ∀ x, x ≠ p → tlook t.ember.running x = tlook a.s.ember.running x)

/-- What the machine holds right after reset. -/
def Obligations.ResetLeaves : Prop :=
  State.reset.dieUp = false ∧ (∀ p b, State.reset.sBits p b = 0 ∧ State.reset.mBits p b = 0) ∧ State.reset.flt.ledger = [] ∧
  State.reset.ember.running = [] ∧ (∀ l, (State.reset.link l).st = .disabled) ∧ (∀ n, (State.reset.port n).role = .absent ∧ (State.reset.port n).dlActive = false) ∧
  (∀ n, (State.reset.plane n).leaving = false) ∧ (∀ c, (State.reset.cluster c).st = .stopped ∧ (State.reset.cluster c).part = 255) ∧
  (∀ n, (State.reset.sod n).st = .absent) ∧ State.reset.pool.mem = [] ∧ (∀ f, State.reset.vnic f = none) ∧
  (∀ g, State.reset.inst g = none) ∧ State.reset.cnt.streams = [] ∧ State.reset.time.ptpSec = 0 ∧ State.reset.time.ptpNs = 0 ∧
  State.reset.pending = [] ∧ State.reset.out = []

/-- The data path does nothing while the die is in reset or its load is shed (R460, R496). -/
def Obligations.EventsInResetDoNothing : Prop :=
  ∀ (s : State),
    (¬ s.working → (∀ l k, exec (.fabricPacketReceived l k) s = .next (s.after s)) ∧ (∀ l, exec (.flitTime l) s = .next (s.after s)) ∧
      (∀ lp f g, exec (.frameReceived lp f g) s = .next (s.after s)) ∧ (∀ lp, exec (.egressFrameStart lp) s = .next (s.after s)) ∧
      (∀ lp, exec (.transmitSchedule lp) s = .next (s.after s)) ∧ (∀ f q b, exec (.vnicReceive f q b) s = .next (s.after s)) ∧
      (∀ m a e, exec (.poolAccess m a e) s = .next (s.after s)) ∧ (∀ n l e, exec (.patrolScrubRead n l e) s = .next (s.after s)) ∧
      (∀ g k cs b d e, exec (.contribution g k cs b d e) s = .next (s.after s)) ∧ (∀ k, exec (.enginePacket k) s = .next (s.after s)) ∧
      (∀ c k rd a n g e, exec (.load c k rd a n g e) s = .next (s.after s)) ∧ (∀ c k a n v, exec (.store c k a n v) s = .next (s.after s)) ∧
      (∀ c k o rd a n v e, exec (.amo c k o rd a n v e) s = .next (s.after s)) ∧ (∀ c k, exec (.fenceRetire c k) s = .next (s.after s)) ∧
      (∀ n, exec (.sweep n) s = .next (s.after s)) ∧ (∀ lp, exec (.gateEntryTransition lp) s = .next (s.after s)) ∧
      (∀ k f, exec (.ptpInputEdge k f) s = .next (s.after s))) ∧
    (s.dieUp = false → (∀ n, exec (.zeroingComplete n) s = .next (s.after s)) ∧ (∀ n u, exec (.scrubComplete n u) s = .next (s.after s)) ∧
      (∀ n, exec (.poolFenceComplete n) s = .next (s.after s)) ∧ (∀ b, exec (.blockReady b) s = .next (s.after s)) ∧
      (∀ a b c d e f, exec (.bistComplete a b c d e f) s = .next (s.after s)) ∧ (∀ p, exec (.propagatedResetComplete p) s = .next (s.after s)) ∧
      (∀ a b c d, exec (.faultDetected a b c d) s = .next (s.after s)) ∧ exec .hostDownloadGo s = .next (s.after s))
end

