-- ==== Sys2Proof/Laws/LinkCode.lean ====
section
/-! SUPPORT. Laws of a link flit's bytes: their number, the range of the CRC, and that a flit as it is sent passes the check of
its receiver (R197, R198). -/

namespace Sys2Proof

open Machine

theorem crc32Bit_lt (c : Nat) (b : Bool) (h : c < 2 ^ 32) : crc32Bit c b < 2 ^ 32 := by
  unfold crc32Bit
  split
  · exact Nat.xor_lt_two_pow (by omega) (by decide)
  · omega

theorem foldl_lt {α : Type} (f : Nat → α → Nat) (hf : ∀ c x, c < 2 ^ 32 → f c x < 2 ^ 32) (l : List α) (c : Nat) (h : c < 2 ^ 32) :
    l.foldl f c < 2 ^ 32 := by
  induction l generalizing c with
  | nil => exact h
  | cons x r ih => exact ih _ (hf c x h)

theorem crc32_lt (bs : Bytes) : crc32 bs < 2 ^ 32 :=
  Nat.xor_lt_two_pow (foldl_lt _ (fun c v h => foldl_lt _ (fun a _ k => crc32Bit_lt a _ k) _ c h) bs _ (by decide)) (by decide)

theorem leNat_leBytes (n v : Nat) : leNat (leBytes n v) = v % 256 ^ n := by
  induction n generalizing v with
  | zero => simp [leBytes, leNat, Nat.mod_one]
  | succ n ih =>
    simp only [leBytes, leNat, ih, BitVec.toNat_ofNat]
    have e : (256 : Nat) ^ (n + 1) = 256 * 256 ^ n := by rw [pow_succ, Nat.mul_comm]
    rw [e]; exact Nat.mod_mul.symm

@[simp] theorem Flit.body_length (f : Flit) : f.body.length = 252 := by
  simp [Flit.body, List.length_flatMap, leBytes_length]

@[simp] theorem Flit.bytes_length (f : Flit) : f.bytes.length = 256 := by simp [Flit.bytes]

theorem Flit.bytes_crcOk (f : Flit) : flitCrcOk f.bytes = true := by
  have h := crc32_lt f.body
  have e1 : f.bytes.take 252 = f.body := by
    rw [← f.body_length]; simp [Flit.bytes]
  have e2 : slice f.bytes 252 4 = leBytes 4 (crc32 f.body) := by
    simp only [slice]
    rw [← f.body_length]
    simp [Flit.bytes, leBytes_length, List.take_of_length_le]
  rw [flitCrcOk, e1, e2, leNat_leBytes]
  exact beq_iff_eq.mpr (Nat.mod_eq_of_lt (by norm_num; omega)).symm

end Sys2Proof
end

