-- ==== Sys2Proof/Laws/PerInstr.lean ====
section
/-! SUPPORT. Per-command laws: a command row is well-formed exactly when its path and its request frame are. -/

namespace Sys2Proof.Laws.RequestFrames

open Sys2Proof

/-- The path and the request frame a command row carries; none for an event (R54, R66). -/
def frame : Instr → Option (Path × Req)
  | .go _ _ => none
  | .ack _ => none
  | .commandTaken _ => none
  | .registerWrite _ _ _ _ => none
  | .mctpCommandMessage _ _ _ _ => none
  | .setEndpointId _ _ _ => none
  | .getEndpointId _ => none
  | .getMctpVersionSupport _ _ => none
  | .getMessageTypeSupport _ => none
  | .getVendorDefinedMessageSupport _ _ => none
  | .dynamicAddressAssignment _ => none
  | .getTid => none
  | .getPldmVersion _ => none
  | .getPldmTypes => none
  | .getPldmCommands _ => none
  | .getPdrRepositoryInfo => none
  | .getPdr _ => none
  | .getSensorReading _ => none
  | .nop c q => some (c, q)
  | .deviceInfo c q => some (c, q)
  | .getOpStatus c q => some (c, q)
  | .warmReset c q => some (c, q)
  | .warmResetDelayExpiry => none
  | .coreGetStatus c q => some (c, q)
  | .coreSetConfig c q => some (c, q)
  | .hearthCtl c q => some (c, q)
  | .fwGetStatus c q => some (c, q)
  | .fwBegin c q => some (c, q)
  | .fwEraseComplete _ => none
  | .fwWrite c q => some (c, q)
  | .fwFinish c q => some (c, q)
  | .fwVerifyComplete _ => none
  | .fwActivate c q => some (c, q)
  | .hostMemoryRequest _ _ => none
  | .deviceMemoryRequest _ _ => none
  | .admissionRetry _ => none
  | .npSlotReserved _ _ => none
  | .egressTlpIssue _ => none
  | .pcieAckReceived _ => none
  | .completionReceived _ _ => none
  | .pcieMessageReceived _ _ _ => none
  | .completionTimeout _ _ => none
  | .tagQuarantineEnd _ _ => none
  | .pcieLinkDown _ => none
  | .configurationRequest _ _ => none
  | .barWrite _ _ _ _ _ => none
  | .memorySpaceEnableWrite _ _ _ _ => none
  | .powerControllerControlWrite _ _ _ => none
  | .dpcTriggerStatusClear _ _ => none
  | .dpcSoftwareTrigger _ _ => none
  | .secondaryBusReset _ _ => none
  | .functionFlr _ _ _ => none
  | .mgmtFunctionFlr _ => none
  | .unplugTimerExpiry _ _ => none
  | .targetLost _ => none
  | .vdspDrainEnd _ _ => none
  | .presenceChange _ _ => none
  | .perstHoldExpiry _ => none
  | .dataLinkActive _ _ _ _ => none
  | .linkDetectTimeout _ => none
  | .configWaitExpiry _ => none
  | .deviceNotReadyTimeout _ => none
  | .upstreamPerstNAssert _ => none
  | .upstreamPerstNRelease _ => none
  | .hotReset _ => none
  | .portGetStatus c q => some (c, q)
  | .portSetConfig c q => some (c, q)
  | .portReset c q => some (c, q)
  | .portResetComplete _ _ => none
  | .vdspBind c q => some (c, q)
  | .vdspUnbind c q => some (c, q)
  | .vdspGet c q => some (c, q)
  | .fenceTimeExpiry _ _ => none
  | .winStage c q => some (c, q)
  | .winCommit c q => some (c, q)
  | .commitDrainWaitExpiry _ => none
  | .drainComplete _ => none
  | .winDiscard c q => some (c, q)
  | .winRead c q => some (c, q)
  | .devShare c q => some (c, q)
  | .devShareComplete _ _ => none
  | .migrateFence c q => some (c, q)
  | .planeCellTime _ => none
  | .iterationMeasurement _ => none
  | .iterationFastLower _ => none
  | .spillReadback _ _ _ _ => none
  | .flitTime _ => none
  | .flitReceived _ _ _ _ _ => none
  | .nakTimeout _ => none
  | .replayTimeout _ => none
  | .lresetExpiry _ => none
  | .electricalIdleExpiry _ => none
  | .beaconReceived _ _ => none
  | .detectTimeout _ => none
  | .equalizationComplete _ _ => none
  | .equalizeTimeout _ => none
  | .alignComplete _ => none
  | .alignTimeout _ => none
  | .trainingRetryWaitExpiry _ => none
  | .trainRecordReceived _ _ _ => none
  | .laneLockLost _ _ => none
  | .signalLost _ _ => none
  | .frefclkLoss => none
  | .linkGetStatus c q => some (c, q)
  | .linkSet c q => some (c, q)
  | .linkReset c q => some (c, q)
  | .linkHandleTimeout _ => none
  | .fabricPacketReceived _ _ => none
  | .doneReport _ _ _ => none
  | .writeAckReceived _ _ => none
  | .relayedCommand _ _ _ _ => none
  | .extractingAnnouncement _ _ => none
  | .getVersion _ => none
  | .getCapabilities _ => none
  | .negotiateAlgorithms _ => none
  | .getDigests _ => none
  | .getCertificate _ _ _ => none
  | .challenge _ _ => none
  | .getMeasurements _ => none
  | .spdmResponseReceived _ _ => none
  | .spdmRetryTimer _ => none
  | .failoverTimer _ => none
  | .revertTimer _ _ => none
  | .flowMoveComplete _ _ => none
  | .extractReq => none
  | .extractFilterExpiry => none
  | .neighbourRerouteReport _ => none
  | .extractDrainComplete => none
  | .extractTimeout => none
  | .routeSet c q => some (c, q)
  | .routeRead c q => some (c, q)
  | .fabGetModule c q => some (c, q)
  | .fabAdmit c q => some (c, q)
  | .fabWithdraw c q => some (c, q)
  | .fabRelay c q => some (c, q)
  | .relayResponse _ _ => none
  | .relayTimeout _ => none
  | .fabSetConfig c q => some (c, q)
  | .peerImageRequest _ => none
  | .poolAccess _ _ _ => none
  | .zeroingComplete _ => none
  | .scrubComplete _ _ => none
  | .poolFenceComplete _ => none
  | .patrolScrubRead _ _ _ => none
  | .channelLost _ => none
  | .poolGetStatus c q => some (c, q)
  | .poolConfig c q => some (c, q)
  | .sodAssign c q => some (c, q)
  | .sodRelease c q => some (c, q)
  | .sodQuery c q => some (c, q)
  | .sodSet c q => some (c, q)
  | .contribution _ _ _ _ _ _ => none
  | .enginePacket _ => none
  | .pullReadComplete _ _ _ _ => none
  | .flushReadComplete _ _ _ => none
  | .chunkTimeout _ _ => none
  | .groupMoveComplete _ => none
  | .groupDestroyComplete _ => none
  | .rtGetStatus c q => some (c, q)
  | .rtPartSet c q => some (c, q)
  | .rtGroupCreate c q => some (c, q)
  | .rtGroupDestroy c q => some (c, q)
  | .rtGroupRead c q => some (c, q)
  | .rtGroupReset c q => some (c, q)
  | .rtGroupMove c q => some (c, q)
  | .frameReceived _ _ _ => none
  | .pfcFrameReceived _ _ _ => none
  | .pfcRefresh _ _ => none
  | .pfcPauseExpiry _ _ => none
  | .pauseWatchExpiry _ _ => none
  | .qpTxTailWrite _ _ _ => none
  | .qpRxTailWrite _ _ _ => none
  | .transmitSchedule _ => none
  | .descriptorFetchComplete _ _ _ _ => none
  | .egressFrameStart _ => none
  | .vnicReceive _ _ _ => none
  | .rxWaitTimeout _ _ => none
  | .itrExpiry _ _ => none
  | .logicalPortLinkChange _ _ => none
  | .vnicFunctionReset _ => none
  | .qpDisableComplete _ _ => none
  | .netPortTrainingEnd _ _ => none
  | .netGetStatus c q => some (c, q)
  | .netPortSet c q => some (c, q)
  | .vnicCreate c q => some (c, q)
  | .vnicDestroy c q => some (c, q)
  | .vnicSet c q => some (c, q)
  | .vnicQpSet c q => some (c, q)
  | .netEmSet c q => some (c, q)
  | .netAclSet c q => some (c, q)
  | .netPtpClock c q => some (c, q)
  | .gateEntryTransition _ => none
  | .gateChangeTime _ => none
  | .ptpOutputEdge _ => none
  | .ptpInputEdge _ _ => none
  | .ptpClockLoss => none
  | .ptpClockRelock => none
  | .tmShaperSet c q => some (c, q)
  | .tmSchedSet c q => some (c, q)
  | .tmMeterSet c q => some (c, q)
  | .tmWredSet c q => some (c, q)
  | .tmGateSet c q => some (c, q)
  | .tmGateGet c q => some (c, q)
  | .ptpOutSet c q => some (c, q)
  | .ptpInSet c q => some (c, q)
  | .ptpInRead c q => some (c, q)
  | .load _ _ _ _ _ _ _ => none
  | .store _ _ _ _ _ => none
  | .instructionFetch _ _ _ _ _ => none
  | .lr _ _ _ _ _ _ => none
  | .sc _ _ _ _ _ _ _ => none
  | .amo _ _ _ _ _ _ _ _ => none
  | .fence _ _ _ _ => none
  | .fenceI _ _ => none
  | .kfence _ _ _ => none
  | .fenceRetire _ _ => none
  | .mpuCsrWrite _ _ _ _ _ => none
  | .kattrCsrWrite _ _ _ _ => none
  | .ksterrWrite _ _ _ => none
  | .fenceWatchExpiry _ _ => none
  | .alarmRequest _ => none
  | .alarmRelease _ => none
  | .alarmFire _ => none
  | .machineTimerInterrupt _ _ => none
  | .msipWrite _ _ _ => none
  | .abstractCommand _ _ _ => none
  | .systemBusAccess _ _ _ _ _ => none
  | .clusterStopComplete _ => none
  | .partGet c q => some (c, q)
  | .partSet c q => some (c, q)
  | .isoGetStatus c q => some (c, q)
  | .strictSet c q => some (c, q)
  | .faultDetected _ _ _ _ => none
  | .blockReady _ => none
  | .reactionShadowEnd _ => none
  | .ledgerFlashCopy => none
  | .fltGetSummary c q => some (c, q)
  | .fltRead c q => some (c, q)
  | .fltClear c q => some (c, q)
  | .fltSetReaction c q => some (c, q)
  | .fltGetReaction c q => some (c, q)
  | .fltLedgerRead c q => some (c, q)
  | .fltLedgerClear c q => some (c, q)
  | .ledgerFlashClearComplete _ => none
  | .fltInject c q => some (c, q)
  | .fltAerRead c q => some (c, q)
  | .evPop c q => some (c, q)
  | .powerOn => none
  | .auxRailLost => none
  | .moduleReset _ => none
  | .watchdogExpiry => none
  | .resetPulseEnd => none
  | .supervisorRelease _ => none
  | .startTimerExpiry => none
  | .stableIntervalExpiry => none
  | .hostDownloadGo => none
  | .hostDownloadComplete _ _ => none
  | .peerImageReceived _ _ => none
  | .powerEnAsserted => none
  | .powerEnDeasserted => none
  | .softStartComplete _ => none
  | .railsGood => none
  | .resetThreshold => none
  | .overVoltageLockout => none
  | .overVoltageRelease => none
  | .resetReleaseLevel => none
  | .brownoutHoldoffExpiry => none
  | .thermalTrip => none
  | .thermalTripClear => none
  | .sagWarning _ => none
  | .warningClear _ => none
  | .efuseFaultTimer => none
  | .efuseShortCircuit => none
  | .efuseRetry => none
  | .railOutOfTolerance _ _ => none
  | .thermalWarning _ => none
  | .telemetrySample _ => none
  | .pwrGetStatus c q => some (c, q)
  | .pwrSetConfig c q => some (c, q)
  | .sweep _ => none
  | .sweepSlotWrite _ => none
  | .cntRead c q => some (c, q)
  | .cntSet c q => some (c, q)
  | .cntSweepSet c q => some (c, q)
  | .cntSweepGet c q => some (c, q)
  | .charSample _ _ _ _ _ => none
  | .marginReplan _ => none
  | .bistComplete _ _ _ _ _ _ => none
  | .nonceExpiry => none
  | .bistRun c q => some (c, q)
  | .bistGet c q => some (c, q)
  | .lcAdvance c q => some (c, q)
  | .rmaChallenge c q => some (c, q)
  | .rmaUnlock c q => some (c, q)
  | .ageGetStatus c q => some (c, q)
  | .ageSetConfig c q => some (c, q)
  | .bypass _ => none
  | .idcode => none
  | .samplePreload _ => none
  | .extest => none
  | .intest => none
  | .clamp => none
  | .highz => none
  | .efuseCurrentLimit => none
  | .efuseOnInterval => none
  | .propagatedResetComplete _ => none
  | .clockDomainRelease _ => none

/-- A row that carries a request frame is well-formed exactly when its path and its frame are (R66). -/
def Statement (i : Instr) : Prop := ∀ c q, frame i = some (c, q) → (i.wf = true ↔ c.wf = true ∧ q.wf = true)

theorem go (pg : Nat) (ack : Bool) : Statement (.go pg ack) := fun _ _ e => by cases e
theorem ack (pg : Nat) : Statement (.ack pg) := fun _ _ e => by cases e
theorem commandTaken (part : Nat) : Statement (.commandTaken part) := fun _ _ e => by cases e
theorem registerWrite (sp : RegSpace) (off : Nat) (size : Nat) (value : Word) : Statement (.registerWrite sp off size value) := fun _ _ e => by cases e
theorem mctpCommandMessage (c : Path) (msgTag : Nat) (whole : Bool) (body : Bytes) : Statement (.mctpCommandMessage c msgTag whole body) := fun _ _ e => by cases e
theorem setEndpointId (c : Path) (op : Nat) (eid : Nat) : Statement (.setEndpointId c op eid) := fun _ _ e => by cases e
theorem getEndpointId (c : Path) : Statement (.getEndpointId c) := fun _ _ e => by cases e
theorem getMctpVersionSupport (c : Path) (msgType : Nat) : Statement (.getMctpVersionSupport c msgType) := fun _ _ e => by cases e
theorem getMessageTypeSupport (c : Path) : Statement (.getMessageTypeSupport c) := fun _ _ e => by cases e
theorem getVendorDefinedMessageSupport (c : Path) (selector : Nat) : Statement (.getVendorDefinedMessageSupport c selector) := fun _ _ e => by cases e
theorem dynamicAddressAssignment (addr : Nat) : Statement (.dynamicAddressAssignment addr) := fun _ _ e => by cases e
theorem getTid : Statement (.getTid) := fun _ _ e => by cases e
theorem getPldmVersion (type : Nat) : Statement (.getPldmVersion type) := fun _ _ e => by cases e
theorem getPldmTypes : Statement (.getPldmTypes) := fun _ _ e => by cases e
theorem getPldmCommands (type : Nat) : Statement (.getPldmCommands type) := fun _ _ e => by cases e
theorem getPdrRepositoryInfo : Statement (.getPdrRepositoryInfo) := fun _ _ e => by cases e
theorem getPdr (record : Nat) : Statement (.getPdr record) := fun _ _ e => by cases e
theorem getSensorReading (sensor : Nat) : Statement (.getSensorReading sensor) := fun _ _ e => by cases e
theorem nop (c : Path) (q : Req) : Statement (.nop c q) := fun _ _ e => by cases e; exact Bool.and_eq_true_iff
theorem deviceInfo (c : Path) (q : Req) : Statement (.deviceInfo c q) := fun _ _ e => by cases e; exact Bool.and_eq_true_iff
theorem getOpStatus (c : Path) (q : Req) : Statement (.getOpStatus c q) := fun _ _ e => by cases e; exact Bool.and_eq_true_iff
theorem warmReset (c : Path) (q : Req) : Statement (.warmReset c q) := fun _ _ e => by cases e; exact Bool.and_eq_true_iff
theorem warmResetDelayExpiry : Statement (.warmResetDelayExpiry) := fun _ _ e => by cases e
theorem coreGetStatus (c : Path) (q : Req) : Statement (.coreGetStatus c q) := fun _ _ e => by cases e; exact Bool.and_eq_true_iff
theorem coreSetConfig (c : Path) (q : Req) : Statement (.coreSetConfig c q) := fun _ _ e => by cases e; exact Bool.and_eq_true_iff
theorem hearthCtl (c : Path) (q : Req) : Statement (.hearthCtl c q) := fun _ _ e => by cases e; exact Bool.and_eq_true_iff
theorem fwGetStatus (c : Path) (q : Req) : Statement (.fwGetStatus c q) := fun _ _ e => by cases e; exact Bool.and_eq_true_iff
theorem fwBegin (c : Path) (q : Req) : Statement (.fwBegin c q) := fun _ _ e => by cases e; exact Bool.and_eq_true_iff
theorem fwEraseComplete (ok : Bool) : Statement (.fwEraseComplete ok) := fun _ _ e => by cases e
theorem fwWrite (c : Path) (q : Req) : Statement (.fwWrite c q) := fun _ _ e => by cases e; exact Bool.and_eq_true_iff
theorem fwFinish (c : Path) (q : Req) : Statement (.fwFinish c q) := fun _ _ e => by cases e; exact Bool.and_eq_true_iff
theorem fwVerifyComplete (ok : Bool) : Statement (.fwVerifyComplete ok) := fun _ _ e => by cases e
theorem fwActivate (c : Path) (q : Req) : Statement (.fwActivate c q) := fun _ _ e => by cases e; exact Bool.and_eq_true_iff
theorem hostMemoryRequest (port : Nat) (r : MemReq) : Statement (.hostMemoryRequest port r) := fun _ _ e => by cases e
theorem deviceMemoryRequest (port : Nat) (r : MemReq) : Statement (.deviceMemoryRequest port r) := fun _ _ e => by cases e
theorem admissionRetry (i : Nat) : Statement (.admissionRetry i) := fun _ _ e => by cases e
theorem npSlotReserved (port : Nat) (i : Nat) : Statement (.npSlotReserved port i) := fun _ _ e => by cases e
theorem egressTlpIssue (port : Nat) : Statement (.egressTlpIssue port) := fun _ _ e => by cases e
theorem pcieAckReceived (port : Nat) : Statement (.pcieAckReceived port) := fun _ _ e => by cases e
theorem completionReceived (port : Nat) (cpl : Cpl) : Statement (.completionReceived port cpl) := fun _ _ e => by cases e
theorem pcieMessageReceived (port : Nat) (rid : Nat) (msg : PcieMsg) : Statement (.pcieMessageReceived port rid msg) := fun _ _ e => by cases e
theorem completionTimeout (port : Nat) (tag : Nat) : Statement (.completionTimeout port tag) := fun _ _ e => by cases e
theorem tagQuarantineEnd (port : Nat) (tag : Nat) : Statement (.tagQuarantineEnd port tag) := fun _ _ e => by cases e
theorem pcieLinkDown (port : Nat) : Statement (.pcieLinkDown port) := fun _ _ e => by cases e
theorem configurationRequest (p : Nat) (r : CfgReq) : Statement (.configurationRequest p r) := fun _ _ e => by cases e
theorem barWrite (p : Nat) (k : Nat) (fn : Nat) (bar : Nat) (value : Word) : Statement (.barWrite p k fn bar value) := fun _ _ e => by cases e
theorem memorySpaceEnableWrite (p : Nat) (k : Nat) (fn : Nat) (en : Bool) : Statement (.memorySpaceEnableWrite p k fn en) := fun _ _ e => by cases e
theorem powerControllerControlWrite (p : Nat) (k : Nat) (off : Bool) : Statement (.powerControllerControlWrite p k off) := fun _ _ e => by cases e
theorem dpcTriggerStatusClear (p : Nat) (k : Nat) : Statement (.dpcTriggerStatusClear p k) := fun _ _ e => by cases e
theorem dpcSoftwareTrigger (p : Nat) (k : Nat) : Statement (.dpcSoftwareTrigger p k) := fun _ _ e => by cases e
theorem secondaryBusReset (p : Nat) (k : Nat) : Statement (.secondaryBusReset p k) := fun _ _ e => by cases e
theorem functionFlr (p : Nat) (k : Nat) (fn : Nat) : Statement (.functionFlr p k fn) := fun _ _ e => by cases e
theorem mgmtFunctionFlr (p : Nat) : Statement (.mgmtFunctionFlr p) := fun _ _ e => by cases e
theorem unplugTimerExpiry (p : Nat) (k : Nat) : Statement (.unplugTimerExpiry p k) := fun _ _ e => by cases e
theorem targetLost (t : LostTarget) : Statement (.targetLost t) := fun _ _ e => by cases e
theorem vdspDrainEnd (p : Nat) (k : Nat) : Statement (.vdspDrainEnd p k) := fun _ _ e => by cases e
theorem presenceChange (port : Nat) (present : Bool) : Statement (.presenceChange port present) := fun _ _ e => by cases e
theorem perstHoldExpiry (port : Nat) : Statement (.perstHoldExpiry port) := fun _ _ e => by cases e
theorem dataLinkActive (port : Nat) (width : Nat) (rate : Nat) (flit : Bool) : Statement (.dataLinkActive port width rate flit) := fun _ _ e => by cases e
theorem linkDetectTimeout (port : Nat) : Statement (.linkDetectTimeout port) := fun _ _ e => by cases e
theorem configWaitExpiry (port : Nat) : Statement (.configWaitExpiry port) := fun _ _ e => by cases e
theorem deviceNotReadyTimeout (port : Nat) : Statement (.deviceNotReadyTimeout port) := fun _ _ e => by cases e
theorem upstreamPerstNAssert (a : PerstPulse) : Statement (.upstreamPerstNAssert a) := fun _ _ e => by cases e
theorem upstreamPerstNRelease (port : Nat) : Statement (.upstreamPerstNRelease port) := fun _ _ e => by cases e
theorem hotReset (port : Nat) : Statement (.hotReset port) := fun _ _ e => by cases e
theorem portGetStatus (c : Path) (q : Req) : Statement (.portGetStatus c q) := fun _ _ e => by cases e; exact Bool.and_eq_true_iff
theorem portSetConfig (c : Path) (q : Req) : Statement (.portSetConfig c q) := fun _ _ e => by cases e; exact Bool.and_eq_true_iff
theorem portReset (c : Path) (q : Req) : Statement (.portReset c q) := fun _ _ e => by cases e; exact Bool.and_eq_true_iff
theorem portResetComplete (port : Nat) (linkUp : Bool) : Statement (.portResetComplete port linkUp) := fun _ _ e => by cases e
theorem vdspBind (c : Path) (q : Req) : Statement (.vdspBind c q) := fun _ _ e => by cases e; exact Bool.and_eq_true_iff
theorem vdspUnbind (c : Path) (q : Req) : Statement (.vdspUnbind c q) := fun _ _ e => by cases e; exact Bool.and_eq_true_iff
theorem vdspGet (c : Path) (q : Req) : Statement (.vdspGet c q) := fun _ _ e => by cases e; exact Bool.and_eq_true_iff
theorem fenceTimeExpiry (port : Nat) (fn : Nat) : Statement (.fenceTimeExpiry port fn) := fun _ _ e => by cases e
theorem winStage (c : Path) (q : Req) : Statement (.winStage c q) := fun _ _ e => by cases e; exact Bool.and_eq_true_iff
theorem winCommit (c : Path) (q : Req) : Statement (.winCommit c q) := fun _ _ e => by cases e; exact Bool.and_eq_true_iff
theorem commitDrainWaitExpiry (part : Nat) : Statement (.commitDrainWaitExpiry part) := fun _ _ e => by cases e
theorem drainComplete (tracker : Nat) : Statement (.drainComplete tracker) := fun _ _ e => by cases e
theorem winDiscard (c : Path) (q : Req) : Statement (.winDiscard c q) := fun _ _ e => by cases e; exact Bool.and_eq_true_iff
theorem winRead (c : Path) (q : Req) : Statement (.winRead c q) := fun _ _ e => by cases e; exact Bool.and_eq_true_iff
theorem devShare (c : Path) (q : Req) : Statement (.devShare c q) := fun _ _ e => by cases e; exact Bool.and_eq_true_iff
theorem devShareComplete (port : Nat) (ok : Bool) : Statement (.devShareComplete port ok) := fun _ _ e => by cases e
theorem migrateFence (c : Path) (q : Req) : Statement (.migrateFence c q) := fun _ _ e => by cases e; exact Bool.and_eq_true_iff
theorem planeCellTime (plane : Nat) : Statement (.planeCellTime plane) := fun _ _ e => by cases e
theorem iterationMeasurement (ps : NatList) : Statement (.iterationMeasurement ps) := fun _ _ e => by cases e
theorem iterationFastLower (plane : Nat) : Statement (.iterationFastLower plane) := fun _ _ e => by cases e
theorem spillReadback (i : Nat) (o : Nat) (tc : Nat) (ue : Bool) : Statement (.spillReadback i o tc ue) := fun _ _ e => by cases e
theorem flitTime (l : Nat) : Statement (.flitTime l) := fun _ _ e => by cases e
theorem flitReceived (l : Nat) (head : Bytes) (rest : Bytes) (decoded : Bool) (corrected : Nat) : Statement (.flitReceived l head rest decoded corrected) := fun _ _ e => by cases e
theorem nakTimeout (l : Nat) : Statement (.nakTimeout l) := fun _ _ e => by cases e
theorem replayTimeout (l : Nat) : Statement (.replayTimeout l) := fun _ _ e => by cases e
theorem lresetExpiry (l : Nat) : Statement (.lresetExpiry l) := fun _ _ e => by cases e
theorem electricalIdleExpiry (l : Nat) : Statement (.electricalIdleExpiry l) := fun _ _ e => by cases e
theorem beaconReceived (l : Nat) (rec : TrainRec) : Statement (.beaconReceived l rec) := fun _ _ e => by cases e
theorem detectTimeout (l : Nat) : Statement (.detectTimeout l) := fun _ _ e => by cases e
theorem equalizationComplete (l : Nat) (lanes : Nat) : Statement (.equalizationComplete l lanes) := fun _ _ e => by cases e
theorem equalizeTimeout (l : Nat) : Statement (.equalizeTimeout l) := fun _ _ e => by cases e
theorem alignComplete (a : LinkAlign) : Statement (.alignComplete a) := fun _ _ e => by cases e
theorem alignTimeout (l : Nat) : Statement (.alignTimeout l) := fun _ _ e => by cases e
theorem trainingRetryWaitExpiry (l : Nat) : Statement (.trainingRetryWaitExpiry l) := fun _ _ e => by cases e
theorem trainRecordReceived (l : Nat) (rec : TrainRec) (interval : Nat) : Statement (.trainRecordReceived l rec interval) := fun _ _ e => by cases e
theorem laneLockLost (l : Nat) (a : LaneRun) : Statement (.laneLockLost l a) := fun _ _ e => by cases e
theorem signalLost (l : Nat) (lane : Nat) : Statement (.signalLost l lane) := fun _ _ e => by cases e
theorem frefclkLoss : Statement (.frefclkLoss) := fun _ _ e => by cases e
theorem linkGetStatus (c : Path) (q : Req) : Statement (.linkGetStatus c q) := fun _ _ e => by cases e; exact Bool.and_eq_true_iff
theorem linkSet (c : Path) (q : Req) : Statement (.linkSet c q) := fun _ _ e => by cases e; exact Bool.and_eq_true_iff
theorem linkReset (c : Path) (q : Req) : Statement (.linkReset c q) := fun _ _ e => by cases e; exact Bool.and_eq_true_iff
theorem linkHandleTimeout (l : Nat) : Statement (.linkHandleTimeout l) := fun _ _ e => by cases e
theorem fabricPacketReceived (l : Nat) (pkt : Pkt) : Statement (.fabricPacketReceived l pkt) := fun _ _ e => by cases e
theorem doneReport (m : Nat) (tc : Nat) (value : Nat) : Statement (.doneReport m tc value) := fun _ _ e => by cases e
theorem writeAckReceived (id : Nat) (delivered : Bool) : Statement (.writeAckReceived id delivered) := fun _ _ e => by cases e
theorem relayedCommand (m : Nat) (fromZero : Bool) (num : Nat) (frame : Bytes) : Statement (.relayedCommand m fromZero num frame) := fun _ _ e => by cases e
theorem extractingAnnouncement (m : Nat) (ended : Bool) : Statement (.extractingAnnouncement m ended) := fun _ _ e => by cases e
theorem getVersion (l : Nat) : Statement (.getVersion l) := fun _ _ e => by cases e
theorem getCapabilities (l : Nat) : Statement (.getCapabilities l) := fun _ _ e => by cases e
theorem negotiateAlgorithms (l : Nat) : Statement (.negotiateAlgorithms l) := fun _ _ e => by cases e
theorem getDigests (l : Nat) : Statement (.getDigests l) := fun _ _ e => by cases e
theorem getCertificate (l : Nat) (offset : Nat) (len : Nat) : Statement (.getCertificate l offset len) := fun _ _ e => by cases e
theorem challenge (l : Nat) (nonce : Nat) : Statement (.challenge l nonce) := fun _ _ e => by cases e
theorem getMeasurements (l : Nat) : Statement (.getMeasurements l) := fun _ _ e => by cases e
theorem spdmResponseReceived (l : Nat) (r : SpdmResult) : Statement (.spdmResponseReceived l r) := fun _ _ e => by cases e
theorem spdmRetryTimer (l : Nat) : Statement (.spdmRetryTimer l) := fun _ _ e => by cases e
theorem failoverTimer (l : Nat) : Statement (.failoverTimer l) := fun _ _ e => by cases e
theorem revertTimer (d : Nat) (j : Nat) : Statement (.revertTimer d j) := fun _ _ e => by cases e
theorem flowMoveComplete (d : Nat) (b : Nat) : Statement (.flowMoveComplete d b) := fun _ _ e => by cases e
theorem extractReq : Statement (.extractReq) := fun _ _ e => by cases e
theorem extractFilterExpiry : Statement (.extractFilterExpiry) := fun _ _ e => by cases e
theorem neighbourRerouteReport (m : Nat) : Statement (.neighbourRerouteReport m) := fun _ _ e => by cases e
theorem extractDrainComplete : Statement (.extractDrainComplete) := fun _ _ e => by cases e
theorem extractTimeout : Statement (.extractTimeout) := fun _ _ e => by cases e
theorem routeSet (c : Path) (q : Req) : Statement (.routeSet c q) := fun _ _ e => by cases e; exact Bool.and_eq_true_iff
theorem routeRead (c : Path) (q : Req) : Statement (.routeRead c q) := fun _ _ e => by cases e; exact Bool.and_eq_true_iff
theorem fabGetModule (c : Path) (q : Req) : Statement (.fabGetModule c q) := fun _ _ e => by cases e; exact Bool.and_eq_true_iff
theorem fabAdmit (c : Path) (q : Req) : Statement (.fabAdmit c q) := fun _ _ e => by cases e; exact Bool.and_eq_true_iff
theorem fabWithdraw (c : Path) (q : Req) : Statement (.fabWithdraw c q) := fun _ _ e => by cases e; exact Bool.and_eq_true_iff
theorem fabRelay (c : Path) (q : Req) : Statement (.fabRelay c q) := fun _ _ e => by cases e; exact Bool.and_eq_true_iff
theorem relayResponse (num : Nat) (frame : Bytes) : Statement (.relayResponse num frame) := fun _ _ e => by cases e
theorem relayTimeout (part : Nat) : Statement (.relayTimeout part) := fun _ _ e => by cases e
theorem fabSetConfig (c : Path) (q : Req) : Statement (.fabSetConfig c q) := fun _ _ e => by cases e; exact Bool.and_eq_true_iff
theorem peerImageRequest (m : Nat) : Statement (.peerImageRequest m) := fun _ _ e => by cases e
theorem poolAccess (m : Nat) (a : PoolAcc) (ecc : Eccs) : Statement (.poolAccess m a ecc) := fun _ _ e => by cases e
theorem zeroingComplete (sod : Nat) : Statement (.zeroingComplete sod) := fun _ _ e => by cases e
theorem scrubComplete (sod : Nat) (ue : Bool) : Statement (.scrubComplete sod ue) := fun _ _ e => by cases e
theorem poolFenceComplete (id : Nat) : Statement (.poolFenceComplete id) := fun _ _ e => by cases e
theorem patrolScrubRead (sod : Nat) (line : Nat) (ecc : Ecc) : Statement (.patrolScrubRead sod line ecc) := fun _ _ e => by cases e
theorem channelLost (ch : Nat) : Statement (.channelLost ch) := fun _ _ e => by cases e
theorem poolGetStatus (c : Path) (q : Req) : Statement (.poolGetStatus c q) := fun _ _ e => by cases e; exact Bool.and_eq_true_iff
theorem poolConfig (c : Path) (q : Req) : Statement (.poolConfig c q) := fun _ _ e => by cases e; exact Bool.and_eq_true_iff
theorem sodAssign (c : Path) (q : Req) : Statement (.sodAssign c q) := fun _ _ e => by cases e; exact Bool.and_eq_true_iff
theorem sodRelease (c : Path) (q : Req) : Statement (.sodRelease c q) := fun _ _ e => by cases e; exact Bool.and_eq_true_iff
theorem sodQuery (c : Path) (q : Req) : Statement (.sodQuery c q) := fun _ _ e => by cases e; exact Bool.and_eq_true_iff
theorem sodSet (c : Path) (q : Req) : Statement (.sodSet c q) := fun _ _ e => by cases e; exact Bool.and_eq_true_iff
theorem contribution (g : Nat) (slot : Nat) (chunkSlot : Nat) (byte : Nat) (data : Bytes) (ep : Bool) : Statement (.contribution g slot chunkSlot byte data ep) := fun _ _ e => by cases e
theorem enginePacket (k : EngPkt) : Statement (.enginePacket k) := fun _ _ e => by cases e
theorem pullReadComplete (g : Nat) (chunk : Nat) (slot : Nat) (ecc : Eccs) : Statement (.pullReadComplete g chunk slot ecc) := fun _ _ e => by cases e
theorem flushReadComplete (g : Nat) (slot : Nat) (ok : Bool) : Statement (.flushReadComplete g slot ok) := fun _ _ e => by cases e
theorem chunkTimeout (g : Nat) (chunk : Nat) : Statement (.chunkTimeout g chunk) := fun _ _ e => by cases e
theorem groupMoveComplete (g : Nat) : Statement (.groupMoveComplete g) := fun _ _ e => by cases e
theorem groupDestroyComplete (g : Nat) : Statement (.groupDestroyComplete g) := fun _ _ e => by cases e
theorem rtGetStatus (c : Path) (q : Req) : Statement (.rtGetStatus c q) := fun _ _ e => by cases e; exact Bool.and_eq_true_iff
theorem rtPartSet (c : Path) (q : Req) : Statement (.rtPartSet c q) := fun _ _ e => by cases e; exact Bool.and_eq_true_iff
theorem rtGroupCreate (c : Path) (q : Req) : Statement (.rtGroupCreate c q) := fun _ _ e => by cases e; exact Bool.and_eq_true_iff
theorem rtGroupDestroy (c : Path) (q : Req) : Statement (.rtGroupDestroy c q) := fun _ _ e => by cases e; exact Bool.and_eq_true_iff
theorem rtGroupRead (c : Path) (q : Req) : Statement (.rtGroupRead c q) := fun _ _ e => by cases e; exact Bool.and_eq_true_iff
theorem rtGroupReset (c : Path) (q : Req) : Statement (.rtGroupReset c q) := fun _ _ e => by cases e; exact Bool.and_eq_true_iff
theorem rtGroupMove (c : Path) (q : Req) : Statement (.rtGroupMove c q) := fun _ _ e => by cases e; exact Bool.and_eq_true_iff
theorem frameReceived (lport : Nat) (bytes : Bytes) (fcsOk : Bool) : Statement (.frameReceived lport bytes fcsOk) := fun _ _ e => by cases e
theorem pfcFrameReceived (lport : Nat) (mask : Nat) (times : NatList) : Statement (.pfcFrameReceived lport mask times) := fun _ _ e => by cases e
theorem pfcRefresh (lport : Nat) (prio : Nat) : Statement (.pfcRefresh lport prio) := fun _ _ e => by cases e
theorem pfcPauseExpiry (lport : Nat) (prio : Nat) : Statement (.pfcPauseExpiry lport prio) := fun _ _ e => by cases e
theorem pauseWatchExpiry (lport : Nat) (tc : Nat) : Statement (.pauseWatchExpiry lport tc) := fun _ _ e => by cases e
theorem qpTxTailWrite (f : Nat) (qp : Nat) (value : Nat) : Statement (.qpTxTailWrite f qp value) := fun _ _ e => by cases e
theorem qpRxTailWrite (f : Nat) (qp : Nat) (value : Nat) : Statement (.qpRxTailWrite f qp value) := fun _ _ e => by cases e
theorem transmitSchedule (lport : Nat) : Statement (.transmitSchedule lport) := fun _ _ e => by cases e
theorem descriptorFetchComplete (f : Nat) (qp : Nat) (descs : TxRaws) (ok : Bool) : Statement (.descriptorFetchComplete f qp descs ok) := fun _ _ e => by cases e
theorem egressFrameStart (lport : Nat) : Statement (.egressFrameStart lport) := fun _ _ e => by cases e
theorem vnicReceive (f : Nat) (qp : Nat) (bufs : NatList) : Statement (.vnicReceive f qp bufs) := fun _ _ e => by cases e
theorem rxWaitTimeout (f : Nat) (qp : Nat) : Statement (.rxWaitTimeout f qp) := fun _ _ e => by cases e
theorem itrExpiry (f : Nat) (qp : Nat) : Statement (.itrExpiry f qp) := fun _ _ e => by cases e
theorem logicalPortLinkChange (lport : Nat) (up : Bool) : Statement (.logicalPortLinkChange lport up) := fun _ _ e => by cases e
theorem vnicFunctionReset (f : Nat) : Statement (.vnicFunctionReset f) := fun _ _ e => by cases e
theorem qpDisableComplete (f : Nat) (qp : Nat) : Statement (.qpDisableComplete f qp) := fun _ _ e => by cases e
theorem netPortTrainingEnd (lport : Nat) (up : Bool) : Statement (.netPortTrainingEnd lport up) := fun _ _ e => by cases e
theorem netGetStatus (c : Path) (q : Req) : Statement (.netGetStatus c q) := fun _ _ e => by cases e; exact Bool.and_eq_true_iff
theorem netPortSet (c : Path) (q : Req) : Statement (.netPortSet c q) := fun _ _ e => by cases e; exact Bool.and_eq_true_iff
theorem vnicCreate (c : Path) (q : Req) : Statement (.vnicCreate c q) := fun _ _ e => by cases e; exact Bool.and_eq_true_iff
theorem vnicDestroy (c : Path) (q : Req) : Statement (.vnicDestroy c q) := fun _ _ e => by cases e; exact Bool.and_eq_true_iff
theorem vnicSet (c : Path) (q : Req) : Statement (.vnicSet c q) := fun _ _ e => by cases e; exact Bool.and_eq_true_iff
theorem vnicQpSet (c : Path) (q : Req) : Statement (.vnicQpSet c q) := fun _ _ e => by cases e; exact Bool.and_eq_true_iff
theorem netEmSet (c : Path) (q : Req) : Statement (.netEmSet c q) := fun _ _ e => by cases e; exact Bool.and_eq_true_iff
theorem netAclSet (c : Path) (q : Req) : Statement (.netAclSet c q) := fun _ _ e => by cases e; exact Bool.and_eq_true_iff
theorem netPtpClock (c : Path) (q : Req) : Statement (.netPtpClock c q) := fun _ _ e => by cases e; exact Bool.and_eq_true_iff
theorem gateEntryTransition (lport : Nat) : Statement (.gateEntryTransition lport) := fun _ _ e => by cases e
theorem gateChangeTime (lport : Nat) : Statement (.gateChangeTime lport) := fun _ _ e => by cases e
theorem ptpOutputEdge (k : Nat) : Statement (.ptpOutputEdge k) := fun _ _ e => by cases e
theorem ptpInputEdge (k : Nat) (falling : Bool) : Statement (.ptpInputEdge k falling) := fun _ _ e => by cases e
theorem ptpClockLoss : Statement (.ptpClockLoss) := fun _ _ e => by cases e
theorem ptpClockRelock : Statement (.ptpClockRelock) := fun _ _ e => by cases e
theorem tmShaperSet (c : Path) (q : Req) : Statement (.tmShaperSet c q) := fun _ _ e => by cases e; exact Bool.and_eq_true_iff
theorem tmSchedSet (c : Path) (q : Req) : Statement (.tmSchedSet c q) := fun _ _ e => by cases e; exact Bool.and_eq_true_iff
theorem tmMeterSet (c : Path) (q : Req) : Statement (.tmMeterSet c q) := fun _ _ e => by cases e; exact Bool.and_eq_true_iff
theorem tmWredSet (c : Path) (q : Req) : Statement (.tmWredSet c q) := fun _ _ e => by cases e; exact Bool.and_eq_true_iff
theorem tmGateSet (c : Path) (q : Req) : Statement (.tmGateSet c q) := fun _ _ e => by cases e; exact Bool.and_eq_true_iff
theorem tmGateGet (c : Path) (q : Req) : Statement (.tmGateGet c q) := fun _ _ e => by cases e; exact Bool.and_eq_true_iff
theorem ptpOutSet (c : Path) (q : Req) : Statement (.ptpOutSet c q) := fun _ _ e => by cases e; exact Bool.and_eq_true_iff
theorem ptpInSet (c : Path) (q : Req) : Statement (.ptpInSet c q) := fun _ _ e => by cases e; exact Bool.and_eq_true_iff
theorem ptpInRead (c : Path) (q : Req) : Statement (.ptpInRead c q) := fun _ _ e => by cases e; exact Bool.and_eq_true_iff
theorem load (cl : Nat) (k : Nat) (rd : Nat) (addr : Word) (size : Nat) (signed : Bool) (ecc : Eccs) : Statement (.load cl k rd addr size signed ecc) := fun _ _ e => by cases e
theorem store (cl : Nat) (k : Nat) (addr : Word) (size : Nat) (value : Word) : Statement (.store cl k addr size value) := fun _ _ e => by cases e
theorem instructionFetch (cl : Nat) (k : Nat) (addr : Word) (size : Nat) (ecc : Eccs) : Statement (.instructionFetch cl k addr size ecc) := fun _ _ e => by cases e
theorem lr (cl : Nat) (k : Nat) (rd : Nat) (addr : Word) (size : Nat) (ecc : Eccs) : Statement (.lr cl k rd addr size ecc) := fun _ _ e => by cases e
theorem sc (cl : Nat) (k : Nat) (rd : Nat) (addr : Word) (size : Nat) (value : Word) (spurious : Bool) : Statement (.sc cl k rd addr size value spurious) := fun _ _ e => by cases e
theorem amo (cl : Nat) (k : Nat) (op : AmoOp) (rd : Nat) (addr : Word) (size : Nat) (value : Word) (ecc : Eccs) : Statement (.amo cl k op rd addr size value ecc) := fun _ _ e => by cases e
theorem fence (cl : Nat) (k : Nat) (pred : Nat) (succ : Nat) : Statement (.fence cl k pred succ) := fun _ _ e => by cases e
theorem fenceI (cl : Nat) (k : Nat) : Statement (.fenceI cl k) := fun _ _ e => by cases e
theorem kfence (cl : Nat) (k : Nat) (word : Nat) : Statement (.kfence cl k word) := fun _ _ e => by cases e
theorem fenceRetire (cl : Nat) (k : Nat) : Statement (.fenceRetire cl k) := fun _ _ e => by cases e
theorem mpuCsrWrite (cl : Nat) (k : Nat) (n : Nat) (cfg : Bool) (value : Word) : Statement (.mpuCsrWrite cl k n cfg value) := fun _ _ e => by cases e
theorem kattrCsrWrite (cl : Nat) (k : Nat) (csr : Nat) (value : Word) : Statement (.kattrCsrWrite cl k csr value) := fun _ _ e => by cases e
theorem ksterrWrite (cl : Nat) (k : Nat) (value : Word) : Statement (.ksterrWrite cl k value) := fun _ _ e => by cases e
theorem fenceWatchExpiry (cl : Nat) (k : Nat) : Statement (.fenceWatchExpiry cl k) := fun _ _ e => by cases e
theorem alarmRequest (cl : Nat) : Statement (.alarmRequest cl) := fun _ _ e => by cases e
theorem alarmRelease (cl : Nat) : Statement (.alarmRelease cl) := fun _ _ e => by cases e
theorem alarmFire (cl : Nat) : Statement (.alarmFire cl) := fun _ _ e => by cases e
theorem machineTimerInterrupt (cl : Nat) (k : Nat) : Statement (.machineTimerInterrupt cl k) := fun _ _ e => by cases e
theorem msipWrite (cl : Nat) (k : Nat) (value : Nat) : Statement (.msipWrite cl k value) := fun _ _ e => by cases e
theorem abstractCommand (cl : Nat) (k : Nat) (a : DbgCmd) : Statement (.abstractCommand cl k a) := fun _ _ e => by cases e
theorem systemBusAccess (cl : Nat) (write : Bool) (addr : Word) (size : Nat) (value : Word) : Statement (.systemBusAccess cl write addr size value) := fun _ _ e => by cases e
theorem clusterStopComplete (cl : Nat) : Statement (.clusterStopComplete cl) := fun _ _ e => by cases e
theorem partGet (c : Path) (q : Req) : Statement (.partGet c q) := fun _ _ e => by cases e; exact Bool.and_eq_true_iff
theorem partSet (c : Path) (q : Req) : Statement (.partSet c q) := fun _ _ e => by cases e; exact Bool.and_eq_true_iff
theorem isoGetStatus (c : Path) (q : Req) : Statement (.isoGetStatus c q) := fun _ _ e => by cases e; exact Bool.and_eq_true_iff
theorem strictSet (c : Path) (q : Req) : Statement (.strictSet c q) := fun _ _ e => by cases e; exact Bool.and_eq_true_iff
theorem faultDetected (src : Nat) (attr : OptNat) (port : OptNat) (addr : Word) : Statement (.faultDetected src attr port addr) := fun _ _ e => by cases e
theorem blockReady (b : Nat) : Statement (.blockReady b) := fun _ _ e => by cases e
theorem reactionShadowEnd (b : Nat) : Statement (.reactionShadowEnd b) := fun _ _ e => by cases e
theorem ledgerFlashCopy : Statement (.ledgerFlashCopy) := fun _ _ e => by cases e
theorem fltGetSummary (c : Path) (q : Req) : Statement (.fltGetSummary c q) := fun _ _ e => by cases e; exact Bool.and_eq_true_iff
theorem fltRead (c : Path) (q : Req) : Statement (.fltRead c q) := fun _ _ e => by cases e; exact Bool.and_eq_true_iff
theorem fltClear (c : Path) (q : Req) : Statement (.fltClear c q) := fun _ _ e => by cases e; exact Bool.and_eq_true_iff
theorem fltSetReaction (c : Path) (q : Req) : Statement (.fltSetReaction c q) := fun _ _ e => by cases e; exact Bool.and_eq_true_iff
theorem fltGetReaction (c : Path) (q : Req) : Statement (.fltGetReaction c q) := fun _ _ e => by cases e; exact Bool.and_eq_true_iff
theorem fltLedgerRead (c : Path) (q : Req) : Statement (.fltLedgerRead c q) := fun _ _ e => by cases e; exact Bool.and_eq_true_iff
theorem fltLedgerClear (c : Path) (q : Req) : Statement (.fltLedgerClear c q) := fun _ _ e => by cases e; exact Bool.and_eq_true_iff
theorem ledgerFlashClearComplete (ok : Bool) : Statement (.ledgerFlashClearComplete ok) := fun _ _ e => by cases e
theorem fltInject (c : Path) (q : Req) : Statement (.fltInject c q) := fun _ _ e => by cases e; exact Bool.and_eq_true_iff
theorem fltAerRead (c : Path) (q : Req) : Statement (.fltAerRead c q) := fun _ _ e => by cases e; exact Bool.and_eq_true_iff
theorem evPop (c : Path) (q : Req) : Statement (.evPop c q) := fun _ _ e => by cases e; exact Bool.and_eq_true_iff
theorem powerOn : Statement (.powerOn) := fun _ _ e => by cases e
theorem auxRailLost : Statement (.auxRailLost) := fun _ _ e => by cases e
theorem moduleReset (lowNs : Nat) : Statement (.moduleReset lowNs) := fun _ _ e => by cases e
theorem watchdogExpiry : Statement (.watchdogExpiry) := fun _ _ e => by cases e
theorem resetPulseEnd : Statement (.resetPulseEnd) := fun _ _ e => by cases e
theorem supervisorRelease (env : BootEnv) : Statement (.supervisorRelease env) := fun _ _ e => by cases e
theorem startTimerExpiry : Statement (.startTimerExpiry) := fun _ _ e => by cases e
theorem stableIntervalExpiry : Statement (.stableIntervalExpiry) := fun _ _ e => by cases e
theorem hostDownloadGo : Statement (.hostDownloadGo) := fun _ _ e => by cases e
theorem hostDownloadComplete (image : Bytes) (ok : Bool) : Statement (.hostDownloadComplete image ok) := fun _ _ e => by cases e
theorem peerImageReceived (m : Nat) (image : Bytes) : Statement (.peerImageReceived m image) := fun _ _ e => by cases e
theorem powerEnAsserted : Statement (.powerEnAsserted) := fun _ _ e => by cases e
theorem powerEnDeasserted : Statement (.powerEnDeasserted) := fun _ _ e => by cases e
theorem softStartComplete (choldUf : Nat) : Statement (.softStartComplete choldUf) := fun _ _ e => by cases e
theorem railsGood : Statement (.railsGood) := fun _ _ e => by cases e
theorem resetThreshold : Statement (.resetThreshold) := fun _ _ e => by cases e
theorem overVoltageLockout : Statement (.overVoltageLockout) := fun _ _ e => by cases e
theorem overVoltageRelease : Statement (.overVoltageRelease) := fun _ _ e => by cases e
theorem resetReleaseLevel : Statement (.resetReleaseLevel) := fun _ _ e => by cases e
theorem brownoutHoldoffExpiry : Statement (.brownoutHoldoffExpiry) := fun _ _ e => by cases e
theorem thermalTrip : Statement (.thermalTrip) := fun _ _ e => by cases e
theorem thermalTripClear : Statement (.thermalTripClear) := fun _ _ e => by cases e
theorem sagWarning (vhold : Nat) : Statement (.sagWarning vhold) := fun _ _ e => by cases e
theorem warningClear (vhold : Nat) : Statement (.warningClear vhold) := fun _ _ e => by cases e
theorem efuseFaultTimer : Statement (.efuseFaultTimer) := fun _ _ e => by cases e
theorem efuseShortCircuit : Statement (.efuseShortCircuit) := fun _ _ e => by cases e
theorem efuseRetry : Statement (.efuseRetry) := fun _ _ e => by cases e
theorem railOutOfTolerance (sensor : Nat) (ten : Bool) : Statement (.railOutOfTolerance sensor ten) := fun _ _ e => by cases e
theorem thermalWarning (tj : Nat) : Statement (.thermalWarning tj) := fun _ _ e => by cases e
theorem telemetrySample (t : TeleSample) : Statement (.telemetrySample t) := fun _ _ e => by cases e
theorem pwrGetStatus (c : Path) (q : Req) : Statement (.pwrGetStatus c q) := fun _ _ e => by cases e; exact Bool.and_eq_true_iff
theorem pwrSetConfig (c : Path) (q : Req) : Statement (.pwrSetConfig c q) := fun _ _ e => by cases e; exact Bool.and_eq_true_iff
theorem sweep (span : Nat) : Statement (.sweep span) := fun _ _ e => by cases e
theorem sweepSlotWrite (p : Nat) : Statement (.sweepSlotWrite p) := fun _ _ e => by cases e
theorem cntRead (c : Path) (q : Req) : Statement (.cntRead c q) := fun _ _ e => by cases e; exact Bool.and_eq_true_iff
theorem cntSet (c : Path) (q : Req) : Statement (.cntSet c q) := fun _ _ e => by cases e; exact Bool.and_eq_true_iff
theorem cntSweepSet (c : Path) (q : Req) : Statement (.cntSweepSet c q) := fun _ _ e => by cases e; exact Bool.and_eq_true_iff
theorem cntSweepGet (c : Path) (q : Req) : Statement (.cntSweepGet c q) := fun _ _ e => by cases e; exact Bool.and_eq_true_iff
theorem charSample (kind : Nat) (idx : Nat) (margin : Nat) (base : Nat) (bad : Bool) : Statement (.charSample kind idx margin base bad) := fun _ _ e => by cases e
theorem marginReplan (m : PlanMeas) : Statement (.marginReplan m) := fun _ _ e => by cases e
theorem bistComplete (block : Nat) (mMisr : Nat) (lMisr : Nat) (repairs : Nat) (spare : Bool) (ms : Nat) : Statement (.bistComplete block mMisr lMisr repairs spare ms) := fun _ _ e => by cases e
theorem nonceExpiry : Statement (.nonceExpiry) := fun _ _ e => by cases e
theorem bistRun (c : Path) (q : Req) : Statement (.bistRun c q) := fun _ _ e => by cases e; exact Bool.and_eq_true_iff
theorem bistGet (c : Path) (q : Req) : Statement (.bistGet c q) := fun _ _ e => by cases e; exact Bool.and_eq_true_iff
theorem lcAdvance (c : Path) (q : Req) : Statement (.lcAdvance c q) := fun _ _ e => by cases e; exact Bool.and_eq_true_iff
theorem rmaChallenge (c : Path) (q : Req) : Statement (.rmaChallenge c q) := fun _ _ e => by cases e; exact Bool.and_eq_true_iff
theorem rmaUnlock (c : Path) (q : Req) : Statement (.rmaUnlock c q) := fun _ _ e => by cases e; exact Bool.and_eq_true_iff
theorem ageGetStatus (c : Path) (q : Req) : Statement (.ageGetStatus c q) := fun _ _ e => by cases e; exact Bool.and_eq_true_iff
theorem ageSetConfig (c : Path) (q : Req) : Statement (.ageSetConfig c q) := fun _ _ e => by cases e; exact Bool.and_eq_true_iff
theorem bypass (bit : Bool) : Statement (.bypass bit) := fun _ _ e => by cases e
theorem idcode : Statement (.idcode) := fun _ _ e => by cases e
theorem samplePreload (cells : BoolList) : Statement (.samplePreload cells) := fun _ _ e => by cases e
theorem extest : Statement (.extest) := fun _ _ e => by cases e
theorem intest : Statement (.intest) := fun _ _ e => by cases e
theorem clamp : Statement (.clamp) := fun _ _ e => by cases e
theorem highz : Statement (.highz) := fun _ _ e => by cases e
theorem efuseCurrentLimit : Statement (.efuseCurrentLimit) := fun _ _ e => by cases e
theorem efuseOnInterval : Statement (.efuseOnInterval) := fun _ _ e => by cases e
theorem propagatedResetComplete (p : Nat) : Statement (.propagatedResetComplete p) := fun _ _ e => by cases e
theorem clockDomainRelease (d : ClkDom) : Statement (.clockDomainRelease d) := fun _ _ e => by cases e

end Sys2Proof.Laws.RequestFrames
end

