-- ==== Sys2Proof/Tests/Slice0.lean ====
section
/-! SUPPORT. The model's own tests: an ill-formed term for each check of WellFormed, small runs whose results the
specification gives, and for every statement that has hypotheses a state and operands that meet them. -/

namespace Sys2Proof.Tests

set_option Elab.async false

open Sys2Proof Sys2Proof.Machine

/-- Out of reset, firmware ready. -/
def svc : State :=
  { State.reset with boot := { State.reset.boot with phase := .ready }, ember := { State.reset.ember with fwReady := true } }

/-- A request of `n` payload bytes, the given ones first. -/
def req (n : Nat) (b : Bytes := []) : Req := { length := n, payload := b }

/-- The conditions of `State.serves`, as a Bool. -/
def servesB (s : State) (k : Cmd) (c : Path) (p : Nat) (q : Req) : Bool :=
  s.ember.fwReady && (s.partOf c == some p) && (tlook s.ember.running p).isNone && decide (q.length ≤ 4064) && decide (q.length % 4 = 0) &&
  (headerFault q).isNone && (!s.ember.smoulder || smoulderAllows k.op) && (!q.onBehalf || p == 0) && k.allowed (whoOf c p q) q s && k.lenOk q

theorem servesOf {s : State} {k : Cmd} {c : Path} {p : Nat} {q : Req} (h : servesB s k c p q = true) : s.serves k c p q := by
  simp only [servesB, Bool.and_eq_true, Bool.or_eq_true, Bool.not_eq_true', beq_iff_eq, decide_eq_true_eq, Option.isNone_iff_eq_none] at h
  obtain ⟨⟨⟨⟨⟨⟨⟨⟨⟨h1, h2⟩, h3⟩, h4⟩, h5⟩, h6⟩, h7⟩, h8⟩, h9⟩, h10⟩ := h
  exact ⟨h1, h2, h3, h4, h5, h6, fun a => h7.resolve_left (by simp [a]), fun a => h8.resolve_left (by simp [a]), h9, h10⟩

/-- Partition `p` has its upstream port `p`, with the management function's memory enabled. -/
def opened (p : Nat) : State := svc.modVs p (fun v => { v with up := some p, mgmt := { v.mgmt with memEn := true } })

/-- The sideband has its endpoint ID. -/
def svcEid : State := svc.modEmber (fun e => { e with sbEid := 9 })

/-- An image transfer into slot 1, erased, 8 of 12 bytes written. -/
def xfer1 : Xfer := { slot := 1, size := 12, ptr := 8, owner := 0, path := .sideband, erased := true }
/-- The same transfer while its image is verified. -/
def xfer1v : Xfer := { xfer1 with op := .verify }

/-- A handle that has ended. -/
def doneHandle : Handle := { id := 1, running := false }

theorem handleNumber_lt (id : Nat) : handleNumber id < 2 ^ 32 := by
  unfold handleNumber; dsimp only; split <;> omega

theorem op_field : (req 8 (leBytes 4 (handleNumber 1))).u32 0x20 = handleNumber 1 := by
  have h := handleNumber_lt 1
  simp only [Req.u32, Req.field, Req.bytes, req, leBytes, slice, leNat, List.drop, List.take, BitVec.toNat_ofNat, List.length,
    Nat.sub_self, List.replicate, List.append, List.append_nil, Nat.reduceAdd]
  omega

/-- The first four bytes of a command message (R76). -/
def msgHead : Bytes := 0x7E :: (leBytes 2 Config.vendorId.toNat).reverse ++ [1]

theorem vendor_bytes : beNat (slice (msgHead ++ List.replicate 32 0) 1 2) = Config.vendorId.toNat := by
  have h := Config.vendorId.isLt
  simp only [msgHead, leBytes, slice, beNat, List.reverse_cons, List.reverse_nil, List.nil_append, List.cons_append, List.drop, List.take,
    List.foldl, BitVec.toNat_ofNat, List.length, Nat.sub_self, List.replicate, List.append_nil, Nat.reduceAdd]
  omega

theorem serves_op : (svc.modEmber (fun e => { e with handles := [doneHandle] })).serves cmdGetOpStatus .sideband 0 (req 8 (leBytes 4 (handleNumber 1))) :=
  servesOf (by decide +kernel)
theorem found_op : (svc.modEmber (fun e => { e with handles := [doneHandle] })).ember.handles.find? (fun h =>
    handleNumber h.id == (req 8 (leBytes 4 (handleNumber 1))).u32 0x20 &&
      h.part == (whoOf .sideband 0 (req 8 (leBytes 4 (handleNumber 1)))).subject) = some doneHandle := by
  rw [op_field]
  show [doneHandle].find? _ = _
  rw [List.find?_cons_of_pos]
  simp [doneHandle, whoOf, req, Req.onBehalf]
  decide

/-- One sod is assigned to Hearth cluster 3. -/
def sodded : State := svc.modPool (fun p => { p with sods := [(7, { st := .assigned, kind := 3, target := 3 })] })

/-! ## PCIe -/

/-- Port 0 is the upstream port of partition 0, its link up. -/
def up0 : State := (opened 0).modPort 0 (fun p => { p with role := .upstream, dlActive := true })

/-- Downstream port 9, its link up, changed by `f`. -/
def dn9 (f : Port → Port := id) : State := svc.modPort 9 (fun p => f { p with role := .downstream, dlActive := true })

/-- Partition 1 has two vDSPs, the second of them `v`. -/
def hv (v : Vdsp) : State := (svc.modVs 1 (fun x => { x with up := some 1, vdspCount := 2 })).modVdsp 1 1 (fun _ => v)

/-- A memory read, a posted write and a completion. -/
def rd0 : Pkt := { desc := ({ opc := opcMRd, bcount := 4 } : Desc).encode }
def wr0 : Pkt := { desc := ({ opc := opcMWr } : Desc).encode }
def cpl0 : Pkt := { ptype := 1 }

theorem credit {s : State} {n : Nat} (h : s.waitingAt n (fun p => p.ptype != 1 && p.nonPosted == false) = 0) : s.noCredit n false = false := by
  simp only [State.noCredit, Bool.false_and, Bool.false_or, h]
  exact decide_eq_false (by omega)

theorem cplRoom_of {s : State} {n : Nat} {k : Pkt} (a : Nat) (e : s.cplRoom n k = decide (a ≤ Config.cplStaging (n / 4) + 4096)) (h : a ≤ 4096) :
    s.cplRoom n k = true := by rw [e]; exact decide_eq_true (by omega)

theorem takeOne {f : Pkt → Bool} {g : Pkt → Pkt → Bool} {k : Pkt} (h : f k = true) : takeOrdered f g [] [k] = some (k, []) := by
  simp [takeOrdered, h]

/-- A core that holds the identification map entry of port 9, routing ID 0x100, for partition 1. -/
def mapped (s : State) : State := s.modWin (fun w => { w with bank0 := [(winKey 3 0 5, idEntry 1 9 0x100 8 0x300)] })

/-- The same with bus number 5 below the bridge. -/
def hvBus (v : Vdsp) : State := (hv v).modVs 1 (fun x => { x with bridge := [(0x18, 0x060500)] })

/-! ## Fabric links -/

/-- Link 15 changed by `f`. -/
def lk (f : Link → Link) : State := svc.modLink 15 f

/-- Twenty pairs received on a lane that carries transmit lane `n`, the first four of them with the marker where it is expected. -/
def lanePairs (n : Nat) : List PairRx := List.replicate 20 { marker := BitVec.ofNat 40 (lanePattern + n * 2 ^ 24) }

/-- A peer's training record that answers an echo. -/
def echoed : TrainRec := { module := 3, lanesOk := 15, echoRsp := true }

/-- One staged invalidation of a host window. -/
def staged : State := svc.modWin (fun w => { w with staging := [(0, [{ inval := true, index := 5 }])] })

/-- A spilled packet, and a packet that has crossed the core to link 15. -/
def spilled0 : QPkt := { pkt := { src := 39, dst := 55, tc := 6 }, place := .spilled }
def toLink15 : QPkt := { pkt := { src := 39, dst := 55, tc := 7 }, out := some 0 }

/-- A flit on link 15 is one the other end has sent. -/
theorem sent_crc (f : Flit) : flitCrcOk f.bytes = true := f.bytes_crcOk

/-- Link 15 up, module 3 admitted behind it. -/
def fab (f : Link → Link := id) : State :=
  (svc.modLink 15 (fun k => f { k with st := .up, peerModule := 3 })).modAdm 3 (fun a => { a with st := .admitted })

/-- The fabric with a route to module 3 over link 15. -/
def routed : State := (fab).modRoute 3 (fun r => { r with entry := BitVec.ofNat 64 (1 + 2 ^ 8 + 15 * 2 ^ 12) })

/-- A packet of module 3 with fabric address `a`. -/
def from3 (ptype : Nat) (a : Word) (hops : Nat := 0) : Pkt := { smod := 3, ptype := ptype, hops := hops, desc := ({ faddr := a, opc := opcMWr } : Desc).encode }

/-- The pool with 64 sods, sod 7 changed by `f`. -/
def pooled (f : Sod → Sod := id) : State :=
  svc.modPool (fun p => { p with present := true, total := 64, wide := 20, reserve := 16, spillSods := 16, sods := [(7, f { st := .assigned, kind := 1 })] })

/-- A fence of handle `h` that nothing holds back. -/
def fence1 (h : Nat) : PFence := { id := 4, sods := [7], handle := h }

/-! ## Retort -/

/-- A group descriptor: role, root module, 2^3 chunks in flight, two local slots, 2,000 elements of FP32. -/
def gdesc (role root : Nat) (mask : Nat := 0) : Nat :=
  role * 2 ^ 19 + root * 2 ^ 21 + 3 * 2 ^ 38 + 2 * 2 ^ 42 + 2000 * 2 ^ 64 + mask * 2 ^ 192

/-- An active instance; slot 1 is read from sod 7. -/
def inst1 (role root : Nat) (mask : Nat := 0) : RtInst :=
  { desc := BitVec.ofNat 256 (gdesc role root mask), st := .active, gen := 5
    parts := [(0, { defined := true }), (1, { defined := true, entry := BitVec.ofNat 128 (2 ^ 64 + 7 * 2 ^ 30) })] }

/-- Group 4095 has the instance. -/
def withInst (i : RtInst) (s : State := svc) : State := s.setInst 4095 i

/-! ## Ethernet -/

/-- Logical port 28, enabled and up, changed by `f`. -/
def lport28 (f : LPort → LPort := id) : State := svc.modLport 28 (fun l => f { l with enabled := true, linkUp := true })

/-- Function 1023 of two queue pairs at logical port 28, its second pair as given. -/
def nic (k : Qp) (s : State := svc) : State := s.setVnic 1023 { lport := 28, nqp := 2, qps := [(1, k)] }

/-- A frame of `n` bytes with an EtherType. -/
def frameOf (n ty : Nat) : Bytes := List.replicate 12 2 ++ beBytes 2 ty ++ List.replicate (n - 14) 7

/-- A frame that waits for a receive descriptor of that pair. -/
def toNic : Pkt := { dst := 63, desc := BitVec.ofNat 256 (1023 * 2 ^ 160 + 2 ^ 154) }

/-- A transmit descriptor of 60 bytes, the last of its packet. -/
def eopRaw : TxRaw := { desc := List.replicate 8 0 ++ [60, 0, 1] }

/-! ## Hearth -/

/-- Cluster 3 owns sod 7 and runs; its core 7 runs, changed by `f`. -/
def hrun (f : HCore → HCore := id) : State :=
  (sodded).modCluster 3 (fun x => { x with st := .running, part := 2, cores := [(7, f { running := true })] })

theorem l2_or (s : State) (c k : Nat) : s.l2Access c k = s.freeBit.2.coreEvent c k 0x15 1 ∨ s.l2Access c k = s.freeBit.2 := by
  simp only [State.l2Access]
  split
  · exact .inl rfl
  · exact .inr rfl

/-- The state in which an atomic access of core 7 reaches the pool. -/
def atPool (f : HCore → HCore := id) : State := ((hrun f).drainAll 3 7).l2Access 3 7

/-- Sod 7 with its first line poisoned. -/
def poisoned7 : State := (hrun).modPool (fun p => { p with poisoned := [poolKey 7 0 / 64] })

/-- A chip whose debug access is locked. -/
def shut (s : State) : State := { s with nv := { s.nv with lifeCopies := [1, 1, 1] } }

theorem some_getD {α : Type} {o : Option α} (d : α) (h : o.isSome = true) : o = some (o.getD d) := by
  cases o with
  | none => exact nomatch h
  | some x => rfl

/-! ## Faults -/

/-- Development life cycle with the test strap set. -/
def bench : State := { svc with nv := { svc.nv with lifeCopies := [0, 0, 0] }, boot := { svc.boot with straps := { svc.boot.straps with testMode := true } } }

/-! ## Reset, power and counters -/

/-- The boot state changed by `f`. -/
def boots (f : Boot → Boot) (s : State := svc) : State := { s with boot := f s.boot }

/-- Waiting for a host's image, its address and size as given. -/
def awaiting (bytes : List (Nat × BitVec 8)) : State :=
  (boots (fun b => { b with phase := .hostDownload }) (opened 0)).modPage 0 (fun g => { g with cmdBuf := bytes })

/-- The host of partition 0 may be read. -/
def mastered (s : State) : State := s.modVs 0 (fun v => { v with mgmt := { v.mgmt with busMaster := true } })

/-- The power state changed by `f`. -/
def powered (f : Power → Power) : State := { svc with pwr := f svc.pwr }

theorem leNat_serial : leNat (leBytes 16 Config.serial.toNat) = Config.serial.toNat := by
  rw [leNat_leBytes]; exact Nat.mod_eq_of_lt Config.serial.isLt

/-- RMA_UNLOCK of this chip with the challenge 0. -/
def rmaReq : Req := req 160 ([0x4D, 0x52, 0x56, 0x4B] ++ List.replicate 12 0 ++ leBytes 16 Config.serial.toNat)

theorem rma_serial : rmaReq.field 16 0x30 = Config.serial.toNat := leNat_serial

/-- Block `b` is offline and tests its logic. -/
def testing (b : Nat) : State := svc.modBist b (fun t => { t with st := 1, kind := 2 })

theorem succ_ne (m : BitVec 32) : BitVec.ofNat 32 ((m.toNat + 1) % 4294967296) ≠ m := by
  intro h
  have := congrArg BitVec.toNat h
  simp at this
  omega

/-- `Obligations.AnswerFrame`: an answer that still waits. -/
theorem wit_AnswerFrame_waits : ∃ a : Ans, a.wait ≠ none := ⟨{ wait := some (.drain 0) }, by decide⟩

/-! ## WellFormed refuses -/

theorem wf_txRaw : TxRaw.wf { desc := List.replicate 31 0 } = false := by decide
theorem wf_optBelow : optBelow 32 (some 32) = false := by decide
theorem wf_accessSize : accessSize 3 = false := by decide
theorem wf_path_page : Path.wf (.page 32) = false := by decide
theorem wf_path_hearth : Path.wf (.hearth 4) = false := by decide
theorem wf_path_relay : Path.wf (.relay 64) = false := by decide
theorem wf_req_flags : Req.wf { flags := 2 ^ 16 } = false := by decide
theorem wf_req_target : Req.wf { target := 256 } = false := by decide
theorem wf_req_length : Req.wf { length := 2 ^ 32 } = false := by decide
theorem wf_req_payload : Req.wf { payload := List.replicate 4065 0 } = false := by decide +kernel
theorem wf_linkAlign : LinkAlign.wf { rx := [] } = false := by decide
theorem wf_laneRun : LaneRun.wf { lane := 4 } = false := by decide
theorem wf_perstPulse : PerstPulse.wf { port := 40 } = false := by decide
theorem wf_flit : Flit.wf { vc := 8 } = false := by decide
theorem wf_trainRec : TrainRec.wf { turnNs := 65536 } = false := by decide
theorem wf_memReq : MemReq.wf { tag := 2 ^ 14 } = false := by decide
theorem wf_cfgReq : CfgReq.wf { reg := 2 } = false := by decide
theorem wf_pkt : Pkt.wf { colour := 3 } = false := by decide
theorem wf_engPkt : EngPkt.wf { group := 4096 } = false := by decide
theorem wf_lostTarget : LostTarget.wf (.port 40) = false := by decide
theorem wf_clkDom : ClkDom.wf (.station 10) = false := by decide
theorem wf_regSpace : RegSpace.wf (.vnic 1024) = false := by decide
theorem wf_poolAcc : PoolAcc.wf (.direct .ember 8192 0 (.read 4)) = false := by decide
theorem wf_instr_page : Instr.wf (.go 36 false) = false := by decide
theorem wf_instr_flit : Instr.wf (.flitReceived 0 [] [] true 0) = false := by decide
theorem wf_instr_load : Instr.wf (.load 0 0 32 0 8 false []) = false := by decide
theorem wf_instr_kfence : Instr.wf (.kfence 0 0 51) = false := by decide
theorem wf_instr_command : Instr.wf (.nop (.page 32) {}) = false := by decide

/-! ## The specification's worked examples -/

/-- 01_architecture.md, the peer write: descriptor and 1,024 bytes fill 5 cells, the last of them 32 bytes. -/
theorem test_peer_write_cells : Pkt.cells { data := List.replicate 1024 0 } = 5 ∧
    cellValid { data := List.replicate 1024 0 } 4 = 32 := by decide +kernel

/-- 04_windows_sharing.md, the host window of partition 4 onto sods 64 to 79 of module 2. -/
def win64 : Entry := BitVec.ofNat _ (0x2000000000000000 * 2 ^ 128 + 0x0800001000000007 * 2 ^ 64 + 0x0000008000000889)
theorem test_window_faddr : eSize win64 = 34 ∧ eOwner win64 = 4 ∧ winHit win64 0x8234567000 = true ∧
    winFaddr win64 0x8234567000 = 0x0800001234567000 := by decide

/-- 06_ndofin_links.md: RTT 124 ns at x4 and rate 112 asks for 34 slots. -/
theorem test_headroom : headroom 124 4 2 = 34 := by decide

/-- 08_memory_pool.md: the pool of 2,048 sods with W 1,024. -/
def pool2048 : PoolSt := { State.reset.pool with present := true, total := 2048, wide := 1024, reserve := 16, spillSods := 16 }
theorem test_contained_channel : pool2048.channel 1300 0x12345678 = 6 ∧ pool2048.chanAddr 1300 0x12345678 = 0x11448D1578 := by decide
theorem test_wide_channel : pool2048.channel 17 0x1450 = 4 ∧ pool2048.chanAddr 17 0x1450 = 0x44000150 := by decide

/-- 10_network.md: headroom of a 100 Gb/s port with MAX_FRAME 9,216. -/
theorem test_pfc_headroom : LPort.headroom { maxFrame := 9216, cableNs := 15, peerNs := 1000 } 100 = 35057 := by decide

/-- 12_hearth.md: MPU region 3 over the cluster's second sod, for loads and stores of U-mode. -/
theorem test_mpu_region : Mpu.covers { addr := 0x080040000000, cfg := 0x5E03 } 0x08007FFFFFFC = true ∧
    Mpu.covers { addr := 0x080040000000, cfg := 0x5E03 } 0x080080000000 = false := by decide
theorem test_split_store : cut64 0x08007FFFFFFC 8 = [(0x08007FFFFFFC, 4), (0x080080000000, 4)] := by decide

/-- 14_faults.md: source 2 of plane P2 is of class degraded, and the row that adds BLOCK_RESET is valid. -/
theorem test_plane_row : reactionValid 0x24 2 0x53 = true ∧ faultClass 1154 = some 2 := by decide

/-- 16_power.md: C_HOLD must be at least 1,642 uF at the default V_WARN. -/
theorem test_hold_need : holdNeed 38000 = 1642 := by decide

/-- 18_test_ageing.md: a usage of 0.841 leaves a budget of 50 %, one of 0.56 of 90 %. -/
theorem test_budget : budgetOf (841, 1000) = 50 ∧ budgetOf (56, 100) = 90 := by decide

/-! ## Single steps -/

/-- R66: a payload length that is no multiple of 4 bytes. -/
theorem test_bad_length : (runCmd cmdNop .sideband 0 (req 3) svc).status = rcBadLength := by decide +kernel
/-- R67: the reserved bits of FLAGS name their offset. -/
theorem test_bad_flags : (runCmd cmdNop .sideband 0 { req 0 with flags := 4 } svc).detail = 2 := by decide +kernel
/-- R27, R154: a packet whose data ends with the first cell has one cell. -/
theorem test_one_cell : Pkt.cells { data := List.replicate 224 0 } = 1 ∧ Pkt.cells { data := List.replicate 225 0 } = 2 := by decide +kernel
/-- R400: a KFENCE with a reserved scope is an illegal instruction. -/
theorem test_kfence_scope : kfenceOk (11 + 2 ^ 29) = true ∧ kfenceOk (11 + 3 * 2 ^ 28) = false := by decide
/-- The command in front of the queue runs on the state with the rest of the queue. -/
theorem test_queue : Machine.step { svc with pending := [.nop .sideband (req 0), .sweep 0] } =
    exec (.nop .sideband (req 0)) { svc with pending := [.sweep 0] } := by rfl

/-! ## The statements' hypotheses are met -/

/-- Hypotheses of `Obligations.EmptyQueueIsOneTick` are met. -/
theorem wit_EmptyQueueIsOneTick :
    (∃ s : State, s.pending = []) ∧
    (∃ s : State, s.pending = [] ∧ s.boot.phase = .off) :=
  ⟨⟨svc, by decide +kernel⟩,
   ⟨{ State.reset with boot := { State.reset.boot with phase := .off } }, by decide +kernel⟩⟩

/-- Hypotheses of `Obligations.StepKeepsPoolMemoryCanonical` are met. -/
theorem wit_StepKeepsPoolMemoryCanonical :
    (∃ s t : State, Memory.wf 0 s.pool.mem = true ∧ step s = .next t) :=
  ⟨{ State.reset with boot := { State.reset.boot with phase := .off } }, { State.reset with boot := { State.reset.boot with phase := .off } }, by decide +kernel, rfl⟩

/-- Hypotheses of `Obligations.QuietStateStaysAsItIs` are met. -/
theorem wit_QuietStateStaysAsItIs :
    (∃ s t : State, t.Calm) :=
  ⟨State.reset, State.reset, by constructor <;> decide +kernel⟩

/-- Hypotheses of `Obligations.HeadroomFigure` are met. -/
theorem wit_HeadroomFigure :
    (∃ rtt width rate : Nat, 0 < width) :=
  ⟨100, 4, 112, by decide +kernel⟩

/-- Hypotheses of `Obligations.XoffFollowsFreeSlots` are met. -/
theorem wit_XoffFollowsFreeSlots :
    (∃ (s : State) (l v : Nat) (f : Flit), let k := (s.rxRefresh l).link l; v < 8 ∧ k.privateFree v < k.h) ∧
    (∃ (s : State) (l v : Nat) (f : Flit), let k := (s.rxRefresh l).link l; v < 8 ∧ ¬ k.privateFree v < k.h ∧ Nat.min (k.h + 8) k.p ≤ k.privateFree v) ∧
    (∃ (s : State) (l v : Nat) (f : Flit), let k := (s.rxRefresh l).link l; v < 8 ∧ ¬ k.privateFree v < k.h ∧ k.privateFree v < Nat.min (k.h + 8) k.p) :=
  ⟨⟨svc.modLink 3 (fun k => { k with h := 49 }), 3, 7, {}, by decide +kernel⟩,
   ⟨svc, 3, 0, {}, by decide +kernel⟩,
   ⟨svc.modLink 3 (fun k => { k with h := 40, rx := [(0, { id := 7, units := [0], slots := [{ ids := [7] }] })] }), 3, 0, {}, by decide +kernel⟩⟩

/-- Hypotheses of `Obligations.SmoulderAcceptsOnlyItsOpcodes` are met. -/
theorem wit_SmoulderAcceptsOnlyItsOpcodes :
    (∃ (k : Cmd) (c : Path) (p : Nat) (q : Req) (s : State), s.ember.smoulder = true ∧ q.length ≤ 4064 ∧ q.length % 4 = 0 ∧ headerFault q = none ∧ k.op ≠ cmdNop.op ∧ k.op ≠ cmdDeviceInfo.op ∧ k.op ≠ cmdGetOpStatus.op ∧ k.op ≠ cmdWarmReset.op ∧ k.op / 256 ≠ 0x0C) ∧
    (∃ (k : Cmd) (c : Path) (p : Nat) (q : Req) (s : State), s.ember.smoulder = true ∧ q.length ≤ 4064 ∧ q.length % 4 = 0 ∧ headerFault q = none ∧ (q.onBehalf = true → p = 0) ∧ k.allowed (whoOf c p q) q s = true ∧ k.lenOk q = true ∧ (k.op = cmdNop.op ∨ k.op = cmdDeviceInfo.op ∨ k.op = cmdGetOpStatus.op ∨ k.op = cmdWarmReset.op ∨ k.op / 256 = 0x0C)) :=
  ⟨⟨cmdCoreGetStatus, .sideband, 0, req 0, svc.modEmber (fun e => { e with smoulder := true }), by decide +kernel⟩,
   ⟨cmdFwGetStatus, .sideband, 0, req 0, svc.modEmber (fun e => { e with smoulder := true }), by decide +kernel⟩⟩

/-- Hypotheses of `Obligations.PowerControlWhileContained` are met. -/
theorem wit_PowerControlWhileContained :
    (∃ (s : State) (p k : Nat) (off : Bool), s.working ∧ k < (s.vs p).vdspCount ∧ ((s.vdsp p k).st = .contained ∨ (s.vdsp p k).st = .removing)) ∧
    (∃ (s : State) (p k : Nat), s.working ∧ k < (s.vs p).vdspCount ∧ (s.vdsp p k).st = .contained ∧ ((s.vdsp p k).kind = 1 ∧ ((s.dpcRelease (s.vdsp p k).port).port (s.vdsp p k).port).dpc = true ∨ (s.vdsp p k).kind = 2 ∧ (s.port (s.vdsp p k).port).dpc = true)) :=
  ⟨⟨(svc.modVs 1 (fun v => { v with vdspCount := 2 })).modVdsp 1 1 (fun v => { v with st := .contained }), 1, 1, true, by show State.inService _ = true; decide +kernel, by decide +kernel⟩,
   ⟨((svc.modVs 1 (fun v => { v with vdspCount := 2 })).modVdsp 1 1 (fun v => { v with st := .contained, kind := 2, port := 9 })).modPort 9 (fun p => { p with dpc := true }), 1, 1, by show State.inService _ = true; decide +kernel, by decide +kernel⟩⟩

/-- Hypotheses of `Obligations.GateEngineHasOneOwner` are met. -/
theorem wit_GateEngineHasOneOwner :
    (∃ (w : Who) (q : Req) (s : State), (cmdTmGateSet.body w q s).status ≠ rcBadField ∧ s.iso.strict = true) ∧
    (∃ (w : Who) (q : Req) (s : State), (cmdStrictSet.body w q s).status ≠ rcBadField ∧ q.u8 0x20 = 1 ∧ s.iso.strict = false ∧ s.userSchedule = true) :=
  ⟨⟨{}, req 8, { svc with iso := { svc.iso with strict := true } }, by decide +kernel⟩,
   ⟨{}, req 8 [1], { svc with tm := { svc.tm with gates := [(0, { oper := some {} })] } }, by decide +kernel⟩⟩

/-- Hypotheses of `Obligations.PoolChannelInterleave` are met. -/
theorem wit_PoolChannelInterleave :
    (∃ (p : PoolSt) (n b : Nat), n < p.wide) ∧
    (∃ (p : PoolSt) (n b : Nat), ∃ (m : Nat) (i : Nat), m < 4 ∧ i < p.contained ∧ n = p.wide + m * p.contained + i) ∧
    (∃ (p : PoolSt) (n b : Nat), ∃ j : Nat, n < p.wide ∧ j < 1024) :=
  ⟨⟨{ total := 64, wide := 4 }, 3, 5000, by decide +kernel⟩,
   ⟨{ total := 64, wide := 4 }, 63, 5000, 3, 14, by decide +kernel⟩,
   ⟨{ total := 64, wide := 4 }, 3, 7, 1023, by decide +kernel⟩⟩

/-- Hypotheses of `Obligations.SpecialValuesOfSum` are met. -/
theorem wit_SpecialValuesOfSum :
    (∃ (n : Nat) (rz sat : Bool) (l : List Nat), let f := fmtOf n; let S : Int := (l.map (fun r => (f.elem r).sum)).sum; n < 6 ∧ l ≠ [] ∧ n = 5 ∧ 0x7FFFFFFF < S) ∧
    (∃ (n : Nat) (rz sat : Bool) (l : List Nat), let f := fmtOf n; let S : Int := (l.map (fun r => (f.elem r).sum)).sum; n < 6 ∧ l ≠ [] ∧ n = 5 ∧ S < -0x80000000) ∧
    (∃ (n : Nat) (rz sat : Bool) (l : List Nat), let f := fmtOf n; let S : Int := (l.map (fun r => (f.elem r).sum)).sum; n < 6 ∧ l ≠ [] ∧ n = 5 ∧ -0x80000000 ≤ S ∧ S ≤ 0x7FFFFFFF) ∧
    (∃ (n : Nat) (rz sat : Bool) (l : List Nat), let f := fmtOf n; let nan := ∃ r ∈ l, f.isNan r = true; let pinf := ∃ r ∈ l, f.isInf r = true ∧ f.neg r = false; let ninf := ∃ r ∈ l, f.isInf r = true ∧ f.neg r = true; n < 6 ∧ l ≠ [] ∧ n < 5 ∧ nan ∧ (¬ (pinf ∧ ninf))) ∧
    (∃ (n : Nat) (rz sat : Bool) (l : List Nat), let f := fmtOf n; let nan := ∃ r ∈ l, f.isNan r = true; let pinf := ∃ r ∈ l, f.isInf r = true ∧ f.neg r = false; let ninf := ∃ r ∈ l, f.isInf r = true ∧ f.neg r = true; n < 6 ∧ l ≠ [] ∧ n < 5 ∧ ¬ nan ∧ pinf ∧ ninf) ∧
    (∃ (n : Nat) (rz sat : Bool) (l : List Nat), let f := fmtOf n; let nan := ∃ r ∈ l, f.isNan r = true; let pinf := ∃ r ∈ l, f.isInf r = true ∧ f.neg r = false; let ninf := ∃ r ∈ l, f.isInf r = true ∧ f.neg r = true; n < 6 ∧ l ≠ [] ∧ n < 5 ∧ ¬ nan ∧ pinf ∧ ¬ ninf) ∧
    (∃ (n : Nat) (rz sat : Bool) (l : List Nat), let f := fmtOf n; let nan := ∃ r ∈ l, f.isNan r = true; let pinf := ∃ r ∈ l, f.isInf r = true ∧ f.neg r = false; let ninf := ∃ r ∈ l, f.isInf r = true ∧ f.neg r = true; n < 6 ∧ l ≠ [] ∧ n < 5 ∧ ¬ nan ∧ ¬ pinf ∧ ninf) ∧
    (∃ (n : Nat) (rz sat : Bool) (l : List Nat), let f := fmtOf n; let S : Int := (l.map (fun r => (f.elem r).sum)).sum; let nan := ∃ r ∈ l, f.isNan r = true; let pinf := ∃ r ∈ l, f.isInf r = true ∧ f.neg r = false; let ninf := ∃ r ∈ l, f.isInf r = true ∧ f.neg r = true; n < 6 ∧ l ≠ [] ∧ n < 5 ∧ ¬ nan ∧ ¬ pinf ∧ ¬ ninf ∧ S = 0 ∧ (∀ r ∈ l, f.neg r = true ∧ f.mag r = 0)) ∧
    (∃ (n : Nat) (rz sat : Bool) (l : List Nat), let f := fmtOf n; let S : Int := (l.map (fun r => (f.elem r).sum)).sum; let nan := ∃ r ∈ l, f.isNan r = true; let pinf := ∃ r ∈ l, f.isInf r = true ∧ f.neg r = false; let ninf := ∃ r ∈ l, f.isInf r = true ∧ f.neg r = true; n < 6 ∧ l ≠ [] ∧ n < 5 ∧ ¬ nan ∧ ¬ pinf ∧ ¬ ninf ∧ S = 0 ∧ (¬ (∀ r ∈ l, f.neg r = true ∧ f.mag r = 0))) ∧
    (∃ (n : Nat) (rz sat : Bool) (l : List Nat), let f := fmtOf n; let S : Int := (l.map (fun r => (f.elem r).sum)).sum; let nan := ∃ r ∈ l, f.isNan r = true; let pinf := ∃ r ∈ l, f.isInf r = true ∧ f.neg r = false; let ninf := ∃ r ∈ l, f.isInf r = true ∧ f.neg r = true; n < 6 ∧ l ≠ [] ∧ n < 5 ∧ ¬ nan ∧ ¬ pinf ∧ ¬ ninf ∧ S ≠ 0 ∧ f.value f.maxFin < f.roundMag rz S.natAbs) :=
  ⟨⟨5, true, true, [0x7FFFFFFF, 1], by decide +kernel⟩,
   ⟨5, false, false, [0x80000000, 0x80000000], by decide +kernel⟩,
   ⟨5, false, false, [0x7FFFFFFF, 0x80000000], by decide +kernel⟩,
   ⟨0, false, false, [0x7FC00001, 0x3F800000], by decide +kernel⟩,
   ⟨1, false, false, [0x7F80, 0xFF80], by decide +kernel⟩,
   ⟨2, true, false, [0x7C00, 0x0001], by decide +kernel⟩,
   ⟨4, false, true, [0xFC, 0x01], by decide +kernel⟩,
   ⟨0, false, false, [0x80000000, 0x80000000], by decide +kernel⟩,
   ⟨3, false, false, [0x80, 0x00], by decide +kernel⟩,
   ⟨3, true, true, [0x7E, 0x7E], by decide +kernel⟩⟩

/-- Hypotheses of `Obligations.SumIgnoresOrderAndShape` are met. -/
theorem wit_SumIgnoresOrderAndShape :
    (∃ (n : Nat) (l l₁ l₂ : List Nat), l.Perm (l₁ ++ l₂)) :=
  ⟨0, [1, 2, 3], [3, 1], [2], by decide +kernel⟩

/-- Hypotheses of `Obligations.EventRingInOrder` are met. -/
theorem wit_EventRingInOrder :
    (∃ (s : State) (p : Nat) (r : EvRec), let g := s.ring p; (g.ringEn = false ∨ bit (g.vectorOf r.id) 7 = false)) ∧
    (∃ (s : State) (p : Nat) (r : EvRec), let g := s.ring p; g.ringEn = true ∧ bit (g.vectorOf r.id) 7 = true ∧ (g.prod + 65536 - g.cons) % 65536 = 4096) ∧
    (∃ (s : State) (p : Nat) (r : EvRec), let g := s.ring p; ∃ (i : Nat), g.ringEn = true ∧ bit (g.vectorOf r.id) 7 = true ∧ (g.prod + 65536 - g.cons) % 65536 ≠ 4096 ∧ i ≠ g.prod % 4096) :=
  ⟨⟨svc.modRing 31 (fun g => { g with ringEn := false }), 31, { id := 0x800 }, by decide +kernel⟩,
   ⟨svc.modRing 3 (fun g => { g with ringEn := true, prod := 4096 }), 3, { id := 0x800 }, by decide +kernel⟩,
   ⟨svc.modRing 3 (fun g => { g with ringEn := true, prod := 4095 }), 3, { id := 0x800 }, 0, by decide +kernel⟩⟩

/-- Hypotheses of `Obligations.MailboxEventsTakeEffect` are met. -/
theorem wit_MailboxEventsTakeEffect :
    (∃ (s : State) (pg : Nat) (ack : Bool), s.dieUp = true ∧ s.pageOpen pg = true ∧ s.boot.phase ≠ .hostDownload ∧ (s.page pg).st = .idle ∧ ack = false) ∧
    (∃ (s : State) (pg : Nat), s.dieUp = true ∧ s.pageOpen pg = true ∧ s.boot.phase ≠ .hostDownload ∧ (s.page pg).st ≠ .idle) ∧
    (∃ (s : State) (pg : Nat), s.dieUp = true ∧ s.pageOpen pg = true) ∧
    (∃ (s : State) (part a : Nat), s.dieUp = true ∧ s.ember.fwReady = true ∧ tlook s.ember.running part = none ∧ s.ember.arrivals.find? (fun x => s.partOf (posPath x) == some part) = some a ∧ a < 64) ∧
    (∃ (s : State) (part a : Nat) (m : QCmd), s.dieUp = true ∧ s.ember.fwReady = true ∧ tlook s.ember.running part = none ∧ s.ember.arrivals.find? (fun x => s.partOf (posPath x) == some part) = some a ∧ 64 ≤ a ∧ tlook s.ember.msgQ a = some m) ∧
    (∃ (s : State) (p off size : Nat) (v : Word), s.dieUp = true ∧ s.barsOpen p = true ∧ off < 0x20000) ∧
    (∃ (s : State) (f off size : Nat) (v : Word) (x : Vnic), s.dieUp = true ∧ s.vnic f = some x ∧ x.memEn = true ∧ x.d3 = false) ∧
    (∃ (s : State) (c off size : Nat) (v : Word) (t : State), s.dieUp = true ∧ c < 4 ∧ off < 2 ^ 20 ∧ s.localWrite (c * 2 ^ 20 + off) size v.toNat = some t) ∧
    (∃ (s : State) (c : Path) (tag : Nat) (body : Bytes), s.dieUp = true ∧ s.mctpAnswers c = true ∧ 36 ≤ body.length ∧ slice body 0 1 = [0x7E] ∧ beNat (slice body 1 2) = Config.vendorId.toNat ∧ slice body 3 1 = [1] ∧ s.eidReady c = true ∧ s.ember.arrivals.contains (posOf c) = false) ∧
    (∃ (s : State) (op eid : Nat), s.dieUp = true ∧ s.mctpAnswers .sideband = true ∧ op ≤ 1 ∧ 0 < eid ∧ eid < 255) ∧
    (∃ (s : State) (c : Path), s.dieUp = true ∧ s.mctpAnswers c = true) ∧
    (∃ (s : State) (addr : Nat), s.boot.phase ≠ .off) ∧
    (∃ s : State, s.dieUp = true ∧ s.pldmAnswers = true) ∧
    (∃ s : State, s.dieUp = true ∧ s.pldmAnswers = true) ∧
    (∃ s : State, s.dieUp = true ∧ s.pldmAnswers = true) ∧
    (∃ s : State, ∃ (i : Nat) (v : Nat), s.dieUp = true ∧ s.pldmAnswers = true ∧ s.pwr.tele.reading i = some v) ∧
    (∃ (s : State) (sub : Nat), s.boot.pendingReset = some sub) ∧
    (∃ (s : State) (x : Xfer), s.dieUp = true ∧ s.ember.xfer = some x ∧ x.op = .erase) ∧
    (∃ (s : State) (x : Xfer), s.dieUp = true ∧ s.ember.xfer = some x ∧ x.op = .verify) :=
  ⟨⟨opened 31, 31, false, by decide +kernel⟩,
   ⟨(opened 31).modPage 31 (fun g => { g with st := .done }), 31, by decide +kernel⟩,
   ⟨opened 31, 31, by decide +kernel⟩,
   ⟨(opened 31).modEmber (fun e => { e with arrivals := [31] }), 31, 31, by decide +kernel⟩,
   ⟨svc.modEmber (fun e => { e with arrivals := [96], msgQ := [(96, {})] }), 0, 96, {}, by decide +kernel⟩,
   ⟨opened 31, 31, 0x1FFFC, 4, 5, by decide +kernel⟩,
   ⟨svc.setVnic 1023 { memEn := true }, 1023, 0, 4, 5, { memEn := true }, by decide +kernel⟩,
   ⟨svc, 3, 0xFFFFC, 4, 5, _, by decide +kernel, by decide +kernel, by decide +kernel, rfl⟩,
   ⟨svcEid.modVs 0 (fun v => { v with up := some 0 }), .vdm 0, 1, msgHead ++ List.replicate 32 0, by decide +kernel, by decide +kernel, by simp [msgHead], rfl, vendor_bytes, rfl, by decide +kernel, by decide +kernel⟩,
   ⟨svc, 0, 254, by decide +kernel⟩,
   ⟨svc, .sideband, by decide +kernel⟩,
   ⟨State.reset, 0, by decide +kernel⟩,
   ⟨svcEid, by decide +kernel⟩,
   ⟨svcEid, by decide +kernel⟩,
   ⟨svcEid, by decide +kernel⟩,
   ⟨svcEid, 16, _, by decide +kernel, by decide +kernel, rfl⟩,
   ⟨svc.modBoot (fun b => { b with pendingReset := some 2 }), 2, by decide +kernel⟩,
   ⟨svc.modEmber (fun e => { e with xfer := some { op := .erase } }), { op := .erase }, by decide +kernel⟩,
   ⟨svc.modEmber (fun e => { e with xfer := some xfer1v }), xfer1v, by decide +kernel⟩⟩

/-- Hypotheses of `Obligations.DeviceCommandsComplete` are met. -/
theorem wit_DeviceCommandsComplete :
    (∃ (s : State) (c : Path) (p : Nat) (q : Req), s.serves cmdNop c p q) ∧
    (∃ (s : State) (c : Path) (p : Nat) (q : Req), s.serves cmdDeviceInfo c p q) ∧
    (∃ (s : State) (c : Path) (p : Nat) (q : Req) (h : Handle), s.serves cmdGetOpStatus c p q ∧ q.zero 0x24 4 = true ∧ s.ember.handles.find? (fun h => handleNumber h.id == q.u32 0x20 && h.part == (whoOf c p q).subject) = some h ∧ h.running = false) ∧
    (∃ (s : State) (c : Path) (p : Nat) (q : Req), s.serves cmdWarmReset c p q ∧ 10 ≤ q.u32 0x20 ∧ q.u32 0x20 ≤ 10000) ∧
    (∃ (s : State) (d : Nat), s.boot.announce = some d) ∧
    (∃ (s : State) (c : Path) (p : Nat) (q : Req), s.serves cmdCoreGetStatus c p q) ∧
    (∃ (s : State) (c : Path) (p : Nat) (q : Req), let v := q.u16 0x20; let w := (List.range 8).map (fun i => q.u8 (0x28 + i)); let d := (List.range 8).map (fun i => q.u8 (0x30 + i)); s.serves cmdCoreSetConfig c p q ∧ v < 32 ∧ v ≠ 0 ∧ namedOk (bit v 0) (q.u8 0x22) (q.u8 0x22 < 128) = true ∧ q.zero 0x23 1 = true ∧ namedOk (bit v 1) (q.u32 0x24) (q.u32 0x24 < 2 ^ 24) = true ∧ (∀ i < 8, namedOk (bit v 2) (lget 0 w i) (if i = 7 then lget 0 w i == 0 else lget 0 w i != 0) = true) ∧ (∀ i < 8, namedOk (bit v 3) (lget 0 d i) (lget 0 d i == 255 || (i != 7 && decide (lget 0 d i < 16))) = true) ∧ (namedOk (bit v 4) (q.u8 0x38) (1 ≤ q.u8 0x38 ∧ q.u8 0x38 ≤ 32) = true) ∧ (namedOk (bit v 4) (q.u8 0x39) (q.u8 0x38 ≤ q.u8 0x39 ∧ q.u8 0x39 ≤ 48) = true) ∧ q.zero 0x3A 6 = true) ∧
    (∃ (s : State) (c : Path) (p : Nat) (q : Req), s.serves cmdHearthCtl c p q ∧ q.u8 0x20 < 4 ∧ q.u8 0x21 = 1 ∧ q.u8 0x22 < 32 ∧ q.u8 0x23 ≠ 0 ∧ q.zero 0x24 4 = true ∧ s.pcOk (q.u8 0x20) (q.u64 0x28) = true ∧ (s.cluster (q.u8 0x20)).st = .stopped ∧ s.masked (0x2E + q.u8 0x20) = false) ∧
    (∃ (s : State) (c : Path) (p : Nat) (q : Req), s.serves cmdFwGetStatus c p q) ∧
    (∃ (s : State) (c : Path) (p : Nat) (q : Req), s.serves cmdFwBegin c p q ∧ q.u8 0x20 ≤ 1 ∧ q.zero 0x21 3 = true ∧ 4 ≤ q.u32 0x24 ∧ q.u32 0x24 ≤ 0x03000000 ∧ q.u32 0x24 % 4 = 0 ∧ s.runningSlot ≠ some (q.u8 0x20) ∧ s.ember.xfer = none ∧ s.handleFree (whoOf c p q).caller = true) ∧
    (∃ (s : State) (c : Path) (p : Nat) (q : Req) (x : Xfer), s.serves cmdFwWrite c p q ∧ s.ember.xfer = some x ∧ x.slot = q.u8 0x20 ∧ q.zero 0x21 3 = true ∧ q.u32 0x24 = x.ptr ∧ 4 ≤ q.u32 0x28 ∧ q.u32 0x28 ≤ 4048 ∧ q.u32 0x28 % 4 = 0 ∧ x.ptr + q.u32 0x28 ≤ x.size ∧ q.zero 0x2C 4 = true ∧ x.owner = p ∧ x.path = c ∧ x.op ≠ .verify ∧ x.erased = true) ∧
    (∃ (s : State) (c : Path) (p : Nat) (q : Req) (x : Xfer), s.serves cmdFwFinish c p q ∧ s.ember.xfer = some x ∧ x.slot = q.u8 0x20 ∧ q.zero 0x21 3 = true ∧ x.owner = p ∧ x.path = c ∧ x.op ≠ .verify ∧ x.erased = true ∧ s.handleFree (whoOf c p q).caller = true) ∧
    (∃ (s : State) (c : Path) (p : Nat) (q : Req), s.serves cmdFwActivate c p q ∧ q.u8 0x20 ≤ 1 ∧ (s.nv.slot (q.u8 0x20)).st = .valid ∧ q.u8 0x21 = 1 ∧ q.u8 0x22 = 0 ∧ q.zero 0x23 1 = true) :=
  ⟨⟨svc, .sideband, 0, req 4064, servesOf (by decide +kernel)⟩,
   ⟨svc, .sideband, 0, req 0, servesOf (by decide +kernel)⟩,
   ⟨svc.modEmber (fun e => { e with handles := [doneHandle] }), .sideband, 0, req 8 (leBytes 4 (handleNumber 1)), doneHandle, serves_op, rfl, found_op, rfl⟩,
   ⟨svc, .sideband, 0, req 8 (leBytes 4 10000), servesOf (by decide +kernel), by decide +kernel⟩,
   ⟨svc.modBoot (fun b => { b with announce := some 10 }), 10, by decide +kernel⟩,
   ⟨svc, .sideband, 0, req 0, servesOf (by decide +kernel)⟩,
   ⟨svc, .sideband, 0, req 32 ([31, 0, 127, 0, 255, 255, 255, 0] ++ [1, 1, 1, 1, 1, 1, 1, 0] ++ [15, 255, 0, 0, 0, 0, 0, 255] ++ [32, 48]), servesOf (by decide +kernel), by decide +kernel⟩,
   ⟨sodded, .sideband, 0, req 16 ([3, 1, 31, 1, 0, 0, 0, 0] ++ leBytes 8 0x080000000002), servesOf (by decide +kernel), by decide +kernel⟩,
   ⟨svc, .sideband, 0, req 0, servesOf (by decide +kernel)⟩,
   ⟨svc, .sideband, 0, req 8 ([1, 0, 0, 0] ++ leBytes 4 0x03000000), servesOf (by decide +kernel), by decide +kernel⟩,
   ⟨svc.modEmber (fun e => { e with xfer := some xfer1 }), .sideband, 0, req 20 ([1, 0, 0, 0] ++ leBytes 4 8 ++ leBytes 4 4 ++ [0, 0, 0, 0]), xfer1, servesOf (by decide +kernel), by decide +kernel⟩,
   ⟨svc.modEmber (fun e => { e with xfer := some xfer1 }), .sideband, 0, req 4 [1], xfer1, servesOf (by decide +kernel), by decide +kernel⟩,
   ⟨svc.modNv (fun v => v.modSlot 1 (fun o => { o with st := .valid })), .sideband, 0, req 4 [1, 1], servesOf (by decide +kernel), by decide +kernel⟩⟩

/-- Hypotheses of `Obligations.PcieTrafficTakesEffect` are met. -/
theorem wit_PcieTrafficTakesEffect :
    (∃ (s : State) (n : Nat) (r : MemReq), let p := (s.port n).part; let s1 := s.stationCount n true (some p) ((s.port n).coreTc r.ptc) r.data.length; s.working ∧ (s.port n).role = .upstream ∧ (s.port n).dlActive = true ∧ s.noCredit n r.kind.asks = false ∧ s1.mgmtRange p r.addr.toNat = none) ∧
    (∃ (s : State) (n : Nat) (r : MemReq), let p := (s.port n).part; let s1 := s.stationCount n true (some p) ((s.port n).coreTc r.ptc) r.data.length; ∃ (off : Nat), s.working ∧ (s.port n).role = .upstream ∧ (s.port n).dlActive = true ∧ s.noCredit n r.kind.asks = false ∧ s1.mgmtRange p r.addr.toNat = some (0, off)) ∧
    (∃ (s : State) (n : Nat) (r : MemReq), s.working ∧ (s.port n).role = .downstream ∧ (s.port n).dlActive = true ∧ (s.port n).dpc = false ∧ s.noCredit n r.kind.asks = false) ∧
    (∃ (s : State) (i : Nat) (w : WPkt) (pl : Place), s.working ∧ s.core.waiting[i]? = some w ∧ w.why ≠ .move ∧ (s.core.waiting.take i).any (fun x => voqOf x.pkt == voqOf w.pkt) = false ∧ s.planesIn ≠ [] ∧ s.verdict w.pkt w.n = .put pl) ∧
    (∃ (s : State) (n i : Nat) (p : Pkt), s.working ∧ (s.port n).npWait[i]? = some p ∧ s.slotFree p.dst n = true ∧ ((s.port n).npWait.take i).any (fun k => k.dst == p.dst) = false) ∧
    (∃ (s : State) (n : Nat) (k : Pkt) (r : List Pkt), s.working ∧ (s.port n).dlActive = true ∧ takeOrdered (fun x => (s.port n).issuable x && (!x.nonPosted || s.cplRoom n x)) (s.port n).mayPass [] (s.port n).egress = some (k, r) ∧ k.abort = false ∧ k.ptype = 1) ∧
    (∃ (s : State) (n : Nat) (k : Pkt) (r : List Pkt), ∃ (t : Nat), s.working ∧ (s.port n).dlActive = true ∧ takeOrdered (fun x => (s.port n).issuable x && (!x.nonPosted || s.cplRoom n x)) (s.port n).mayPass [] (s.port n).egress = some (k, r) ∧ k.abort = false ∧ k.ptype ≠ 1 ∧ k.nonPosted = true ∧ (s.port n).freeTag = some t) ∧
    (∃ (s : State) (n : Nat) (k : Pkt) (r : List Pkt), s.working ∧ (s.port n).dlActive = true ∧ takeOrdered (fun x => (s.port n).issuable x && (!x.nonPosted || s.cplRoom n x)) (s.port n).mayPass [] (s.port n).egress = some (k, r) ∧ k.abort = false ∧ k.ptype ≠ 1 ∧ k.nonPosted = false) ∧
    (∃ (s : State) (n : Nat) (k : Pkt) (r : List Pkt), s.working ∧ (s.port n).unacked = k :: r) ∧
    (∃ (s : State) (n : Nat) (c : Cpl) (t : TagRec), s.working ∧ (s.port n).tags.find? (fun r => r.tag == c.tag) = some t) ∧
    (∃ (s : State) (n rid : Nat) (m : PcieMsg) (p k : Nat), s.working ∧ (s.port n).role = .downstream ∧ s.vdspOfRid n rid = some (p, k) ∧ m.code = 0x30) ∧
    (∃ (s : State) (n t : Nat) (r : TagRec), s.dieUp = true ∧ (s.port n).tags.find? (fun r => r.tag == t) = some r) ∧
    (∃ (s : State) (n t : Nat), s.dieUp = true) :=
  ⟨⟨svc.modPort 0 (fun p => { p with role := .upstream, dlActive := true }), 0, { kind := .write }, by show State.inService _ = true; decide +kernel, rfl, rfl, credit (by decide +kernel), by decide +kernel⟩,
   ⟨up0, 0, { kind := .write, addr := 0x1FFFC }, 0x1FFFC, by show State.inService _ = true; decide +kernel, rfl, rfl, credit (by decide +kernel), by decide +kernel⟩,
   ⟨dn9, 9, { kind := .write }, by show State.inService _ = true; decide +kernel, rfl, rfl, rfl, credit (by decide +kernel)⟩,
   ⟨(svc.modPort 0 (fun p => { p with role := .upstream })).modCore (fun k => { k with waiting := [{}] }), 0, {}, .reserve, by show State.inService _ = true; decide +kernel, by decide +kernel⟩,
   ⟨svc.modPort 39 (fun p => { p with npWait := [rd0] }), 39, 0, rd0, by show State.inService _ = true; decide +kernel, by decide +kernel⟩,
   ⟨dn9 (fun p => { p with egress := [cpl0] }), 9, cpl0, [], by show State.inService _ = true; decide +kernel, rfl, takeOne (by decide +kernel), rfl, rfl⟩,
   ⟨dn9 (fun p => { p with egress := [rd0] }), 9, rd0, [], 0x100, by show State.inService _ = true; decide +kernel, rfl, takeOne (by rw [cplRoom_of 4 rfl (by decide)]; decide +kernel), rfl, by decide, by decide +kernel, by decide +kernel⟩,
   ⟨dn9 (fun p => { p with egress := [wr0] }), 9, wr0, [], by show State.inService _ = true; decide +kernel, rfl, takeOne (by decide +kernel), rfl, by decide +kernel⟩,
   ⟨svc.modPort 39 (fun p => { p with unacked := [wr0] }), 39, wr0, [], by show State.inService _ = true; decide +kernel, by decide +kernel⟩,
   ⟨dn9 (fun p => { p with tags := [{ tag := 0xFF }] }), 9, { tag := 0xFF }, { tag := 0xFF }, by show State.inService _ = true; decide +kernel, by decide +kernel⟩,
   ⟨mapped (((hv { st := .present, kind := 1, port := 9 }).modPort 9 (fun p => { p with role := .downstream }))), 9, 0x1FF, { code := 0x30 }, 1, 1, by show State.inService _ = true; decide +kernel, by decide +kernel⟩,
   ⟨dn9 (fun p => { p with tags := [{ tag := 0xFF }] }), 9, 0xFF, { tag := 0xFF }, by decide +kernel⟩,
   ⟨svc, 39, 0x3FF, by decide +kernel⟩⟩

/-- Hypotheses of `Obligations.PcieConfigurationTakesEffect` are met. -/
theorem wit_PcieConfigurationTakesEffect :
    (∃ (s : State) (p : Nat) (r : CfgReq), let t := s.captureBus p r; s.working ∧ (s.vs p).up.isSome = true ∧ (s.vs p).inReset = false ∧ s.ember.fwReady = true ∧ s.ember.smoulder = false ∧ s.boot.phase ≠ .hostDownload ∧ (s.vs p).rrs = false ∧ t.cfgTarget p r = none) ∧
    (∃ (s : State) (p : Nat) (r : CfgReq), let t := s.captureBus p r; s.working ∧ (s.vs p).up.isSome = true ∧ (s.vs p).inReset = false ∧ s.ember.fwReady = true ∧ s.ember.smoulder = false ∧ s.boot.phase ≠ .hostDownload ∧ (s.vs p).rrs = false ∧ t.cfgTarget p r = some .bridge ∧ r.write = false) ∧
    (∃ (s : State) (p : Nat) (r : CfgReq), let t := s.captureBus p r; s.working ∧ (s.vs p).up.isSome = true ∧ (s.vs p).inReset = false ∧ s.ember.fwReady = true ∧ s.ember.smoulder = false ∧ s.boot.phase ≠ .hostDownload ∧ (s.vs p).rrs = false ∧ t.cfgTarget p r = some .bridge ∧ r.write = true) ∧
    (∃ (s : State) (p : Nat) (r : CfgReq), let t := s.captureBus p r; s.working ∧ (s.vs p).up.isSome = true ∧ (s.vs p).inReset = false ∧ s.ember.fwReady = true ∧ s.ember.smoulder = false ∧ s.boot.phase ≠ .hostDownload ∧ (s.vs p).rrs = false ∧ t.cfgTarget p r = some .mgmt ∧ r.write = false) ∧
    (∃ (s : State) (p : Nat) (r : CfgReq), let t := s.captureBus p r; ∃ (k : Nat), s.working ∧ (s.vs p).up.isSome = true ∧ (s.vs p).inReset = false ∧ s.ember.fwReady = true ∧ s.ember.smoulder = false ∧ s.boot.phase ≠ .hostDownload ∧ (s.vs p).rrs = false ∧ t.cfgTarget p r = some (.vdsp k) ∧ r.write = false) ∧
    (∃ (s : State) (p : Nat) (r : CfgReq), let t := s.captureBus p r; ∃ (k : Nat), s.working ∧ (s.vs p).up.isSome = true ∧ (s.vs p).inReset = false ∧ s.ember.fwReady = true ∧ s.ember.smoulder = false ∧ s.boot.phase ≠ .hostDownload ∧ (s.vs p).rrs = false ∧ t.cfgTarget p r = some (.vdsp k) ∧ r.write = true) ∧
    (∃ (s : State) (p k fn bar : Nat) (v : Word), s.working ∧ (s.vdsp p k).bound = true ∧ s.barSize p (s.vdsp p k) fn bar ≠ 0) ∧
    (∃ (s : State) (p k fn : Nat) (en : Bool), s.working ∧ (s.vdsp p k).bound = true ∧ (s.vdsp p k).kind ≠ 6) ∧
    (∃ (s : State) (p k : Nat), s.working ∧ k < (s.vs p).vdspCount ∧ (s.vdsp p k).st = .present) ∧
    (∃ (s : State) (p k : Nat), s.working ∧ k < (s.vs p).vdspCount ∧ (s.vdsp p k).st = .contained ∧ 3 ≤ (s.vdsp p k).kind) ∧
    (∃ (s : State) (p k : Nat), s.working ∧ (s.vdsp p k).bound = true ∧ (s.vdsp p k).st = .present) ∧
    (∃ (s : State) (p k : Nat), s.working ∧ (s.vdsp p k).bound = true) ∧
    (∃ (s : State) (p k fn : Nat), s.working ∧ (s.vdsp p k).bound = true ∧ (s.vdsp p k).kind = 1 ∧ (s.vdsp p k).resetPending = false) ∧
    (∃ (s : State) (p : Nat), s.working ∧ (s.vs p).up.isSome = true) ∧
    (∃ (s : State) (p k : Nat), s.dieUp = true ∧ (s.vdsp p k).st = .unplug ∧ (s.vdsp p k).timer = true ∧ (s.vdsp p k).unbind = none) ∧
    (∃ (s : State) (p k : Nat), ∃ (h : Nat), s.dieUp = true ∧ (s.vdsp p k).st = .unplug ∧ (s.vdsp p k).timer = true ∧ (s.vdsp p k).unbind = some h ∧ s.fab.extract.step = 0 ∧ (s.vdsp p k).kind ≠ 3) ∧
    (∃ (s : State) (p k : Nat), ∃ (h : Nat), s.dieUp = true ∧ (s.vdsp p k).st = .unplug ∧ (s.vdsp p k).timer = true ∧ (s.vdsp p k).unbind = some h ∧ s.fab.extract.step ≠ 0) ∧
    (∃ (s : State), s.dieUp = true) ∧
    (∃ (s : State), s.dieUp = true) ∧
    (∃ (s : State) (p k : Nat), s.dieUp = true ∧ (s.vdsp p k).st = .removing ∧ s.drained p k = true) :=
  ⟨⟨up0, 0, { dev := 1 }, by show State.inService _ = true; decide +kernel, by decide +kernel⟩,
   ⟨up0, 0, {}, by show State.inService _ = true; decide +kernel, by decide +kernel⟩,
   ⟨up0, 0, { write := true }, by show State.inService _ = true; decide +kernel, by decide +kernel⟩,
   ⟨up0, 0, { fn := 1 }, by show State.inService _ = true; decide +kernel, by decide +kernel⟩,
   ⟨hvBus { st := .present, kind := 6 }, 1, { type0 := false, bus := 5, fn := 1 }, 1, by show State.inService _ = true; decide +kernel, by decide +kernel⟩,
   ⟨hvBus { st := .present, kind := 6 }, 1, { type0 := false, bus := 5, fn := 1, write := true }, 1, by show State.inService _ = true; decide +kernel, by decide +kernel⟩,
   ⟨hv { st := .present, kind := 6 }, 1, 1, 0, 0, 0xFFFFFFFF, by show State.inService _ = true; decide +kernel, by decide +kernel⟩,
   ⟨hv { st := .present, kind := 4 }, 1, 1, 0, true, by show State.inService _ = true; decide +kernel, by decide +kernel⟩,
   ⟨hv { st := .present }, 1, 1, by show State.inService _ = true; decide +kernel, by decide +kernel⟩,
   ⟨hv { st := .contained, kind := 3 }, 1, 1, by show State.inService _ = true; decide +kernel, by decide +kernel⟩,
   ⟨hv { st := .present }, 1, 1, by show State.inService _ = true; decide +kernel, by decide +kernel⟩,
   ⟨hv { st := .contained }, 1, 1, by show State.inService _ = true; decide +kernel, by decide +kernel⟩,
   ⟨hv { st := .present, kind := 1 }, 1, 1, 7, by show State.inService _ = true; decide +kernel, by decide +kernel⟩,
   ⟨up0, 0, by show State.inService _ = true; decide +kernel, by decide +kernel⟩,
   ⟨hv { st := .unplug, timer := true }, 1, 1, by decide +kernel⟩,
   ⟨hv { st := .unplug, timer := true, unbind := some 1 }, 1, 1, 1, by decide +kernel⟩,
   ⟨(hv { st := .unplug, timer := true, unbind := some 1 }).modFab (fun f => { f with extract := { f.extract with step := 3 } }), 1, 1, 1, by decide +kernel⟩,
   ⟨svc, by decide +kernel⟩,
   ⟨svc, by decide +kernel⟩,
   ⟨hv { st := .removing, kind := 1, port := 9 }, 1, 1, by decide +kernel⟩⟩

/-- Hypotheses of `Obligations.PcieLinksTakeEffect` are met. -/
theorem wit_PcieLinksTakeEffect :
    (∃ (s : State) (n : Nat), s.dieUp = true ∧ (s.port n).dlActive = true ∧ (s.port n).role = .upstream) ∧
    (∃ (s : State) (n : Nat), s.dieUp = true ∧ (s.port n).dlActive = true ∧ (s.port n).role = .downstream) ∧
    (∃ (s : State) (n : Nat) (pr : Bool), s.dieUp = true ∧ (s.port n).role = .downstream ∧ (s.port n).present ≠ pr) ∧
    (∃ (s : State) (n : Nat), s.dieUp = true ∧ (s.port n).step = 1) ∧
    (∃ (s : State) (n : Nat), s.dieUp = true ∧ (s.port n).step = 2) ∧
    (∃ (s : State) (n : Nat), s.dieUp = true ∧ (s.port n).step = 3) ∧
    (∃ (s : State) (n : Nat), s.dieUp = true ∧ (s.port n).step = 4) ∧
    (∃ (s : State) (n width rate : Nat) (flit : Bool), s.working ∧ (s.port n).role ≠ .absent ∧ (s.port n).dpc = false ∧ (s.port n).disabled = false ∧ s.blockAway (n / 4) = false ∧ s.boot.stationHeld.contains (n / 4) = false ∧ (s.port n).canTrain width rate = true ∧ (s.port n).step = 2) ∧
    (∃ (s : State) (n ns : Nat), 1000 ≤ ns ∧ (s.port n).role = .upstream ∧ tget false s.lands.perstLow n = false ∧ (s.port n).dlActive = false) ∧
    (∃ (s : State) (n : Nat), (s.port n).role = .upstream) ∧
    (∃ (s : State) (n : Nat), s.working ∧ (s.port n).role = .upstream ∧ (s.vs (s.port n).part).inReset = false) ∧
    (∃ (s : State) (n h : Nat), s.dieUp = true ∧ (s.port n).reset = some h ∧ (s.port n).sharePending = false ∧ (s.port n).step ≠ 0) :=
  ⟨⟨up0, 0, by decide +kernel⟩,
   ⟨dn9, 9, by decide +kernel⟩,
   ⟨dn9, 9, true, by decide +kernel⟩,
   ⟨dn9 (fun p => { p with step := 1 }), 9, by decide +kernel⟩,
   ⟨dn9 (fun p => { p with step := 2 }), 9, by decide +kernel⟩,
   ⟨dn9 (fun p => { p with step := 3 }), 9, by decide +kernel⟩,
   ⟨dn9 (fun p => { p with step := 4 }), 9, by decide +kernel⟩,
   ⟨dn9 (fun p => { p with step := 2, maxWidth := 4 }), 9, 4, 6, true, by show State.inService _ = true; decide +kernel, by decide +kernel⟩,
   ⟨(up0.modPort 0 (fun p => { p with dlActive := false })).modLands (fun l => { l with perstLow := [] }), 0, 1000, by decide +kernel⟩,
   ⟨up0, 0, by decide +kernel⟩,
   ⟨up0, 0, by show State.inService _ = true; decide +kernel, by decide +kernel⟩,
   ⟨dn9 (fun p => { p with reset := some 1, step := 3 }), 9, 1, by decide +kernel⟩⟩

/-- Hypotheses of `Obligations.PcieCommandsComplete` are met. -/
theorem wit_PcieCommandsComplete :
    (∃ (s : State) (c : Path) (p : Nat) (q : Req), s.serves cmdPortGetStatus c p q ∧ q.u8 0x20 < 40 ∧ q.zero 0x21 3 = true) ∧
    (∃ (s : State) (c : Path) (p : Nat) (q : Req), let n := q.u8 0x20; let v := q.u8 0x21; s.serves cmdPortSetConfig c p q ∧ n < 40 ∧ s.portPresent n = true ∧ v < 16 ∧ v ≠ 0 ∧ (bit v 1 = true → 1 ≤ q.u8 0x22 ∧ q.u8 0x22 ≤ 6) ∧ (bit v 3 = true → q.u8 0x23 = 0 ∨ q.u8 0x23 = 1 ∧ (s.port n).role = .downstream) ∧ (bit v 0 = true → 1 ≤ q.u32 0x24 ∧ q.u32 0x24 ≤ 4000) ∧ (bit v 2 = true → tcMapOk (q.u32 0x28) = true) ∧ q.zero 0x2C 4 = true ∧ (s.port n).reset = none) ∧
    (∃ (s : State) (c : Path) (p : Nat) (q : Req), let n := q.u8 0x20; s.serves cmdPortReset c p q ∧ n < 40 ∧ (s.port n).role = .downstream ∧ s.portPresent n = true ∧ q.u8 0x21 ≤ 5 ∧ (q.u8 0x21 = 5 → (s.port n).dpc = true) ∧ q.zero 0x22 2 = true ∧ (if q.u8 0x21 = 1 then 150 ≤ q.u32 0x24 ∧ q.u32 0x24 ≤ 1000 else q.u32 0x24 = 0) ∧ (s.port n).reset = none ∧ s.masked (n / 4) = false ∧ s.handleFree p = true) ∧
    (∃ (s : State) (c : Path) (p : Nat) (q : Req), s.serves cmdVdspBind c p q ∧ 1 ≤ q.u8 0x20 ∧ q.u8 0x20 ≤ 31 ∧ q.u8 0x21 < (s.vs (q.u8 0x20)).vdspCount ∧ (s.vdsp (q.u8 0x20) (q.u8 0x21)).st = .empty ∧ q.u8 0x22 = 1 ∧ q.zero 0x23 1 = true ∧ q.u8 0x24 < 40 ∧ (s.port (q.u8 0x24)).role = .downstream ∧ q.u8 0x25 = s.own ∧ q.u16 0x26 = 0 ∧ q.u16 0x28 = 1 ∧ q.zero 0x2A 6 = true ∧ s.holders (q.u8 0x20) 1 (q.u8 0x24) 0 1 = [] ∧ s.bindFault (q.u8 0x20) 1 (q.u8 0x24) 0 1 = none ∧ s.fenced [(q.u8 0x24, 0xFFFF)] = false ∧ s.masked (q.u8 0x24 / 4) = false ∧ (({ kind := 1, count := 1, port := q.u8 0x24 } : Vdsp).idEntries (q.u8 0x20) (q.u8 0x21)).length ≤ s.freeIds.length) ∧
    (∃ (s : State) (c : Path) (p : Nat) (q : Req), s.serves cmdVdspUnbind c p q ∧ 1 ≤ q.u8 0x20 ∧ q.u8 0x20 ≤ 31 ∧ q.u8 0x21 < (s.vs (q.u8 0x20)).vdspCount ∧ (s.vdsp (q.u8 0x20) (q.u8 0x21)).bound = true ∧ q.u8 0x22 = 0 ∧ q.zero 0x23 1 = true ∧ q.u32 0x24 ≤ 600 ∧ (s.vdsp (q.u8 0x20) (q.u8 0x21)).st = .present ∧ s.handleFree p = true) ∧
    (∃ (s : State) (c : Path) (p : Nat) (q : Req), s.serves cmdVdspGet c p q ∧ 1 ≤ q.u8 0x20 ∧ q.u8 0x20 ≤ 31 ∧ q.u8 0x21 < 48 ∧ q.zero 0x22 2 = true) :=
  ⟨⟨svc, .sideband, 0, req 4 [39], servesOf (by decide +kernel), by decide +kernel⟩,
   ⟨dn9, .sideband, 0, req 16 ([9, 15, 6, 1] ++ leBytes 4 4000 ++ leBytes 4 0x00DAC688), servesOf (by decide +kernel), by decide +kernel⟩,
   ⟨dn9, .sideband, 0, req 8 ([9, 1, 0, 0] ++ leBytes 4 1000), servesOf (by decide +kernel), by decide +kernel⟩,
   ⟨(hv {}).modPort 9 (fun p => { p with role := .downstream, enumerated := true }), .sideband, 0, req 16 [1, 1, 1, 0, 9, 0, 0, 0, 1], servesOf (by decide +kernel), by decide +kernel⟩,
   ⟨hv { st := .present, kind := 6 }, .sideband, 0, req 8 [1, 1, 0, 0, 88, 2, 0, 0], servesOf (by decide +kernel), by decide +kernel⟩,
   ⟨svc, .sideband, 0, req 4 [31, 47], servesOf (by decide +kernel), by decide +kernel⟩⟩

/-- Hypotheses of `Obligations.WindowEventsAndCommandsComplete` are met. -/
theorem wit_WindowEventsAndCommandsComplete :
    (∃ (s : State) (n fn : Nat), s.dieUp = true ∧ (∀ h ∈ s.ember.handles, h.running = false)) ∧
    (∃ (s : State) (p t : Nat) (d : Drain), s.dieUp = true ∧ (tget ({} : RunCmd) s.ember.running p).wait = .drain t ∧ s.win.drains.find? (fun d => d.tracker == t && d.handle == 0 && d.part == p) = some d) ∧
    (∃ (s : State) (t : Nat), s.dieUp = true ∧ (tget ({} : Tracker) s.win.trackers t).free = false ∧ (tget ({} : Tracker) s.win.trackers t).isOpen = false ∧ (tget ({} : Tracker) s.win.trackers t).empty = true) ∧
    (∃ (s : State) (n h : Nat), s.dieUp = true ∧ (s.port n).sharePending = true ∧ (s.port n).reset = some h) ∧
    (∃ (s : State) (n h : Nat), s.dieUp = true ∧ (s.port n).sharePending = true ∧ (s.port n).reset = some h ∧ (s.port n).mode = .unassigned) ∧
    (∃ (s : State) (n h : Nat), s.dieUp = true ∧ (s.port n).sharePending = true ∧ (s.port n).reset = some h ∧ (s.port n).mode ≠ .unassigned) ∧
    (∃ (s : State) (c : Path) (p : Nat) (q : Req), let w := (whoOf c p q).subject; let set := (opsOf q).foldl (stageOne s.win.stamps (p == 0)) (tget [] s.win.staging w); s.serves cmdWinStage c p q ∧ 1 ≤ q.u16 0x20 ∧ q.u16 0x20 ≤ 101 ∧ q.zero 0x22 6 = true ∧ s.opsFault (p == 0) q (q.u16 0x20) = none ∧ (∀ o ∈ opsOf q, eEmber (bankGet s.win.bank o.key) = false) ∧ (p ≠ 0 → ∀ o ∈ opsOf q, eLock (bankGet s.win.bank o.key) = false) ∧ set.length ≤ 1024) ∧
    (∃ (s : State) (c : Path) (p : Nat) (q : Req) (b : Bank), let w := (whoOf c p q).subject; let ops := tget [] s.win.staging w; s.serves cmdWinCommit c p q ∧ q.zero 0x21 3 = true ∧ s.commitCheck ops (q.u8 0x20 == 1 || s.handleFree p) = .inr b ∧ q.u8 0x20 = 1) ∧
    (∃ (s : State) (c : Path) (p : Nat) (q : Req) (b : Bank), let w := (whoOf c p q).subject; let ops := tget [] s.win.staging w; let deps := commitDeps s.win.bank b ops; let ws := ops.map (fun o => (o.key, bankGet b o.key)) ++ deps.map (fun k => (k, invalidated (bankGet b k))); let t := s.win.commit ws; let parts := (ws.flatMap (fun e => (([e.2, bankGet s.win.bank e.1]).filter eValid).map (entryOwner (tableOfKey e.1)))).eraseDups; let d : Drain := { tracker := t.1, parts := parts, epoch := BitVec.ofNat 16 ((whoOf c p q).shown s.iso.strict t.2.epoch.toNat), applied := ops.length, inval := deps.length, part := p }; let w1 : Win := { t.2 with staging := tdel t.2.staging w, byZero := (ops.filter (fun o => o.byZero)).map (fun o => o.key) ++ t.2.byZero.filter (fun k => !ops.any (fun o => o.key == k)) }; s.serves cmdWinCommit c p q ∧ q.zero 0x21 3 = true ∧ s.commitCheck ops (q.u8 0x20 == 1 || s.handleFree p) = .inr b ∧ q.u8 0x20 = 0 ∧ w1.drainDone d = true) ∧
    (∃ (s : State) (c : Path) (p : Nat) (q : Req), s.serves cmdWinDiscard c p q) ∧
    (∃ (s : State) (c : Path) (p : Nat) (q : Req), s.serves cmdWinRead c p q ∧ (q.u8 0x20 = 3 ∨ q.u8 0x20 = 4) ∧ q.u8 0x21 = 0 ∧ q.u8 0x22 = 0 ∧ q.zero 0x23 1 = true ∧ q.u16 0x24 < winCount (q.u8 0x20) ∧ 1 ≤ q.u16 0x26 ∧ q.u16 0x26 ≤ 126 ∧ q.u16 0x24 + q.u16 0x26 ≤ winCount (q.u8 0x20)) ∧
    (∃ (s : State) (c : Path) (p : Nat) (q : Req), let n := q.u8 0x20; s.serves cmdDevShare c p q ∧ n < 40 ∧ (s.port n).role = .downstream ∧ q.u8 0x21 = 0 ∧ q.u8 0x22 = 0 ∧ q.zero 0x23 1 = true ∧ q.u16 0x24 = 0 ∧ q.u16 0x26 ≤ 1024 ∧ (s.port n).mode ≠ .exclusive ∧ s.boundTo n = [] ∧ (s.port n).sharePending = false ∧ s.handleFree p = true) ∧
    (∃ (s : State) (c : Path) (p : Nat) (q : Req), let n := q.u8 0x20; s.serves cmdMigrateFence c p q ∧ n < 40 ∧ (s.port n).role = .downstream ∧ (s.port n).mode = .unassigned ∧ q.u8 0x21 = 1 ∧ q.u16 0x22 = 0 ∧ q.u16 0x24 = 1 ∧ q.zero 0x26 2 = true ∧ s.vdsps.any (fun e => e.2.onPort n) = false ∧ s.fenced [(n, 0xFFFF)] = false) ∧
    (∃ (s : State) (c : Path) (p : Nat) (q : Req), let n := q.u8 0x20; s.serves cmdMigrateFence c p q ∧ n < 40 ∧ (s.port n).role = .downstream ∧ (s.port n).mode = .unassigned ∧ q.u8 0x21 = 1 ∧ q.u16 0x22 = 0 ∧ q.u16 0x24 = 1 ∧ q.zero 0x26 2 = true ∧ s.vdsps.any (fun e => e.2.onPort n) = false ∧ s.fenced [(n, 0xFFFF)] = true ∧ s.handleFree p = true) :=
  ⟨⟨svc.modWin (fun w => { w with fences := [{ port := 9, fn := 0xFFFF }] }), 9, 0xFFFF, by decide +kernel⟩,
   ⟨(svc.modEmber (fun e => { e with running := [(3, { wait := .drain 7 })] })).modWin (fun w => { w with drains := [{ tracker := 7, part := 3 }] }), 3, 7, { tracker := 7, part := 3 }, by decide +kernel⟩,
   ⟨svc.modWin (fun w => { w with trackers := [(7, { free := false })] }), 7, by decide +kernel⟩,
   ⟨dn9 (fun p => { p with sharePending := true, reset := some 1 }), 9, 1, by decide +kernel⟩,
   ⟨dn9 (fun p => { p with sharePending := true, reset := some 1 }), 9, 1, by decide +kernel⟩,
   ⟨dn9 (fun p => { p with sharePending := true, reset := some 1, mode := .shared 1 4 256 }), 9, 1, by decide +kernel⟩,
   ⟨svc, .sideband, 0, req 48 [1, 0, 0, 0, 0, 0, 0, 0, 1, 1, 31], servesOf (by decide +kernel), by decide +kernel⟩,
   ⟨staged, .sideband, 0, req 4 [1], [(5, 0)], servesOf (by decide +kernel), by decide +kernel, by rfl, by decide +kernel⟩,
   ⟨staged, .sideband, 0, req 4, [(5, 0)], servesOf (by decide +kernel), by decide +kernel, by rfl, by decide +kernel⟩,
   ⟨staged, .sideband, 0, req 0, servesOf (by decide +kernel)⟩,
   ⟨svc, .sideband, 0, req 8 [4, 0, 0, 0, 255, 15, 1], servesOf (by decide +kernel), by decide +kernel⟩,
   ⟨dn9, .sideband, 0, req 8 [9, 0, 0, 0, 0, 0, 0, 4], servesOf (by decide +kernel), by decide +kernel⟩,
   ⟨dn9, .sideband, 0, req 8 [9, 1, 0, 0, 1], servesOf (by decide +kernel), by decide +kernel⟩,
   ⟨(dn9).modWin (fun w => { w with fences := [{ port := 9, fn := 0xFFFF }] }), .sideband, 0, req 8 [9, 1, 0, 0, 1], servesOf (by decide +kernel), by decide +kernel⟩⟩

/-- Hypotheses of `Obligations.CoreEventsTakeEffect` are met. -/
theorem wit_CoreEventsTakeEffect :
    (∃ (s : State) (k : Nat), s.working ∧ (s.plane k).inService = true) ∧
    (∃ (s : State) (k : Nat), s.working ∧ (s.plane k).inService = false) ∧
    (∃ (s : State) (ps : List Nat), s.working ∧ (∀ t ∈ ps, t ≤ 4900)) ∧
    (∃ (s : State) (ps : List Nat), s.working ∧ s.ember.fwReady = true ∧ 2 < s.core.n ∧ (∃ t ∈ ps, 4900 < t)) ∧
    (∃ (s : State) (k : Nat), s.working ∧ 2 < s.core.n) ∧
    (∃ (s : State) (i o tc : Nat) (e : QPkt) (l : Nat), s.working ∧ s.core.q.find? (fun e => e.place == .spilled && e.pkt.src == i && e.pkt.dst == o && e.pkt.tc == tc) = some e ∧ s.spillRoom o e.n = true ∧ (stripe s.planesIn (tget 0 s.core.rot i) e.pkt.formedCells).getLast? = some l) :=
  ⟨⟨svc, 3, by show State.inService _ = true; decide +kernel, by decide +kernel⟩,
   ⟨svc.modPlane 3 (fun p => { p with inService := false }), 3, by show State.inService _ = true; decide +kernel, by decide +kernel⟩,
   ⟨svc, [4900, 4900, 4900, 4900], by show State.inService _ = true; decide +kernel, by decide +kernel⟩,
   ⟨svc.modCore (fun k => { k with n := 3 }), [0, 0, 0, 4901], by show State.inService _ = true; decide +kernel, by decide +kernel⟩,
   ⟨svc.modCore (fun k => { k with n := 3 }), 3, by show State.inService _ = true; decide +kernel, by decide +kernel⟩,
   ⟨svc.modCore (fun k => { k with q := [spilled0] }), 39, 55, 6, spilled0, 0, by show State.inService _ = true; decide +kernel, by decide +kernel⟩⟩

/-- Hypotheses of `Obligations.LinkTrainingTakesEffect` are met. -/
theorem wit_LinkTrainingTakesEffect :
    (∃ (s : State) (l : Nat), s.working ∧ (s.link l).st = .lreset) ∧
    (∃ (s : State) (l : Nat), s.working ∧ (s.link l).st = .idle) ∧
    (∃ (s : State) (l : Nat), s.working ∧ (s.link l).st = .detect) ∧
    (∃ (s : State) (l : Nat), s.working ∧ (s.link l).st = .equalize) ∧
    (∃ (s : State) (l : Nat), ∃ (rx : List LaneRx), s.working ∧ (s.link l).st = .align ∧ lanesAlign (s.link l).lanesOk rx = true) ∧
    (∃ (s : State) (l : Nat), s.working ∧ (s.link l).st = .align) ∧
    (∃ (s : State) (l : Nat), s.working ∧ (s.link l).st = .retry) ∧
    (∃ (s : State) (l : Nat) (r : TrainRec), s.working ∧ (s.link l).st = .detect ∧ s.boot.fabricHeld = false ∧ s.lands.frefOk = true) ∧
    (∃ (s : State) (l lanes : Nat), s.working ∧ (s.link l).st = .equalize ∧ lanes % 16 ≠ 0) ∧
    (∃ (s : State) (l : Nat) (r : TrainRec) (interval : Nat), s.working ∧ (s.link l).st = .negotiate ∧ r.module = s.own) ∧
    (∃ (s : State) (l : Nat) (r : TrainRec) (interval : Nat), s.working ∧ (s.link l).st = .negotiate ∧ r.module ≠ s.own ∧ r.echoRsp = false) ∧
    (∃ (s : State) (l : Nat) (r : TrainRec) (interval : Nat), let rtt := interval - r.turnNs; let w := trainWidth ((s.link l).lanesOk &&& r.lanesOk) (Nat.min (s.link l).reqWidth r.reqWidth); let rate := Nat.min (s.link l).reqRate r.reqRate; s.working ∧ (s.link l).st = .negotiate ∧ r.module ≠ s.own ∧ r.echoRsp = true ∧ w.1 ≠ 0 ∧ 80 < headroom rtt w.1 rate) ∧
    (∃ (s : State) (l : Nat) (r : TrainRec) (interval : Nat), let rtt := interval - r.turnNs; let w := trainWidth ((s.link l).lanesOk &&& r.lanesOk) (Nat.min (s.link l).reqWidth r.reqWidth); let rate := Nat.min (s.link l).reqRate r.reqRate; s.working ∧ (s.link l).st = .negotiate ∧ r.module ≠ s.own ∧ r.echoRsp = true ∧ w.1 ≠ 0 ∧ headroom rtt w.1 rate ≤ 80) ∧
    (∃ (s : State) (l lane : Nat), ∃ (pairs : List PairRx), s.working ∧ (s.link l).lanesUse.getLsbD lane = true ∧ laneUnlocks pairs = true) ∧
    (∃ (s : State) (l lane : Nat), s.working ∧ (s.link l).lanesUse.getLsbD lane = true) ∧
    (∃ (s : State), s.boot.phase ≠ .off) ∧
    (∃ (s : State) (l h : Nat), s.dieUp = true ∧ (s.link l).handle = some h ∧ (s.link l).st ≠ .up) :=
  ⟨⟨lk (fun k => { k with st := .lreset }), 15, by show State.inService _ = true; decide +kernel, by decide +kernel⟩,
   ⟨lk (fun k => { k with st := .idle }), 15, by show State.inService _ = true; decide +kernel, by decide +kernel⟩,
   ⟨lk (fun k => { k with st := .detect }), 15, by show State.inService _ = true; decide +kernel, by decide +kernel⟩,
   ⟨lk (fun k => { k with st := .equalize }), 15, by show State.inService _ = true; decide +kernel, by decide +kernel⟩,
   ⟨lk (fun k => { k with st := .align, lanesOk := 5 }), 15, [{ pairs := lanePairs 3, skewPs := 20000 }, {}, { pairs := lanePairs 0 }], by show State.inService _ = true; decide +kernel, by decide +kernel⟩,
   ⟨lk (fun k => { k with st := .align }), 15, by show State.inService _ = true; decide +kernel, by decide +kernel⟩,
   ⟨lk (fun k => { k with st := .retry }), 15, by show State.inService _ = true; decide +kernel, by decide +kernel⟩,
   ⟨lk (fun k => { k with st := .detect }), 15, {}, by show State.inService _ = true; decide +kernel, by decide +kernel⟩,
   ⟨lk (fun k => { k with st := .equalize }), 15, 8, by show State.inService _ = true; decide +kernel, by decide +kernel⟩,
   ⟨lk (fun k => { k with st := .negotiate }), 15, { module := 0 }, 100, by show State.inService _ = true; decide +kernel, by decide +kernel⟩,
   ⟨lk (fun k => { k with st := .negotiate }), 15, { module := 3 }, 100, by show State.inService _ = true; decide +kernel, by decide +kernel⟩,
   ⟨lk (fun k => { k with st := .negotiate, lanesOk := 15 }), 15, echoed, 400, by show State.inService _ = true; decide +kernel, by decide +kernel⟩,
   ⟨lk (fun k => { k with st := .negotiate, lanesOk := 15 }), 15, echoed, 300, by show State.inService _ = true; decide +kernel, by decide +kernel⟩,
   ⟨lk (fun k => { k with lanesUse := 8 }), 15, 3, List.replicate 4 { marker := BitVec.ofNat 40 lanePattern, decoded := false }, by show State.inService _ = true; decide +kernel, by decide +kernel⟩,
   ⟨lk (fun k => { k with lanesUse := 8 }), 15, 3, by show State.inService _ = true; decide +kernel, by decide +kernel⟩,
   ⟨State.reset, by decide +kernel⟩,
   ⟨lk (fun k => { k with handle := some 1 }), 15, 1, by decide +kernel⟩⟩

/-- Hypotheses of `Obligations.LinkFlitsTakeEffect` are met. -/
theorem wit_LinkFlitsTakeEffect :
    (∃ (s : State) (l : Nat), let s0 := s.rxRefresh l; let k := s0.link l; ∃ (i : Nat) (r : ReplaySlot), s.working ∧ (s.link l).st = .up ∧ k.st = .up ∧ k.replayAt = some i ∧ k.replay[i]? = some r) ∧
    (∃ (s : State) (l : Nat), let s0 := s.rxRefresh l; let k := s0.link l; s.working ∧ (s.link l).st = .up ∧ k.st = .up ∧ k.replayAt = none ∧ k.nakDue = true) ∧
    (∃ (s : State) (l : Nat), let s0 := s.rxRefresh l; let k := s0.link l; s.working ∧ (s.link l).st = .up ∧ k.st = .up ∧ k.replayAt = none ∧ k.nakDue = false ∧ k.trainDue = true) ∧
    (∃ (s : State) (l : Nat), let s0 := s.rxRefresh l; let k := s0.link l; ∃ (v : Nat), s.working ∧ (s.link l).st = .up ∧ k.st = .up ∧ k.replayAt = none ∧ k.nakDue = false ∧ k.trainDue = false ∧ s0.linkTurn l = some v) ∧
    (∃ (s : State) (l : Nat), let s0 := s.rxRefresh l; let k := s0.link l; s.working ∧ (s.link l).st = .up ∧ k.st = .up ∧ k.replayAt = none ∧ k.nakDue = false ∧ k.trainDue = false ∧ s0.linkTurn l = none) ∧
    (∃ (s : State) (l n : Nat) (head rest : Bytes), s.working ∧ (s.link l).st = .up) ∧
    (∃ (s : State) (l n : Nat) (head rest : Bytes), let raw := head ++ rest; s.working ∧ (s.link l).st = .up ∧ flitCrcOk raw = false) ∧
    (∃ (s : State) (l n : Nat) (head rest : Bytes), let raw := head ++ rest; s.working ∧ (s.link l).st = .up ∧ flitCrcOk raw = true ∧ (flitOf raw).ackv = true ∧ (flitOf raw).ftype = 0) ∧
    (∃ (s : State) (l n : Nat) (head rest : Bytes), let raw := head ++ rest; s.working ∧ (s.link l).st = .up ∧ flitCrcOk raw = true ∧ (flitOf raw).ackv = false ∧ (flitOf raw).ftype = 1) ∧
    (∃ (s : State) (l n : Nat) (head rest : Bytes), let raw := head ++ rest; s.working ∧ (s.link l).st = .up ∧ flitCrcOk raw = true ∧ (flitOf raw).ackv = false ∧ (flitOf raw).ftype = 3) ∧
    (∃ (s : State) (l n : Nat) (head rest : Bytes), let raw := head ++ rest; s.working ∧ (s.link l).st = .up ∧ flitCrcOk raw = true ∧ (flitOf raw).ackv = false ∧ (flitOf raw).ftype = 4) ∧
    (∃ (s : State) (l : Nat), s.working) ∧
    (∃ (s : State) (l : Nat), s.working ∧ (s.link l).st = .up ∧ (s.link l).replay ≠ []) :=
  ⟨⟨lk (fun k => { k with st := .up, replay := [{}, {}], replayAt := some 1 }), 15, 1, {}, by show State.inService _ = true; decide +kernel, by decide +kernel⟩,
   ⟨lk (fun k => { k with st := .up, nakDue := true }), 15, by show State.inService _ = true; decide +kernel, by decide +kernel⟩,
   ⟨lk (fun k => { k with st := .up, trainDue := true }), 15, by show State.inService _ = true; decide +kernel, by decide +kernel⟩,
   ⟨(lk (fun k => { k with st := .up, xoffRx := 0 })).modCore (fun k => { k with q := [toLink15] }), 15, 7, by show State.inService _ = true; decide +kernel, by decide +kernel⟩,
   ⟨lk (fun k => { k with st := .up }), 15, by show State.inService _ = true; decide +kernel, by decide +kernel⟩,
   ⟨lk (fun k => { k with st := .up }), 15, 3, [], [], by show State.inService _ = true; decide +kernel, by decide +kernel⟩,
   ⟨lk (fun k => { k with st := .up }), 15, 3, List.replicate 5 1, [], by show State.inService _ = true; decide +kernel, by decide +kernel⟩,
   ⟨lk (fun k => { k with st := .up }), 15, 3, ({ ackv := true } : Flit).bytes, [], by show State.inService _ = true; decide +kernel, rfl, (by rw [List.append_nil]; exact sent_crc _), by decide +kernel⟩,
   ⟨lk (fun k => { k with st := .up }), 15, 3, ({ ftype := 1, vc := 7, units := 15 } : Flit).bytes, [], by show State.inService _ = true; decide +kernel, rfl, (by rw [List.append_nil]; exact sent_crc _), by decide +kernel⟩,
   ⟨lk (fun k => { k with st := .up }), 15, 0, ({ ftype := 3 } : Flit).bytes, [], by show State.inService _ = true; decide +kernel, rfl, (by rw [List.append_nil]; exact sent_crc _), by decide +kernel⟩,
   ⟨lk (fun k => { k with st := .up }), 15, 0, ({ ftype := 4 } : Flit).bytes, [], by show State.inService _ = true; decide +kernel, rfl, (by rw [List.append_nil]; exact sent_crc _), by decide +kernel⟩,
   ⟨svc, 15, by show State.inService _ = true; decide +kernel⟩,
   ⟨lk (fun k => { k with st := .up, replay := [{}] }), 15, by show State.inService _ = true; decide +kernel, by decide +kernel⟩⟩

/-- Hypotheses of `Obligations.LinkCommandsComplete` are met. -/
theorem wit_LinkCommandsComplete :
    (∃ (s : State) (c : Path) (p : Nat) (q : Req), s.serves cmdLinkGetStatus c p q ∧ q.u8 0x20 < 16 ∧ q.zero 0x21 3 = true) ∧
    (∃ (s : State) (c : Path) (p : Nat) (q : Req), let l := q.u8 0x20; let v := q.u8 0x21; let n := (s.link l).set v q; s.serves cmdLinkSet c p q ∧ l < 16 ∧ v < 32 ∧ v ≠ 0 ∧ (bit v 0 = true → q.u8 0x22 ≤ 1) ∧ (bit v 1 = true → q.u8 0x23 = 1 ∨ q.u8 0x23 = 2 ∨ q.u8 0x23 = 4) ∧ (bit v 2 = true → q.u8 0x24 = 1 ∨ q.u8 0x24 = 2) ∧ q.zero 0x25 1 = true ∧ (bit v 4 = true → 16 ≤ q.u16 0x26 ∧ q.u16 0x26 ≤ 256) ∧ (bit v 3 = true → vcMapOk (q.u32 0x28) = true) ∧ q.zero 0x2C 4 = true ∧ (s.link l).handle = none ∧ n.enabled = true ∧ s.masked (0x0A + l) = false ∧ (s.link l).st ≠ .disabled ∧ (s.link l).maxWidth = n.maxWidth ∧ (s.link l).maxRate = n.maxRate ∧ (s.link l).vcMap = n.vcMap) ∧
    (∃ (s : State) (c : Path) (p : Nat) (q : Req), let l := q.u8 0x20; let v := q.u8 0x21; let n := (s.link l).set v q; s.serves cmdLinkSet c p q ∧ l < 16 ∧ v < 32 ∧ v ≠ 0 ∧ (bit v 0 = true → q.u8 0x22 ≤ 1) ∧ (bit v 1 = true → q.u8 0x23 = 1 ∨ q.u8 0x23 = 2 ∨ q.u8 0x23 = 4) ∧ (bit v 2 = true → q.u8 0x24 = 1 ∨ q.u8 0x24 = 2) ∧ q.zero 0x25 1 = true ∧ (bit v 4 = true → 16 ≤ q.u16 0x26 ∧ q.u16 0x26 ≤ 256) ∧ (bit v 3 = true → vcMapOk (q.u32 0x28) = true) ∧ q.zero 0x2C 4 = true ∧ (s.link l).handle = none ∧ n.enabled = false ∧ (s.link l).st ≠ .disabled) ∧
    (∃ (s : State) (c : Path) (p : Nat) (q : Req), s.serves cmdLinkReset c p q ∧ q.u8 0x20 < 16 ∧ q.u8 0x21 ≤ 1 ∧ q.zero 0x22 2 = true ∧ (s.link (q.u8 0x20)).handle = none ∧ (s.link (q.u8 0x20)).st = .up) :=
  ⟨⟨svc, .sideband, 0, req 4 [15], servesOf (by decide +kernel), by decide +kernel⟩,
   ⟨lk (fun k => { k with st := .detect, enabled := true }), .sideband, 0, req 16 ([15, 31, 1, 4, 2, 0, 0, 1] ++ leBytes 4 0x00FAC688), servesOf (by decide +kernel), by decide +kernel⟩,
   ⟨lk (fun k => { k with st := .detect, enabled := true }), .sideband, 0, req 16 ([15, 1, 0] ), servesOf (by decide +kernel), by decide +kernel⟩,
   ⟨lk (fun k => { k with st := .up }), .sideband, 0, req 4 [15, 1], servesOf (by decide +kernel), by decide +kernel⟩⟩

/-- Hypotheses of `Obligations.FabricPacketsTakeEffect` are met. -/
theorem wit_FabricPacketsTakeEffect :
    (∃ (s : State) (l : Nat) (k : Pkt), let known := (s.adm k.smod).st = .admitted; s.working ∧ (s.link l).st = .up ∧ k.ptype ≠ 4 ∧ ((s.link l).quarantined = true ∨ ¬ known)) ∧
    (∃ (s : State) (l : Nat) (k : Pkt), let known := (s.adm k.smod).st = .admitted; s.working ∧ (s.link l).st = .up ∧ k.ptype ≠ 4 ∧ (s.link l).quarantined = false ∧ known ∧ k.dmod = s.own ∧ k.ptype = 1 ∧ s.portPresent (cplPort k.d.faddr) = true) ∧
    (∃ (s : State) (l : Nat) (k : Pkt), let known := (s.adm k.smod).st = .admitted; s.working ∧ (s.link l).st = .up ∧ k.ptype ≠ 4 ∧ (s.link l).quarantined = false ∧ known ∧ k.dmod = s.own ∧ k.ptype ≠ 1 ∧ faClass k.d.faddr < 4) ∧
    (∃ (s : State) (l : Nat) (k : Pkt), let known := (s.adm k.smod).st = .admitted; ∃ (o : Nat), s.working ∧ (s.link l).st = .up ∧ k.ptype ≠ 4 ∧ (s.link l).quarantined = false ∧ known ∧ k.dmod = s.own ∧ k.ptype = 3 ∧ faClass k.d.faddr < 4 ∧ s.attachment k.d.faddr = some o) ∧
    (∃ (s : State) (l : Nat) (k : Pkt), let known := (s.adm k.smod).st = .admitted; s.working ∧ (s.link l).st = .up ∧ k.ptype ≠ 4 ∧ (s.link l).quarantined = false ∧ known ∧ k.dmod = s.own ∧ k.ptype ≠ 1 ∧ 4 ≤ faClass k.d.faddr) ∧
    (∃ (s : State) (l : Nat) (k : Pkt), let p := { k with src := 40 + l, epoch := s.win.epoch.toNat, trk := 0, trkv := false, spilled := false }; let known := (s.adm k.smod).st = .admitted; ∃ (p1 : Pkt) (s1 : State), s.working ∧ (s.link l).st = .up ∧ k.ptype ≠ 4 ∧ (s.link l).quarantined = false ∧ known ∧ k.dmod ≠ s.own ∧ k.hops = 0 ∧ s.routePkt p k.dmod = some (p1, s1)) ∧
    (∃ (s : State) (l : Nat) (k : Pkt), let known := (s.adm k.smod).st = .admitted; s.working ∧ (s.link l).st = .up ∧ k.ptype ≠ 4 ∧ (s.link l).quarantined = false ∧ known ∧ k.dmod ≠ s.own ∧ k.hops ≠ 0) ∧
    (∃ (s : State) (m tc v : Nat), s.working) ∧
    (∃ (s : State) (id : Nat), s.working ∧ s.storeOf id = none) ∧
    (∃ (s : State) (id : Nat), ∃ (i : Nat) (e : SbEnt), s.working ∧ s.storeOf id = some (i, e)) :=
  ⟨⟨fab (fun k => { k with quarantined := true }), 15, from3 0 0, by show State.inService _ = true; decide +kernel, by decide +kernel⟩,
   ⟨(fab).modPort 39 (fun p => { p with role := .upstream }), 15, from3 1 (faMake 0 0 (39 * 2 ^ 48)), by show State.inService _ = true; decide +kernel, by decide +kernel⟩,
   ⟨fab, 15, from3 0 (faMake 0 3 0), by show State.inService _ = true; decide +kernel, by decide +kernel⟩,
   ⟨(fab).modPort 39 (fun p => { p with role := .downstream }), 15, from3 3 (faMake 0 1 (39 * 2 ^ 48)), 39, by show State.inService _ = true; decide +kernel, by decide +kernel⟩,
   ⟨fab, 15, from3 0 (faMake 0 4 0), by show State.inService _ = true; decide +kernel, by decide +kernel⟩,
   ⟨(routed).modAdm 5 (fun a => { a with st := .admitted }), 15, { smod := 3, dmod := 3 }, _, _, by show State.inService _ = true; decide +kernel, rfl, by decide, rfl, by decide +kernel, by decide +kernel, rfl, rfl⟩,
   ⟨fab, 15, { smod := 3, dmod := 9, hops := 1 }, by show State.inService _ = true; decide +kernel, by decide +kernel⟩,
   ⟨svc, 63, 7, 1, by show State.inService _ = true; decide +kernel⟩,
   ⟨svc, 5, by show State.inService _ = true; decide +kernel, by decide +kernel⟩,
   ⟨svc.modHcore 3 7 (fun h => { h with unacked := [{ id := 5, noEack := true }] }), 5, 31, { id := 5, noEack := true }, by show State.inService _ = true; decide +kernel, by decide +kernel⟩⟩

/-- Hypotheses of `Obligations.FabricManagementTakesEffect` are met. -/
theorem wit_FabricManagementTakesEffect :
    (∃ (s : State) (m n : Nat) (fr : Bytes), s.dieUp = true ∧ s.ember.fwReady = true ∧ s.boot.opt.managers.contains m = true ∧ (s.adm m).st = .admitted ∧ tlook s.ember.msgQ (128 + m) = none) ∧
    (∃ (s : State) (m n : Nat) (fr : Bytes), s.dieUp = true ∧ s.ember.fwReady = true) ∧
    (∃ (s : State) (m : Nat), s.dieUp = true ∧ (s.adm m).st = .admitted) ∧
    (∃ (s : State) (m : Nat), s.dieUp = true ∧ (s.adm m).st = .extracting) ∧
    (∃ (s : State) (l : Nat), s.dieUp = true ∧ (s.link l).st = .up ∧ s.ember.fwReady = true) ∧
    (∃ (s : State) (l : Nat), s.dieUp = true ∧ (s.link l).st = .up ∧ s.ember.fwReady = true) ∧
    (∃ (s : State) (l : Nat), s.dieUp = true ∧ (s.link l).st = .up ∧ s.ember.fwReady = true) ∧
    (∃ (s : State) (l : Nat), s.dieUp = true ∧ (s.link l).st = .up ∧ (s.link l).spdmRun = true) ∧
    (∃ (s : State) (l : Nat), s.dieUp = true ∧ (s.link l).st = .up ∧ (s.link l).spdmRun = true) ∧
    (∃ (s : State) (l : Nat), s.dieUp = true ∧ (s.link l).st = .up ∧ (s.link l).quarantined = true ∧ (s.link l).spdmRun = false ∧ (s.link l).spdmOk = false ∧ 1 ≤ (s.link l).spdmTries ∧ (s.link l).spdmTries ≤ 2) ∧
    (∃ (s : State) (l : Nat), s.dieUp = true ∧ (s.link l).st ≠ .up) ∧
    (∃ (s : State) (d j : Nat), s.dieUp = true ∧ s.fab.revertMs ≠ 0 ∧ s.pathUsable d j = true) ∧
    (∃ (s : State) (d b : Nat) (v : Move), s.dieUp = true ∧ s.fab.moves.find? (fun v => v.dmod == d && v.bucket == b) = some v ∧ s.moveReady v = true) ∧
    (∃ (s : State), s.fab.extract.step = 0) ∧
    (∃ (s : State), s.dieUp = true ∧ s.fab.extract.filter = true ∧ s.lands.extractReq = true ∧ s.fab.extract.step = 0) ∧
    (∃ (s : State) (m : Nat), s.dieUp = true) ∧
    (∃ (s : State), s.dieUp = true ∧ s.extractDrained = true) ∧
    (∃ (s : State), s.dieUp = true ∧ s.fab.extract.step = 3) ∧
    (∃ (s : State) (n : Nat) (fr : Bytes) (r : RelayWait), s.dieUp = true ∧ tlook s.fab.relays n = some r) ∧
    (∃ (s : State) (p n : Nat) (r : RunCmd), s.dieUp = true ∧ tlook s.ember.running p = some r ∧ r.wait = .relay n) ∧
    (∃ (s : State) (m : Nat), s.dieUp = true ∧ s.ember.fwReady = true ∧ ((s.adm m).st = .authenticated ∨ (s.adm m).st = .admitted)) :=
  ⟨⟨(fab).modBoot (fun b => { b with opt := { b.opt with managers := [3] } }), 3, 0, [], by decide +kernel⟩,
   ⟨svc, 3, 0, [], by decide +kernel⟩,
   ⟨fab, 3, by decide +kernel⟩,
   ⟨svc.modAdm 3 (fun a => { a with st := .extracting }), 3, by decide +kernel⟩,
   ⟨fab, 15, by decide +kernel⟩,
   ⟨fab, 15, by decide +kernel⟩,
   ⟨fab, 15, by decide +kernel⟩,
   ⟨fab (fun k => { k with spdmRun := true }), 15, by decide +kernel⟩,
   ⟨fab (fun k => { k with spdmRun := true }), 15, by decide +kernel⟩,
   ⟨fab (fun k => { k with quarantined := true, spdmTries := 2 }), 15, by decide +kernel⟩,
   ⟨svc, 15, by decide +kernel⟩,
   ⟨(routed).modFab (fun f => { f with revertMs := 100 }), 3, 0, by decide +kernel⟩,
   ⟨svc.modFab (fun f => { f with moves := [{ dmod := 3, bucket := 15 }] }), 3, 15, { dmod := 3, bucket := 15 }, by decide +kernel⟩,
   ⟨svc, by decide +kernel⟩,
   ⟨({ svc with lands := { svc.lands with extractReq := true } } : State).modFab (fun f => { f with extract := { f.extract with filter := true } }), by decide +kernel⟩,
   ⟨svc, 63, by decide +kernel⟩,
   ⟨svc.modFab (fun f => { f with extract := { f.extract with step := 3 } }), by decide +kernel⟩,
   ⟨svc.modFab (fun f => { f with extract := { f.extract with step := 3 } }), by decide +kernel⟩,
   ⟨svc.modFab (fun f => { f with relays := [(9, { part := 3 })] }), 9, [], { part := 3 }, by decide +kernel⟩,
   ⟨svc.modEmber (fun e => { e with running := [(3, { wait := .relay 9 })] }), 3, 9, { wait := .relay 9 }, by decide +kernel⟩,
   ⟨fab, 3, by decide +kernel⟩⟩

/-- Hypotheses of `Obligations.FabricCommandsComplete` are met. -/
theorem wit_FabricCommandsComplete :
    (∃ (s : State) (c : Path) (p : Nat) (q : Req), let n := q.u8 0x20; let rs := (List.range n).map (routeRec q); s.serves cmdRouteSet c p q ∧ 1 ≤ n ∧ n ≤ 63 ∧ q.u8 0x21 ≤ 1 ∧ q.zero 0x22 6 = true ∧ (∀ i < n, s.routeOk q i = true) ∧ (∀ r ∈ rs, routeState (s.route r.m).entry ≠ 2 ∧ s.fab.moves.any (fun v => v.dmod == r.m) = false) ∧ (∀ r ∈ rs, s.routeMoves r = [])) ∧
    (∃ (s : State) (c : Path) (p : Nat) (q : Req), s.serves cmdRouteRead c p q ∧ q.u8 0x20 < 64 ∧ 1 ≤ q.u8 0x21 ∧ q.u8 0x21 ≤ 64 ∧ q.u8 0x20 + q.u8 0x21 ≤ 64 ∧ q.zero 0x22 2 = true) ∧
    (∃ (s : State) (c : Path) (p : Nat) (q : Req), s.serves cmdFabGetModule c p q ∧ q.u8 0x20 < 64 ∧ q.zero 0x21 3 = true) ∧
    (∃ (s : State) (c : Path) (p : Nat) (q : Req), let m := q.u8 0x20; let d := BitVec.ofNat 384 (leNat (q.bytes 0x28 48)); s.serves cmdFabAdmit c p q ∧ m < 64 ∧ m ≠ s.own ∧ q.u8 0x21 ≤ 1 ∧ q.zero 0x22 6 = true ∧ (s.adm m).st = .authenticated ∧ ((s.adm m).digest = none ∨ (s.adm m).digest = some d) ∧ ((s.adm m).verified = true → (s.adm m).fwVersion.toNat / 2 ^ 24 < 3 → q.u8 0x21 = 1)) ∧
    (∃ (s : State) (c : Path) (p : Nat) (q : Req), s.serves cmdFabWithdraw c p q ∧ q.u8 0x20 < 64 ∧ q.u8 0x20 ≠ s.own ∧ q.zero 0x21 3 = true ∧ (s.adm (q.u8 0x20)).st ≠ .unknown ∧ (s.adm (q.u8 0x20)).st ≠ .withdrawn ∧ s.handleFree p = true) ∧
    (∃ (s : State) (c : Path) (p : Nat) (q : Req), s.serves cmdFabRelay c p q ∧ q.u8 0x20 < 64 ∧ q.zero 0x21 7 = true ∧ (s.adm (q.u8 0x20)).st = .admitted ∧ routeState (s.entryOf (q.u8 0x20)) = 1) ∧
    (∃ (s : State) (c : Path) (p : Nat) (q : Req), let v := q.u8 0x20; s.serves cmdFabSetConfig c p q ∧ v < 8 ∧ v ≠ 0 ∧ q.zero 0x21 3 = true ∧ (bit v 0 = true → 1 ≤ q.u32 0x24 ∧ q.u32 0x24 ≤ 1000) ∧ (bit v 1 = true → q.u32 0x28 = 0 ∨ 100 ≤ q.u32 0x28 ∧ q.u32 0x28 ≤ 60000) ∧ (bit v 2 = true → 10 ≤ q.u32 0x2C ∧ q.u32 0x2C ≤ 600)) :=
  ⟨⟨svc, .sideband, 0, req 24 ([1, 1, 0, 0, 0, 0, 0, 0] ++ [63, 0, 0, 0, 0, 0, 0, 0] ++ leBytes 8 (1 + 2 ^ 8 + 15 * 2 ^ 12)), servesOf (by decide +kernel), by decide +kernel⟩,
   ⟨svc, .sideband, 0, req 4 [0, 64], servesOf (by decide +kernel), by decide +kernel⟩,
   ⟨svc, .sideband, 0, req 4 [63], servesOf (by decide +kernel), by decide +kernel⟩,
   ⟨svc.modAdm 63 (fun a => { a with st := .authenticated }), .sideband, 0, req 56 [63, 1], servesOf (by decide +kernel), by decide +kernel⟩,
   ⟨svc.modAdm 63 (fun a => { a with st := .admitted }), .sideband, 0, req 4 [63], servesOf (by decide +kernel), by decide +kernel⟩,
   ⟨routed, .sideband, 0, req 40 [3], servesOf (by decide +kernel), by decide +kernel⟩,
   ⟨svc, .sideband, 0, req 16 ([7, 0, 0, 0] ++ leBytes 4 1000 ++ leBytes 4 60000 ++ leBytes 4 600), servesOf (by decide +kernel), by decide +kernel⟩⟩

/-- Hypotheses of `Obligations.PoolPortsTakeEffect` are met. -/
theorem wit_PoolPortsTakeEffect :
    (∃ (s : State) (m n off len : Nat) (g : PoolAgent) (ecc : Eccs), s.working ∧ s.pool.present = true ∧ s.agentHeld g = false ∧ agentAdmits g (s.sod n) off (.read len) = true) ∧
    (∃ (s : State) (m n off len : Nat) (g : PoolAgent) (ecc : Eccs), ∃ (d : Bytes) (ep : Bool), s.working ∧ s.pool.present = true ∧ s.agentHeld g = false ∧ agentAdmits g (s.sod n) off (.write d ep) = true) ∧
    (∃ (s : State) (m n off len : Nat) (g : PoolAgent) (ecc : Eccs), ∃ (v : Word), s.working ∧ s.pool.present = true ∧ s.agentHeld g = false ∧ agentAdmits g (s.sod n) off (.fetchAdd 8 v) = true) ∧
    (∃ (s : State) (m n off len : Nat) (g : PoolAgent) (ecc : Eccs), ∃ (v : Word), s.working ∧ s.pool.present = true ∧ s.agentHeld g = false ∧ agentAdmits g (s.sod n) off (.swap 8 v) = true) ∧
    (∃ (s : State) (m n off len : Nat) (g : PoolAgent) (ecc : Eccs), ∃ (x : Word) (v : Word), s.working ∧ s.pool.present = true ∧ s.agentHeld g = false ∧ agentAdmits g (s.sod n) off (.cas 16 x v) = true) ∧
    (∃ (s : State) (m n off len : Nat) (g : PoolAgent) (ecc : Eccs), ∃ (agent : Nat) (d : Bytes), s.working ∧ s.pool.present = true ∧ s.agentHeld g = false ∧ agentPort g = some agent ∧ agentAdmits g (s.sod n) off (.conditional d) = true) ∧
    (∃ (s : State) (m n off len : Nat) (g : PoolAgent) (ecc : Eccs), ∃ (op : PoolOp), s.working ∧ s.pool.present = true ∧ s.agentHeld g = false ∧ agentAdmits g (s.sod n) off op = false) ∧
    (∃ (s : State) (m : Nat) (ecc : Eccs) (p : Pkt) (r : List Pkt), s.working ∧ s.blockAway (0x26 + m) = false ∧ poolPick s.poolHeld [] (tget [] s.core.delivered (64 + m)) = some (p, r)) ∧
    (∃ (s : State) (n k : Nat), s.working ∧ s.pool.present = true ∧ k < 2 ^ 24 ∧ (s.sod n).st ≠ .absent ∧ (s.sod n).st ≠ .retired) ∧
    (∃ (s : State) (n k : Nat), s.working ∧ s.pool.present = true ∧ k < 2 ^ 24 ∧ (s.sod n).st ≠ .absent ∧ (s.sod n).st ≠ .retired) :=
  ⟨⟨pooled, 3, 7, 0x3FFFFFC0, 64, .ember, [], by show State.inService _ = true; decide +kernel, by decide +kernel⟩,
   ⟨pooled, 3, 7, 0x3FFFFFFF, 0, .hearth 3, [], [5], true, by show State.inService _ = true; decide +kernel, by decide +kernel⟩,
   ⟨pooled, 3, 7, 0, 0, .retort 3, [], 1, by show State.inService _ = true; decide +kernel, by decide +kernel⟩,
   ⟨pooled, 3, 7, 0, 0, .retort 3, [], 1, by show State.inService _ = true; decide +kernel, by decide +kernel⟩,
   ⟨pooled, 3, 7, 0, 0, .retort 3, [], 1, 2, by show State.inService _ = true; decide +kernel, by decide +kernel⟩,
   ⟨pooled, 3, 7, 0x2FC, 0, .retort 3, [], 71, [1, 2, 3, 4], by show State.inService _ = true; decide +kernel, by decide +kernel⟩,
   ⟨pooled, 3, 8, 0, 0, .hearth 3, [], .read 4, by show State.inService _ = true; decide +kernel, by decide +kernel⟩,
   ⟨(pooled).modCore (fun k => { k with delivered := [(67, [wr0])] }), 3, [], wr0, [], by show State.inService _ = true; decide +kernel, by decide +kernel⟩,
   ⟨pooled, 7, 2 ^ 24 - 1, by show State.inService _ = true; decide +kernel, by decide +kernel⟩,
   ⟨pooled, 7, 0, by show State.inService _ = true; decide +kernel, by decide +kernel⟩⟩

/-- Hypotheses of `Obligations.SodLifeTakesEffect` are met. -/
theorem wit_SodLifeTakesEffect :
    (∃ (s : State) (n : Nat), s.dieUp = true ∧ (s.sod n).st = .zeroing) ∧
    (∃ (s : State) (n : Nat), s.dieUp = true ∧ (s.sod n).st = .scrubbing ∧ (s.sod n).scrubbed = false ∧ s.pool.lostUnder n = []) ∧
    (∃ (s : State) (n : Nat), s.dieUp = true ∧ (s.sod n).st = .scrubbing ∧ (s.sod n).scrubbed = false) ∧
    (∃ (s : State) (id : Nat) (f : PFence), s.dieUp = true ∧ s.pool.fences.find? (fun f => f.id == id) = some f ∧ s.fenceReached f = true ∧ f.handle = 0) ∧
    (∃ (s : State) (id : Nat) (f : PFence), s.dieUp = true ∧ s.pool.fences.find? (fun f => f.id == id) = some f ∧ s.fenceReached f = true ∧ f.handle ≠ 0) ∧
    (∃ (s : State) (ch : Nat), s.dieUp = true ∧ s.pool.present = true ∧ s.pool.chLost.getLsbD ch = false) :=
  ⟨⟨pooled (fun d => { d with st := .zeroing }), 7, by decide +kernel⟩,
   ⟨pooled (fun d => { d with st := .scrubbing }), 7, by decide +kernel⟩,
   ⟨pooled (fun d => { d with st := .scrubbing }), 7, by decide +kernel⟩,
   ⟨(pooled).modPool (fun p => { p with fences := [fence1 0] }), 4, fence1 0, by decide +kernel⟩,
   ⟨(pooled).modPool (fun p => { p with fences := [fence1 2] }), 4, fence1 2, by decide +kernel⟩,
   ⟨pooled, 15, by decide +kernel⟩⟩

/-- Hypotheses of `Obligations.PoolCommandsComplete` are met. -/
theorem wit_PoolCommandsComplete :
    (∃ (s : State) (c : Path) (p : Nat) (q : Req), s.serves cmdPoolGetStatus c p q) ∧
    (∃ (s : State) (c : Path) (p : Nat) (q : Req), s.serves cmdPoolConfig c p q ∧ q.u8 0x20 = 1 ∧ q.zero 0x21 3 = true ∧ q.u16 0x24 = s.pool.wide ∧ s.pool.wide % 4 = 0 ∧ ceilDiv (s.pool.spillSods + 1) 4 * 4 ≤ s.pool.wide ∧ s.pool.present = true ∧ s.pool.wide ≤ s.pool.total) ∧
    (∃ (s : State) (c : Path) (p : Nat) (q : Req), s.serves cmdSodAssign c p q ∧ q.u8 0x20 = 1 ∧ q.u8 0x21 < 32 ∧ q.u8 0x22 = 0 ∧ q.u8 0x23 = 0xFF ∧ 1 ≤ q.u16 0x24 ∧ q.u16 0x24 ≤ 4096 ∧ q.u16 0x26 + q.u16 0x24 ≤ 8192 ∧ s.pool.present = true ∧ (¬ (q.u16 0x26 ≤ s.pool.reserve ∧ s.pool.reserve < q.u16 0x26 + q.u16 0x24)) ∧ (∀ i ∈ runList (q.u16 0x26) (q.u16 0x24), (s.sod i).st = .free)) ∧
    (∃ (s : State) (c : Path) (p : Nat) (q : Req), s.serves cmdSodRelease c p q ∧ q.u16 0x20 < 8192 ∧ 1 ≤ q.u16 0x22 ∧ q.u16 0x22 ≤ 4096 ∧ q.u16 0x20 + q.u16 0x22 ≤ 8192 ∧ s.pool.present = true ∧ (¬ (q.u16 0x20 ≤ s.pool.reserve ∧ s.pool.reserve < q.u16 0x20 + q.u16 0x22)) ∧ (s.sod (q.u16 0x20)).kind ≠ 2 ∧ (∀ i ∈ runList (q.u16 0x20) (q.u16 0x22), s.sodRunning i = false ∧ (s.sod i).st = .assigned ∧ (s.sod i).exported = false ∧ (s.sod i).kind = (s.sod (q.u16 0x20)).kind ∧ (s.sod i).target = (s.sod (q.u16 0x20)).target) ∧ s.handleFree p = true) ∧
    (∃ (s : State) (c : Path) (p : Nat) (q : Req), s.serves cmdSodQuery c p q ∧ q.u16 0x20 < 8192 ∧ 1 ≤ q.u16 0x22 ∧ q.u16 0x22 ≤ 1000 ∧ q.u16 0x20 + q.u16 0x22 ≤ 8192 ∧ q.onBehalf = false) ∧
    (∃ (s : State) (c : Path) (p : Nat) (q : Req), let run := runList (q.u16 0x20) (q.u16 0x22); s.serves cmdSodSet c p q ∧ q.u16 0x20 < 8192 ∧ 1 ≤ q.u16 0x22 ∧ q.u16 0x22 ≤ 4096 ∧ q.u16 0x20 + q.u16 0x22 ≤ 8192 ∧ q.zero 0x25 3 = true ∧ s.pool.present = true ∧ (∀ i ∈ run, s.sodRunning i = false ∧ s.sodFencing i = false) ∧ q.u8 0x24 = 0) ∧
    (∃ (s : State) (c : Path) (p : Nat) (q : Req), let run := runList (q.u16 0x20) (q.u16 0x22); s.serves cmdSodSet c p q ∧ q.u16 0x20 < 8192 ∧ 1 ≤ q.u16 0x22 ∧ q.u16 0x22 ≤ 4096 ∧ q.u16 0x20 + q.u16 0x22 ≤ 8192 ∧ q.zero 0x25 3 = true ∧ s.pool.present = true ∧ (∀ i ∈ run, s.sodRunning i = false ∧ s.sodFencing i = false) ∧ q.u8 0x24 = 2 ∧ (∀ i ∈ run, (s.sod i).st = .assigned)) ∧
    (∃ (s : State) (c : Path) (p : Nat) (q : Req), let run := runList (q.u16 0x20) (q.u16 0x22); s.serves cmdSodSet c p q ∧ q.u16 0x20 < 8192 ∧ 1 ≤ q.u16 0x22 ∧ q.u16 0x22 ≤ 4096 ∧ q.u16 0x20 + q.u16 0x22 ≤ 8192 ∧ q.zero 0x25 3 = true ∧ s.pool.present = true ∧ (∀ i ∈ run, s.sodRunning i = false ∧ s.sodFencing i = false) ∧ q.u8 0x24 = 1 ∧ (∀ i ∈ run, (s.sod i).st = .assigned) ∧ s.handleFree p = true) ∧
    (∃ (s : State) (c : Path) (p : Nat) (q : Req), let run := runList (q.u16 0x20) (q.u16 0x22); s.serves cmdSodSet c p q ∧ q.u16 0x20 < 8192 ∧ 1 ≤ q.u16 0x22 ∧ q.u16 0x22 ≤ 4096 ∧ q.u16 0x20 + q.u16 0x22 ≤ 8192 ∧ q.zero 0x25 3 = true ∧ s.pool.present = true ∧ (∀ i ∈ run, s.sodRunning i = false ∧ s.sodFencing i = false) ∧ q.u8 0x24 = 3 ∧ (∀ i ∈ run, (s.sod i).st = .retired) ∧ s.handleFree p = true) :=
  ⟨⟨svc, .sideband, 0, req 0, servesOf (by decide +kernel)⟩,
   ⟨pooled, .sideband, 0, req 8 [1, 0, 0, 0, 20], servesOf (by decide +kernel), by decide +kernel⟩,
   ⟨pooled (fun d => { d with st := .free }), .sideband, 0, req 8 [1, 31, 0, 255, 1, 0, 7, 0], servesOf (by decide +kernel), by decide +kernel⟩,
   ⟨pooled, .sideband, 0, req 4 [7, 0, 1], servesOf (by decide +kernel), by decide +kernel⟩,
   ⟨svc, .sideband, 0, req 4 ([0x18, 0x1C] ++ leBytes 2 1000), servesOf (by decide +kernel), by decide +kernel⟩,
   ⟨pooled, .sideband, 0, req 8 [7, 0, 1, 0, 0], servesOf (by decide +kernel), by decide +kernel⟩,
   ⟨pooled, .sideband, 0, req 8 [7, 0, 1, 0, 2], servesOf (by decide +kernel), by decide +kernel⟩,
   ⟨pooled, .sideband, 0, req 8 [7, 0, 1, 0, 1], servesOf (by decide +kernel), by decide +kernel⟩,
   ⟨pooled (fun d => { d with st := .retired }), .sideband, 0, req 8 [7, 0, 1, 0, 3], servesOf (by decide +kernel), by decide +kernel⟩⟩

/-- Hypotheses of `Obligations.RetortTrafficTakesEffect` are met. -/
theorem wit_RetortTrafficTakesEffect :
    (∃ (s : State) (g k cs byte : Nat) (d : Bytes) (ep : Bool), s.working ∧ s.inst g = none) ∧
    (∃ (s : State) (g k cs byte : Nat) (d : Bytes) (ep : Bool), ∃ (i : RtInst), s.working ∧ s.inst g = some i ∧ i.live = false) ∧
    (∃ (s : State) (g k cs byte : Nat) (d : Bytes) (ep : Bool), ∃ (i : RtInst), s.working ∧ s.inst g = some i ∧ i.live = true ∧ i.nlocal ≤ k) ∧
    (∃ (s : State) (g k cs byte : Nat) (d : Bytes) (ep : Bool), ∃ (i : RtInst), let c := i.chunkOfSlot cs; s.working ∧ s.inst g = some i ∧ i.live = true ∧ k < i.nlocal ∧ entPull (i.part k) = false ∧ byte % i.fmt.bytes = 0 ∧ d.length % i.fmt.bytes = 0 ∧ i.ahead c < i.window ∧ byte + d.length ≤ i.chunkLen c ∧ (i.chunk c).st ≠ .done ∧ tget 0 (i.chunk c).recv k + d.length ≤ i.chunkLen c) ∧
    (∃ (s : State) (k : EngPkt) (i : RtInst), s.working ∧ s.inst k.group = some i ∧ i.live = false) ∧
    (∃ (s : State) (k : EngPkt) (i : RtInst), s.working ∧ s.inst k.group = some i ∧ k.gen ≠ i.gen) ∧
    (∃ (s : State) (k : EngPkt) (i : RtInst), s.working ∧ s.inst k.group = some i ∧ i.live = true ∧ k.gen = i.gen ∧ i.ahead k.chunk < i.window ∧ k.pkind = 3) ∧
    (∃ (s : State) (k : EngPkt) (i : RtInst), s.working ∧ s.inst k.group = some i ∧ i.live = true ∧ k.gen = i.gen ∧ i.ahead k.chunk < i.window ∧ k.pkind = 0 ∧ i.role = 1 ∧ i.leafList.contains k.smod = true) ∧
    (∃ (s : State) (k : EngPkt) (i : RtInst), s.working ∧ s.inst k.group = some i ∧ i.live = true ∧ k.gen = i.gen ∧ i.ahead k.chunk < i.window ∧ k.pkind = 1 ∧ i.role = 2 ∧ k.smod = i.root) ∧
    (∃ (s : State) (g c k : Nat) (ecc : Eccs) (i : RtInst), let e := i.engineFor c; let a := i.pullKey k (i.place c * 4096); s.working ∧ s.inst g = some i ∧ i.live = true ∧ (i.chunk c).st = .opened ∧ k < i.nlocal ∧ entPull (i.part k) = true ∧ tget 0 (i.chunk c).recv k ≠ i.chunkLen c ∧ agentAdmits (.retort e) (s.sod (a / 2 ^ 30)) (a % 2 ^ 30) .reserve = false) ∧
    (∃ (s : State) (g c k : Nat) (ecc : Eccs) (i : RtInst), let e := i.engineFor c; let a := i.pullKey k (i.place c * 4096); s.working ∧ s.inst g = some i ∧ i.live = true ∧ (i.chunk c).st = .opened ∧ k < i.nlocal ∧ entPull (i.part k) = true ∧ tget 0 (i.chunk c).recv k ≠ i.chunkLen c ∧ agentAdmits (.retort e) (s.sod (a / 2 ^ 30)) (a % 2 ^ 30) .reserve = true) ∧
    (∃ (s : State) (g k : Nat) (good : Bool) (i : RtInst) (f : Flush) (rest : List Flush), s.working ∧ s.inst g = some i ∧ i.live = true ∧ takeFirst (fun (f : Flush) => f.slot == k) i.flushes = some (f, rest) ∧ s.resultsOut i k = true ∧ good = true) ∧
    (∃ (s : State) (g k : Nat) (good : Bool) (i : RtInst) (f : Flush) (rest : List Flush), s.working ∧ s.inst g = some i ∧ i.live = true ∧ takeFirst (fun (f : Flush) => f.slot == k) i.flushes = some (f, rest) ∧ s.resultsOut i k = true ∧ good = false ∧ faClass (BitVec.ofNat 64 (entRes (i.part k))) = 1) :=
  ⟨⟨svc, 4095, 0, 0, 0, [], false, by show State.inService _ = true; decide +kernel, by decide +kernel⟩,
   ⟨withInst { inst1 0 0 with st := .defining }, 4095, 0, 0, 0, [], false, { inst1 0 0 with st := .defining }, by show State.inService _ = true; decide +kernel, by decide +kernel⟩,
   ⟨withInst (inst1 0 0), 4095, 2, 0, 0, [], false, inst1 0 0, by show State.inService _ = true; decide +kernel, by decide +kernel⟩,
   ⟨withInst (inst1 0 0), 4095, 0, 6, 4092, [0, 0, 128, 63], true, inst1 0 0, by show State.inService _ = true; decide +kernel, by decide +kernel⟩,
   ⟨withInst { inst1 2 3 with st := .failed }, { group := 4095 }, { inst1 2 3 with st := .failed }, by show State.inService _ = true; decide +kernel, by decide +kernel⟩,
   ⟨withInst (inst1 2 3), { group := 4095, gen := 4 }, inst1 2 3, by show State.inService _ = true; decide +kernel, by decide +kernel⟩,
   ⟨withInst (inst1 2 3), { group := 4095, gen := 5, chunk := 7, pkind := 3 }, inst1 2 3, by show State.inService _ = true; decide +kernel, by decide +kernel⟩,
   ⟨withInst (inst1 1 0 8), { group := 4095, gen := 5, chunk := 7, smod := 3 }, inst1 1 0 8, by show State.inService _ = true; decide +kernel, by decide +kernel⟩,
   ⟨withInst (inst1 2 3), { group := 4095, gen := 5, chunk := 7, pkind := 1, smod := 3 }, inst1 2 3, by show State.inService _ = true; decide +kernel, by decide +kernel⟩,
   ⟨withInst { inst1 0 0 with chunks := [(7, { st := .opened })] }, 4095, 7, 1, [], { inst1 0 0 with chunks := [(7, { st := .opened })] }, by show State.inService _ = true; decide +kernel, by decide +kernel⟩,
   ⟨withInst { inst1 0 0 with chunks := [(7, { st := .opened })] } pooled, 4095, 7, 1, [], { inst1 0 0 with chunks := [(7, { st := .opened })] }, by show State.inService _ = true; decide +kernel, by decide +kernel⟩,
   ⟨withInst { inst1 0 0 with flushes := [{ slot := 1 }] }, 4095, 1, true, { inst1 0 0 with flushes := [{ slot := 1 }] }, { slot := 1 }, [], by show State.inService _ = true; decide +kernel, by decide +kernel⟩,
   ⟨withInst { inst1 0 0 with flushes := [{ slot := 0 }], parts := [(0, { entry := BitVec.ofNat 128 (2 ^ 54) })] }, 4095, 0, false, { inst1 0 0 with flushes := [{ slot := 0 }], parts := [(0, { entry := BitVec.ofNat 128 (2 ^ 54) })] }, { slot := 0 }, [], by show State.inService _ = true; decide +kernel, by decide +kernel⟩⟩

/-- Hypotheses of `Obligations.RetortTimersTakeEffect` are met. -/
theorem wit_RetortTimersTakeEffect :
    (∃ (s : State) (g c : Nat) (i : RtInst), s.working ∧ s.inst g = some i ∧ (i.chunk c).timer = true ∧ ((i.chunk c).st = .opened ∨ (i.chunk c).st = .await)) ∧
    (∃ (s : State) (g c : Nat) (i : RtInst), s.working ∧ s.inst g = some i ∧ i.moveFrom ≠ none ∧ (i.oldDone = true ∨ i.st = .failed) ∧ s.groupTraffic g = false) ∧
    (∃ (s : State) (g c : Nat) (i : RtInst), s.working ∧ s.inst g = some i ∧ i.destroying = true ∧ s.groupTraffic g = false) ∧
    (∃ (s : State) (g c : Nat) (i : RtInst), s.working ∧ s.inst g = some i ∧ s.groupTraffic g = true) :=
  ⟨⟨withInst { inst1 0 0 with chunks := [(7, { st := .await, timer := true })] }, 4095, 7, { inst1 0 0 with chunks := [(7, { st := .await, timer := true })] }, by show State.inService _ = true; decide +kernel, by decide +kernel⟩,
   ⟨withInst { inst1 0 0 with moveFrom := some 2, oldDone := true }, 4095, 0, { inst1 0 0 with moveFrom := some 2, oldDone := true }, by show State.inService _ = true; decide +kernel, by decide +kernel⟩,
   ⟨withInst { inst1 0 0 with destroying := true }, 4095, 0, { inst1 0 0 with destroying := true }, by show State.inService _ = true; decide +kernel, by decide +kernel⟩,
   ⟨(withInst (inst1 0 0)).modCore (fun k => { k with delivered := [(71, [{ dst := 71, desc := ({ faddr := faMake 0 2 (4095 * 2 ^ 30) } : Desc).encode }])] }), 4095, 0, inst1 0 0, by show State.inService _ = true; decide +kernel, by decide +kernel⟩⟩

/-- Hypotheses of `Obligations.RetortCommandsComplete` are met. -/
theorem wit_RetortCommandsComplete :
    (∃ (s : State) (c : Path) (p : Nat) (q : Req), s.serves cmdRtGetStatus c p q) ∧
    (∃ (s : State) (c : Path) (p : Nat) (q : Req), s.serves cmdRtPartSet c p q ∧ 1 ≤ q.u8 0x20 ∧ q.u8 0x20 < 32 ∧ q.zero 0x21 3 = true ∧ q.u16 0x24 < 4096 ∧ q.u16 0x24 % q.u16 0x26 = 0 ∧ q.u16 0x26 ≠ 0 ∧ isPow2 (q.u16 0x26) = true ∧ q.u16 0x26 ≤ 64 ∧ q.u16 0x24 + q.u16 0x26 ≤ 4096 ∧ s.rt.blocks.any (fun e => e.1 != q.u8 0x20 && blocksTouch (q.u16 0x24) (q.u16 0x26) e.2.gbase e.2.gcount) = false ∧ s.boundKind (q.u8 0x20) 5 = false ∧ (s.rt.inst.any (fun e => e.2.owner == q.u8 0x20 && !decide (q.u16 0x24 ≤ e.1 ∧ e.1 < q.u16 0x24 + q.u16 0x26)) = false)) ∧
    (∃ (s : State) (c : Path) (p : Nat) (q : Req) (i0 : RtInst), let i := i0.withEntries q; s.serves cmdRtGroupCreate c p q ∧ firstBad (s.createChecks q) = none ∧ s.creating q = some i0 ∧ s.entryFault i0 q = none ∧ (¬ (i.st = .active ∧ i.posting.isEmpty = true ∧ ¬ (i.role = 1 ∧ i.leafList ≠ []))) ∧ q.u8 0x20 = 1) ∧
    (∃ (s : State) (c : Path) (p : Nat) (q : Req) (i0 : RtInst), let g := bits (leNat (q.bytes 0x28 32)) 11 0; let i := i0.withEntries q; s.serves cmdRtGroupCreate c p q ∧ firstBad (s.createChecks q) = none ∧ s.creating q = some i0 ∧ s.entryFault i0 q = none ∧ (¬ (i.st = .active ∧ i.posting.isEmpty = true ∧ ¬ (i.role = 1 ∧ i.leafList ≠ []))) ∧ q.u8 0x20 ≠ 1 ∧ s.inst g = none ∧ q.u8 0x21 ≠ 0xFF ∧ s.engineTakes (q.u8 0x21) i.granules = true ∧ s.rt.inst ≠ [] ∧ s.rt.inst.length < 512 ∧ s.participants + i.nlocal ≤ 256) ∧
    (∃ (s : State) (c : Path) (p : Nat) (q : Req) (i : RtInst), s.serves cmdRtGroupDestroy c p q ∧ s.inst (q.u16 0x20) = some i ∧ q.zero 0x22 2 = true ∧ i.moveFrom = none ∧ i.destroying = false ∧ s.handleFree p = true) ∧
    (∃ (s : State) (c : Path) (p : Nat) (q : Req) (i : RtInst), s.serves cmdRtGroupRead c p q ∧ s.inst (q.u16 0x20) = some i ∧ q.u16 0x22 ≤ i.nlocal ∧ q.u16 0x24 ≤ 245 ∧ q.u16 0x22 + q.u16 0x24 ≤ i.nlocal ∧ q.zero 0x26 2 = true) ∧
    (∃ (s : State) (c : Path) (p : Nat) (q : Req) (i : RtInst), s.serves cmdRtGroupReset c p q ∧ s.inst (q.u16 0x20) = some i ∧ q.u8 0x22 ≠ i.gen ∧ q.zero 0x23 1 = true ∧ (i.st = .active ∨ i.st = .failed) ∧ i.moveFrom = none ∧ i.destroying = false) ∧
    (∃ (s : State) (c : Path) (p : Nat) (q : Req) (i : RtInst), s.serves cmdRtGroupMove c p q ∧ s.inst (q.u16 0x20) = some i ∧ q.u8 0x22 < 4 ∧ q.u8 0x22 ≠ i.engine ∧ q.zero 0x23 1 = true ∧ i.st ≠ .failed ∧ i.moveFrom = none ∧ i.destroying = false ∧ s.engineTakes (q.u8 0x22) i.granules = true ∧ i.st = .defining) ∧
    (∃ (s : State) (c : Path) (p : Nat) (q : Req) (i : RtInst), s.serves cmdRtGroupMove c p q ∧ s.inst (q.u16 0x20) = some i ∧ q.u8 0x22 < 4 ∧ q.u8 0x22 ≠ i.engine ∧ q.zero 0x23 1 = true ∧ i.st ≠ .failed ∧ i.moveFrom = none ∧ i.destroying = false ∧ s.engineTakes (q.u8 0x22) i.granules = true ∧ i.st ≠ .defining ∧ s.handleFree p = true) :=
  ⟨⟨svc, .sideband, 0, req 0, servesOf (by decide +kernel)⟩,
   ⟨svc, .sideband, 0, req 8 ([31, 0, 0, 0] ++ leBytes 2 4032 ++ leBytes 2 64), servesOf (by decide +kernel), by decide +kernel⟩,
   ⟨withInst { desc := BitVec.ofNat 256 (gdesc 0 0) }, .sideband, 0, req 40 ([1, 255, 0, 0, 0, 0, 0, 0] ++ leBytes 2 4095), { desc := BitVec.ofNat 256 (gdesc 0 0) }, servesOf (by decide +kernel), by decide +kernel⟩,
   ⟨withInst (inst1 0 0), .sideband, 0, req 40 ([0, 3, 0, 0, 0, 0, 0, 0] ++ leBytes 32 (gdesc 0 0 + 7)), { desc := BitVec.ofNat 256 (gdesc 0 0 + 7) }, servesOf (by decide +kernel), by decide +kernel⟩,
   ⟨withInst (inst1 0 0), .sideband, 0, req 4 (leBytes 2 4095), inst1 0 0, servesOf (by decide +kernel), by decide +kernel⟩,
   ⟨withInst (inst1 0 0), .sideband, 0, req 8 (leBytes 2 4095 ++ [0, 0, 2, 0]), inst1 0 0, servesOf (by decide +kernel), by decide +kernel⟩,
   ⟨withInst { inst1 0 0 with st := .failed }, .sideband, 0, req 4 (leBytes 2 4095 ++ [6]), { inst1 0 0 with st := .failed }, servesOf (by decide +kernel), by decide +kernel⟩,
   ⟨withInst { inst1 0 0 with st := .defining }, .sideband, 0, req 4 (leBytes 2 4095 ++ [3]), { inst1 0 0 with st := .defining }, servesOf (by decide +kernel), by decide +kernel⟩,
   ⟨withInst (inst1 0 0), .sideband, 0, req 4 (leBytes 2 4095 ++ [3]), inst1 0 0, servesOf (by decide +kernel), by decide +kernel⟩⟩

/-- Hypotheses of `Obligations.FramesTakeEffect` are met. -/
theorem wit_FramesTakeEffect :
    (∃ (s : State) (lp : Nat) (f : Bytes), s.working ∧ s.hasLport lp = true ∧ (s.lport lp).enabled = true ∧ (s.lport lp).linkUp = true ∧ s.blockAway (netBlock lp) = false ∧ 64 ≤ f.length + 4 ∧ f.length + 4 ≤ (s.lport lp).maxFrame ∧ be16 f 12 = 0x8808) ∧
    (∃ (s : State) (lp : Nat) (f : Bytes), s.working ∧ s.hasLport lp = true ∧ (s.lport lp).enabled = true ∧ (s.lport lp).linkUp = true ∧ s.blockAway (netBlock lp) = false ∧ 64 ≤ f.length + 4 ∧ f.length + 4 ≤ (s.lport lp).maxFrame ∧ be16 f 12 ≠ 0x8808) ∧
    (∃ (s : State) (lp : Nat) (f : Bytes), s.working ∧ s.hasLport lp = true ∧ (s.lport lp).enabled = true ∧ (s.lport lp).linkUp = true ∧ s.blockAway (netBlock lp) = false ∧ (f.length ≤ 224 ∨ be16 f 12 = 0x8808)) ∧
    (∃ (s : State) (lp : Nat) (f : Bytes), s.working ∧ s.hasLport lp = true ∧ (s.lport lp).enabled = true ∧ (s.lport lp).linkUp = true ∧ s.blockAway (netBlock lp) = false ∧ 224 < f.length ∧ be16 f 12 ≠ 0x8808) ∧
    (∃ (s : State) (lp : Nat) (f : Bytes) (good : Bool), s.working ∧ (s.lport lp).linkUp = false) ∧
    (∃ (s : State) (lp mask : Nat) (times : List Nat), s.working ∧ s.hasLport lp = true ∧ (s.lport lp).linkUp = true) ∧
    (∃ (s : State) (lp p : Nat), s.working ∧ (s.lport lp).linkUp = true ∧ p < 8 ∧ (s.lport lp).xoff.getLsbD p = true) ∧
    (∃ (s : State) (lp p : Nat), s.working ∧ tget false (s.lport lp).paused p = true) ∧
    (∃ (s : State) (lp p : Nat), s.working ∧ lp < 32 ∧ (s.lport lp).tcPaused p = true) :=
  ⟨⟨lport28, 28, frameOf 60 0x8808, by show State.inService _ = true; decide +kernel, by decide +kernel⟩,
   ⟨lport28, 28, frameOf 60 0x0800, by show State.inService _ = true; decide +kernel, by decide +kernel⟩,
   ⟨lport28, 28, frameOf 224 0x0800, by show State.inService _ = true; decide +kernel, by decide +kernel⟩,
   ⟨lport28, 28, frameOf 225 0x0800, by show State.inService _ = true; decide +kernel, by decide +kernel⟩,
   ⟨svc, 28, [], true, by show State.inService _ = true; decide +kernel, by decide +kernel⟩,
   ⟨lport28, 28, 255, [65535], by show State.inService _ = true; decide +kernel, by decide +kernel⟩,
   ⟨lport28 (fun l => { l with xoff := 128 }), 28, 7, by show State.inService _ = true; decide +kernel, by decide +kernel⟩,
   ⟨lport28 (fun l => { l with paused := [(7, true)] }), 28, 7, by show State.inService _ = true; decide +kernel, by decide +kernel⟩,
   ⟨lport28 (fun l => { l with paused := [(5, true)] }), 28, 5, by show State.inService _ = true; decide +kernel, by decide +kernel⟩⟩

/-- Hypotheses of `Obligations.QueuePairsTakeEffect` are met. -/
theorem wit_QueuePairsTakeEffect :
    (∃ (s : State) (f q value : Nat) (v : Vnic), s.working ∧ s.vnic f = some v ∧ q < v.nqp ∧ value % 2 ^ 15 < 2 ^ (v.qp q).txLog2) ∧
    (∃ (s : State) (f q value : Nat) (v : Vnic), s.working ∧ s.vnic f = some v ∧ q < v.nqp ∧ (v.qp q).enabled = true ∧ (v.qp q).error = false ∧ 2 ^ (v.qp q).txLog2 ≤ value % 2 ^ 15) ∧
    (∃ (s : State) (f q value : Nat) (v : Vnic), s.working ∧ s.vnic f = some v ∧ q < v.nqp ∧ value % 2 ^ 15 < 2 ^ (v.qp q).rxLog2) ∧
    (∃ (s : State) (f q value : Nat) (v : Vnic), s.working ∧ s.vnic f = some v ∧ q < v.nqp ∧ (v.qp q).enabled = true ∧ (v.qp q).error = false ∧ 2 ^ (v.qp q).rxLog2 ≤ value % 2 ^ 15) ∧
    (∃ (s : State) (lp : Nat), let committed := s.pickFn lp (s.lport lp).txPtr (fun n => (s.shaper n).qualifies 0); ∃ (f : Nat), s.working ∧ committed = some f) ∧
    (∃ (s : State) (lp : Nat), let committed := s.pickFn lp (s.lport lp).txPtr (fun n => (s.shaper n).qualifies 0); let excess := s.pickFn lp (s.lport lp).txPtrX (fun n => (s.shaper n).qualifies 1 || (s.shaper n).qualifies 2); ∃ (f : Nat), s.working ∧ committed = none ∧ excess = some f) ∧
    (∃ (s : State) (lp : Nat), let committed := s.pickFn lp (s.lport lp).txPtr (fun n => (s.shaper n).qualifies 0); let excess := s.pickFn lp (s.lport lp).txPtrX (fun n => (s.shaper n).qualifies 1 || (s.shaper n).qualifies 2); s.working ∧ committed = none ∧ excess = none) ∧
    (∃ (s : State) (f q : Nat) (descs : List TxRaw) (v : Vnic), s.working ∧ s.vnic f = some v ∧ (v.qp q).fetching = true ∧ (v.qp q).enabled = false) ∧
    (∃ (s : State) (f q : Nat) (descs : List TxRaw) (v : Vnic), let ds := (uptoEop (descs.map TxRaw.decode)).take (ringAvail (v.qp q).txLog2 (v.qp q).fetchTo (v.qp q).txHead); ∃ (d : TxDesc) (r : List TxDesc), s.working ∧ s.vnic f = some v ∧ (v.qp q).fetching = true ∧ (v.qp q).enabled = true ∧ (v.qp q).error = false ∧ ds = d :: r) ∧
    (∃ (s : State) (f q : Nat) (descs : List TxRaw) (v : Vnic), let ds := (uptoEop (descs.map TxRaw.decode)).take (ringAvail (v.qp q).txLog2 (v.qp q).fetchTo (v.qp q).txHead); s.working ∧ s.vnic f = some v ∧ (v.qp q).fetching = true ∧ (v.qp q).enabled = true ∧ (v.qp q).error = false ∧ ds = []) ∧
    (∃ (s : State) (lp : Nat), ∃ (p : Pkt), s.working ∧ s.hasLport lp = true ∧ (s.lport lp).linkUp = true ∧ (s.lport lp).sending = some p) ∧
    (∃ (s : State) (lp : Nat), ∃ (c : Nat), let s1 := (List.range 8).foldl (fun t c => State.gateDrop lp c (t.lport lp).egress.length t) s; let elig := (List.range 8).map (fun c => s1.tcEligible lp c); s.working ∧ s.hasLport lp = true ∧ (s.lport lp).linkUp = true ∧ (s.lport lp).sending = none ∧ [7, 6, 5, 4, 3, 2, 1, 0].find? (fun c => (s1.lport lp).strict.getLsbD c && lget false elig c) = some c) ∧
    (∃ (s : State) (f q : Nat) (bufs : List Nat) (w : Pkt), let k := s.qpOf f q; let n := k.bufsFor w.data.length; s.working ∧ s.net.rxWait.find? (fun w => w.func == f && w.qp == q) = some w ∧ s.rxTakes w = true ∧ n ≤ k.rxFree ∧ n ≤ bufs.length) ∧
    (∃ (s : State) (f q : Nat) (bufs : List Nat) (w : Pkt), let k := s.qpOf f q; let n := k.bufsFor w.data.length; s.working ∧ s.net.rxWait.find? (fun w => w.func == f && w.qp == q) = some w ∧ k.rxFree < n) ∧
    (∃ (s : State) (f q : Nat) (bufs : List Nat) (w : Pkt), let k := s.qpOf f q; let n := k.bufsFor w.data.length; s.working ∧ s.net.rxWait.find? (fun w => w.func == f && w.qp == q) = some w ∧ n ≤ k.rxFree) ∧
    (∃ (s : State) (f q : Nat), s.working ∧ (s.qpOf f q).itrWait = true ∧ (s.qpOf f q).itrPend = true) ∧
    (∃ (s : State) (f q : Nat), s.working ∧ (s.qpOf f q).itrWait = true ∧ (s.qpOf f q).itrPend = false) :=
  ⟨⟨nic {}, 1023, 1, 63, { lport := 28, nqp := 2, qps := [(1, {})] }, by show State.inService _ = true; decide +kernel, by decide +kernel⟩,
   ⟨nic { enabled := true }, 1023, 1, 64, { lport := 28, nqp := 2, qps := [(1, { enabled := true })] }, by show State.inService _ = true; decide +kernel, by decide +kernel⟩,
   ⟨nic {}, 1023, 1, 63, { lport := 28, nqp := 2, qps := [(1, {})] }, by show State.inService _ = true; decide +kernel, by decide +kernel⟩,
   ⟨nic { enabled := true }, 1023, 1, 64, { lport := 28, nqp := 2, qps := [(1, { enabled := true })] }, by show State.inService _ = true; decide +kernel, by decide +kernel⟩,
   ⟨(nic { enabled := true, txTail := 1 }).modShaper 1023 (fun h => { h with enabled := true, ct := 1, pt := 1 }), 28, 1023, by show State.inService _ = true; decide +kernel, by decide +kernel⟩,
   ⟨nic { enabled := true, txTail := 1 }, 28, 1023, by show State.inService _ = true; decide +kernel, by decide +kernel⟩,
   ⟨svc, 28, by show State.inService _ = true; decide +kernel, by decide +kernel⟩,
   ⟨nic { fetching := true }, 1023, 1, [], { lport := 28, nqp := 2, qps := [(1, { fetching := true })] }, by show State.inService _ = true; decide +kernel, by decide +kernel⟩,
   ⟨nic { enabled := true, fetching := true, fetchTo := 2 }, 1023, 1, [eopRaw], { lport := 28, nqp := 2, qps := [(1, { enabled := true, fetching := true, fetchTo := 2 })] }, TxRaw.decode eopRaw, [], by show State.inService _ = true; decide +kernel, by decide +kernel⟩,
   ⟨nic { enabled := true, fetching := true }, 1023, 1, [eopRaw], { lport := 28, nqp := 2, qps := [(1, { enabled := true, fetching := true })] }, by show State.inService _ = true; decide +kernel, by decide +kernel⟩,
   ⟨lport28 (fun l => { l with sending := some {} }), 28, {}, by show State.inService _ = true; decide +kernel, by decide +kernel⟩,
   ⟨lport28 (fun l => { l with strict := 255, egress := [{ tc := 7, actArg := 28 }] }), 28, 7, by show State.inService _ = true; decide +kernel, by decide +kernel⟩,
   ⟨(nic { enabled := true, rxTail := 1 }).modNet (fun n => { n with rxWait := [toNic] }), 1023, 1, [0], toNic, by show State.inService _ = true; decide +kernel, by decide +kernel⟩,
   ⟨(nic {}).modNet (fun n => { n with rxWait := [toNic] }), 1023, 1, [], toNic, by show State.inService _ = true; decide +kernel, by decide +kernel⟩,
   ⟨(nic { rxTail := 1 }).modNet (fun n => { n with rxWait := [toNic] }), 1023, 1, [], toNic, by show State.inService _ = true; decide +kernel, by decide +kernel⟩,
   ⟨nic { itrWait := true, itrPend := true }, 1023, 1, by show State.inService _ = true; decide +kernel, by decide +kernel⟩,
   ⟨nic { itrWait := true }, 1023, 1, by show State.inService _ = true; decide +kernel, by decide +kernel⟩⟩

/-- Hypotheses of `Obligations.PortAndFunctionEventsTakeEffect` are met. -/
theorem wit_PortAndFunctionEventsTakeEffect :
    (∃ (s : State) (lp : Nat), s.working ∧ s.hasLport lp = true ∧ (s.lport lp).enabled = true ∧ (s.lport lp).linkUp = false ∧ s.boot.etherHeld = false ∧ s.blockAway (netBlock lp) = false) ∧
    (∃ (s : State) (lp : Nat), s.working ∧ s.hasLport lp = true ∧ (s.lport lp).enabled = true ∧ (s.lport lp).linkUp = true) ∧
    (∃ (s : State) (f : Nat) (v : Vnic), s.working ∧ s.vnic f = some v) ∧
    (∃ (s : State) (f q h : Nat), s.dieUp = true ∧ (s.qpOf f q).disabling = some h ∧ (s.qpOf f q).fetching = false ∧ (s.qpOf f q).wb = []) ∧
    (∃ (s : State) (lp h : Nat), s.dieUp = true ∧ (s.lport lp).training = some h) ∧
    (∃ (s : State) (lp h : Nat), s.dieUp = true ∧ (s.lport lp).training = some h ∧ ((s.linkChange lp true).lport lp).linkUp = true) :=
  ⟨⟨lport28 (fun l => { l with linkUp := false }), 28, by show State.inService _ = true; decide +kernel, by decide +kernel⟩,
   ⟨lport28, 28, by show State.inService _ = true; decide +kernel, by decide +kernel⟩,
   ⟨nic {}, 1023, { lport := 28, nqp := 2, qps := [(1, {})] }, by show State.inService _ = true; decide +kernel, by decide +kernel⟩,
   ⟨nic { disabling := some 4 }, 1023, 1, 4, by decide +kernel⟩,
   ⟨lport28 (fun l => { l with training := some 4 }), 28, 4, by decide +kernel⟩,
   ⟨lport28 (fun l => { l with training := some 4, linkUp := false }), 28, 4, by decide +kernel⟩⟩

/-- Hypotheses of `Obligations.NetCommandsComplete` are met. -/
theorem wit_NetCommandsComplete :
    (∃ (s : State) (c : Path) (p : Nat) (q : Req), s.serves cmdNetGetStatus c p q ∧ s.hasLport (q.u8 0x20) = true ∧ q.zero 0x21 3 = true) ∧
    (∃ (s : State) (c : Path) (p : Nat) (q : Req), s.serves cmdNetPortSet c p q ∧ firstBad (s.portSetChecks q) = none ∧ bit (q.u8 0x21) 0 = false ∧ bit (q.u8 0x21) 1 = false ∧ bit (q.u8 0x21) 2 = false ∧ (s.lport (q.u8 0x20)).training = none ∧ (∀ i < 4, (s.modLport (q.u8 0x20) (portSetOf q)).stagingFits (q.u8 0x20 / 4 * 4 + i) = true)) ∧
    (∃ (s : State) (c : Path) (p : Nat) (q : Req), s.serves cmdVnicCreate c p q ∧ q.u16 0x20 < 1024 ∧ q.u8 0x22 < 32 ∧ s.hasLport (q.u8 0x23) = true ∧ 1 ≤ q.u8 0x24 ∧ q.u8 0x24 ≤ 64 ∧ q.u8 0x25 / 4 = 0 ∧ pvidOk (q.u8 0x25) (q.u16 0x26) = true ∧ q.zero 0x2E 2 = true ∧ s.vnic (q.u16 0x20) = none ∧ s.net.vnics.countP (fun e => e.2.part == q.u8 0x22) < 32 ∧ s.net.vnics.length < 1024 ∧ s.qpsUsed + q.u8 0x24 ≤ 16384) ∧
    (∃ (s : State) (c : Path) (p : Nat) (q : Req) (v : Vnic), s.serves cmdVnicDestroy c p q ∧ s.vnic (q.u16 0x20) = some v ∧ q.zero 0x22 2 = true ∧ s.vnicBound (q.u16 0x20) = false ∧ v.destroying = none ∧ s.handleFree p = true) ∧
    (∃ (s : State) (c : Path) (p : Nat) (q : Req) (v : Vnic), s.serves cmdVnicSet c p q ∧ s.vnic (q.u16 0x20) = some v ∧ q.u8 0x22 = 2 ∧ q.u8 0x23 ≤ 1 ∧ q.zero 0x26 2 = true ∧ q.zero 0xD7 1 = true ∧ q.zero 0xDA 6 = true ∧ v.destroying = none) ∧
    (∃ (s : State) (c : Path) (p : Nat) (q : Req) (v : Vnic), s.serves cmdVnicQpSet c p q ∧ s.vnic (q.u16 0x20) = some v ∧ q.u8 0x22 < v.nqp ∧ q.u8 0x27 < 16 ∧ q.u16 0x38 ≤ 10000 ∧ q.zero 0x3A 6 = true ∧ v.destroying = none ∧ q.u8 0x23 = 1 ∧ 6 ≤ q.u8 0x24 ∧ q.u8 0x24 ≤ 15 ∧ 6 ≤ q.u8 0x25 ∧ q.u8 0x25 ≤ 15 ∧ 2 ≤ q.u8 0x26 ∧ q.u8 0x26 ≤ 16 ∧ q.u64 0x28 % 4096 = 0 ∧ q.u64 0x30 % 4096 = 0 ∧ (v.qp (q.u8 0x22)).enabled = false ∧ (v.qp (q.u8 0x22)).error = false ∧ (v.qp (q.u8 0x22)).disabling = none) ∧
    (∃ (s : State) (c : Path) (p : Nat) (q : Req) (v : Vnic), s.serves cmdVnicQpSet c p q ∧ s.vnic (q.u16 0x20) = some v ∧ q.u8 0x22 < v.nqp ∧ q.u8 0x27 < 16 ∧ q.u16 0x38 ≤ 10000 ∧ q.zero 0x3A 6 = true ∧ v.destroying = none ∧ q.u8 0x23 = 2 ∧ (v.qp (q.u8 0x22)).error = true ∧ (v.qp (q.u8 0x22)).disabling = none) ∧
    (∃ (s : State) (c : Path) (p : Nat) (q : Req) (v : Vnic), s.serves cmdVnicQpSet c p q ∧ s.vnic (q.u16 0x20) = some v ∧ q.u8 0x22 < v.nqp ∧ q.u8 0x27 < 16 ∧ q.u16 0x38 ≤ 10000 ∧ q.zero 0x3A 6 = true ∧ v.destroying = none ∧ q.u8 0x23 = 0 ∧ (v.qp (q.u8 0x22)).disabling = none ∧ s.handleFree p = true) ∧
    (∃ (s : State) (c : Path) (p : Nat) (q : Req) (t : Tab (BitVec 128)), s.serves cmdNetEmSet c p q ∧ 1 ≤ q.u16 0x20 ∧ q.u16 0x20 ≤ 253 ∧ q.zero 0x22 6 = true ∧ (∀ i < q.u16 0x20, s.emRecordOk (emRecord q i) = true) ∧ emApply ((List.range (q.u16 0x20)).map (fun i => (i, emRecord q i))) s.net.em = .ok t) ∧
    (∃ (s : State) (c : Path) (p : Nat) (q : Req), s.serves cmdNetAclSet c p q ∧ q.u16 0x20 < 4096 ∧ 1 ≤ q.u16 0x22 ∧ q.u16 0x22 ≤ 63 ∧ q.u16 0x20 + q.u16 0x22 ≤ 4096 ∧ q.zero 0x24 4 = true ∧ (∀ k < q.u16 0x22, ∀ e ∈ aclRecordChecks q k, e.2 = true)) ∧
    (∃ (s : State) (c : Path) (p : Nat) (q : Req), s.serves cmdNetPtpClock c p q ∧ q.zero 0x21 3 = true ∧ q.zero 0x3C 4 = true ∧ q.u8 0x20 = 0) ∧
    (∃ (s : State) (c : Path) (p : Nat) (q : Req), s.serves cmdNetPtpClock c p q ∧ q.zero 0x21 3 = true ∧ q.zero 0x3C 4 = true ∧ q.u8 0x20 = 1 ∧ q.u32 0x24 < 1000000000 ∧ q.u64 0x28 < 2 ^ 48) ∧
    (∃ (s : State) (c : Path) (p : Nat) (q : Req), s.serves cmdNetPtpClock c p q ∧ q.zero 0x21 3 = true ∧ q.zero 0x3C 4 = true ∧ q.u8 0x20 = 2) ∧
    (∃ (s : State) (c : Path) (p : Nat) (q : Req), s.serves cmdNetPtpClock c p q ∧ q.zero 0x21 3 = true ∧ q.zero 0x3C 4 = true ∧ q.u8 0x20 = 3 ∧ -500000 ≤ signed 32 (q.u32 0x38) ∧ signed 32 (q.u32 0x38) ≤ 500000) :=
  ⟨⟨svc, .sideband, 0, req 4 [28], servesOf (by decide +kernel), by decide +kernel⟩,
   ⟨svc, .sideband, 0, req 32 [28, 8, 0, 0, 0, 0, 0, 0, 0, 36], servesOf (by decide +kernel), by decide +kernel⟩,
   ⟨svc, .sideband, 0, req 16 ([255, 3, 31, 28, 64, 3] ++ leBytes 2 4094 ++ [2, 0, 0, 0, 0, 1]), servesOf (by decide +kernel), by decide +kernel⟩,
   ⟨nic {}, .sideband, 0, req 4 [255, 3], { lport := 28, nqp := 2, qps := [(1, {})] }, servesOf (by decide +kernel), by decide +kernel⟩,
   ⟨nic {}, .sideband, 0, req 192 [255, 3, 2, 1], { lport := 28, nqp := 2, qps := [(1, {})] }, servesOf (by decide +kernel), by decide +kernel⟩,
   ⟨nic {}, .sideband, 0, req 32 ([255, 3, 1, 1, 15, 6, 16, 15] ++ leBytes 8 4096 ++ leBytes 8 8192 ++ leBytes 2 10000), { lport := 28, nqp := 2, qps := [(1, {})] }, servesOf (by decide +kernel), by decide +kernel⟩,
   ⟨nic { error := true }, .sideband, 0, req 32 [255, 3, 1, 2], { lport := 28, nqp := 2, qps := [(1, { error := true })] }, servesOf (by decide +kernel), by decide +kernel⟩,
   ⟨nic { enabled := true }, .sideband, 0, req 32 [255, 3, 1, 0], { lport := 28, nqp := 2, qps := [(1, { enabled := true })] }, servesOf (by decide +kernel), by decide +kernel⟩,
   ⟨svc, .sideband, 0, req 24 ([1, 0, 0, 0, 0, 0, 0, 0] ++ leBytes 16 (5 + 28 * 2 ^ 60 + 2 ^ 82)), [(5 + 28 * 2 ^ 60, BitVec.ofNat 128 (5 + 28 * 2 ^ 60 + 2 ^ 82))], servesOf (by decide +kernel), by decide +kernel, by decide +kernel, by decide +kernel, by decide +kernel, by rfl⟩,
   ⟨svc, .sideband, 0, req 72 (leBytes 2 4095 ++ [1]), servesOf (by decide +kernel), by decide +kernel⟩,
   ⟨svc, .sideband, 0, req 32, servesOf (by decide +kernel), by decide +kernel⟩,
   ⟨svc, .sideband, 0, req 32 ([1, 0, 0, 0] ++ leBytes 4 999999999 ++ leBytes 8 (2 ^ 48 - 1)), servesOf (by decide +kernel), by decide +kernel⟩,
   ⟨svc, .sideband, 0, req 32 [2], servesOf (by decide +kernel), by decide +kernel⟩,
   ⟨svc, .sideband, 0, req 32 ([3] ++ List.replicate 23 0 ++ leBytes 4 500000), servesOf (by decide +kernel), by decide +kernel⟩⟩

/-- Hypotheses of `Obligations.GateAndPtpEventsTakeEffect` are met. -/
theorem wit_GateAndPtpEventsTakeEffect :
    (∃ (s : State) (n : Nat) (l : GateList), s.working ∧ (s.gate n).oper = some l) ∧
    (∃ (s : State) (n : Nat) (l : GateList), s.working ∧ (s.gate n).pend = some l ∧ (s.gate n).byStrict = false ∧ n < 32) ∧
    (∃ (s : State) (n : Nat) (l : GateList), s.working ∧ (s.gate n).pend = some l ∧ (s.gate n).byStrict = false ∧ 32 ≤ n) ∧
    (∃ (s : State) (k : Nat), s.working ∧ (s.ptpOut k).enabled = true) ∧
    (∃ (s : State) (k : Nat) (falling : Bool), let i := s.ptpIn k; s.working ∧ i.selects falling = false) ∧
    (∃ (s : State) (k : Nat) (falling : Bool), let i := s.ptpIn k; s.working ∧ i.selects falling = true ∧ i.event = false ∧ k ≠ 0 ∧ i.queue.length < 64) ∧
    (∃ (s : State) (k : Nat) (falling : Bool), let i := s.ptpIn k; s.working ∧ i.selects falling = true ∧ i.event = false ∧ k ≠ 0 ∧ 64 ≤ i.queue.length) ∧
    (∃ (s : State), s.boot.phase ≠ .off ∧ s.time.ptpLocked = true) ∧
    (∃ (s : State), s.boot.phase ≠ .off) :=
  ⟨⟨svc.modGate 31 (fun g => { g with oper := some { cycleNs := 1000, entries := [(255, 125)] } }), 31, { cycleNs := 1000, entries := [(255, 125)] }, by show State.inService _ = true; decide +kernel, by decide +kernel⟩,
   ⟨svc.modGate 31 (fun g => { g with pend := some { cycleNs := 1000, entries := [(255, 125)] } }), 31, { cycleNs := 1000, entries := [(255, 125)] }, by show State.inService _ = true; decide +kernel, by decide +kernel⟩,
   ⟨svc.modGate 32 (fun g => { g with pend := some { cycleNs := 1000, entries := [(255, 125)] } }), 32, { cycleNs := 1000, entries := [(255, 125)] }, by show State.inService _ = true; decide +kernel, by decide +kernel⟩,
   ⟨svc.modTm (fun t => { t with outs := [(2, { enabled := true })] }), 2, by show State.inService _ = true; decide +kernel, by decide +kernel⟩,
   ⟨svc, 1, true, by show State.inService _ = true; decide +kernel, by decide +kernel⟩,
   ⟨svc.modTm (fun t => { t with ins := [(2, { enabled := true, edge := 1, queue := List.replicate 63 (0, 0, 0) })] }), 2, true, by show State.inService _ = true; decide +kernel, by decide +kernel⟩,
   ⟨svc.modTm (fun t => { t with ins := [(2, { enabled := true, edge := 2, queue := List.replicate 64 (0, 0, 0) })] }), 2, false, by show State.inService _ = true; decide +kernel, by decide +kernel⟩,
   ⟨{ svc with time := { svc.time with ptpLocked := true } }, by decide +kernel⟩,
   ⟨svc, by decide +kernel⟩⟩

/-- Hypotheses of `Obligations.TrafficCommandsComplete` are met. -/
theorem wit_TrafficCommandsComplete :
    (∃ (s : State) (c : Path) (p : Nat) (q : Req), s.serves cmdTmShaperSet c p q ∧ (s.vnic (q.u16 0x20)).isSome = true ∧ q.u8 0x22 = 1 ∧ q.u8 0x23 ≤ 1 ∧ q.u32 0x24 ≤ q.u32 0x28 ∧ 1 ≤ q.u32 0x28 ∧ q.u32 0x28 ≤ 400000 ∧ 1518 ≤ q.u32 0x2C ∧ q.u32 0x2C < 2 ^ 24 ∧ 1518 ≤ q.u32 0x30 ∧ q.u32 0x30 < 2 ^ 24) ∧
    (∃ (s : State) (c : Path) (p : Nat) (q : Req), s.serves cmdTmSchedSet c p q ∧ s.hasLport (q.u8 0x20) = true ∧ q.zero 0x22 2 = true ∧ (∀ t < 8, if bit (q.u8 0x21) t then q.u16 (0x24 + 2 * t) = 0 else 1 ≤ q.u16 (0x24 + 2 * t) ∧ q.u16 (0x24 + 2 * t) ≤ 4095)) ∧
    (∃ (s : State) (c : Path) (p : Nat) (q : Req), s.serves cmdTmMeterSet c p q ∧ q.u16 0x20 < 4096 ∧ q.u8 0x22 = 0xFF ∧ (∀ i < 29, q.u8 (0x23 + i) = 0)) ∧
    (∃ (s : State) (c : Path) (p : Nat) (q : Req), s.serves cmdTmMeterSet c p q ∧ q.u16 0x20 < 4096 ∧ q.u8 0x22 ≤ 1 ∧ q.u8 0x23 ≤ 1 ∧ 1 ≤ q.u32 0x24 ∧ q.u32 0x24 ≤ q.u32 0x28 ∧ q.u32 0x28 ≤ 400000 ∧ 1518 ≤ q.u32 0x2C ∧ q.u32 0x2C < 2 ^ 24 ∧ 1518 ≤ q.u32 0x30 ∧ q.u32 0x30 < 2 ^ 24 ∧ actionOk (q.u32 0x34) = true ∧ actionOk (q.u32 0x38) = true ∧ actionOk (q.u32 0x3C) = true) ∧
    (∃ (s : State) (c : Path) (p : Nat) (q : Req), s.serves cmdTmWredSet c p q ∧ q.u8 0x20 < 16 ∧ q.zero 0x22 2 = true ∧ q.u8 0x21 = 0 ∧ (∀ o ∈ [0x24, 0x30, 0x3C], q.zero o 12 = true)) ∧
    (∃ (s : State) (c : Path) (p : Nat) (q : Req), s.serves cmdTmWredSet c p q ∧ q.u8 0x20 < 16 ∧ q.zero 0x22 2 = true ∧ q.u8 0x21 = 1 ∧ (∀ o ∈ [0x24, 0x30, 0x3C], q.u32 o < q.u32 (o + 4) ∧ q.u32 (o + 4) ≤ 524288 ∧ q.u8 (o + 9) ≤ 15 ∧ q.u8 (o + 10) ≤ 1 ∧ q.zero (o + 11) 1 = true)) ∧
    (∃ (s : State) (c : Path) (p : Nat) (q : Req), s.serves cmdTmGateSet c p q ∧ s.hasLport (q.u8 0x20) = true ∧ q.zero 0x34 4 = true ∧ s.iso.strict = false ∧ (∀ e ∈ gateEntryChecks q, e.2 = true) ∧ q.u8 0x21 = 0 ∧ q.u16 0x22 = 0) ∧
    (∃ (s : State) (c : Path) (p : Nat) (q : Req), ∃ (k : Nat), let l := gateListOf q; let t := firstAt l.base l.cycleNs (s.ptpNow + 10000); let s1 := (s.modGate (q.u8 0x20) (fun g => { g with pend := none })).settleGateComps; s.serves cmdTmGateSet c p q ∧ s.hasLport (q.u8 0x20) = true ∧ q.zero 0x34 4 = true ∧ s.iso.strict = false ∧ (∀ e ∈ gateEntryChecks q, e.2 = true) ∧ q.u8 0x21 = 1 ∧ 1 ≤ q.u16 0x22 ∧ q.u16 0x22 ≤ 256 ∧ 1000 ≤ l.cycleNs ∧ l.cycleNs ≤ 1000000000 ∧ l.cycleNs % 8 = 0 ∧ l.baseSec < 2 ^ 48 ∧ l.baseNs < 1000000000 ∧ s1.gateComp t = some k) ∧
    (∃ (s : State) (c : Path) (p : Nat) (q : Req), s.serves cmdTmGateGet c p q ∧ s.hasLport (q.u8 0x20) = true ∧ q.u8 0x21 ≤ 1 ∧ q.zero 0x22 2 = true) ∧
    (∃ (s : State) (c : Path) (p : Nat) (q : Req), s.serves cmdPtpOutSet c p q ∧ q.zero 0x22 2 = true ∧ q.zero 0x38 8 = true ∧ q.u8 0x20 = 0xFF ∧ q.u8 0x21 = 0 ∧ q.u64 0x24 = 0 ∧ q.u32 0x2C = 0 ∧ q.u32 0x30 = 0 ∧ q.u32 0x34 = 0) ∧
    (∃ (s : State) (c : Path) (p : Nat) (q : Req), s.serves cmdPtpOutSet c p q ∧ q.zero 0x22 2 = true ∧ q.zero 0x38 8 = true ∧ q.u8 0x20 ≤ 2 ∧ q.u8 0x21 = 0) ∧
    (∃ (s : State) (c : Path) (p : Nat) (q : Req), ∃ (i : Nat), s.serves cmdPtpOutSet c p q ∧ q.zero 0x22 2 = true ∧ q.zero 0x38 8 = true ∧ q.u8 0x20 ≤ 2 ∧ q.u8 0x21 = 1 ∧ q.u64 0x24 < 2 ^ 48 ∧ q.u32 0x2C < 1000000000 ∧ 1000 ≤ q.u32 0x30 ∧ q.u32 0x30 ≤ 1000000000 ∧ q.u32 0x30 % 8 = 0 ∧ 8 ≤ q.u32 0x34 ∧ q.u32 0x34 + 8 ≤ q.u32 0x30 ∧ q.u32 0x34 % 8 = 0 ∧ s.tm.slotPower.contains (outLand (q.u8 0x20)) = false ∧ (q.u8 0x20 = 0 ∨ (s.ptpIn (q.u8 0x20)).enabled = false) ∧ (s.ptpOut (q.u8 0x20)).enabled = false ∧ s.freeComp = some i) ∧
    (∃ (s : State) (c : Path) (p : Nat) (q : Req), s.serves cmdPtpInSet c p q ∧ q.u8 0x20 ≤ 2 ∧ q.u8 0x23 ≤ 1 ∧ q.u8 0x21 = 0 ∧ q.u8 0x22 = 0) ∧
    (∃ (s : State) (c : Path) (p : Nat) (q : Req), s.serves cmdPtpInSet c p q ∧ q.u8 0x20 ≤ 2 ∧ q.u8 0x23 ≤ 1 ∧ q.u8 0x21 = 1 ∧ q.u8 0x22 ≤ 2 ∧ s.tm.slotPower.contains (inLand (q.u8 0x20)) = false ∧ (q.u8 0x20 = 0 ∨ (s.ptpOut (q.u8 0x20)).enabled = false)) ∧
    (∃ (s : State) (c : Path) (p : Nat) (q : Req), s.serves cmdPtpInRead c p q ∧ q.u8 0x20 ≤ 2 ∧ 1 ≤ q.u8 0x21 ∧ q.u8 0x21 ≤ 64 ∧ q.zero 0x22 2 = true) :=
  ⟨⟨nic {}, .sideband, 0, req 20 ([255, 3, 1, 1] ++ leBytes 4 400000 ++ leBytes 4 400000 ++ leBytes 4 1518 ++ leBytes 4 (2 ^ 24 - 1)), servesOf (by decide +kernel), by decide +kernel⟩,
   ⟨svc, .sideband, 0, req 20 ([28, 127, 0, 0] ++ List.replicate 14 0 ++ leBytes 2 4095), servesOf (by decide +kernel), by decide +kernel⟩,
   ⟨svc, .sideband, 0, req 32 (leBytes 2 4095 ++ [255]), servesOf (by decide +kernel), by decide +kernel⟩,
   ⟨svc, .sideband, 0, req 32 (leBytes 2 4095 ++ [1, 1] ++ leBytes 4 1 ++ leBytes 4 400000 ++ leBytes 4 1518 ++ leBytes 4 (2 ^ 24 - 1) ++ [2, 0, 0, 0, 1]), servesOf (by decide +kernel), by decide +kernel⟩,
   ⟨svc, .sideband, 0, req 40 [15], servesOf (by decide +kernel), by decide +kernel⟩,
   ⟨svc, .sideband, 0, req 40 ([15, 1, 0, 0] ++ (leBytes 4 0 ++ leBytes 4 524288 ++ [200, 15, 1, 0]) ++ (leBytes 4 7 ++ leBytes 4 8 ++ [0, 0, 0, 0]) ++ (leBytes 4 0 ++ leBytes 4 1 ++ [9, 1, 1, 0])), servesOf (by decide +kernel), by decide +kernel⟩,
   ⟨svc, .sideband, 0, req 24 [28], servesOf (by decide +kernel), by decide +kernel⟩,
   ⟨svc, .sideband, 0, req 32 ([28, 1, 1, 0] ++ leBytes 4 1000 ++ leBytes 8 (2 ^ 48 - 1) ++ leBytes 4 999999999 ++ [0, 0, 0, 0] ++ [255, 0, 0, 0, 125, 0, 0, 0]), 0, servesOf (by decide +kernel), by decide +kernel⟩,
   ⟨svc, .sideband, 0, req 4 [28, 1], servesOf (by decide +kernel), by decide +kernel⟩,
   ⟨svc, .sideband, 0, req 32 [255], servesOf (by decide +kernel), by decide +kernel⟩,
   ⟨svc.modTm (fun t => { t with outs := [(2, { enabled := true })] }), .sideband, 0, req 32 [2], servesOf (by decide +kernel), by decide +kernel⟩,
   ⟨svc, .sideband, 0, req 32 ([2, 1, 0, 0] ++ leBytes 8 (2 ^ 48 - 1) ++ leBytes 4 999999999 ++ leBytes 4 1000000000 ++ leBytes 4 999999992), 0, servesOf (by decide +kernel), by decide +kernel⟩,
   ⟨svc, .sideband, 0, req 4 [2], servesOf (by decide +kernel), by decide +kernel⟩,
   ⟨svc, .sideband, 0, req 4 [2, 1, 2, 1], servesOf (by decide +kernel), by decide +kernel⟩,
   ⟨svc.modTm (fun t => { t with ins := [(2, { lost := 3 })] }), .sideband, 0, req 4 [2, 64], servesOf (by decide +kernel), by decide +kernel⟩⟩

/-- Hypotheses of `Obligations.HearthAccessesTakeEffect` are met. -/
theorem wit_HearthAccessesTakeEffect :
    (∃ (s : State) (c k rd size : Nat) (addr : Word) (sgn : Bool) (ecc : Eccs) (v : Word), let g := s.mpuInForce c k; ∃ (ps : List HPiece), s.working ∧ s.hRuns c k = true ∧ g.2.checkPieces c g.1 (s.hcore c k) (rdKind rd) (cut64 addr.toNat size) = .ok ps) ∧
    (∃ (s : State) (c k rd size : Nat) (addr : Word) (sgn : Bool) (ecc : Eccs) (v : Word), let g := s.mpuInForce c k; ∃ (e : HFault × Nat), s.working ∧ s.hRuns c k = true ∧ g.2.checkPieces c g.1 (s.hcore c k) (rdKind rd) (cut64 addr.toNat size) = .error e) ∧
    (∃ (s : State) (c k rd size : Nat) (addr : Word) (sgn : Bool) (ecc : Eccs) (v : Word), let g := s.mpuInForce c k; ∃ (ps : List HPiece), s.working ∧ s.hRuns c k = true ∧ g.2.checkPieces c g.1 (s.hcore c k) (rdKind 32) (cut64 addr.toNat size) = .ok ps) ∧
    (∃ (s : State) (c k rd size : Nat) (addr : Word) (sgn : Bool) (ecc : Eccs) (v : Word), let g := s.mpuInForce c k; ∃ (ps : List HPiece), s.working ∧ s.hRuns c k = true ∧ g.2.checkPieces c g.1 (s.hcore c k) .store (cut64 addr.toNat size) = .ok ps) ∧
    (∃ (s : State) (c k rd size : Nat) (addr : Word) (sgn : Bool) (ecc : Eccs) (v : Word), let g := s.mpuInForce c k; ∃ (e : HFault × Nat), s.working ∧ s.hRuns c k = true ∧ g.2.checkPieces c g.1 (s.hcore c k) .store (cut64 addr.toNat size) = .error e) ∧
    (∃ (s t : State) (c k rd size key : Nat) (addr v : Word) (ecc : Eccs) (op : AmoOp), let t1 := t.eccAt key size ecc (some (s.cluster c).part); s.working ∧ s.hRuns c k = true ∧ s.atomicAt c k .load addr size = .inr (t, key) ∧ t1.pool.tainted key size = false) ∧
    (∃ (s t : State) (c k rd size key : Nat) (addr v : Word) (ecc : Eccs) (op : AmoOp), let t1 := t.eccAt key size ecc (some (s.cluster c).part); s.working ∧ s.hRuns c k = true ∧ s.atomicAt c k .load addr size = .inr (t, key) ∧ t1.pool.tainted key size = true) ∧
    (∃ (s t : State) (c k rd size key : Nat) (addr v : Word) (ecc : Eccs) (op : AmoOp), s.working ∧ s.hRuns c k = true ∧ s.atomicAt c k .store addr size = .inr (t, key) ∧ (t.hcore c k).reservation = some (key / 64)) ∧
    (∃ (s t : State) (c k rd size key : Nat) (addr v : Word) (ecc : Eccs) (op : AmoOp), ∃ (spurious : Bool), s.working ∧ s.hRuns c k = true ∧ s.atomicAt c k .store addr size = .inr (t, key) ∧ ((t.hcore c k).reservation ≠ some (key / 64) ∨ spurious = true)) ∧
    (∃ (s t : State) (c k rd size key : Nat) (addr v : Word) (ecc : Eccs) (op : AmoOp), let t1 := t.eccAt key size ecc (some (s.cluster c).part); s.working ∧ s.hRuns c k = true ∧ s.atomicAt c k .store addr size = .inr (t, key) ∧ t1.pool.tainted key size = false) ∧
    (∃ (s t : State) (c k rd size key : Nat) (addr v : Word) (ecc : Eccs) (op : AmoOp), let t1 := t.eccAt key size ecc (some (s.cluster c).part); s.working ∧ s.hRuns c k = true ∧ s.atomicAt c k .store addr size = .inr (t, key) ∧ t1.pool.tainted key size = true) ∧
    (∃ (s t : State) (c k rd size key : Nat) (addr v : Word) (ecc : Eccs) (op : AmoOp), s.working ∧ s.hRuns c k = true ∧ addr.toNat % size ≠ 0) ∧
    (∃ (s : State) (c k rd size : Nat) (addr v : Word) (sgn : Bool) (ecc : Eccs), s.working ∧ s.hRuns c k = false) :=
  ⟨⟨hrun, 3, 7, 31, 8, 0x30003C, false, [], 0, [{ va := 0x30003C, pa := 0x30003C, n := 4 }, { va := 0x300040, pa := 0x300040, n := 4 }], by show State.inService _ = true; decide +kernel, by decide +kernel, by rfl⟩,
   ⟨hrun, 3, 7, 31, 8, 0x2000000000000, false, [], 0, ((5, false), 0x2000000000000), by show State.inService _ = true; decide +kernel, by decide +kernel, by rfl⟩,
   ⟨hrun, 3, 7, 32, 4, 0x080000000000, false, [], 0, [{ va := 0x080000000000, pa := 0x080000000000, n := 4 }], by show State.inService _ = true; decide +kernel, by decide +kernel, by rfl⟩,
   ⟨hrun, 3, 7, 0, 8, 0x08000000003C, false, [], 0, [{ va := 0x08000000003C, pa := 0x08000000003C, n := 4 }, { va := 0x080000000040, pa := 0x080000000040, n := 4 }], by show State.inService _ = true; decide +kernel, by decide +kernel, by rfl⟩,
   ⟨hrun, 3, 7, 0, 8, 0x2000000000000, false, [], 0, ((7, false), 0x2000000000000), by show State.inService _ = true; decide +kernel, by decide +kernel, by rfl⟩,
   ⟨hrun, atPool, 3, 7, 31, 8, poolKey 7 8, 0x080000000008, 0, [], .swap, by show State.inService _ = true; decide +kernel, by decide +kernel, by rfl, by unfold atPool; rcases l2_or ((hrun).drainAll 3 7) 3 7 with h | h <;> rw [h] <;> decide +kernel⟩,
   ⟨poisoned7, (poisoned7.drainAll 3 7).l2Access 3 7, 3, 7, 31, 8, poolKey 7 8, 0x080000000008, 0, [], .swap, by show State.inService _ = true; decide +kernel, by decide +kernel, by rfl, by rcases l2_or (poisoned7.drainAll 3 7) 3 7 with h | h <;> rw [h] <;> decide +kernel⟩,
   ⟨hrun (fun h => { h with reservation := some (poolKey 7 8 / 64) }), atPool (fun h => { h with reservation := some (poolKey 7 8 / 64) }), 3, 7, 31, 8, poolKey 7 8, 0x080000000008, 0, [], .swap, by show State.inService _ = true; decide +kernel, by decide +kernel, by rfl, by unfold atPool; rcases l2_or ((hrun _).drainAll 3 7) 3 7 with h | h <;> rw [h] <;> decide +kernel⟩,
   ⟨hrun, atPool, 3, 7, 31, 8, poolKey 7 8, 0x080000000008, 0, [], .swap, true, by show State.inService _ = true; decide +kernel, by decide +kernel, by rfl, .inr rfl⟩,
   ⟨hrun, atPool, 3, 7, 31, 8, poolKey 7 8, 0x080000000008, 0, [], .swap, by show State.inService _ = true; decide +kernel, by decide +kernel, by rfl, by unfold atPool; rcases l2_or ((hrun).drainAll 3 7) 3 7 with h | h <;> rw [h] <;> decide +kernel⟩,
   ⟨poisoned7, (poisoned7.drainAll 3 7).l2Access 3 7, 3, 7, 31, 8, poolKey 7 8, 0x080000000008, 0, [], .swap, by show State.inService _ = true; decide +kernel, by decide +kernel, by rfl, by rcases l2_or (poisoned7.drainAll 3 7) 3 7 with h | h <;> rw [h] <;> decide +kernel⟩,
   ⟨hrun, hrun, 3, 7, 31, 8, 0, 0x08000000000C, 0, [], .swap, by show State.inService _ = true; decide +kernel, by decide +kernel⟩,
   ⟨svc, 3, 7, 31, 8, 0, 0, false, [], by show State.inService _ = true; decide +kernel, by decide +kernel⟩⟩

/-- Hypotheses of `Obligations.HearthFencesTakeEffect` are met. -/
theorem wit_HearthFencesTakeEffect :
    (∃ (s : State) (c k pred succ word n csr : Nat) (v : Word), s.working ∧ s.hRuns c k = true) ∧
    (∃ (s : State) (c k pred succ word n csr : Nat) (v : Word), s.working ∧ s.hRuns c k = true ∧ kfenceOk word = true ∧ bits word 29 28 = 0) ∧
    (∃ (s : State) (c k pred succ word n csr : Nat) (v : Word), s.working ∧ s.hRuns c k = true ∧ kfenceOk word = true ∧ bits word 29 28 = 1) ∧
    (∃ (s : State) (c k pred succ word n csr : Nat) (v : Word), s.working ∧ s.hRuns c k = true ∧ kfenceOk word = true ∧ bits word 29 28 = 2) ∧
    (∃ (s : State) (c k pred succ word n csr : Nat) (v : Word), s.working ∧ s.hRuns c k = true ∧ kfenceOk word = false) ∧
    (∃ (s : State) (c k pred succ word n csr : Nat) (v : Word), s.working ∧ s.hRuns c k = true ∧ (s.hcore c k).mode = .m) ∧
    (∃ (s : State) (c k pred succ word n csr : Nat) (v : Word), s.working ∧ s.hRuns c k = true ∧ (s.hcore c k).mode = .m) ∧
    (∃ (s : State) (c k pred succ word n csr : Nat) (v : Word), s.working ∧ s.hRuns c k = true ∧ (s.hcore c k).mode = .u) ∧
    (∃ (s : State) (c k pred succ word n csr : Nat) (v : Word), s.working ∧ s.hRuns c k = true ∧ (s.hcore c k).mode = .u) ∧
    (∃ (s : State) (c k pred : Nat), s.working ∧ (s.cluster c).st = .running ∧ (s.hcore c k).wait = some (.fence pred) ∧ (s.hcore c k).fenceMet pred = true) ∧
    (∃ (s : State) (c k pred : Nat), s.working ∧ (s.cluster c).st = .running ∧ (s.hcore c k).wait = some (.fence pred) ∧ (s.hcore c k).fenceMet pred = false) ∧
    (∃ (s : State) (c k pred : Nat), s.working ∧ (s.cluster c).st = .running ∧ (s.hcore c k).wait = some (.fence pred) ∧ (s.hcore c k).running = true ∧ (s.hcore c k).kfwatch ≠ 0) ∧
    (∃ (s : State) (c : Nat), ∃ (n : Nat), s.working ∧ (s.cluster c).alarmComp = none ∧ s.freeComp = some n ∧ s.hearthComps < 2) ∧
    (∃ (s : State) (c : Nat), s.working ∧ (s.cluster c).alarmComp = none ∧ s.freeComp = none) ∧
    (∃ (s : State) (c : Nat), s.working) ∧
    (∃ (s : State) (c : Nat), s.working ∧ (s.cluster c).alarmComp ≠ none ∧ (s.cluster c).alarmCmp.toNat ≤ s.time.frcNs) ∧
    (∃ (s : State) (c : Nat), ∃ (k : Nat), s.working ∧ (s.cluster c).cmpOf k ≤ s.time.ticks) ∧
    (∃ (s : State) (c : Nat), s.working) ∧
    (∃ (s : State) (c : Nat), s.working ∧ (s.cluster c).st = .stopping ∧ s.clusterBusy c = false) :=
  ⟨⟨hrun, 3, 7, 15, 15, 0, 0, 0, 0, by show State.inService _ = true; decide +kernel, by decide +kernel⟩,
   ⟨hrun, 3, 7, 15, 15, 11, 0, 0, 0, by show State.inService _ = true; decide +kernel, by decide +kernel⟩,
   ⟨hrun, 3, 7, 15, 15, 11 + 2 ^ 28, 0, 0, 0, by show State.inService _ = true; decide +kernel, by decide +kernel⟩,
   ⟨hrun, 3, 7, 15, 15, 11 + 2 ^ 29, 0, 0, 0, by show State.inService _ = true; decide +kernel, by decide +kernel⟩,
   ⟨hrun, 3, 7, 15, 15, 11 + 3 * 2 ^ 28, 0, 0, 0, by show State.inService _ = true; decide +kernel, by decide +kernel⟩,
   ⟨hrun, 3, 7, 15, 15, 0, 15, 0, 0, by show State.inService _ = true; decide +kernel, by decide +kernel⟩,
   ⟨hrun, 3, 7, 15, 15, 0, 15, 0, 0, by show State.inService _ = true; decide +kernel, by decide +kernel⟩,
   ⟨hrun (fun h => { h with mode := .u }), 3, 7, 15, 15, 0, 15, 0, 0, by show State.inService _ = true; decide +kernel, by decide +kernel⟩,
   ⟨hrun (fun h => { h with mode := .u }), 3, 7, 15, 15, 0, 15, 0, 0, by show State.inService _ = true; decide +kernel, by decide +kernel⟩,
   ⟨hrun (fun h => { h with wait := some (.fence 15) }), 3, 7, 15, by show State.inService _ = true; decide +kernel, by decide +kernel⟩,
   ⟨hrun (fun h => { h with wait := some (.fence 15), unacked := [{ device := true }] }), 3, 7, 15, by show State.inService _ = true; decide +kernel, by decide +kernel⟩,
   ⟨hrun (fun h => { h with wait := some (.fence 15) }), 3, 7, 15, by show State.inService _ = true; decide +kernel, by decide +kernel⟩,
   ⟨hrun, 3, 0, by show State.inService _ = true; decide +kernel, by decide +kernel⟩,
   ⟨(hrun).modTm (fun t => { t with comps := [(0, 1), (1, 2), (2, 3), (3, 5)] }), 3, by show State.inService _ = true; decide +kernel, by decide +kernel⟩,
   ⟨hrun, 3, by show State.inService _ = true; decide +kernel⟩,
   ⟨(hrun).modCluster 3 (fun x => { x with alarmComp := some 0, alarmCmp := 0 }), 3, by show State.inService _ = true; decide +kernel, by decide +kernel⟩,
   ⟨(hrun).modCluster 3 (fun x => { x with mtimecmp := [(7, 0)] }), 3, 7, by show State.inService _ = true; decide +kernel, by decide +kernel⟩,
   ⟨hrun, 3, by show State.inService _ = true; decide +kernel⟩,
   ⟨(hrun).modCluster 3 (fun x => { x with st := .stopping }), 3, by show State.inService _ = true; decide +kernel, by decide +kernel⟩⟩

/-- Hypotheses of `Obligations.DebugModuleTakesEffect` are met. -/
theorem wit_DebugModuleTakesEffect :
    (∃ (s : State) (c k r n size : Nat) (v a : Word), s.working) ∧
    (∃ (s : State) (c k r n size : Nat) (v a : Word), s.working ∧ s.debugRefused c a.toNat = false) ∧
    (∃ (s : State) (c k r n size : Nat) (v a : Word), s.working ∧ s.debugRefused c a.toNat = true) ∧
    (∃ (s : State) (c k r n size : Nat) (v a : Word), s.working ∧ s.debugRefused c a.toNat = true) :=
  ⟨⟨svc, 3, 7, 1, 0, 8, 0, 0, by show State.inService _ = true; decide +kernel⟩,
   ⟨hrun, 3, 7, 1, 0, 8, 0, 0x300000, by show State.inService _ = true; decide +kernel, by decide +kernel⟩,
   ⟨shut hrun, 3, 7, 1, 0, 8, 0, 0x00FF0000FFFF, by show State.inService _ = true; decide +kernel, by decide +kernel⟩,
   ⟨shut hrun, 3, 7, 1, 0, 8, 0, 0x00FF00000000, by show State.inService _ = true; decide +kernel, by decide +kernel⟩⟩

/-- Hypotheses of `Obligations.FaultEventsTakeEffect` are met. -/
theorem wit_FaultEventsTakeEffect :
    (∃ (s : State) (src : Nat) (attr port : Option Nat) (addr : Word), s.dieUp = false) ∧
    (∃ (s : State) (src : Nat) (attr port : Option Nat) (addr : Word), let s1 := s.detectedIn src addr; s.dieUp = true ∧ s1.flt.corrupt.find? (fun e => e.1 == src) = none) ∧
    (∃ (s : State) (src : Nat) (attr port : Option Nat) (addr : Word), let s1 := s.detectedIn src addr; ∃ (e : Nat × Nat × Nat), s.dieUp = true ∧ s1.flt.corrupt.find? (fun e => e.1 == src) = some e) ∧
    (∃ (s : State) (b : Nat), let resets := s.flt.handling.any (fun h => h.block == b && h.resetting); s.dieUp = true ∧ resets = true ∧ blockKind b ≠ .plane ∧ (blockKind b = .hearth → (s.cluster (b - 0x2E)).st = .stopped)) ∧
    (∃ (s : State) (b : Nat), let resets := s.flt.handling.any (fun h => h.block == b && h.resetting); s.dieUp = true ∧ resets = true ∧ blockKind b = .plane ∧ (s.plane (b - 0x22)).leaving = false ∧ (s.plane (b - 0x22)).leaveFor = 1) ∧
    (∃ (s : State) (b : Nat), let resets := s.flt.handling.any (fun h => h.block == b && h.resetting); s.dieUp = true ∧ resets = false) ∧
    (∃ (s : State) (b : Nat), s.dieUp = true) ∧
    (∃ (s : State), s.dieUp = true ∧ s.ember.fwReady = true) ∧
    (∃ (s : State), ∃ (h : Nat) (r : List Nat), s.dieUp = true ∧ s.flt.flashWait = h :: r) :=
  ⟨⟨State.reset, 0x34 * 32 + 1, none, none, 0, by decide +kernel⟩,
   ⟨svc, 0x31 * 32 + 1, some 31, some 73, 0xFFFFFFFFFFFF, by decide +kernel⟩,
   ⟨svc.modFlt (fun f => { f with corrupt := [(0x39 * 32, 1, 31)] }), 0x39 * 32, none, none, 0, (0x39 * 32, 1, 31), by decide +kernel⟩,
   ⟨svc.modFlt (fun f => { f with handling := [{ block := 0x31, cls := 2 }] }), 0x31, by decide +kernel⟩,
   ⟨(svc.modFlt (fun f => { f with handling := [{ block := 0x25, cls := 2 }] })).modPlane 3 (fun p => { p with inService := false, leaveFor := 1 }), 0x25, by decide +kernel⟩,
   ⟨svc, 0x31, by decide +kernel⟩,
   ⟨svc, 63, by decide +kernel⟩,
   ⟨svc, by decide +kernel⟩,
   ⟨svc.modFlt (fun f => { f with flashWait := [4, 5] }), 4, [5], by decide +kernel⟩⟩

/-- Hypotheses of `Obligations.IsolationCommandsComplete` are met. -/
theorem wit_IsolationCommandsComplete :
    (∃ (s : State) (c : Path) (p : Nat) (q : Req), s.serves cmdPartGet c p q ∧ q.u8 0x20 < 32 ∧ q.zero 0x21 3 = true) ∧
    (∃ (s : State) (c : Path) (p : Nat) (q : Req), s.serves cmdPartSet c p q ∧ q.u8 0x20 < 32 ∧ q.u8 0x22 < 4 ∧ q.u8 0x21 = 1 ∧ q.u8 0x20 ≠ 0) ∧
    (∃ (s : State) (c : Path) (p : Nat) (q : Req), s.serves cmdPartSet c p q ∧ q.u8 0x20 < 32 ∧ q.u8 0x22 < 4 ∧ q.u8 0x21 = 4 ∧ q.u8 0x23 < 32 ∧ s.slotsGiven - (s.partCfg (q.u8 0x20)).strictSlots + q.u8 0x23 ≤ 31) ∧
    (∃ (s : State) (c : Path) (p : Nat) (q : Req), s.serves cmdIsoGetStatus c p q) ∧
    (∃ (s : State) (c : Path) (p : Nat) (q : Req), s.serves cmdStrictSet c p q ∧ q.zero 0x21 3 = true ∧ q.u8 0x20 = 0) ∧
    (∃ (s : State) (c : Path) (p : Nat) (q : Req), s.serves cmdStrictSet c p q ∧ q.zero 0x21 3 = true ∧ q.u8 0x20 = 1 ∧ 1000 ≤ q.u32 0x24 ∧ q.u32 0x24 ≤ 100000 ∧ q.u32 0x24 % 8 = 0 ∧ s.iso.strict = true ∧ s.iso.gateNs = q.u32 0x24) ∧
    (∃ (s : State) (c : Path) (p : Nat) (q : Req), ∃ (t : State), s.serves cmdStrictSet c p q ∧ q.zero 0x21 3 = true ∧ q.u8 0x20 = 1 ∧ 1000 ≤ q.u32 0x24 ∧ q.u32 0x24 ≤ 100000 ∧ q.u32 0x24 % 8 = 0 ∧ q.onBehalf = false ∧ s.iso.strict = false ∧ s.userSchedule = false ∧ s.handleFree p = true ∧ (s.modIso (fun i => { i with gateNs := q.u32 0x24 })).layStrict = some t) :=
  ⟨⟨svc, .sideband, 0, req 4 [31], servesOf (by decide +kernel), by decide +kernel⟩,
   ⟨svc, .sideband, 0, req 4 [31, 1, 1], servesOf (by decide +kernel), by decide +kernel⟩,
   ⟨svc, .sideband, 0, req 4 [31, 4, 0, 31], servesOf (by decide +kernel), by decide +kernel⟩,
   ⟨svc, .sideband, 0, req 0, servesOf (by decide +kernel)⟩,
   ⟨svc, .sideband, 0, req 8, servesOf (by decide +kernel), by decide +kernel⟩,
   ⟨svc.modIso (fun i => { i with strict := true, gateNs := 100000 }), .sideband, 0, req 8 ([1, 0, 0, 0] ++ leBytes 4 100000), servesOf (by decide +kernel), by decide +kernel⟩,
   ⟨svc, .sideband, 0, req 8 ([1, 0, 0, 0] ++ leBytes 4 1000), ((svc.modIso (fun i => { i with gateNs := (req 8 ([1, 0, 0, 0] ++ leBytes 4 1000)).u32 0x24 })).layStrict).getD svc, servesOf (by decide +kernel), by decide +kernel, by decide +kernel, by decide +kernel, by decide +kernel, by decide +kernel, by decide +kernel, by decide +kernel, by decide +kernel, by decide +kernel, some_getD svc (by decide +kernel)⟩⟩

/-- Hypotheses of `Obligations.FaultCommandsComplete` are met. -/
theorem wit_FaultCommandsComplete :
    (∃ (s : State) (c : Path) (p : Nat) (q : Req), s.serves cmdFltGetSummary c p q) ∧
    (∃ (s : State) (c : Path) (p : Nat) (q : Req), s.serves cmdFltRead c p q ∧ q.onBehalf = false ∧ 1 ≤ q.u8 0x21 ∧ q.u8 0x20 + q.u8 0x21 ≤ 64 ∧ q.zero 0x22 2 = true) ∧
    (∃ (s : State) (c : Path) (p : Nat) (q : Req), s.serves cmdFltClear c p q ∧ q.onBehalf = false ∧ q.u8 0x20 < 64 ∧ q.zero 0x21 3 = true) ∧
    (∃ (s : State) (c : Path) (p : Nat) (q : Req), s.serves cmdFltSetReaction c p q ∧ q.zero 0x23 1 = true ∧ q.u8 0x20 < 64 ∧ q.u8 0x21 < 4 ∧ reactionValid (q.u8 0x20) (q.u8 0x21) (q.u8 0x22) = true ∧ reactionDenied (q.u8 0x20) (q.u8 0x21) (q.u8 0x22) = false) ∧
    (∃ (s : State) (c : Path) (p : Nat) (q : Req), s.serves cmdFltSetReaction c p q ∧ q.zero 0x23 1 = true ∧ q.u8 0x20 = 0xFF ∧ q.u8 0x21 = 0 ∧ q.u8 0x22 ≤ 1) ∧
    (∃ (s : State) (c : Path) (p : Nat) (q : Req), s.serves cmdFltGetReaction c p q) ∧
    (∃ (s : State) (c : Path) (p : Nat) (q : Req), s.serves cmdFltLedgerRead c p q) ∧
    (∃ (s : State) (c : Path) (p : Nat) (q : Req), s.serves cmdFltLedgerClear c p q ∧ q.onBehalf = false ∧ (s.lifecycle = 0 ∨ s.lifecycle = 2) ∧ s.handleFree p = true) ∧
    (∃ (s : State) (c : Path) (p : Nat) (q : Req), s.serves cmdFltInject c p q ∧ q.zero 0x25 3 = true ∧ (faultClass (q.u16 0x20)).isSome = true ∧ q.u8 0x22 = 0 ∧ q.u8 0x23 = 0xFF ∧ q.u8 0x24 ≠ 0) ∧
    (∃ (s : State) (c : Path) (p : Nat) (q : Req), s.serves cmdFltInject c p q ∧ q.zero 0x25 3 = true ∧ (faultClass (q.u16 0x20)).isSome = true ∧ (q.u8 0x22 = 1 ∨ q.u8 0x22 = 2) ∧ q.u8 0x23 = 0xFF ∧ q.u8 0x24 = 1 ∧ sramSource (q.u16 0x20) = true) ∧
    (∃ (s : State) (c : Path) (p : Nat) (q : Req), s.serves cmdFltAerRead c p q ∧ q.u8 0x20 < 40 ∧ (s.port (q.u8 0x20)).role = .downstream ∧ q.zero 0x22 2 = true ∧ q.u8 0x21 = 0) ∧
    (∃ (s : State) (c : Path) (p : Nat) (q : Req), s.serves cmdFltAerRead c p q ∧ q.u8 0x20 < 40 ∧ (s.port (q.u8 0x20)).role = .downstream ∧ q.zero 0x22 2 = true ∧ q.u8 0x21 = 1) ∧
    (∃ (s : State) (c : Path) (p : Nat) (q : Req), s.serves cmdEvPop c p q ∧ 1 ≤ q.u8 0x20 ∧ q.u8 0x20 ≤ 126 ∧ q.zero 0x21 3 = true) :=
  ⟨⟨svc, .sideband, 0, req 0, servesOf (by decide +kernel)⟩,
   ⟨svc, .sideband, 0, req 4 [0, 64], servesOf (by decide +kernel), by decide +kernel⟩,
   ⟨svc, .sideband, 0, req 8 ([63, 0, 0, 0] ++ leBytes 4 (2 ^ 32 - 1)), servesOf (by decide +kernel), by decide +kernel⟩,
   ⟨svc, .sideband, 0, req 4 [5, 3, 65], servesOf (by decide +kernel), by decide +kernel⟩,
   ⟨svc, .sideband, 0, req 4 [255, 0, 1], servesOf (by decide +kernel), by decide +kernel⟩,
   ⟨svc, .sideband, 0, req 0, servesOf (by decide +kernel)⟩,
   ⟨svc, .sideband, 0, req 0, servesOf (by decide +kernel)⟩,
   ⟨bench, .sideband, 0, req 0, servesOf (by decide +kernel), by decide +kernel⟩,
   ⟨bench, .sideband, 0, req 8 (leBytes 2 (0x39 * 32) ++ [0, 255, 255]), servesOf (by decide +kernel), by decide +kernel⟩,
   ⟨bench, .sideband, 0, req 8 (leBytes 2 (0x39 * 32 + 1) ++ [2, 255, 1]), servesOf (by decide +kernel), by decide +kernel⟩,
   ⟨svc.modPort 39 (fun p => { p with role := .downstream }), .sideband, 0, req 4 [39], servesOf (by decide +kernel), by decide +kernel⟩,
   ⟨svc.modPort 39 (fun p => { p with role := .downstream }), .sideband, 0, req 4 [39, 1], servesOf (by decide +kernel), by decide +kernel⟩,
   ⟨svc, .sideband, 0, req 4 [126], servesOf (by decide +kernel), by decide +kernel⟩⟩

/-- Hypotheses of `Obligations.ResetEventsTakeEffect` are met. -/
theorem wit_ResetEventsTakeEffect :
    (∃ (s : State) (ns : Nat), 1000 ≤ ns) ∧
    (∃ (s : State) (ns : Nat), ns < 100) ∧
    (∃ (s : State), s.boot.watchdog = true) ∧
    (∃ (s : State), s.boot.watchdog = false) ∧
    (∃ (s : State), s.boot.srcPulse = true) ∧
    (∃ (s : State), s.boot.startTimer = true ∧ s.boot.phase ≠ .hostDownload ∧ s.boot.phase ≠ .peerDownload) ∧
    (∃ (s : State) (env : BootEnv), s.boot.phase = .hold) ∧
    (∃ (s : State), s.dieUp = true ∧ s.boot.stableWait = true ∧ s.runningSlot = none) ∧
    (∃ (s : State), ∃ (n : Nat), s.dieUp = true ∧ s.boot.stableWait = true ∧ s.runningSlot = some n ∧ s.nv.activation.getD s.boot.firstSlot = n) ∧
    (∃ (s : State), ∃ (n : Nat), s.dieUp = true ∧ s.boot.stableWait = true ∧ s.runningSlot = some n ∧ s.nv.activation.getD s.boot.firstSlot ≠ n) ∧
    (∃ (s : State) (image : Bytes), let g := s.page s.dlPart; let size := leNat (mread 0 g.cmdBuf 8 4); s.dieUp = true ∧ s.boot.phase = .hostDownload ∧ g.st = .idle ∧ (size < 4 ∨ 0x03000000 < size ∨ size % 4 ≠ 0)) ∧
    (∃ (s : State) (image : Bytes), let g := s.page s.dlPart; let size := leNat (mread 0 g.cmdBuf 8 4); s.dieUp = true ∧ s.boot.phase = .hostDownload ∧ g.st = .idle ∧ 4 ≤ size ∧ size ≤ 0x03000000 ∧ size % 4 = 0 ∧ (s.vs s.dlPart).mgmt.busMaster = true) ∧
    (∃ (s : State) (image : Bytes), s.dieUp = true ∧ s.boot.phase = .hostDownload ∧ s.boot.dlBusy = true) ∧
    (∃ (s : State) (m : Nat) (image : Bytes), s.dieUp = true ∧ s.boot.phase = .peerDownload ∧ s.boot.peerWait = true ∧ s.boot.asked.getLast? = some m) :=
  ⟨⟨svc, 1000, by decide +kernel⟩,
   ⟨svc, 99, by decide +kernel⟩,
   ⟨boots (fun b => { b with watchdog := true }), by decide +kernel⟩,
   ⟨boots (fun b => { b with watchdog := false }), by decide +kernel⟩,
   ⟨boots (fun b => { b with srcPulse := true }), by decide +kernel⟩,
   ⟨boots (fun b => { b with startTimer := true }), by decide +kernel⟩,
   ⟨boots (fun b => { b with phase := .hold }), {}, by decide +kernel⟩,
   ⟨boots (fun b => { b with stableWait := true, fwSource := 2 }), by decide +kernel⟩,
   ⟨boots (fun b => { b with stableWait := true }), 0, by decide +kernel⟩,
   ⟨(boots (fun b => { b with stableWait := true })).modNv (fun v => { v with activation := some 1 }), 0, by decide +kernel⟩,
   ⟨awaiting [], [], by decide +kernel⟩,
   ⟨mastered (awaiting [(11, 3)]), [], by decide +kernel⟩,
   ⟨boots (fun b => { b with phase := .hostDownload, dlBusy := true }), [], by decide +kernel⟩,
   ⟨boots (fun b => { b with phase := .peerDownload, peerWait := true, asked := [1, 2] }), 2, [], by decide +kernel⟩⟩

/-- Hypotheses of `Obligations.PowerEventsTakeEffect` are met. -/
theorem wit_PowerEventsTakeEffect :
    (∃ (s : State), s.boot.phase ≠ .off) ∧
    (∃ (s : State), s.boot.phase ≠ .off ∧ s.pwr.stopping = false ∧ s.railsDown = true) ∧
    (∃ (s : State), s.boot.phase ≠ .off ∧ s.pwr.stopping = false ∧ s.railsDown = false) ∧
    (∃ (s : State), s.boot.phase ≠ .off ∧ s.pwr.stopping = true) ∧
    (∃ (s : State), s.boot.phase ≠ .off ∧ s.boot.phase ≠ .railsOff ∧ s.pwr.stopping = false) ∧
    (∃ (s : State), ∃ (v : Nat), s.boot.phase ≠ .off ∧ s.pwr.warnActive = false) ∧
    (∃ (s : State), ∃ (n : Nat), s.boot.phase = .ramp ∧ s.pwr.softStart = true) ∧
    (∃ (s : State), s.boot.phase = .ramp ∧ s.pwr.railRamp = true) ∧
    (∃ (s : State), s.pwr.efuseOn = true) ∧
    (∃ (s : State), s.pwr.efuseOn = true ∧ s.pwr.efuseLimit = true) ∧
    (∃ (s : State), s.pwr.efuseOn = true ∧ s.railsDown = false) ∧
    (∃ (s : State), s.pwr.efuseOn = false) ∧
    (∃ (s : State) (v n tj : Nat) (t : TeleSample), s.railsDown = false ∧ s.boot.phase ≠ .off ∧ s.pwr.warnArmed = true ∧ s.pwr.warnActive = false ∧ s.pwr.stopping = false ∧ s.kept.power.sagAction = 0) ∧
    (∃ (s : State) (v n tj : Nat) (t : TeleSample), s.railsDown = false ∧ s.boot.phase ≠ .off ∧ s.pwr.warnArmed = true ∧ s.pwr.warnActive = false ∧ s.pwr.stopping = false ∧ s.kept.power.sagAction ≠ 0) ∧
    (∃ (s : State) (v n tj : Nat) (t : TeleSample), s.railsDown = false ∧ 5 ≤ n ∧ n ≤ 13) ∧
    (∃ (s : State) (v n tj : Nat) (t : TeleSample), s.railsDown = false ∧ s.kept.power.thermWarn ≤ tj) ∧
    (∃ (s : State) (v n tj : Nat) (t : TeleSample), s.railsDown = false ∧ tj < s.kept.power.thermWarn) ∧
    (∃ (s : State) (v n tj : Nat) (t : TeleSample), s.railsDown = false) ∧
    (∃ (s : State), s.boot.phase = .off) :=
  ⟨⟨svc, by decide +kernel⟩,
   ⟨boots (fun b => { b with phase := .ramp }), by decide +kernel⟩,
   ⟨svc, by decide +kernel⟩,
   ⟨powered (fun w => { w with stopping := true }), by decide +kernel⟩,
   ⟨svc, by decide +kernel⟩,
   ⟨svc, 0, by decide +kernel⟩,
   ⟨boots (fun b => { b with phase := .ramp }) (powered (fun w => { w with softStart := true })), 0, by decide +kernel⟩,
   ⟨boots (fun b => { b with phase := .ramp }) (powered (fun w => { w with railRamp := true })), by decide +kernel⟩,
   ⟨powered (fun w => { w with efuseOn := true }), by decide +kernel⟩,
   ⟨powered (fun w => { w with efuseOn := true, efuseLimit := true }), by decide +kernel⟩,
   ⟨powered (fun w => { w with efuseOn := true }), by decide +kernel⟩,
   ⟨powered (fun w => { w with efuseOn := false }), by decide +kernel⟩,
   ⟨powered (fun w => { w with warnArmed := true }), 38000, 0, 0, {}, by decide +kernel⟩,
   ⟨(powered (fun w => { w with warnArmed := true })).modKept (fun k => { k with power := { k.power with sagAction := 1 } }), 38000, 0, 0, {}, by decide +kernel⟩,
   ⟨svc, 0, 13, 0, {}, by decide +kernel⟩,
   ⟨svc, 0, 0, 100, {}, by decide +kernel⟩,
   ⟨svc, 0, 0, 99, {}, by decide +kernel⟩,
   ⟨svc, 0, 0, 0, {}, by decide +kernel⟩,
   ⟨boots (fun b => { b with phase := .off }), by decide +kernel⟩⟩

/-- Hypotheses of `Obligations.PowerCommandsComplete` are met. -/
theorem wit_PowerCommandsComplete :
    (∃ (s : State) (c : Path) (p : Nat) (q : Req), s.serves cmdPwrGetStatus c p q) ∧
    (∃ (s : State) (c : Path) (p : Nat) (q : Req), s.serves cmdPwrSetConfig c p q ∧ q.zero 0x26 2 = true ∧ (s.kept.power.sagAction ≠ 0 ∨ holdEnough s.kept.power.vWarn s.pwr.choldUf = true) ∧ s.pwr.sagForced = false ∧ q.u8 0x20 = 4 ∧ q.u8 0x24 < 16) ∧
    (∃ (s : State) (c : Path) (p : Nat) (q : Req), s.serves cmdPwrSetConfig c p q ∧ q.zero 0x26 2 = true ∧ (s.kept.power.sagAction ≠ 0 ∨ holdEnough s.kept.power.vWarn s.pwr.choldUf = true) ∧ s.pwr.sagForced = false ∧ q.u8 0x20 = 8 ∧ 85 ≤ q.u8 0x25 ∧ q.u8 0x25 ≤ 110) ∧
    (∃ (s : State) (c : Path) (p : Nat) (q : Req), s.serves cmdAgeGetStatus c p q) ∧
    (∃ (s : State) (c : Path) (p : Nat) (q : Req), s.serves cmdAgeSetConfig c p q ∧ q.zero 0x23 1 = true ∧ q.u8 0x20 = 3 ∧ q.u8 0x21 < 16 ∧ s.lifecycle ≠ 1 ∧ 70 ≤ q.u8 0x22 ∧ q.u8 0x22 ≤ 105) ∧
    (∃ (s : State) (c : Path) (p : Nat) (q : Req), s.serves cmdAgeSetConfig c p q ∧ q.zero 0x23 1 = true ∧ q.u8 0x20 = 4 ∧ q.onBehalf = false ∧ s.age.planning = false ∧ s.handleFree p = true) :=
  ⟨⟨svc, .sideband, 0, req 0, servesOf (by decide +kernel)⟩,
   ⟨svc.modKept (fun k => { k with power := { k.power with sagAction := 1 } }), .sideband, 0, req 8 [4, 0, 0, 0, 15], servesOf (by decide +kernel), by decide +kernel⟩,
   ⟨svc.modKept (fun k => { k with power := { k.power with sagAction := 1 } }), .sideband, 0, req 8 [8, 0, 0, 0, 0, 110], servesOf (by decide +kernel), by decide +kernel⟩,
   ⟨svc, .sideband, 0, req 0, servesOf (by decide +kernel)⟩,
   ⟨bench, .sideband, 0, req 4 [3, 15, 105], servesOf (by decide +kernel), by decide +kernel⟩,
   ⟨svc, .sideband, 0, req 4 [4], servesOf (by decide +kernel), by decide +kernel⟩⟩

/-- Hypotheses of `Obligations.CountersTakeEffect` are met. -/
theorem wit_CountersTakeEffect :
    (∃ (s : State) (span : Nat), s.working) ∧
    (∃ (s : State) (p : Nat), let x : Stream := tget {} s.cnt.streams p; s.working ∧ x.due = none) ∧
    (∃ (s : State) (p : Nat), let x : Stream := tget {} s.cnt.streams p; ∃ (r : SwRec), s.working ∧ x.due = some r ∧ x.enabled = true ∧ s.streamWrites p x = true) ∧
    (∃ (s : State) (c : Path) (p : Nat) (q : Req), s.serves cmdCntRead c p q ∧ 1 ≤ q.u16 0x22 ∧ q.u16 0x22 ≤ 253 ∧ q.u16 0x20 + q.u16 0x22 ≤ 512) ∧
    (∃ (s : State) (c : Path) (p : Nat) (q : Req), let t := setCounters s.cnt.ctrs q; s.serves cmdCntSet c p q ∧ 1 ≤ q.u16 0x20 ∧ q.u16 0x20 ≤ 169 ∧ q.zero 0x22 6 = true ∧ (∀ i < q.u16 0x20, s.ctrRecordOk p q i = true ∧ chainsOk t (q.u16 (ctrOff i)) = true)) ∧
    (∃ (s : State) (c : Path) (p : Nat) (q : Req), s.serves cmdCntSweepSet c p q ∧ q.zero 0x32 6 = true ∧ q.u8 0x20 = 1 ∧ 1 ≤ q.u32 0x24 ∧ q.u32 0x24 ≤ 1000000) ∧
    (∃ (s : State) (c : Path) (p : Nat) (q : Req), s.serves cmdCntSweepSet c p q ∧ q.zero 0x32 6 = true ∧ q.u8 0x20 = 2 ∧ q.u8 0x21 = 0 ∧ q.onBehalf = false) ∧
    (∃ (s : State) (c : Path) (p : Nat) (q : Req), s.serves cmdCntSweepSet c p q ∧ q.zero 0x32 6 = true ∧ q.u8 0x20 = 2 ∧ q.u8 0x21 = 1 ∧ q.onBehalf = false ∧ q.u8 0x22 = 0 ∧ q.u8 0x23 = 0 ∧ q.u64 0x28 = 0 ∧ q.u16 0x30 ≠ 0 ∧ s.pool.present = true) ∧
    (∃ (s : State) (c : Path) (p : Nat) (q : Req), s.serves cmdCntSweepGet c p q) :=
  ⟨⟨svc, 100000, by show State.inService _ = true; decide +kernel⟩,
   ⟨svc, 31, by show State.inService _ = true; decide +kernel, by decide +kernel⟩,
   ⟨({ svc with pool := { svc.pool with present := true, total := 64, reserve := 63, sods := [(63, { st := .reserve })] } }).modCnt (fun c => { c with streams := [(31, { enabled := true, due := some {} })] }), 31, {}, by show State.inService _ = true; decide +kernel, by decide +kernel⟩,
   ⟨svc, .sideband, 0, req 4 ([3, 1] ++ leBytes 2 253), servesOf (by decide +kernel), by decide +kernel⟩,
   ⟨svc, .sideband, 0, req 32 ([1, 0, 0, 0, 0, 0, 0, 0] ++ [255, 1, 2, 0, 0, 0, 0, 0] ++ leBytes 8 0 ++ leBytes 8 (2 ^ 48 - 1)), servesOf (by decide +kernel), by decide +kernel⟩,
   ⟨svc, .sideband, 0, req 24 ([1, 0, 0, 0] ++ leBytes 4 1000000), servesOf (by decide +kernel), by decide +kernel⟩,
   ⟨svc, .sideband, 0, req 24 [2], servesOf (by decide +kernel), by decide +kernel⟩,
   ⟨pooled, .sideband, 0, req 24 ([2, 1] ++ List.replicate 14 0 ++ leBytes 2 65535), servesOf (by decide +kernel), by decide +kernel⟩,
   ⟨svc, .sideband, 0, req 0, servesOf (by decide +kernel)⟩⟩

/-- Hypotheses of `Obligations.TestAndAgeingTakeEffect` are met. -/
theorem wit_TestAndAgeingTakeEffect :
    (∃ (s : State) (i margin base : Nat) (broken : Bool), s.dieUp = true ∧ (broken = false ∨ (tget {} s.age.lanes i).bad = true)) ∧
    (∃ (s : State) (i margin base : Nat) (broken : Bool), s.dieUp = true ∧ broken = true ∧ (tget {} s.age.lanes i).bad = false) ∧
    (∃ (s : State) (i margin base : Nat) (broken : Bool), s.dieUp = true ∧ broken = false) ∧
    (∃ (s : State) (m : PlanMeas), s.dieUp = true ∧ s.ember.fwReady = true ∧ s.ember.smoulder = false ∧ s.boot.stableWait = false) ∧
    (∃ (s : State) (m : PlanMeas), s.dieUp = true) ∧
    (∃ (s : State) (b mM lM repairs ms : Nat) (spare : Bool), let r := s.bistResult b 2 mM lM repairs spare; s.dieUp = true ∧ (s.bistOf b).st = 1 ∧ blockKind b ≠ .plane ∧ (s.bistOf b).kind = 2 ∧ r ≤ 2) ∧
    (∃ (s : State) (b mM lM repairs ms : Nat) (spare : Bool), let r := s.bistResult b 2 mM lM repairs spare; s.dieUp = true ∧ (s.bistOf b).st = 1 ∧ blockKind b ≠ .plane ∧ (s.bistOf b).kind = 2 ∧ 2 < r) ∧
    (∃ (s : State) (c : Path) (p : Nat) (q : Req), s.serves cmdBistRun c p q ∧ bistKind (q.u8 0x20) = true ∧ 1 ≤ q.u8 0x21 ∧ q.u8 0x21 ≤ 3 ∧ q.zero 0x22 2 = true ∧ (s.bistOf (q.u8 0x20)).st ≠ 1 ∧ s.bistReady (q.u8 0x20) = rcOk ∧ s.inTest.length < 8 ∧ blockKind (q.u8 0x20) ≠ .plane ∧ q.onBehalf = false ∧ s.handleFree p = true) ∧
    (∃ (s : State) (c : Path) (p : Nat) (q : Req), s.serves cmdBistGet c p q ∧ q.u8 0x20 < 64 ∧ q.zero 0x21 3 = true) ∧
    (∃ (s : State) (c : Path) (p : Nat) (q : Req), s.serves cmdLcAdvance c p q ∧ q.u32 0x20 = 0xA5C3 ∧ s.lifecycle = 0 ∧ s.boot.straps.testMode = false) ∧
    (∃ (s : State) (c : Path) (p : Nat) (q : Req), s.serves cmdRmaChallenge c p q ∧ s.lifecycle = 1 ∧ s.ember.rmaRejects < 3) ∧
    (∃ (s : State) (c : Path) (p : Nat) (q : Req), s.serves cmdRmaUnlock c p q ∧ s.lifecycle = 1 ∧ q.u32 0x20 = 0x4B56524D ∧ q.zero 0x24 12 = true ∧ q.field 16 0x30 = Config.serial.toNat ∧ s.ember.rmaNonce = some (q.field 32 0x40)) :=
  ⟨⟨svc.modAge (fun a => { a with lanes := [(63, { bad := true })] }), 63, 0, 0, true, by decide +kernel⟩,
   ⟨svc, 63, 0, 0, true, by decide +kernel⟩,
   ⟨svc, 31, 0, 0, false, by decide +kernel⟩,
   ⟨svc, {}, by decide +kernel⟩,
   ⟨svc, {}, by decide +kernel⟩,
   ⟨testing 0x31, 0x31, 0, ((testing 0x31).misrOf 0x31 1).toNat, 0, 0, false, by decide +kernel, by decide +kernel, by decide +kernel, by decide +kernel, by simp [State.bistResult, bit]⟩,
   ⟨testing 0x31, 0x31, 0, ((testing 0x31).misrOf 0x31 1 + 1).toNat, 0, 0, false, by decide +kernel, by decide +kernel, by decide +kernel, by decide +kernel, by simp [State.bistResult, bit, succ_ne]⟩,
   ⟨svc, .sideband, 0, req 4 [0x31, 2], servesOf (by decide +kernel), by decide +kernel⟩,
   ⟨svc, .sideband, 0, req 4 [63], servesOf (by decide +kernel), by decide +kernel⟩,
   ⟨{ svc with nv := { svc.nv with lifeCopies := [0, 0, 0] } }, .sideband, 0, req 4 [0xC3, 0xA5], servesOf (by decide +kernel), by decide +kernel⟩,
   ⟨svc, .sideband, 0, req 0, servesOf (by decide +kernel), by decide +kernel⟩,
   ⟨svc.modEmber (fun e => { e with rmaNonce := some 0 }), .sideband, 0, rmaReq, servesOf (by decide +kernel), by decide +kernel, by decide +kernel, by decide +kernel, rma_serial, by decide +kernel⟩⟩

/-- Hypotheses of `Obligations.JtagAndPinsTakeEffect` are met. -/
theorem wit_JtagAndPinsTakeEffect :
    (∃ (s : State) (b : Bool) (cells : List Bool), s.boot.phase ≠ .off) ∧
    (∃ (s : State) (b : Bool) (cells : List Bool), s.boot.phase ≠ .off ∧ s.boot.straps.testMode = true) ∧
    (∃ (s : State) (b : Bool) (cells : List Bool), s.boot.phase ≠ .off ∧ s.boot.straps.testMode = false) ∧
    (∃ (s : State) (b : Bool), s.boot.phase = .off) ∧
    (∃ (s : State) (p : Nat), s.dieUp = true ∧ s.vdspsOf p = []) ∧
    (∃ (s : State) (p k : Nat), s.dieUp = true ∧ s.vdspsOf p = [k]) ∧
    (∃ (s : State), s.boot.phase ≠ .off) ∧
    (∃ (s : State), s.boot.phase ≠ .off) :=
  ⟨⟨svc, true, [], by decide +kernel⟩,
   ⟨bench, true, [], by decide +kernel⟩,
   ⟨svc, true, [], by decide +kernel⟩,
   ⟨boots (fun b => { b with phase := .off }), true, by decide +kernel⟩,
   ⟨svc, 31, by decide +kernel⟩,
   ⟨svc.modVs 31 (fun v => { v with vdspCount := 1 }), 31, 0, by decide +kernel⟩,
   ⟨svc, by decide +kernel⟩,
   ⟨svc, by decide +kernel⟩⟩

/-- Hypotheses of `Obligations.ChecksRunInOrder` are met. -/
theorem wit_ChecksRunInOrder :
    (∃ (k : Cmd) (c : Path) (p : Nat) (q : Req) (s : State), let long := 4064 < q.length ∨ q.length % 4 ≠ 0; long) ∧
    (∃ (k : Cmd) (c : Path) (p : Nat) (q : Req) (s : State), let long := 4064 < q.length ∨ q.length % 4 ≠ 0; ∃ (off : Nat), ¬ long ∧ headerFault q = some off) ∧
    (∃ (k : Cmd) (c : Path) (p : Nat) (q : Req) (s : State), let long := 4064 < q.length ∨ q.length % 4 ≠ 0; let dark := s.ember.smoulder = true ∧ smoulderAllows k.op = false; ¬ long ∧ headerFault q = none ∧ dark) ∧
    (∃ (k : Cmd) (c : Path) (p : Nat) (q : Req) (s : State), let long := 4064 < q.length ∨ q.length % 4 ≠ 0; let dark := s.ember.smoulder = true ∧ smoulderAllows k.op = false; let denied := (q.onBehalf = true ∧ p ≠ 0) ∨ k.allowed (whoOf c p q) q s = false; ¬ long ∧ headerFault q = none ∧ ¬ dark ∧ denied) ∧
    (∃ (k : Cmd) (c : Path) (p : Nat) (q : Req) (s : State), let long := 4064 < q.length ∨ q.length % 4 ≠ 0; let dark := s.ember.smoulder = true ∧ smoulderAllows k.op = false; let denied := (q.onBehalf = true ∧ p ≠ 0) ∨ k.allowed (whoOf c p q) q s = false; ¬ long ∧ headerFault q = none ∧ ¬ dark ∧ ¬ denied ∧ k.lenOk q = false) ∧
    (∃ (k : Cmd) (c : Path) (p : Nat) (q : Req) (s : State), let long := 4064 < q.length ∨ q.length % 4 ≠ 0; let dark := s.ember.smoulder = true ∧ smoulderAllows k.op = false; let denied := (q.onBehalf = true ∧ p ≠ 0) ∨ k.allowed (whoOf c p q) q s = false; ¬ long ∧ headerFault q = none ∧ ¬ dark ∧ ¬ denied ∧ k.lenOk q = true) :=
  ⟨⟨cmdTmMeterSet, .sideband, 0, req 4068, svc, by decide +kernel⟩,
   ⟨cmdTmMeterSet, .sideband, 0, { req 32 with flags := 4 }, svc, 2, by decide +kernel⟩,
   ⟨cmdTmMeterSet, .sideband, 0, req 32, svc.modEmber (fun e => { e with smoulder := true }), by decide +kernel⟩,
   ⟨cmdTmMeterSet, .page 1, 1, req 32, svc, by decide +kernel⟩,
   ⟨cmdTmMeterSet, .sideband, 0, req 28, svc, by decide +kernel⟩,
   ⟨cmdTmMeterSet, .sideband, 0, req 32, svc, by decide +kernel⟩⟩

/-- Hypotheses of `Obligations.AnswerFrame` are met. -/
theorem wit_AnswerFrame :
    (∃ (a : Ans) (c : Path) (p op n : Nat) (q : Req), (∀ m, c ≠ .relay m)) ∧
    (∃ (a : Ans) (c : Path) (p op n : Nat) (q : Req), a.wait = none) :=
  ⟨⟨ok svc, .sideband, 0, 0, 0, {}, fun m h => nomatch h⟩,
   ⟨ok svc, .sideband, 0, 0, 0, {}, by decide +kernel⟩⟩

/-- Hypotheses of `Obligations.EventsInResetDoNothing` are met. -/
theorem wit_EventsInResetDoNothing :
    (∃ (s : State), ¬ s.working) ∧
    (∃ (s : State), s.dieUp = false) :=
  ⟨⟨State.reset, by show ¬ (State.inService _ = true); decide +kernel⟩,
   ⟨State.reset, by decide +kernel⟩⟩

end Sys2Proof.Tests
end

section
/-! PROOFS. The mailbox, register, MCTP and PLDM events: what each operation leaves on the path the spec describes, and from
that what the events do. -/

namespace Sys2Proof.Machine

open Sys2Proof

/-- A command leaves what its operation leaves. -/
theorem State.done_of_eq {s t u : State} (h : t = u) : s.done t = .next (s.after u) := h ▸ State.done_eq s t

/-- An event of the main die leaves what its operation leaves, while the die is out of reset (R460). -/
theorem State.onDie_up_eq {s t u : State} (up : s.dieUp = true) (h : t = u) : s.onDie t = .next (s.after u) :=
  h ▸ State.onDie_up up t

/-! ## The doorbell (R62, R574) -/

/-- GO alone in a doorbell write. -/
theorem State.doorbell_go (s : State) (pg : Nat) : s.doorbell pg (1 + 2 * b2n false) = s.goPage pg := rfl

/-- ACK alone in a doorbell write. -/
theorem State.doorbell_ack (s : State) (pg : Nat) : s.doorbell pg 2 = s.ackPage pg := rfl

theorem State.goWrite_open {s : State} {pg : Nat} (h : s.pageOpen pg = true) : s.goWrite pg false = s.goPage pg := by
  rw [State.goWrite, if_pos h, State.doorbell_go]

theorem State.ackWritten_open {s : State} {pg : Nat} (h : s.pageOpen pg = true) : s.ackWritten pg = s.ackPage pg := by
  rw [State.ackWritten, if_pos h, State.doorbell_ack]

/-- Outside host download GO queues the command of an idle page, with the buffer as it stands. -/
theorem State.goPage_idle {s : State} {pg : Nat} (boot : s.boot.phase ≠ .hostDownload) (idle : (s.page pg).st = .idle) :
    s.goPage pg = (s.modPage pg (fun g => { g with st := .queued, cmdSeen := g.cmdBuf })).modEmber
      (fun e => { e with arrivals := e.arrivals.filter (fun a => a != pg) ++ [pg] }) := by
  rw [State.goPage, if_neg boot, if_pos idle]

/-- Outside host download GO on a page that is not idle is an error of the doorbell. -/
theorem State.goPage_not_idle {s : State} {pg : Nat} (boot : s.boot.phase ≠ .hostDownload) (st : (s.page pg).st ≠ .idle) :
    s.goPage pg = s.modPage pg (fun g => { g with dbErr := true }) := by
  rw [State.goPage, if_neg boot, if_neg st]

/-! ## COMMAND_TAKEN (R62, R72) -/

/-- Ember takes the command at the front of an idle partition's part of the queue from its mailbox page. -/
theorem State.takeCommand_page {s : State} {part a : Nat} (fw : s.ember.fwReady = true)
    (idle : tlook s.ember.running part = none)
    (front : s.ember.arrivals.find? (fun x => s.partOf (posPath x) == some part) = some a) (page : a < 64) :
    s.takeCommand part =
      ((s.modEmber (fun e => { e with arrivals := e.arrivals.erase a })).modPage a (fun g => { g with st := .busy })).execute
        (posPath a) part (reqOfBytes (mread 0 (s.page a).cmdSeen 0 4096)).1 (reqOfBytes (mread 0 (s.page a).cmdSeen 0 4096)).2 0 := by
  simp [State.takeCommand, fw, idle, front, page]

/-- Ember takes the command at the front of an idle partition's part of the queue from its message path. -/
theorem State.takeCommand_message {s : State} {part a : Nat} {m : QCmd} (fw : s.ember.fwReady = true)
    (idle : tlook s.ember.running part = none)
    (front : s.ember.arrivals.find? (fun x => s.partOf (posPath x) == some part) = some a) (msg : 64 ≤ a)
    (held : tlook s.ember.msgQ a = some m) :
    s.takeCommand part =
      (s.modEmber (fun e => { e with arrivals := e.arrivals.erase a, msgQ := tdel e.msgQ a })).execute
        (posPath a) part m.opcode m.req m.msgTag := by
  simp only [State.takeCommand, fw, idle, front, held, if_neg (Nat.not_lt.mpr msg)]
  rfl

/-! ## Register writes (R17, R57, R335, R394) -/

theorem State.regWrite_bar0 {s : State} {p off : Nat} (size v : Nat) (bars : s.barsOpen p = true) (inBar : off < 0x20000) :
    s.regWrite (.bar0 p) off size v = s.bar0Write p off size v := if_pos ⟨bars, inBar⟩

theorem State.regWrite_vnic {s : State} {f : Nat} {x : Vnic} (off size v : Nat) (fn : s.vnic f = some x)
    (mem : x.memEn = true) (awake : x.d3 = false) : s.regWrite (.vnic f) off size v = s.vnicStore f off size v := by
  simp [State.regWrite, fn, mem, awake]

theorem State.regWrite_cluster {s t : State} {c off size v : Nat} (cl : c < 4) (inBlock : off < 2 ^ 20)
    (taken : s.localWrite (c * 2 ^ 20 + off) size v = some t) : s.regWrite (.cluster c) off size v = t := by
  have block : ¬ (4 ≤ c ∨ 2 ^ 20 ≤ off) := by omega
  simp only [State.regWrite, if_neg block, taken]

/-- A register write that leaves the state as it is does nothing, in reset and out of it. -/
theorem exec_registerWrite_ignored {s : State} {sp : RegSpace} {off size : Nat} {v : Word}
    (same : s.regWrite sp off size v.toNat = s) : exec (.registerWrite sp off size v) s = .next (s.after s) := by
  show s.onDie (s.regWrite sp off size v.toNat) = _
  rw [same, State.onDie, ite_self, State.done_eq]

/-! ## Messages on the sideband and the vendor-message paths (R75 to R78, R501) -/

/-- A path is answered when it carries messages, the firmware is up and the path has a partition. -/
theorem State.mctpAnswers_iff {s : State} {c : Path} :
    s.mctpAnswers c = true ↔ messagePath c = true ∧ s.ember.fwReady = true ∧ (s.partOf c).isSome = true := by
  simp [State.mctpAnswers, and_assoc]

/-- A whole command message whose position is free is queued (R76, R78). -/
theorem State.mctpCommand_queued {s : State} {c : Path} {tag : Nat} {body : Bytes} (answers : s.mctpAnswers c = true)
    (len : 36 ≤ body.length) (type : slice body 0 1 = [0x7E]) (vendor : beNat (slice body 1 2) = Config.vendorId.toNat)
    (cmdSet : slice body 3 1 = [1]) (eid : s.eidReady c = true) (free : s.ember.arrivals.contains (posOf c) = false) :
    s.mctpCommand c tag true body = s.modEmber (fun e =>
      { e with msgQ := tset e.msgQ (posOf c) { opcode := (reqOfBytes (body.drop 4)).1, req := (reqOfBytes (body.drop 4)).2, msgTag := tag },
               arrivals := e.arrivals ++ [posOf c] }) := by
  obtain ⟨path, fw, part⟩ := State.mctpAnswers_iff.mp answers
  have reached : ¬ ((!messagePath c) = true ∨ (!s.ember.fwReady) = true ∨ (s.partOf c).isNone = true) := by
    simp [path, fw, Option.isSome_iff_ne_none.mp part]
  have whole : ¬ ((!true) = true ∨ body.length < 36) := by simpa using len
  have ours : ¬ (slice body 0 1 ≠ [0x7E] ∨ beNat (slice body 1 2) ≠ Config.vendorId.toNat ∨ slice body 3 1 ≠ [1]) := by
    simp [type, vendor, cmdSet]
  rw [State.mctpCommand, if_neg reached, if_neg whole, if_neg ours, if_neg (by simp [eid])]
  exact if_neg (Bool.eq_false_iff.mp free)

/-- Set Endpoint ID records an ID that may be assigned and answers with it (R75, R77). -/
theorem State.setEid_sideband {s : State} {op eid : Nat} (answers : s.mctpAnswers .sideband = true) (opOk : op ≤ 1)
    (pos : 0 < eid) (below : eid < 255) :
    s.setEid .sideband op eid = (s.modEmber (fun e => { e with sbEid := eid })).mctpReply .sideband 1 0 [0, eid, 0] := by
  have idOk : ¬ (1 < op ∨ eid = 0 ∨ 255 ≤ eid) := by omega
  rw [State.setEid, if_neg (by simp [answers]), if_neg idOk]

section
variable {s : State} {c : Path} (answers : s.mctpAnswers c = true)
include answers

theorem State.getEid_answered : s.getEid c = s.mctpReply c 2 0 [s.eidOf c, 0, 0] := if_pos answers

/-- The version of the MCTP base specification (R75). -/
theorem State.mctpVersion_base : s.mctpVersion c 0xFF = s.mctpReply c 4 0 [1, 0xF1, 0xF3, 0xFF, 0] := by
  simp [State.mctpVersion, answers]

theorem State.mctpTypes_answered :
    s.mctpTypes c = s.mctpReply c 5 0 (if c = .sideband then [2, 1, 0x7E] else [1, 0x7E]) := by
  rw [State.mctpTypes, if_neg (by simp [answers]), apply_ite (s.mctpReply c 5 0)]

/-- Selector 0 names the module's one vendor ID (R76). -/
theorem State.mctpVendor_first :
    s.mctpVendor c 0 = s.mctpReply c 6 0 [0xFF, 0, Config.vendorId.toNat / 256, Config.vendorId.toNat % 256, 0, 1] := by
  simp [State.mctpVendor, answers]

end

section
variable {s : State} (answers : s.pldmAnswers = true)
include answers

theorem State.pldmReply_answered (cmd arg : Nat) :
    s.pldmReply cmd arg = s.emit (.mctp .sideband cmd 0 (Config.pldmData cmd arg)) := if_pos answers

theorem State.pldmSend_answered (cmd cc : Nat) (d : Bytes) : s.pldmSend cmd cc d = s.emit (.mctp .sideband cmd cc d) :=
  if_pos answers

/-- PLDM types 0 and 2 are supported (R501). -/
theorem State.pldmTypes_answered :
    s.pldmSend 4 0 (bitField 8 [0, 2]) = s.emit (.mctp .sideband 4 0 [5, 0, 0, 0, 0, 0, 0, 0]) := by
  have types : bitField 8 [0, 2] = [5, 0, 0, 0, 0, 0, 0, 0] := by decide
  rw [types, State.pldmSend_answered answers]

/-- A sensor that exists is read (R501). -/
theorem State.sensorReading_found {i v : Nat} (found : s.pwr.tele.reading i = some v) :
    s.sensorReading i = s.emit (.mctp .sideband 0x11 0 (leBytes 2 v)) := by
  simp only [State.sensorReading, found, State.pldmSend_answered answers]

end

/-! ## The ends of waits (R80, R83, R84) -/

theorem State.warmDelayOver_pending {s : State} {sub : Nat} (h : s.boot.pendingReset = some sub) :
    s.warmDelayOver = s.moduleReset 4 sub := by
  simp only [State.warmDelayOver, h]

/-- An erase that succeeds ends its handle with OK (R84). -/
theorem State.eraseDone_good {s : State} {x : Xfer} (xfer : s.ember.xfer = some x) (op : x.op = .erase) :
    s.eraseDone true =
      (((s.modEmber (fun e => { e with xfer := some { x with erased := true, op := .none } })).fwDone 0x0C01 rcOk).endHandle
        x.handle rcOk).closeIfDue := by
  simp [State.eraseDone, xfer, op]

/-- A verification that ran to its end closes the transfer and gives the slot and the handle what it found (R83). -/
theorem State.verifyDone_good {s : State} {x : Xfer} {r : Nat × Nat} (xfer : s.ember.xfer = some x) (op : x.op = .verify)
    (found : s.nv.verdict (s.nv.slot x.slot).image (x.ptr == x.size) = r) :
    s.verifyDone true =
      (((s.modEmber (fun e => { e with xfer := none })).modNv (fun v => v.modSlot x.slot (fun o =>
        if r.1 = rcOk then { o with st := .valid, good := true, version := Config.imageVersion (s.nv.slot x.slot).image,
                                    svn := Config.imageSvn (s.nv.slot x.slot).image % 65536 }
        else { o with st := .invalid, good := false }))).fwDone 0x0C03 r.1).endHandle x.handle r.1 r.2 := by
  simp only [State.verifyDone, xfer, op, found, ne_eq, not_true_eq_false, if_false, if_true]

/-! ## The events -/

/-- Settles O19: each event is its operation on a die out of reset, and the lemma on that operation says what it leaves. -/
theorem mailboxEventsTakeEffect : Obligations.MailboxEventsTakeEffect := by
  unfold Obligations.MailboxEventsTakeEffect
  refine ⟨?go, ?goError, ?ack, ?takePage, ?takeMessage, ?bar0, ?vnic, ?cluster, ?ignored, ?message, ?setEid, ?control,
    ?address, ?pldm, ?warmReset, ?erase, ?verify⟩
  case go =>
    rintro s pg _ up opened boot idle rfl
    exact State.onDie_up_eq up ((State.goWrite_open opened).trans (State.goPage_idle boot idle))
  case goError =>
    intro s pg up opened boot st
    exact State.onDie_up_eq up ((State.goWrite_open opened).trans (State.goPage_not_idle boot st))
  case ack =>
    intro s pg up opened
    exact State.onDie_up_eq up (State.ackWritten_open opened)
  case takePage =>
    intro s part a up fw idle front page
    exact State.onDie_up_eq up (State.takeCommand_page fw idle front page)
  case takeMessage =>
    intro s part a m up fw idle front msg held
    exact State.onDie_up_eq up (State.takeCommand_message fw idle front msg held)
  case bar0 =>
    intro s p off size v up bars inBar
    exact State.onDie_up_eq up (State.regWrite_bar0 size v.toNat bars inBar)
  case vnic =>
    intro s f off size v x up fn mem awake
    exact State.onDie_up_eq up (State.regWrite_vnic off size v.toNat fn mem awake)
  case cluster =>
    intro s c off size v t up cl inBlock taken
    exact State.onDie_up_eq up (State.regWrite_cluster cl inBlock taken)
  case ignored =>
    intro s p off size v
    exact ⟨exec_registerWrite_ignored rfl, exec_registerWrite_ignored rfl⟩
  case message =>
    intro s c tag body up answers len type vendor cmdSet eid free
    exact State.onDie_up_eq up (State.mctpCommand_queued answers len type vendor cmdSet eid free)
  case setEid =>
    intro s op eid up answers opOk pos below
    exact State.onDie_up_eq up (State.setEid_sideband answers opOk pos below)
  case control =>
    intro s c up answers
    exact ⟨State.onDie_up_eq up (State.getEid_answered answers), State.onDie_up_eq up (State.mctpVersion_base answers),
      State.onDie_up_eq up (State.mctpTypes_answered answers), State.onDie_up_eq up (State.mctpVendor_first answers)⟩
  case address =>
    intro s addr on
    exact State.done_of_eq (if_neg on)
  case pldm =>
    intro s up answers
    exact ⟨State.onDie_up_eq up (State.pldmReply_answered answers 2 0),
      fun type => State.onDie_up_eq up (State.pldmReply_answered answers 3 type),
      State.onDie_up_eq up (State.pldmTypes_answered answers),
      State.onDie_up_eq up (State.pldmSend_answered answers 5 0 _),
      State.onDie_up_eq up (State.pldmSend_answered answers 5 0 _),
      State.onDie_up_eq up (State.pldmReply_answered answers 0x50 0),
      fun r => State.onDie_up_eq up (State.pldmReply_answered answers 0x51 r),
      fun i v found => State.onDie_up_eq up (State.sensorReading_found answers found)⟩
  case warmReset =>
    intro s sub pending
    exact State.done_of_eq (State.warmDelayOver_pending pending)
  case erase =>
    intro s x up xfer op
    exact State.onDie_up_eq up (State.eraseDone_good xfer op)
  case verify =>
    intro s x up xfer op
    exact State.onDie_up_eq up (State.verifyDone_good xfer op rfl)

end Sys2Proof.Machine
end

section
/-! PROOFS. Packets from other modules, spray reports and write acknowledgements: what each operation leaves on the path the spec
describes (R31, R33, R231, R238, R239, R405, R408), and from that what the events do. -/

namespace Sys2Proof.Machine

open Sys2Proof

/-- An event of the data path leaves what its operation leaves, while the die works (R460, R496). -/
theorem State.live_working_eq {s t u : State} (on : s.working) (h : t = u) : s.live t = .next (s.after u) :=
  h ▸ State.live_working on t

/-! ## Packets received on a link that is UP (R33, R231, R239) -/

/-- Packet `k` as the core takes it from link `l`: it enters at the link's core port, in the current epoch and with no tracker. -/
def State.fromLink (s : State) (l : Nat) (k : Pkt) : Pkt :=
  { k with src := 40 + l, epoch := s.win.epoch.toNat, trk := 0, trkv := false, spilled := false }

section
variable {s : State} {l : Nat} {k : Pkt} (up : (s.link l).st = .up) (data : k.ptype ≠ 4)
include up data

/-- A packet of a quarantined link, or of a module that is not admitted, is discarded (R239). -/
theorem State.fabricIn_unknown (unknown : (s.link l).quarantined = true ∨ ¬ (s.adm k.smod).st = .admitted) :
    s.fabricIn l k = s.dropForeign l (s.fromLink l k) := by
  rcases unknown with quarantined | stranger
  · simp [State.fabricIn, State.fromLink, up, data, quarantined]
  · simp [State.fabricIn, State.fromLink, up, data, stranger]

variable (clear : (s.link l).quarantined = false) (known : (s.adm k.smod).st = .admitted)
include clear known

section
variable (here : k.dmod = s.own)
include here

omit data in
/-- A completion for this module goes to the port its address names. -/
theorem State.fabricIn_completion (completion : k.ptype = 1) (port : s.portPresent (cplPort k.d.faddr) = true) :
    s.fabricIn l k = s.submit (localPkt (s.fromLink l k) (cplPort k.d.faddr)) := by
  rw [Pkt.d] at port
  simp [State.fabricIn, State.fromLink, Pkt.d, up, clear, known, here, completion, port]

/-- A request for this module of a class that peers may address is delivered here (R33). -/
theorem State.fabricIn_request (request : k.ptype ≠ 1) (cls : faClass k.d.faddr < 4) :
    s.fabricIn l k = s.deliverHere l (s.fromLink l k) := by
  rw [Pkt.d] at cls
  simp [State.fabricIn, State.fromLink, Pkt.d, up, data, clear, known, here, request, Nat.not_le.mpr cls]

/-- A request for this module of any other class is answered as in R31. -/
theorem State.fabricIn_classRefused (request : k.ptype ≠ 1) (cls : 4 ≤ faClass k.d.faddr) :
    s.fabricIn l k = s.refuseForeign l 2 (s.fromLink l k) := by
  rw [Pkt.d] at cls
  simp [State.fabricIn, State.fromLink, Pkt.d, up, data, clear, known, here, request, cls]

end

section
variable (elsewhere : k.dmod ≠ s.own)
include elsewhere

/-- A packet in transit over its first module is routed on (R231). -/
theorem State.fabricIn_transit {p1 : Pkt} {s1 : State} (first : k.hops = 0)
    (route : s.routePkt (s.fromLink l k) k.dmod = some (p1, s1)) : s.fabricIn l k = s1.submit p1 := by
  rw [State.fromLink, first] at route
  simp [State.fabricIn, up, data, clear, known, elsewhere, first, route]

/-- A packet that a transit module has already sent on is answered as in R31 (R231). -/
theorem State.fabricIn_secondTransit (crossed : k.hops ≠ 0) :
    s.fabricIn l k = s.refuseForeign l 5 (s.fromLink l k) := by
  simp [State.fabricIn, State.fromLink, up, data, clear, known, elsewhere, crossed]

end
end

/-- Only reads and writes of memory are split (R264). -/
theorem State.arrivals_not_request (s : State) {p : Pkt} (h : p.ptype ≠ 0) : s.arrivals p = [(p, p.d.faddr)] := by
  simp [State.arrivals, h]

/-- A packet that is not a memory request goes whole to the attachment of its address. -/
theorem State.deliverHere_attached {s : State} {p : Pkt} {o : Nat} (l : Nat) (h : p.ptype ≠ 0)
    (att : s.attachment p.d.faddr = some o) : s.deliverHere l p = s.submit (localPkt p o) := by
  simp [State.deliverHere, State.arrivals_not_request s h, att]

/-! ## Write acknowledgements (R405, R408) -/

/-- An acknowledgement that no store waits for changes nothing. -/
theorem State.writeAcked_none {s : State} {id : Nat} (h : s.storeOf id = none) (delivered : Bool) :
    s.writeAcked id delivered = s := by
  simp only [State.writeAcked, h]

/-- An acknowledgement releases the store that waits for it, and records it where its write was dropped. -/
theorem State.writeAcked_some {s : State} {id i : Nat} {e : SbEnt} (h : s.storeOf id = some (i, e)) (delivered : Bool) :
    s.writeAcked id delivered =
      let t := s.modHcore (i / 8) (i % 8) (fun c => { c with unacked := c.unacked.filter (fun x => x.id != id) })
      if delivered then t else t.recordStore (i / 8) (i % 8) e.addr := by
  simp only [State.writeAcked, h]

/-! ## The events -/

/-- Settles O30: each event is its operation on a die that works, and the lemma on that operation says what it leaves. -/
theorem fabricPacketsTakeEffect : Obligations.FabricPacketsTakeEffect := by
  unfold Obligations.FabricPacketsTakeEffect
  refine ⟨?packet, ?doneReport, ?writeAck⟩
  case packet =>
    intro s l k on up data
    refine ⟨?unknown, ?completion, ?request, ?frame, ?classRefused, ?transit, ?secondTransit⟩
    case unknown =>
      intro unknown
      exact State.live_working_eq on (State.fabricIn_unknown up data unknown)
    case completion =>
      intro clear known here completion port
      exact State.live_working_eq on (State.fabricIn_completion up clear known here completion port)
    case request =>
      intro clear known here request cls
      exact State.live_working_eq on (State.fabricIn_request up data clear known here request cls)
    case frame =>
      intro o clear known here frame cls att
      have request : k.ptype ≠ 1 := by omega
      have whole : k.ptype ≠ 0 := by omega
      exact State.live_working_eq on ((State.fabricIn_request up data clear known here request cls).trans
        (State.deliverHere_attached l whole att))
    case classRefused =>
      intro clear known here request cls
      exact State.live_working_eq on (State.fabricIn_classRefused up data clear known here request cls)
    case transit =>
      intro p1 s1 clear known elsewhere first route
      exact State.live_working_eq on (State.fabricIn_transit up data clear known elsewhere first route)
    case secondTransit =>
      intro clear known elsewhere crossed
      exact State.live_working_eq on (State.fabricIn_secondTransit up data clear known elsewhere crossed)
  case doneReport =>
    intro s m tc v on
    exact State.live_working on (s.doneReport m tc v)
  case writeAck =>
    intro s id on
    refine ⟨?noStore, ?store⟩
    case noStore =>
      intro unheld delivered
      exact State.live_working_eq on (State.writeAcked_none unheld delivered)
    case store =>
      intro i e held
      exact ⟨State.live_working_eq on (State.writeAcked_some held true), State.live_working_eq on (State.writeAcked_some held false)⟩

end Sys2Proof.Machine
end

section
/-! PROOFS. The command interface: a step takes the front of the queue, every command answers a next state, Ember's checks run
in the order of R67, and delivering an answer changes nothing but what carries it; from that what the device, core, Hearth and
firmware commands do. -/

namespace Sys2Proof.Machine

open Sys2Proof

/-! ## Steps and the queue (logs 18, 19) -/

/-- A step takes the command at the front of the queue. -/
theorem step_front {s : State} {c : Instr} {r : List Instr} (h : s.pending = c :: r) :
    step s = exec c { s with pending := r } := by
  simp only [step, h]

/-- Settles O1: the queue of the state has `c` in front. -/
theorem stepTakesFrontCommand : Obligations.StepTakesFrontCommand := by
  unfold Obligations.StepTakesFrontCommand
  intro c s r
  exact step_front rfl

/-- Every arm of the dispatcher ends in `done`: events of the main die and of the data path only choose the state they hand it. -/
theorem exec_eq_done (c : Instr) (s : State) : ∃ t, exec c s = s.done t := by
  cases c <;> exact ⟨_, rfl⟩

/-- Settles O3: what `done` answers is a next state with the queue it was given. -/
theorem everyCommandAnswersNextState : Obligations.EveryCommandAnswersNextState := by
  unfold Obligations.EveryCommandAnswersNextState
  intro c s
  obtain ⟨t, arm⟩ := exec_eq_done c s
  exact ⟨t, arm.trans (State.done_eq s t), State.after_pending s t⟩

/-- A step on a queue with a command in front answers a next state, and the rest of the queue waits there. -/
theorem step_next_of_front {s : State} {c : Instr} {r : List Instr} (h : s.pending = c :: r) :
    ∃ t, step s = .next t ∧ t.pending = r := by
  obtain ⟨t, answer, queue⟩ := everyCommandAnswersNextState c { s with pending := r }
  exact ⟨_, (step_front h).trans answer, queue⟩

/-- A safe step followed by a safe run is a safe run. -/
theorem safeRun_succ {s t : State} (h : step s = .next t) (n : Nat) : safeRun (n + 1) s = safeRun n t := by
  simp only [safeRun, h]

/-- A run that begins with a step goes on from the state the step answers. -/
theorem run_succ {s t : State} (h : step s = .next t) (n : Nat) : Host.Core.run core (n + 1) s = Host.Core.run core n t := by
  have first : core.step s = .next t := h
  simp only [Host.Core.run, first]

/-- As many steps as the queue is long are safe. -/
theorem safeRun_queue (cs : List Instr) (s : State) (h : s.pending = cs) : safeRun cs.length s = true := by
  induction cs generalizing s with
  | nil => rfl
  | cons c r ih =>
    obtain ⟨t, first, rest⟩ := step_next_of_front h
    exact (safeRun_succ first r.length).trans (ih t rest)

/-- After `k` steps, no more than the queue is long, the queue is without its first `k` commands. -/
theorem run_queue (cs : List Instr) (s : State) (h : s.pending = cs) (k : Nat) (le : k ≤ cs.length) :
    ∃ t, Host.Core.run core k s = .next t ∧ t.pending = cs.drop k := by
  induction k generalizing s cs with
  | zero => exact ⟨s, rfl, h⟩
  | succ k ih =>
    cases cs with
    | nil => exact absurd le (Nat.not_succ_le_zero k)
    | cons c r =>
      obtain ⟨t, first, rest⟩ := step_next_of_front h
      obtain ⟨u, run, queue⟩ := ih r t rest (Nat.le_of_succ_le_succ le)
      exact ⟨u, (run_succ first k).trans run, queue⟩

/-- Settles O4: each step answers a next state and takes one command, by induction on the queue and on the steps. -/
theorem runTakesCommandsInOrder : Obligations.RunTakesCommandsInOrder := by
  unfold Obligations.RunTakesCommandsInOrder
  intro s cs
  exact ⟨safeRun_queue cs _ rfl, run_queue cs _ rfl⟩

/-! ## The checks of a command, in order (R67) -/

section
variable {k : Cmd} {c : Path} {p : Nat} {q : Req} {s : State}

/-- Order 1: LENGTH. -/
theorem runCmd_too_long (long : 4064 < q.length ∨ q.length % 4 ≠ 0) : runCmd k c p q s = failWith s rcBadLength := by
  simp only [runCmd, if_pos long]

variable (fits : ¬ (4064 < q.length ∨ q.length % 4 ≠ 0))
include fits

/-- Order 3: the header fields. -/
theorem runCmd_bad_header {off : Nat} (fault : headerFault q = some off) : runCmd k c p q s = bad s off := by
  simp only [runCmd, if_neg fits, fault]

variable (header : headerFault q = none)
include header

/-- Order 4: Smoulder mode. -/
theorem runCmd_smoulder (dark : s.ember.smoulder = true ∧ smoulderAllows k.op = false) :
    runCmd k c p q s = failWith s rcNotReady := by
  simp [runCmd, if_neg fits, header, dark]

variable (lit : ¬ (s.ember.smoulder = true ∧ smoulderAllows k.op = false))
include lit

/-- Past orders 1 to 4 the rights of the caller, LENGTH and the body are left. -/
theorem runCmd_lit : runCmd k c p q s =
    if (q.onBehalf = true ∧ p ≠ 0) ∨ k.allowed (whoOf c p q) q s = false then deny s
    else if k.lenOk q = false then failWith s rcBadLength else k.body (whoOf c p q) q s := by
  simp only [runCmd, if_neg fits, header, Bool.not_eq_true', if_neg lit]
  rfl

/-- Order 5: rights. -/
theorem runCmd_denied (denied : (q.onBehalf = true ∧ p ≠ 0) ∨ k.allowed (whoOf c p q) q s = false) :
    runCmd k c p q s = deny s := by
  rw [runCmd_lit fits header lit, if_pos denied]

variable (may : ¬ ((q.onBehalf = true ∧ p ≠ 0) ∨ k.allowed (whoOf c p q) q s = false))
include may

/-- Order 6: the LENGTH of the command's definition. -/
theorem runCmd_wrong_length (len : k.lenOk q = false) : runCmd k c p q s = failWith s rcBadLength := by
  rw [runCmd_lit fits header lit, if_neg may, if_pos len]

/-- Past the checks a command is its body. -/
theorem runCmd_body (len : k.lenOk q = true) : runCmd k c p q s = k.body (whoOf c p q) q s := by
  rw [runCmd_lit fits header lit, if_neg may, if_neg (by simp [len])]

end

/-- Settles O57: one lemma for each order of the checks. -/
theorem checksRunInOrder : Obligations.ChecksRunInOrder := by
  unfold Obligations.ChecksRunInOrder
  intro k c p q s refused long dark denied
  exact ⟨runCmd_too_long, fun _ fits fault => runCmd_bad_header fits fault, runCmd_smoulder, runCmd_denied,
    runCmd_wrong_length, runCmd_body⟩

/-- The opcodes of Smoulder mode: those of four commands, and the firmware group (R68). -/
theorem smoulderAllows_iff (op : Nat) : smoulderAllows op = true ↔
    op = cmdNop.op ∨ op = cmdDeviceInfo.op ∨ op = cmdGetOpStatus.op ∨ op = cmdWarmReset.op ∨ op / 256 = 0x0C := by
  simp only [smoulderAllows, Bool.or_eq_true, beq_iff_eq, or_assoc]
  rfl

/-- Settles O11: order 4 of the checks turns on the opcode alone, and past it an allowed command meets only its own checks. -/
theorem smoulderAcceptsOnlyItsOpcodes : Obligations.SmoulderAcceptsOnlyItsOpcodes := by
  unfold Obligations.SmoulderAcceptsOnlyItsOpcodes
  refine ⟨?refused, ?accepted⟩
  case refused =>
    intro k c p q s smoulder fits whole header nop info status reset group
    have refused : smoulderAllows k.op = false := by
      rw [Bool.eq_false_iff, Ne, smoulderAllows_iff]
      simp only [nop, info, status, reset, group, or_self, not_false_iff]
    exact runCmd_smoulder (by omega) header ⟨smoulder, refused⟩
  case accepted =>
    intro k c p q s _ fits whole header behalf rights len named
    have allowed := (smoulderAllows_iff k.op).mpr named
    refine runCmd_body (by omega) header ?_ ?_ len
    · simp [allowed]
    · simpa [rights] using behalf

/-! ## Delivering an answer (R61, R72, R245) -/

/-- An event offered to a block's counters changes the counters alone (R508). -/
theorem State.count_eq (s : State) (e : CtrEv) : ∃ ctrs, s.count e = s.modCnt (fun k => { k with ctrs := ctrs }) := by
  by_cases masked : s.masked e.block = true
  · exact ⟨s.cnt.ctrs, if_pos masked⟩
  · exact ⟨_, if_neg masked⟩

/-- Counting a command changes the counters alone (R508). -/
theorem Ans.counted_eq (a : Ans) (p : Nat) : ∃ ctrs, a.counted p = a.s.modCnt (fun k => { k with ctrs := ctrs }) := by
  by_cases passed : a.status ≤ rcDrainPending
  · obtain ⟨ctrs, eq⟩ := State.count_eq a.s { block := 0x32, event := 0x10, part := some p }
    exact ⟨ctrs, (if_pos passed).trans eq⟩
  · exact ⟨a.s.cnt.ctrs, if_neg passed⟩

/-- State `s` with `r` as the last response, `out` as its outputs and `formed` as the packets its attachments have formed. -/
def State.withResponse (s : State) (r : Rsp) (out : List Output) (formed : List Pkt) : State :=
  { s with ember := { s.ember with lastRsp := r }, out := out, core := { s.core with formed := formed } }

/-- A response is kept and sent as an output; one to another module's manager is also formed as a packet (R78, R245). -/
theorem State.respond_eq (s : State) (c : Path) (msgTag : Nat) (r : Rsp) : ∃ out formed,
    s.respond c msgTag r = s.withResponse r out formed ∧ ((∀ m, c ≠ .relay m) → formed = s.core.formed) := by
  cases c with
  | page => exact ⟨s.out, s.core.formed, rfl, fun _ => rfl⟩
  | hearth => exact ⟨s.out, s.core.formed, rfl, fun _ => rfl⟩
  | vdm => exact ⟨_, s.core.formed, rfl, fun _ => rfl⟩
  | sideband => exact ⟨_, s.core.formed, rfl, fun _ => rfl⟩
  | relay m => exact ⟨_, _, rfl, fun own => absurd rfl (own m)⟩

section
variable {a : Ans} (c : Path) (p op : Nat) (q : Req) (n : Nat)

/-- An answer that ends is counted and becomes the last response (R61, R66). -/
theorem Ans.deliver_ended (ended : a.wait = none) : ∃ ctrs out formed,
    a.deliver c p op q n = (a.s.modCnt (fun k => { k with ctrs := ctrs })).withResponse (rspOf op q.tag a) out formed ∧
    ((∀ m, c ≠ .relay m) → formed = a.s.core.formed) := by
  obtain ⟨ctrs, counted⟩ := a.counted_eq p
  obtain ⟨out, formed, sent, own⟩ :=
    State.respond_eq (a.s.modCnt (fun k => { k with ctrs := ctrs })) c n (rspOf op q.tag a)
  refine ⟨ctrs, out, formed, ?_, own⟩
  simp only [Ans.deliver, ended, counted, sent]

/-- An answer that waits is counted and leaves the command running for its partition (R65, R72). -/
theorem Ans.deliver_waits {w : RunWait} (waits : a.wait = some w) : ∃ ctrs,
    a.deliver c p op q n = (a.s.modCnt (fun k => { k with ctrs := ctrs })).modEmber (fun e =>
      { e with running := tset e.running p { pos := posOf c, path := c, opcode := op, tag := q.tag, noInt := q.noInt,
                                             msgTag := n, wait := w } }) := by
  obtain ⟨ctrs, counted⟩ := a.counted_eq p
  refine ⟨ctrs, ?_⟩
  simp only [Ans.deliver, waits, counted]

end

/-- Settles O58: by whether the answer ends or waits, from the form of the state it leaves. -/
theorem answerFrame : Obligations.AnswerFrame := by
  unfold Obligations.AnswerFrame
  intro a c p op n q
  cases wait : a.wait with
  | none =>
    obtain ⟨ctrs, out, formed, left, own⟩ := a.deliver_ended c p op q n wait
    simp only [left]
    refine ⟨rfl, fun noRelay => ?_, rfl, rfl, fun _ => ⟨rfl, rfl⟩, fun waits => absurd rfl waits⟩
    rw [own noRelay]
    rfl
  | some w =>
    obtain ⟨ctrs, left⟩ := a.deliver_waits c p op q n wait
    simp only [left]
    refine ⟨rfl, fun _ => rfl, rfl, rfl, nofun, fun _ => ⟨rfl, rfl, ?_, fun x other => ?_⟩⟩
    · simp [tlook_tset]
    · simp [tlook_tset, other.symm]

/-! ## The device commands (R66, R70, R79, R80) -/

/-- A command Ember serves leaves what its body answers (R67). -/
theorem State.serves.answers {s : State} {k : Cmd} {c : Path} {p : Nat} {q : Req} {a : Ans} (served : s.serves k c p q)
    (body : k.body (whoOf c p q) q s = a) : s.done (Machine.direct k c q s) = .next (s.answered a c p k.op q) :=
  body ▸ served.direct

/-- A command that reports answers a status block of a stated length and changes nothing. -/
theorem State.serves.reports {s : State} {k : Cmd} {c : Path} {p : Nat} {q : Req} {n : Nat} (served : s.serves k c p q)
    (body : ∃ d, d.length = n ∧ k.body (whoOf c p q) q s = ok s d) :
    ∃ d, d.length = n ∧ s.done (Machine.direct k c q s) = .next (s.answered (ok s d) c p k.op q) := by
  obtain ⟨d, len, answer⟩ := body
  exact ⟨d, len, served.answers answer⟩

@[simp] theorem ok_status (s : State) (d : Bytes) : (ok s d).status = rcOk := rfl

section
variable (w : Who) (q : Req) (s : State)

theorem cmdDeviceInfo_reports : ∃ d, d.length = 64 ∧ cmdDeviceInfo.body w q s = ok s d :=
  ⟨_, by simp [List.length_flatMap], rfl⟩

theorem cmdCoreGetStatus_reports : ∃ d, d.length = 76 ∧ cmdCoreGetStatus.body w q s = ok s d :=
  ⟨_, by simp [List.length_flatMap], rfl⟩

theorem cmdFwGetStatus_reports : ∃ d, d.length = 32 ∧ cmdFwGetStatus.body w q s = ok s d :=
  ⟨_, by simp, rfl⟩

end

section
variable {w : Who} {q : Req} {s : State}

/-- GET_OP_STATUS of a handle whose work has ended (R70). -/
theorem cmdGetOpStatus_ended {h : Handle} (rsvd : q.zero 0x24 4 = true)
    (found : s.ember.handles.find? (fun h => handleNumber h.id == q.u32 0x20 && h.part == w.subject) = some h)
    (ended : h.running = false) :
    cmdGetOpStatus.body w q s = ok { s with free := s.free + 1 }
      (leBytes 4 (q.u32 0x20) ++ [1, 100] ++ leBytes 2 h.final ++ leBytes 2 h.opcode ++ [0, 0] ++ leBytes 4 h.detail) := by
  simp [cmdGetOpStatus, found, rsvd, ended, leBytes, b2n]

/-- WARM_RESET with a delay in range (R80). -/
theorem cmdWarmReset_in_range (low : 10 ≤ q.u32 0x20) (high : q.u32 0x20 ≤ 10000) :
    cmdWarmReset.body w q s = ok ((s.modKept (fun k => { k with bkp1 := BitVec.ofNat 32 (q.u32 0x24) })).modBoot
      (fun b => { b with pendingReset := some 1, announce := some (q.u32 0x20) })) :=
  if_neg (by omega)

/-- A reset to be announced is announced once, to every partition (R80). -/
theorem State.announceReset_some {d : Nat} (h : s.boot.announce = some d) :
    s.announceReset = (s.modBoot (fun b => { b with announce := none })).event 0x801 s.allParts d := by
  simp only [State.announceReset, h]

/-! ## HEARTH_CTL (R416) -/

/-- HEARTH_CTL OP 1 starts a cluster that is stopped and not offline for test (R416). -/
theorem cmdHearthCtl_start (cl : q.u8 0x20 < 4) (op : q.u8 0x21 = 1) (part : q.u8 0x22 < 32) (cores : q.u8 0x23 ≠ 0)
    (rsvd : q.zero 0x24 4 = true) (pc : s.pcOk (q.u8 0x20) (q.u64 0x28) = true) (st : (s.cluster (q.u8 0x20)).st = .stopped)
    (online : s.masked (0x2E + q.u8 0x20) = false) :
    cmdHearthCtl.body w q s = ok (s.clusterStart (q.u8 0x20) (q.u8 0x22) (q.u8 0x23) (q.u64 0x28))
      ((s.clusterStart (q.u8 0x20) (q.u8 0x22) (q.u8 0x23) (q.u64 0x28)).clusterState (q.u8 0x20)) := by
  simp [cmdHearthCtl, firstBad, cl, op, part, cores, rsvd, pc, st, online]

/-! ## The firmware commands (R82 to R85) -/

/-- With no transfer open there is none to abandon (R84). -/
theorem State.abandonXfer_none (h : s.ember.xfer = none) : s.abandonXfer = s := by
  simp only [State.abandonXfer, h]

/-- FW_BEGIN with no transfer open starts the erase of a slot that does not run (R81, R84). -/
theorem cmdFwBegin_begins (slot : q.u8 0x20 ≤ 1) (rsvd : q.zero 0x21 3 = true) (low : 4 ≤ q.u32 0x24)
    (high : q.u32 0x24 ≤ 0x03000000) (whole : q.u32 0x24 % 4 = 0) (idle : s.runningSlot ≠ some (q.u8 0x20))
    (closed : s.ember.xfer = none) (room : s.handleFree w.caller = true) :
    cmdFwBegin.body w q s =
      let h := s.newHandle w.caller 0x0C01
      pend ((h.2.modNv (fun v => v.modSlot (q.u8 0x20) (fun o =>
          { st := .opened, size := q.u32 0x24, data := mclear o.data 0 (eraseSectors (q.u32 0x24) * 65536) }))).modEmber (fun e =>
            { e with xfer := some { slot := q.u8 0x20, size := q.u32 0x24, owner := w.caller, path := w.path, op := .erase,
                                    handle := h.1 } })) h.1 := by
  simp [cmdFwBegin, firstBad, slot, rsvd, low, high, whole, idle, closed, room, State.abandonXfer_none closed]

/-- A transfer whose owner comes by its path, erased and not in verification, refuses nothing (R82, R84). -/
theorem State.xferFault_none {x : Xfer} (xfer : s.ember.xfer = some x) (slot : x.slot = q.u8 0x20) (owner : x.owner = w.caller)
    (path : x.path = w.path) (free : x.op ≠ .verify) (erased : x.erased = true) :
    s.xferFault w (q.u8 0x20) = (some x, ok s) := by
  simp [State.xferFault, xfer, slot, owner, path, free, erased]

/-- FW_WRITE at WRITE_PTR: the flash takes the bytes, or fails (R84, R575, log 16). -/
theorem cmdFwWrite_writes {x : Xfer} (clear : s.xferFault w (q.u8 0x20) = (some x, ok s)) (slot : x.slot = q.u8 0x20)
    (rsvd : q.zero 0x21 3 = true) (ptr : q.u32 0x24 = x.ptr) (low : 4 ≤ q.u32 0x28) (high : q.u32 0x28 ≤ 4048)
    (whole : q.u32 0x28 % 4 = 0) (inside : x.ptr + q.u32 0x28 ≤ x.size) (rsvd' : q.zero 0x2C 4 = true) :
    cmdFwWrite.body w q s = if s.freeBit.1 then
        { status := rcHwFault, s := (s.freeBit.2.raiseAt 0x3A 2).fwDone 0x0C02 rcHwFault }
      else ok ((((s.freeBit.2.modNv (fun v => v.modSlot x.slot (fun o =>
        { o with data := mwrite 0xFF o.data x.ptr (q.bytes 0x30 (q.u32 0x28)) }))).modEmber
          (fun e => { e with xfer := some { x with ptr := x.ptr + q.u32 0x28 } })).fwDone 0x0C02 rcOk))
        (leBytes 4 (x.ptr + q.u32 0x28) ++ leBytes 4 0) := by
  simp [cmdFwWrite, firstBad, clear, slot, rsvd, ptr, low, high, whole, inside, rsvd']

/-- FW_FINISH starts the verification of an erased transfer (R83, R576). -/
theorem cmdFwFinish_verifies {x : Xfer} (clear : s.xferFault w (q.u8 0x20) = (some x, ok s)) (slot : x.slot = q.u8 0x20)
    (rsvd : q.zero 0x21 3 = true) (room : s.handleFree w.caller = true) :
    cmdFwFinish.body w q s =
      let h := s.newHandle w.caller 0x0C03
      pend (h.2.modEmber (fun e => { e with xfer := some { x with op := .verify, handle := h.1 } })) h.1 := by
  simp [cmdFwFinish, clear, slot, rsvd, room]

/-- FW_ACTIVATE of a VALID slot with RESET_NOW (R85, log 16). -/
theorem cmdFwActivate_valid (slot : q.u8 0x20 ≤ 1) (valid : (s.nv.slot (q.u8 0x20)).st = .valid) (now : q.u8 0x21 = 1)
    (keep : q.u8 0x22 = 0) (rsvd : q.zero 0x23 1 = true) :
    cmdFwActivate.body w q s = if s.freeBit.1 then
        { status := rcHwFault, s := (s.freeBit.2.raiseAt 0x3A 2).fwDone 0x0C04 rcHwFault }
      else ok (((s.freeBit.2.modNv (fun v => { v with activation := some (q.u8 0x20) })).fwDone 0x0C04 rcOk).modBoot
        (fun b => { b with pendingReset := some 2 })) := by
  have named : q.u8 0x20 ≠ 255 := by omega
  simp [cmdFwActivate, firstBad, slot, valid, now, keep, rsvd, named]

end

/-! ## The commands -/

/-- Settles O20: a command Ember serves leaves what its body answers, and the lemma on that body says what it is; the body of
CORE_SET_CONFIG is its list of checks and one replacement. -/
theorem deviceCommandsComplete : Obligations.DeviceCommandsComplete := by
  unfold Obligations.DeviceCommandsComplete
  refine ⟨?nop, ?info, ?opStatus, ?warmReset, ?announce, ?coreStatus, ?coreConfig, ?hearth, ?fwStatus, ?fwBegin, ?fwWrite,
    ?fwFinish, ?fwActivate⟩
  case nop =>
    intro s c p q served
    exact served.answers rfl
  case info =>
    intro s c p q served
    exact served.reports (cmdDeviceInfo_reports _ q s)
  case opStatus =>
    intro s c p q h served rsvd found ended
    exact served.answers (cmdGetOpStatus_ended rsvd found ended)
  case warmReset =>
    intro s c p q served low high
    exact served.answers (cmdWarmReset_in_range low high)
  case announce =>
    intro s d announced
    exact State.announceReset_some announced
  case coreStatus =>
    intro s c p q served
    exact served.reports (cmdCoreGetStatus_reports _ q s)
  case coreConfig =>
    intro s c p q served v w d inRange named mask rsvd alpha weight drop quota total rsvd'
    refine served.answers ?_
    have valid : (decide (v < 32) && v != 0) = true := by simp [inRange, named]
    -- Each field that VALID names is in range and each other is 0, so the list of checks holds no failure.
    dsimp only [cmdCoreSetConfig]
    rw [(firstBad_none _).mpr]
    simp only [List.forall_mem_append, List.forall_mem_cons, List.forall_mem_map, List.mem_range, List.not_mem_nil,
      IsEmpty.forall_iff, implies_true, and_true]
    exact ⟨⟨⟨⟨valid, mask, rsvd, alpha⟩, weight⟩, drop⟩, quota, total, rsvd'⟩
  case hearth =>
    intro s c p q served cl op part cores rsvd pc st online
    exact served.answers (cmdHearthCtl_start cl op part cores rsvd pc st online)
  case fwStatus =>
    intro s c p q served
    exact served.reports (cmdFwGetStatus_reports _ q s)
  case fwBegin =>
    intro s c p q served slot rsvd low high whole idle closed room
    exact served.answers (cmdFwBegin_begins slot rsvd low high whole idle closed room)
  case fwWrite =>
    intro s c p q x served xfer slot rsvd ptr low high whole inside rsvd' owner path free erased
    have clear := State.xferFault_none (w := whoOf c p q) xfer slot owner path free erased
    exact served.answers (cmdFwWrite_writes clear slot rsvd ptr low high whole inside rsvd')
  case fwFinish =>
    intro s c p q x served xfer slot rsvd owner path free erased room
    have clear := State.xferFault_none (w := whoOf c p q) xfer slot owner path free erased
    exact served.answers (cmdFwFinish_verifies clear slot rsvd room)
  case fwActivate =>
    intro s c p q served slot valid now keep rsvd
    exact served.answers (cmdFwActivate_valid slot valid now keep rsvd)

end Sys2Proof.Machine
end

section
/-! PROOFS. The PCIe stations' transactions: what each operation leaves on the path the spec describes, and from that what the
events do. -/

namespace Sys2Proof.Machine

open Sys2Proof

/-! ## Requests from the links (R97, R132 to R135, R143) -/

section
variable {s s1 : State} {n : Nat} {r : MemReq} (role : (s.port n).role = .upstream) (link : (s.port n).dlActive = true)
  (credit : s.noCredit n r.kind.asks = false)
  (counted : s.stationCount n true (some (s.port n).part) ((s.port n).coreTc r.ptc) r.data.length = s1)
include role link credit counted

/-- A host request outside the management BARs is looked up in the partition's windows. -/
theorem State.hostRequest_window (outside : s1.mgmtRange (s.port n).part r.addr.toNat = none) :
    s.hostRequest n r = (s1.count { block := 0x33, event := 0x10, part := some (s.port n).part }).hostLookup n r := by
  simp [State.hostRequest, role, link, credit, counted, outside]

/-- A host request inside BAR0 reaches the mailbox registers. -/
theorem State.hostRequest_bar0 {off : Nat} (inBar : s1.mgmtRange (s.port n).part r.addr.toNat = some (0, off)) :
    s.hostRequest n r = s1.bar0Request n (s.port n).part off r := by
  simp [State.hostRequest, role, link, credit, counted, inBar]

end

/-- A request of a device whose port is up and not contained is counted and looked up. -/
theorem State.deviceRequest_lookup {s : State} {n : Nat} {r : MemReq} (role : (s.port n).role = .downstream)
    (link : (s.port n).dlActive = true) (free : (s.port n).dpc = false) (credit : s.noCredit n r.kind.asks = false) :
    s.deviceRequest n r =
      let part := (idMatch s.win.bank n r.rid r.pasid).map ePartHi
      ((s.stationCount n true part ((s.port n).coreTc r.ptc) r.data.length).count
        { block := 0x33, event := 0x10, part := part }).deviceLookup n r := by
  simp [State.deviceRequest, role, link, free, credit]

/-! ## Into the core (R97, R162) -/

/-- The first waiting packet of its VOQ, which no flow move holds, enters the VOQ at the place its output admits it to. -/
theorem State.retryAdmission_admitted {s : State} {i : Nat} {w : WPkt} {pl : Place} (waits : s.core.waiting[i]? = some w)
    (still : w.why ≠ .move) (turn : (s.core.waiting.take i).any (fun x => voqOf x.pkt == voqOf w.pkt) = false)
    (planes : s.planesIn ≠ []) (admitted : s.verdict w.pkt w.n = .put pl) :
    s.retryAdmission i = (s.modCore (fun k => { k with waiting := dropAt k.waiting i })).enqueue w.pkt
      (if w.pkt.more then w.n else w.pkt.cells) pl (s.cutsThrough w.pkt) := by
  have first : ¬ ((s.core.waiting.take i).any (fun x => voqOf x.pkt == voqOf w.pkt) = true ∨ s.planesIn.isEmpty = true) := by
    simp only [turn, List.isEmpty_iff, planes, Bool.false_eq_true, or_self, not_false_iff]
  simp only [State.retryAdmission, waits, if_neg first, still, false_and, if_false, admitted]

/-- The first request that waits for its target takes a free slot there and enters the core. -/
theorem State.npReserve_free {s : State} {n i : Nat} {p : Pkt} (waits : (s.port n).npWait[i]? = some p)
    (free : s.slotFree p.dst n = true) (turn : ((s.port n).npWait.take i).any (fun k => k.dst == p.dst) = false) :
    s.npReserve n i = (s.modPort n (fun k => { k with npWait := dropAt k.npWait i })).enterCore p := by
  simp only [State.npReserve, waits, free, turn, Bool.not_false, and_self, if_true]

/-! ## Out of the egress (R96, R101, R139) -/

section
variable {s : State} {n : Nat} {k : Pkt} {r : List Pkt} (link : (s.port n).dlActive = true)
  (first : takeOrdered (fun x => (s.port n).issuable x && (!x.nonPosted || s.cplRoom n x)) (s.port n).mayPass []
    (s.port n).egress = some (k, r))
  (whole : k.abort = false)
include link first whole

theorem State.egressIssue_completion (completion : k.ptype = 1) :
    s.egressIssue n = (s.modPort n (fun q => { q with egress := r })).issueCpl n k := by
  simp [State.egressIssue, link, first, whole, completion]

/-- A non-posted request is issued under a free tag. -/
theorem State.egressIssue_nonPosted {t : Nat} (request : k.ptype ≠ 1) (asks : k.nonPosted = true)
    (tag : (s.port n).freeTag = some t) :
    s.egressIssue n = (s.modPort n (fun q => { q with egress := r })).issueNp n t k := by
  simp [State.egressIssue, link, first, whole, request, asks, tag]

theorem State.egressIssue_posted (request : k.ptype ≠ 1) (posted : k.nonPosted = false) :
    s.egressIssue n = (s.modPort n (fun q => { q with egress := r })).issuePosted n k := by
  simp [State.egressIssue, link, first, whole, request, posted]

end

/-- An acknowledgement lets the oldest unacknowledged packet leave the module. -/
theorem State.tlpAcked_oldest {s : State} {n : Nat} {k : Pkt} {r : List Pkt} (unacked : (s.port n).unacked = k :: r) :
    s.tlpAcked n = (s.modPort n (fun p => { p with unacked := r })).leave k := by
  simp only [State.tlpAcked, unacked]

/-! ## Answers and messages from the links (R96, R103, R119) -/

/-- A completion under a tag in use is counted for the partition and class of the tag's request. -/
theorem State.cplReceived_tagged {s : State} {n : Nat} {c : Cpl} {t : TagRec}
    (tag : (s.port n).tags.find? (fun r => r.tag == c.tag) = some t) :
    s.cplReceived n c = (s.stationCount n true (some t.part) t.tc c.data.length).completionIn n c := by
  simp [State.cplReceived, tag]

/-- ERR_COR of a bound function is passed up. -/
theorem State.messageIn_errCor {s : State} {n rid p k : Nat} {m : PcieMsg} (role : (s.port n).role = .downstream)
    (bound : s.vdspOfRid n rid = some (p, k)) (code : m.code = 0x30) :
    s.messageIn n rid m = s.errorUp n p k (s.vridOf n rid) 0x30 := by
  simp [State.messageIn, role, bound, code]

/-- A tag in use that times out answers Completer Abort and raises source 2. -/
theorem State.cplTimeout_tagged {s : State} {n t : Nat} {r : TagRec}
    (tag : (s.port n).tags.find? (fun r => r.tag == t) = some r) :
    s.cplTimeout n t = (s.answerTag n r csCa).raiseAt (n / 4) 2 (some r.part) (some n) := by
  simp only [State.cplTimeout, tag]

/-! ## The events -/

/-- Settles O21: each event is its operation, on a die that works or is out of reset, and the lemma on that operation says what
it leaves. -/
theorem pcieTrafficTakesEffect : Obligations.PcieTrafficTakesEffect := by
  unfold Obligations.PcieTrafficTakesEffect
  refine ⟨?host, ?device, ?admission, ?slot, ?issue, ?ack, ?completion, ?message, ?timeout, ?quarantine⟩
  case host =>
    intro s n r on role link credit p s1
    exact ⟨fun outside => State.live_working_eq on (State.hostRequest_window role link credit rfl outside),
      fun off inBar => State.live_working_eq on (State.hostRequest_bar0 role link credit rfl inBar)⟩
  case device =>
    intro s n r on role link free credit
    exact State.live_working_eq on (State.deviceRequest_lookup role link free credit)
  case admission =>
    intro s i w pl on waits still turn planes admitted
    exact State.live_working_eq on (State.retryAdmission_admitted waits still turn planes admitted)
  case slot =>
    intro s n i p on waits free turn
    exact State.live_working_eq on (State.npReserve_free waits free turn)
  case issue =>
    intro s n k r on link first whole
    exact ⟨fun completion => State.live_working_eq on (State.egressIssue_completion link first whole completion),
      fun t request asks tag => State.live_working_eq on (State.egressIssue_nonPosted link first whole request asks tag),
      fun request posted => State.live_working_eq on (State.egressIssue_posted link first whole request posted)⟩
  case ack =>
    intro s n k r on unacked
    exact State.live_working_eq on (State.tlpAcked_oldest unacked)
  case completion =>
    intro s n c t on tag
    exact State.live_working_eq on (State.cplReceived_tagged tag)
  case message =>
    intro s n rid m p k on role bound code
    exact State.live_working_eq on (State.messageIn_errCor role bound code)
  case timeout =>
    intro s n t r up tag
    exact State.onDie_up_eq up (State.cplTimeout_tagged tag)
  case quarantine =>
    intro s n t up
    exact State.onDie_up up _

end Sys2Proof.Machine
end

section
/-! PROOFS. The virtual switches: configuration, hot-plug, containment and reset of a vDSP. What each operation leaves on the
path the spec describes, and from that what the events do. -/

namespace Sys2Proof.Machine

open Sys2Proof

/-! ## Configuration requests (R106 to R108, R117) -/

@[simp] theorem State.captureBus_ember (s : State) (p : Nat) (r : CfgReq) : (s.captureBus p r).ember = s.ember := by
  rw [State.captureBus, apply_ite State.ember]
  exact ite_self _

@[simp] theorem State.captureBus_boot (s : State) (p : Nat) (r : CfgReq) : (s.captureBus p r).boot = s.boot := by
  rw [State.captureBus, apply_ite State.boot]
  exact ite_self _

section
variable {s : State} {p : Nat} {r : CfgReq} (up : (s.vs p).up.isSome = true) (noReset : (s.vs p).inReset = false)
  (fw : s.ember.fwReady = true)
include up noReset fw

/-- A request that reaches no function of the switch is unsupported. -/
theorem State.cfgRequest_untargeted (target : (s.captureBus p r).cfgTarget p r = none) :
    s.cfgRequest p r = (s.captureBus p r).cfgDone p r csUr 0 := by
  simp [State.cfgRequest, Option.isSome_iff_ne_none.mp up, noReset, fw, target]

variable (mode : s.ember.smoulder = false) (boot : s.boot.phase ≠ .hostDownload)
include mode boot

theorem State.cfgRequest_vdsp_read {k : Nat} (target : (s.captureBus p r).cfgTarget p r = some (.vdsp k))
    (read : r.write = false) :
    s.cfgRequest p r = (s.captureBus p r).cfgDone p r 0 ((s.captureBus p r).vdspRead p k r.reg) := by
  simp [State.cfgRequest, Option.isSome_iff_ne_none.mp up, noReset, fw, mode, boot, target, read]

theorem State.cfgRequest_vdsp_write {k : Nat} (target : (s.captureBus p r).cfgTarget p r = some (.vdsp k))
    (write : r.write = true) :
    s.cfgRequest p r = ((s.captureBus p r).vdspWrite p k r).cfgDone p r 0 0 := by
  simp [State.cfgRequest, Option.isSome_iff_ne_none.mp up, noReset, fw, mode, boot, target, write]

variable (answers : (s.vs p).rrs = false)
include answers

theorem State.cfgRequest_bridge_read (target : (s.captureBus p r).cfgTarget p r = some .bridge) (read : r.write = false) :
    s.cfgRequest p r = (s.captureBus p r).cfgDone p r 0 ((s.captureBus p r).bridgeRead p r.reg) := by
  simp [State.cfgRequest, Option.isSome_iff_ne_none.mp up, noReset, fw, mode, boot, answers, target, read]

theorem State.cfgRequest_bridge_write (target : (s.captureBus p r).cfgTarget p r = some .bridge) (write : r.write = true) :
    s.cfgRequest p r = ((s.captureBus p r).modVs p (fun v =>
      { v with bridge := cfgStore 0 v.bridge r.reg r.reg r.be r.value })).cfgDone p r 0 0 := by
  simp [State.cfgRequest, Option.isSome_iff_ne_none.mp up, noReset, fw, mode, boot, answers, target, write]

theorem State.cfgRequest_mgmt_read (target : (s.captureBus p r).cfgTarget p r = some .mgmt) (read : r.write = false) :
    s.cfgRequest p r = (s.captureBus p r).cfgDone p r 0 (((s.captureBus p r).vs p).mgmtRead r.reg) := by
  simp [State.cfgRequest, Option.isSome_iff_ne_none.mp up, noReset, fw, mode, boot, answers, target, read]

end

/-! ## BARs and Memory Space Enable (R109) -/

/-- The address written is rounded down to the BAR's size and mapped. -/
theorem State.barWrite_bound {s : State} {p k fn bar : Nat} (v : Word) (bound : (s.vdsp p k).bound = true)
    (size : s.barSize p (s.vdsp p k) fn bar ≠ 0) :
    s.barWrite p k fn bar v =
      let a : Word := BitVec.ofNat 64 (v.toNat / 2 ^ s.barSize p (s.vdsp p k) fn bar * 2 ^ s.barSize p (s.vdsp p k) fn bar)
      (s.modVdsp p k (fun x => { x with bars := tset x.bars (fn * 6 + bar) a })).mapBar p k fn bar (s.barKeys p k fn bar) := by
  simp [State.barWrite, bound, size]

/-- Memory Space Enable of a bound function other than a vNIC's is recorded, and its six BARs are mapped anew. -/
theorem State.memEnWrite_bound {s : State} {p k : Nat} (fn : Nat) (en : Bool) (bound : (s.vdsp p k).bound = true)
    (kind : (s.vdsp p k).kind ≠ 6) :
    s.memEnWrite p k fn en = [0, 1, 2, 3, 4, 5].foldl (fun t bar => t.mapBar p k fn bar (t.barKeys p k fn bar))
      (s.modVdsp p k (fun v => { v with memEn := tset v.memEn fn en })) := by
  simp only [State.memEnWrite, bound, kind, Bool.not_true, Bool.false_eq_true, if_false]

/-! ## Slot power and DPC (R112, R113, R121) -/

section
variable {s : State} {p k : Nat}

/-- Power Controller Control of a CONTAINED or REMOVING vDSP is recorded and nothing else (R113). -/
theorem State.powerControl_recorded (off : Bool) (st : (s.vdsp p k).st = .contained ∨ (s.vdsp p k).st = .removing) :
    s.powerControl p k off = s.modVdsp p k (fun v => { v with powerOff := off }) := by
  rcases st with contained | removing
  · simp only [State.powerControl, contained]
  · simp only [State.powerControl, removing]

/-- A PRESENT vDSP switched off is POWERED_OFF, and its target is reset. -/
theorem State.powerControl_off (present : (s.vdsp p k).st = .present) :
    s.powerControl p k true = ((s.modVdsp p k (fun v => { v with powerOff := true })).modVdsp p k
      (fun v => { v with st := .poweredOff, linkActive := false, linkChanged := true })).targetReset p k := by
  simp only [State.powerControl, present, if_true]

/-- Power on written at a PRESENT vDSP is recorded and nothing else. -/
theorem State.powerControl_on (present : (s.vdsp p k).st = .present) :
    s.powerControl p k false = s.modVdsp p k (fun v => { v with powerOff := false }) := by
  simp only [State.powerControl, present, Bool.false_eq_true, if_false]

section
variable (contained : (s.vdsp p k).st = .contained)
include contained

/-- DPC Trigger Status of a vDSP whose physical port stays contained cannot be cleared (R113). -/
theorem State.dpcClear_held
    (held : (s.vdsp p k).kind = 1 ∧ ((s.dpcRelease (s.vdsp p k).port).port (s.vdsp p k).port).dpc = true ∨
      (s.vdsp p k).kind = 2 ∧ (s.port (s.vdsp p k).port).dpc = true) :
    s.dpcClear p k = s := by
  rcases held with ⟨kind, dpc⟩ | ⟨kind, dpc⟩
  · simp [State.dpcClear, contained, kind, dpc]
  · simp [State.dpcClear, contained, kind, dpc]

/-- A contained vDSP with no physical port of this module behind it is released: it comes back PRESENT, or POWERED_OFF. -/
theorem State.dpcClear_released (kind : 3 ≤ (s.vdsp p k).kind) :
    s.dpcClear p k = (s.targetReset p k).modVdsp p k (fun v =>
      if v.powerOff then { v with st := .poweredOff, dpcStatus := false }
      else { v with st := .present, dpcStatus := false, linkActive := true }) := by
  have notPort : (s.vdsp p k).kind ≠ 1 := by omega
  have notVf : (s.vdsp p k).kind ≠ 2 := by omega
  simp only [State.dpcClear, contained, notPort, notVf, or_self, false_and, if_false]

end

/-- DPC of a PRESENT vDSP contains it. -/
theorem State.dpcVdsp_present (present : (s.vdsp p k).st = .present) :
    s.dpcVdsp p k = s.modVdsp p k (fun v =>
      { v with st := .contained, dpcStatus := true, linkActive := false, linkChanged := v.linkChanged || !v.dpcEnable }) := by
  simp only [State.dpcVdsp, present]

end

/-! ## Resets below a vDSP (R116, R118) -/

/-- FLR of a function of a bound port, with no reset of its target running, is sent to the port. -/
theorem State.functionFlr_port {s : State} {p k : Nat} (fn : Nat) (bound : (s.vdsp p k).bound = true)
    (kind : (s.vdsp p k).kind = 1) (idle : (s.vdsp p k).resetPending = false) :
    s.functionFlr p k fn = (s.fnReset p k fn).sendFlr (s.vdsp p k).port fn := by
  simp [State.functionFlr, bound, kind, idle]

/-! ## Removal (R112, R249) -/

section
variable {s : State} {p k : Nat} (unplug : (s.vdsp p k).st = .unplug) (timer : (s.vdsp p k).timer = true)
include unplug timer

/-- The timer of an unplug that no command waits for ends in surprise removal. -/
theorem State.unplugOver_removes (unasked : (s.vdsp p k).unbind = none) :
    s.unplugOver p k = s.surpriseRemoval p k (!s.targetExists (s.vdsp p k)) := by
  simp only [State.unplugOver, unplug, timer, unasked, and_self, if_true]

variable {h : Nat} (unbind : (s.vdsp p k).unbind = some h)
include unbind

/-- The timer of a VDSP_UNBIND leaves the binding and ends the handle with TIMEOUT. -/
theorem State.unplugOver_timeout (noExtract : s.fab.extract.step = 0) (kind : (s.vdsp p k).kind ≠ 3) :
    s.unplugOver p k =
      (s.modVdsp p k (fun v => { v with st := .present, timer := false, unbind := none })).endHandle h rcTimeout := by
  simp [State.unplugOver, unplug, timer, unbind, noExtract, kind]

/-- During an extraction of this module the vDSP is removed all the same. -/
theorem State.unplugOver_extracted (extract : s.fab.extract.step ≠ 0) :
    s.unplugOver p k =
      ((s.modVdsp p k (fun v => { v with st := .present, timer := false, unbind := none })).endHandle h rcTimeout).surpriseRemoval
        p k (!s.targetExists (s.vdsp p k)) := by
  simp [State.unplugOver, unplug, timer, unbind, extract]

end

/-! ## The events -/

/-- Settles O12: past the check that the vDSP is the partition's, each event is its operation, and the lemma on that operation
says what a contained vDSP keeps. -/
theorem powerControlWhileContained : Obligations.PowerControlWhileContained := by
  unfold Obligations.PowerControlWhileContained
  refine ⟨?power, ?clear⟩
  case power =>
    intro s p k off on slot st
    exact State.live_working_eq on ((if_pos slot).trans (State.powerControl_recorded off st))
  case clear =>
    intro s p k on slot contained held
    exact State.live_working_eq on ((if_pos slot).trans (State.dpcClear_held contained held))

/-- Settles O22: each event is its operation, on a die that works or is out of reset, and the lemma on that operation says what
it leaves. -/
theorem pcieConfigurationTakesEffect : Obligations.PcieConfigurationTakesEffect := by
  unfold Obligations.PcieConfigurationTakesEffect
  refine ⟨?config, ?bar, ?memEn, ?power, ?clear, ?trigger, ?secondary, ?flr, ?mgmtFlr, ?unplug, ?lost, ?drained⟩
  case config =>
    intro s p r on up noReset fw mode boot answers t
    -- What an answered request leaves is followed by the interrupts it unmasks.
    have unmasked {u : State} (left : s.cfgRequest p r = u) :
        exec (.configurationRequest p r) s = .next (s.after (u.mgmtUnmask p)) :=
      State.live_working_eq on (congrArg (State.mgmtUnmask · p) left)
    exact ⟨fun target => unmasked (State.cfgRequest_untargeted up noReset fw target),
      fun target read => unmasked (State.cfgRequest_bridge_read up noReset fw mode boot answers target read),
      fun target write => unmasked (State.cfgRequest_bridge_write up noReset fw mode boot answers target write),
      fun target read => unmasked (State.cfgRequest_mgmt_read up noReset fw mode boot answers target read),
      fun _ target read => unmasked (State.cfgRequest_vdsp_read up noReset fw mode boot target read),
      fun _ target write => unmasked (State.cfgRequest_vdsp_write up noReset fw mode boot target write)⟩
  case bar =>
    intro s p k fn bar v on bound size
    exact State.live_working_eq on (State.barWrite_bound v bound size)
  case memEn =>
    intro s p k fn en on bound kind
    exact State.live_working_eq on (State.memEnWrite_bound fn en bound kind)
  case power =>
    intro s p k on slot present
    exact ⟨State.live_working_eq on ((if_pos slot).trans (State.powerControl_off present)),
      State.live_working_eq on ((if_pos slot).trans (State.powerControl_on present))⟩
  case clear =>
    intro s p k on slot contained kind
    exact State.live_working_eq on ((if_pos slot).trans (State.dpcClear_released contained kind))
  case trigger =>
    intro s p k on bound present
    exact State.live_working_eq on ((if_pos bound).trans (State.dpcVdsp_present present))
  case secondary =>
    intro s p k on bound
    exact State.live_working_eq on (if_pos bound)
  case flr =>
    intro s p k fn on bound kind idle
    exact State.live_working_eq on (State.functionFlr_port fn bound kind idle)
  case mgmtFlr =>
    intro s p on up
    exact State.live_working_eq on (if_pos up)
  case unplug =>
    intro s p k up unplug timer
    exact ⟨fun unasked => State.onDie_up_eq up (State.unplugOver_removes unplug timer unasked),
      fun h unbind => ⟨fun noExtract kind => State.onDie_up_eq up (State.unplugOver_timeout unplug timer unbind noExtract kind),
        fun extract => State.onDie_up_eq up (State.unplugOver_extracted unplug timer unbind extract)⟩⟩
  case lost =>
    intro s up
    exact ⟨fun _ => State.onDie_up up _, fun _ => State.onDie_up up _⟩
  case drained =>
    intro s p k up removing drained
    exact State.onDie_up_eq up (if_pos ⟨removing, drained⟩)

end Sys2Proof.Machine
end

section
/-! PROOFS. The PCIe links: loss, presence, bring-up and PERST. What each operation leaves on the path the spec describes, and
from that what the events do. -/

namespace Sys2Proof.Machine

open Sys2Proof

/-! ## Link loss (R104, R116, R120) -/

section
variable {s : State} {n : Nat} (link : (s.port n).dlActive = true)
include link

/-- Link loss of an upstream port resets its partition. -/
theorem State.linkDown_upstream (role : (s.port n).role = .upstream) :
    s.linkDown n = ((s.portDrop n 0).raiseAt (n / 4) 8 none (some n)).upstreamReset n := by
  simp [State.linkDown, link, role]

/-- Link loss of a downstream port contains it. -/
theorem State.linkDown_downstream (role : (s.port n).role = .downstream) :
    s.linkDown n = (((s.portDrop n 0).raiseAt (n / 4) 8 none (some n)).surpriseDown n).dpcTrigger n := by
  simp [State.linkDown, link, role]

end

/-! ## Presence and bring-up (R114, R115) -/

/-- A change of presence at a downstream port is announced; a device that came starts the bring-up, one that went ends it. -/
theorem State.presenceChanged_downstream {s : State} {n : Nat} {pr : Bool} (role : (s.port n).role = .downstream)
    (changed : (s.port n).present ≠ pr) :
    s.presenceChanged n pr =
      let s1 := (s.modPort n (fun p => { p with present := pr })).event 0x80F [0] (n + b2n pr * 256)
      if pr then (s1.perstLost n).bringUp n else s1.modPort n (fun p => { p with step := 0, enumerated := false }) := by
  simp only [State.presenceChanged, role, changed, ne_eq, not_true_eq_false, or_self, if_false]

/-- A link that may train and comes up during link detection takes the port to its configuration wait. -/
theorem State.dataLinkUp_detected {s : State} {n width rate : Nat} (flit : Bool) (role : (s.port n).role ≠ .absent)
    (free : (s.port n).dpc = false) (enabled : (s.port n).disabled = false) (online : s.blockAway (n / 4) = false)
    (clock : s.boot.stationHeld.contains (n / 4) = false) (trains : (s.port n).canTrain width rate = true)
    (step : (s.port n).step = 2) :
    s.dataLinkUp n width rate flit =
      (s.portUp n width rate (flit || rate == 6)).modPort n (fun q => { q with step := 3, present := true }) := by
  simp only [State.dataLinkUp, role, free, enabled, online, clock, trains, step, Bool.false_eq_true, Bool.not_true, or_self,
    if_false, if_true]

/-! ## PERST_N of an upstream port (R116, R117) -/

/-- A pulse of 1 µs or more is always taken. -/
theorem pulseTaken_of_le {ns : Nat} (long : 1000 ≤ ns) : pulseTaken ns = true := by
  simp [pulseTaken, long]

/-- PERST_N asserted at a port without a link holds the partition in reset. -/
theorem State.perstAssert_upstream {s : State} {n ns : Nat} (long : 1000 ≤ ns) (role : (s.port n).role = .upstream)
    (high : tget false s.lands.perstLow n = false) (link : (s.port n).dlActive = false) :
    s.perstAssert n ns =
      ((s.modLands (fun l => { l with perstLow := tset l.perstLow n true })).modVs (s.port n).part
        (fun v => { v with inReset := true })).hierReset (s.port n).part := by
  simp [State.perstAssert, pulseTaken_of_le long, role, high, link, State.modLands]

/-! ## The end of a PORT_RESET (R115, R118) -/

/-- The reset of a port whose link is back ends its handle, and the bring-up goes on where the port is in it. -/
theorem State.portResetDone_linkUp {s : State} {n h : Nat} (reset : (s.port n).reset = some h)
    (own : (s.port n).sharePending = false) (bringUp : (s.port n).step ≠ 0) :
    s.portResetDone n true = (s.modPort n (fun p =>
      { p with reset := none, ltssm := if p.dlActive then 3 else p.ltssm })).endHandle h rcOk := by
  simp [State.portResetDone, reset, own, bringUp]

/-! ## The events -/

/-- Settles O23: each event is its operation, and the lemma on that operation says what it leaves; the steps of the bring-up are
one choice each, on the port's step. -/
theorem pcieLinksTakeEffect : Obligations.PcieLinksTakeEffect := by
  unfold Obligations.PcieLinksTakeEffect
  refine ⟨?linkDown, ?presence, ?bringUp, ?active, ?assert, ?release, ?hotReset, ?reset⟩
  case linkDown =>
    intro s n up link
    exact ⟨fun role => State.onDie_up_eq up (State.linkDown_upstream link role),
      fun role => State.onDie_up_eq up (State.linkDown_downstream link role)⟩
  case presence =>
    intro s n pr up role changed
    exact State.onDie_up_eq up (State.presenceChanged_downstream role changed)
  case bringUp =>
    intro s n up
    exact ⟨fun hold => State.onDie_up_eq up (if_pos hold), fun detect => State.onDie_up_eq up (if_pos detect),
      fun wait => State.onDie_up_eq up (if_pos wait), fun notReady => State.onDie_up_eq up (if_pos notReady)⟩
  case active =>
    intro s n width rate flit on role free enabled online clock trains step
    exact State.live_working_eq on (State.dataLinkUp_detected flit role free enabled online clock trains step)
  case assert =>
    intro s n ns long role high link
    exact State.done_of_eq (State.perstAssert_upstream long role high link)
  case release =>
    intro s n role
    exact State.done_of_eq (if_pos role)
  case hotReset =>
    intro s n on role noReset
    have answers : (s.port n).role = .upstream ∧ (!(s.vs (s.port n).part).inReset) = true := by simp [role, noReset]
    exact State.live_working_eq on (if_pos answers)
  case reset =>
    intro s n h up reset own bringUp
    exact State.onDie_up_eq up (State.portResetDone_linkUp reset own bringUp)

end Sys2Proof.Machine
end

section
/-! PROOFS. The port and vDSP commands: each body in range, on the path the spec describes, and from that what the commands
answer. -/

namespace Sys2Proof.Machine

open Sys2Proof

/-- The check of a field that VALID names: in range where it is named. -/
theorem checked_of_named {b c : Bool} (h : b = true → c = true) : (!b || c) = true := by
  cases b
  · rfl
  · exact h rfl

section
variable {w : Who} {q : Req} {s : State}

/-! ## The port commands (R100, R102, R116, R118) -/

theorem cmdPortGetStatus_reports (port : q.u8 0x20 < 40) (rsvd : q.zero 0x21 3 = true) :
    cmdPortGetStatus.body w q s = ok s (s.portStatus (q.u8 0x20)) := by
  simp [cmdPortGetStatus, firstBad, port, rsvd]

/-- PORT_SET_CONFIG of a port that no reset holds changes the settings VALID names. -/
theorem cmdPortSetConfig_sets (port : q.u8 0x20 < 40) (present : s.portPresent (q.u8 0x20) = true) (valid : q.u8 0x21 < 16)
    (named : q.u8 0x21 ≠ 0) (rate : bit (q.u8 0x21) 1 = true → 1 ≤ q.u8 0x22 ∧ q.u8 0x22 ≤ 6)
    (aspm : bit (q.u8 0x21) 3 = true → q.u8 0x23 = 0 ∨ q.u8 0x23 = 1 ∧ (s.port (q.u8 0x20)).role = .downstream)
    (cto : bit (q.u8 0x21) 0 = true → 1 ≤ q.u32 0x24 ∧ q.u32 0x24 ≤ 4000)
    (tcMap : bit (q.u8 0x21) 2 = true → tcMapOk (q.u32 0x28) = true) (rsvd : q.zero 0x2C 4 = true)
    (idle : (s.port (q.u8 0x20)).reset = none) :
    cmdPortSetConfig.body w q s = ok (s.modPort (q.u8 0x20) (fun k =>
      { k with
        ctoMs := if bit (q.u8 0x21) 0 then q.u32 0x24 else k.ctoMs
        ltssm := if bit (q.u8 0x21) 1 ∧ q.u8 0x22 ≠ k.targetRate ∧ k.dlActive then 4 else k.ltssm
        targetRate := if bit (q.u8 0x21) 1 then q.u8 0x22 else k.targetRate
        tcMap := if bit (q.u8 0x21) 2 then BitVec.ofNat 32 (q.u32 0x28) else k.tcMap
        aspm := if bit (q.u8 0x21) 3 then q.u8 0x23 else k.aspm })) := by
  have rateOk := checked_of_named (fun b => decide_eq_true (rate b))
  have ctoOk := checked_of_named (fun b => decide_eq_true (cto b))
  have tcMapOk' := checked_of_named tcMap
  have aspmOk : (!bit (q.u8 0x21) 3 || q.u8 0x23 == 0 ||
      (q.u8 0x23 == 1 && (s.port (q.u8 0x20)).role == .downstream)) = true := by
    rw [Bool.or_assoc]
    exact checked_of_named (fun b => by simpa using aspm b)
  simp only [cmdPortSetConfig, firstBad, port, present, valid, bne_iff_ne.mpr named, rateOk, aspmOk, ctoOk, tcMapOk', rsvd, idle,
    decide_true, Bool.and_self, Option.isSome_none, Bool.false_eq_true, false_and, if_true, if_false]

/-- PORT_RESET of a downstream port that no other reset or test holds starts under a handle. -/
theorem cmdPortReset_starts (port : q.u8 0x20 < 40) (role : (s.port (q.u8 0x20)).role = .downstream)
    (present : s.portPresent (q.u8 0x20) = true) (kind : q.u8 0x21 ≤ 5)
    (contained : q.u8 0x21 = 5 → (s.port (q.u8 0x20)).dpc = true) (rsvd : q.zero 0x22 2 = true)
    (hold : if q.u8 0x21 = 1 then 150 ≤ q.u32 0x24 ∧ q.u32 0x24 ≤ 1000 else q.u32 0x24 = 0)
    (idle : (s.port (q.u8 0x20)).reset = none) (online : s.masked (q.u8 0x20 / 4) = false)
    (room : s.handleFree w.caller = true) :
    cmdPortReset.body w q s =
      let h := s.newHandle w.caller 0x0302
      pend ((h.2.portResetStart (q.u8 0x20) (q.u8 0x21)).modPort (q.u8 0x20) (fun k => { k with reset := some h.1 })) h.1 := by
  have kindOk : (q.u8 0x21 != 5 || (s.port (q.u8 0x20)).dpc) = true :=
    checked_of_named (fun release => contained (eq_of_beq release))
  have holdOk : (if q.u8 0x21 = 1 then decide (150 ≤ q.u32 0x24 ∧ q.u32 0x24 ≤ 1000) else q.u32 0x24 == 0) = true := by
    split at hold <;> simp [*]
  simp only [cmdPortReset, firstBad, port, beq_iff_eq.mpr role, present, kind, kindOk, rsvd, holdOk, idle, online, room,
    decide_true, Bool.and_self, Option.isSome_none, Bool.not_true, Bool.false_eq_true, or_self, if_true, if_false]

/-! ## The vDSP commands (R112, R125) -/

/-- VDSP_BIND of a whole port that nothing holds, fences or tests, with identity entries left, binds it to an empty slot. -/
theorem cmdVdspBind_port (part : 1 ≤ q.u8 0x20 ∧ q.u8 0x20 ≤ 31) (slot : q.u8 0x21 < (s.vs (q.u8 0x20)).vdspCount)
    (empty : (s.vdsp (q.u8 0x20) (q.u8 0x21)).st = .empty) (kind : q.u8 0x22 = 1) (rsvd : q.zero 0x23 1 = true)
    (port : q.u8 0x24 < 40) (role : (s.port (q.u8 0x24)).role = .downstream) (here : q.u8 0x25 = s.own)
    (first : q.u16 0x26 = 0) (count : q.u16 0x28 = 1) (rsvd' : q.zero 0x2A 6 = true)
    (free : s.holders (q.u8 0x20) 1 (q.u8 0x24) 0 1 = []) (bindable : s.bindFault (q.u8 0x20) 1 (q.u8 0x24) 0 1 = none)
    (unfenced : s.fenced [(q.u8 0x24, 0xFFFF)] = false) (online : s.masked (q.u8 0x24 / 4) = false)
    (ids : (({ kind := 1, count := 1, port := q.u8 0x24 } : Vdsp).idEntries (q.u8 0x20) (q.u8 0x21)).length ≤ s.freeIds.length) :
    cmdVdspBind.body w q s = ok (s.bind (q.u8 0x20) (q.u8 0x21) 1 (q.u8 0x24) s.own 0 1) := by
  simp only [cmdVdspBind, kind, here, first, count, free, bindable, unfenced, online, if_neg (Nat.not_lt.mpr ids)]
  simp [firstBad, part, slot, empty, rsvd, port, role, rsvd']

/-- VDSP_UNBIND of a PRESENT vDSP asks its host, under a handle. -/
theorem cmdVdspUnbind_present (part : 1 ≤ q.u8 0x20 ∧ q.u8 0x20 ≤ 31) (slot : q.u8 0x21 < (s.vs (q.u8 0x20)).vdspCount)
    (bound : (s.vdsp (q.u8 0x20) (q.u8 0x21)).bound = true) (mode : q.u8 0x22 = 0) (rsvd : q.zero 0x23 1 = true)
    (time : q.u32 0x24 ≤ 600) (present : (s.vdsp (q.u8 0x20) (q.u8 0x21)).st = .present) (room : s.handleFree w.caller = true) :
    cmdVdspUnbind.body w q s =
      let h := s.newHandle w.caller 0x0304
      pend ((h.2.modVdsp (q.u8 0x20) (q.u8 0x21) (fun v => { v with unbind := some h.1 })).unplugRequest (q.u8 0x20) (q.u8 0x21))
        h.1 := by
  simp [cmdVdspUnbind, firstBad, part, slot, bound, mode, rsvd, time, present, room]

theorem cmdVdspGet_reports (part : 1 ≤ q.u8 0x20 ∧ q.u8 0x20 ≤ 31) (slot : q.u8 0x21 < 48) (rsvd : q.zero 0x22 2 = true) :
    ∃ d, d.length = 16 ∧ cmdVdspGet.body w q s = ok s d := by
  simp only [cmdVdspGet, firstBad, part, slot, rsvd, and_self, decide_true, if_true]
  exact ⟨_, by simp, rfl⟩

end

/-! ## The commands -/

/-- Settles O24: a command Ember serves leaves what its body answers, and the lemma on that body says what it is. -/
theorem pcieCommandsComplete : Obligations.PcieCommandsComplete := by
  unfold Obligations.PcieCommandsComplete
  refine ⟨?getStatus, ?setConfig, ?reset, ?bind, ?unbind, ?get⟩
  case getStatus =>
    intro s c p q served port rsvd
    exact served.answers (cmdPortGetStatus_reports port rsvd)
  case setConfig =>
    intro s c p q served n v port present valid named rate aspm cto tcMap rsvd idle
    exact served.answers (cmdPortSetConfig_sets port present valid named rate aspm cto tcMap rsvd idle)
  case reset =>
    intro s c p q served n port role present kind contained rsvd hold idle online room
    exact served.answers (cmdPortReset_starts port role present kind contained rsvd hold idle online room)
  case bind =>
    intro s c p q served low high slot empty kind rsvd port role here first count rsvd' free bindable unfenced online ids
    exact served.answers (cmdVdspBind_port ⟨low, high⟩ slot empty kind rsvd port role here first count rsvd' free bindable
      unfenced online ids)
  case unbind =>
    intro s c p q served low high slot bound mode rsvd time present room
    exact served.answers (cmdVdspUnbind_present ⟨low, high⟩ slot bound mode rsvd time present room)
  case get =>
    intro s c p q served low high slot rsvd
    exact served.reports (cmdVdspGet_reports ⟨low, high⟩ slot rsvd)

end Sys2Proof.Machine
end

section
/-! PROOFS. JTAG (R556), the end of a propagated reset (R117) and the release of a clock domain (R460). -/

namespace Sys2Proof.Machine

open Sys2Proof

/-! ## JTAG instructions (R556) -/

/-- Without power no instruction is taken. -/
theorem State.jtagSelect_off {s : State} (off : s.boot.phase = .off) (i : JtagInst) (v : BitVec 32) : s.jtagSelect i v = s :=
  if_pos off

theorem State.jtagTest_off {s : State} (off : s.boot.phase = .off) (i : JtagInst) (f : Jtag → Jtag) : s.jtagTest i f = s :=
  if_pos off

section
variable {s : State} (on : s.boot.phase ≠ .off)
include on

/-- An instruction selects its data register and lets go of the lands. -/
theorem State.jtagSelect_on (i : JtagInst) (v : BitVec 32) :
    s.jtagSelect i v = s.modJtag (fun j => { j with inst := i, dr := v, driving := false, highz := false }) := if_neg on

/-- SAMPLE/PRELOAD takes the boundary cells. -/
theorem State.jtagSample_on (cells : List Bool) :
    s.jtagSample cells = (s.modJtag (fun j => { j with inst := .sample, dr := 0, driving := false, highz := false })).modJtag
      (fun j => { j with boundary := (List.range cells.length).zip cells }) := by
  rw [State.jtagSample, if_neg on, State.jtagSelect_on on]

/-- Where TEST_MODE was sampled high, an instruction of the boundary acts on the lands. -/
theorem State.jtagTest_testMode (mode : s.boot.straps.testMode = true) (i : JtagInst) (f : Jtag → Jtag) :
    s.jtagTest i f = (s.modJtag (fun j => { j with inst := i, dr := 0, driving := false, highz := false })).modJtag f := by
  rw [State.jtagTest, if_neg on, if_pos mode, State.jtagSelect_on on]

/-- Elsewhere it selects BYPASS. -/
theorem State.jtagTest_bypass (mode : s.boot.straps.testMode = false) (i : JtagInst) (f : Jtag → Jtag) :
    s.jtagTest i f = s.modJtag (fun j => { j with inst := .bypass, dr := 0, driving := false, highz := false }) := by
  rw [State.jtagTest, if_neg on, if_neg (Bool.eq_false_iff.mp mode), State.jtagSelect_on on]

end

/-! ## The end of a propagated reset (R117) -/

theorem State.resetsDone_noVdsp {s : State} {p : Nat} (vdsps : s.vdspsOf p = []) :
    s.resetsDone p = s.modVs p (fun v => { v with rrs := false }) := by
  rw [State.resetsDone, vdsps, List.foldl_nil]

theorem State.resetsDone_oneVdsp {s : State} {p k : Nat} (vdsps : s.vdspsOf p = [k]) :
    s.resetsDone p =
      let s1 := s.modVs p (fun v => { v with rrs := false })
      (s1.flrsDone (s1.vdsp p k)).modVdsp p k (fun v => if v.st = .removing then v else { v with resetPending := false }) := by
  rw [State.resetsDone, vdsps, List.foldl_cons, List.foldl_nil]

/-! ## The events -/

/-- Settles O56: each event is its operation, and the lemma on that operation says what it leaves; with power, the release of a
clock domain is `clockRelease` itself. -/
theorem jtagAndPinsTakeEffect : Obligations.JtagAndPinsTakeEffect := by
  unfold Obligations.JtagAndPinsTakeEffect
  refine ⟨?powered, ?unpowered, ?noVdsp, ?oneVdsp, ?clock⟩
  case powered =>
    intro s b cells on sel
    refine ⟨?bypass, ?idcode, ?sample, ?testMode, ?otherwise⟩
    case bypass => exact State.done_of_eq (State.jtagSelect_on on _ _)
    case idcode => exact State.done_of_eq (State.jtagSelect_on on _ _)
    case sample => exact State.done_of_eq (State.jtagSample_on on cells)
    case testMode =>
      intro mode
      have acts := State.jtagTest_testMode on mode
      exact ⟨State.done_of_eq (acts _ _), State.done_of_eq (acts _ _), State.done_of_eq (acts _ _),
        State.done_of_eq (acts _ _)⟩
    case otherwise =>
      intro mode
      have bypass := State.jtagTest_bypass on mode
      exact ⟨State.done_of_eq (bypass _ _), State.done_of_eq (bypass _ _), State.done_of_eq (bypass _ _),
        State.done_of_eq (bypass _ _)⟩
  case unpowered =>
    intro s b off
    exact ⟨State.done_of_eq (State.jtagSelect_off off _ _), State.done_of_eq (State.jtagSelect_off off _ _),
      State.done_of_eq (State.jtagTest_off off _ _)⟩
  case noVdsp =>
    intro s p up vdsps
    exact State.onDie_up_eq up (State.resetsDone_noVdsp vdsps)
  case oneVdsp =>
    intro s p k up vdsps
    exact State.onDie_up_eq up (State.resetsDone_oneVdsp vdsps)
  case clock =>
    intro s on
    exact ⟨State.done_of_eq (if_neg on), State.done_of_eq (if_neg on), fun _ => State.done_of_eq (if_neg on)⟩

end Sys2Proof.Machine
end

section
/-! PROOFS. What the other agents do to a state in which nothing is left for them (R140, R434, R437): each agent works off a list
of its own, and does nothing when the list is empty. -/

namespace Sys2Proof.Machine

open Sys2Proof

/-- A change of the core that leaves the core as it is changes nothing. -/
theorem State.modCore_fixed {s : State} {f : CoreSt → CoreSt} (same : f s.core = s.core) : s.modCore f = s := by
  rw [State.modCore, same]

/-- With no reaction owed there is none to perform, whatever the bound (R434). -/
theorem State.performDue_noneOwed {s : State} (due : s.flt.due = []) (fuel : Nat) : s.performDue fuel = s := by
  cases fuel with
  | zero => rfl
  | succ n => simp only [State.performDue, due]

namespace State.Calm

section
variable {s : State} (calm : s.Calm)
include calm

/-! ## The core and what its attachments take from it (R154, R167, R176) -/

theorem issueAll_eq : s.issueAll = s :=
  List.foldl_fixed' (fun i => by rw [calm.issue]; rfl) _

theorem sendFormed_eq : s.sendFormed = s := by
  rw [State.sendFormed, calm.formed, List.foldl_nil]
  exact State.modCore_fixed (by simp only [← calm.formed])

/-- An attachment to which the core has delivered nothing takes nothing. -/
theorem takeDelivered_eq (n : Nat) (f : State → Pkt → State) : s.takeDelivered n f = s := by
  have unchanged : tdel s.core.delivered n = s.core.delivered := by rw [calm.delivered]; rfl
  have still : s.modCore (fun k => { k with delivered := tdel k.delivered n }) = s :=
    State.modCore_fixed (by simp only [unchanged])
  rw [State.takeDelivered, still, calm.delivered]
  rfl

theorem retortTake_eq : s.retortTake = s :=
  List.foldl_fixed' (fun e => calm.takeDelivered_eq (68 + e) State.retortPkt) _

theorem takeRegisters_eq : s.takeRegisters = s := by
  have groups : (List.range 8).foldl (fun t i => t.takeDelivered (56 + i) State.vnicPkt) s = s :=
    List.foldl_fixed' (fun i => calm.takeDelivered_eq (56 + i) State.vnicPkt) _
  rw [State.takeRegisters, groups, calm.takeDelivered_eq, calm.takeDelivered_eq]

/-! ## The start sequence and the drains (R140, R470) -/

theorem askImage_eq : s.askImage = s := if_pos (.inl calm.phase)

theorem settleDrains_eq : s.settleDrains = s := by
  have still : Win.freeTrackers { s.win with drains := s.win.drains.filter (fun d => !s.win.drainDone d) } = s.win := by
    rw [calm.drains, List.filter_nil, ← calm.drains]
    exact calm.trackers
  rw [State.settleDrains, State.modWin, still, calm.drains]
  rfl

/-! ## Retort and the counters (R307, R314, R518) -/

theorem rtTargets_eq : s.rtTargets = s := by
  rw [State.rtTargets, calm.instances]
  rfl

theorem poolFlushes_eq : s.poolFlushes = s := by
  rw [State.poolFlushes, calm.instances]
  rfl

theorem checkStreams_eq : s.checkStreams = s := by
  rw [State.checkStreams, calm.streams]
  rfl

/-! ## The network (R178, R340, R345, R349, R374) -/

theorem avgTrack_eq : s.avgTrack = s := if_pos (by rw [calm.averages]; rfl)

theorem pfcEval_eq : s.pfcEval = s := by
  rw [State.pfcEval, calm.lports]
  rfl

theorem finishFrames_eq : s.finishFrames = s := by
  rw [State.finishFrames, calm.lports]
  rfl

theorem vnicSettle_eq : s.vnicSettle = s := by
  rw [State.vnicSettle, calm.vnics]
  rfl

theorem rxSweep_eq : s.rxSweep = s := by
  rw [State.rxSweep, calm.waiting]
  rfl

theorem allWriteBacks_eq : s.allWriteBacks = s := by
  rw [State.allWriteBacks, calm.vnics]
  rfl

/-! ## Hearth (R394, R405) -/

theorem hAdmitted_eq : s.hAdmitted = s := by
  rw [State.hAdmitted, calm.clusters, tmap, List.map_nil, ← calm.clusters]

theorem hInterrupts_eq : s.hInterrupts = s := by
  rw [State.hInterrupts, calm.clusters]
  rfl

/-! ## All of them -/

theorem agents_eq : s.agents = s := by
  simp only [State.agents, calm.issueAll_eq, calm.sendFormed_eq, calm.askImage_eq, calm.settleDrains_eq, calm.rtTargets_eq,
    calm.checkStreams_eq, calm.retortTake_eq, calm.poolFlushes_eq, calm.takeRegisters_eq, calm.avgTrack_eq, calm.pfcEval_eq,
    calm.finishFrames_eq, calm.vnicSettle_eq, calm.rxSweep_eq, calm.allWriteBacks_eq, calm.hAdmitted_eq, calm.hInterrupts_eq]

/-- No reset is to be announced (R80). -/
theorem announceReset_eq : s.announceReset = s := by
  simp only [State.announceReset, calm.announce]

/-- No record is fresh (R438). -/
theorem handled_eq : s.handled = s := by
  rw [State.handled, State.modFlt, ← calm.fresh]

theorem settle_eq : s.settle = s := by
  simp only [State.settle, calm.announceReset_eq, State.performDue_noneOwed calm.due, calm.agents_eq, ite_self, calm.handled_eq]

end

end State.Calm

/-- Settles O7: no agent changes a calm state, so settling it leaves it as it is. -/
theorem quietStateStaysAsItIs : Obligations.QuietStateStaysAsItIs := by
  unfold Obligations.QuietStateStaysAsItIs
  intro s t calm
  rw [State.after, calm.settle_eq]

end Sys2Proof.Machine
end

section
/-! PROOFS. Windows, sharing and fences: each command body in range and each operation of an event, on the path the spec describes,
and from that what the commands answer and the events do. -/

namespace Sys2Proof.Machine

open Sys2Proof

/-! ## The ends of the waits (R140, R145, R151) -/

/-- A fence time that no running handle waits for takes the fence, and the kept records it alone held. -/
theorem State.fenceOver_noHandle {s : State} (n fn : Nat) (idle : ∀ h ∈ s.ember.handles, h.running = false) :
    s.fenceOver n fn =
      let s1 := s.modWin (fun w => { w with fences := w.fences.filter (fun f => !(f.port == n && f.fn == fn)) })
      { s1 with ports := tmap s1.ports (fun _ p =>
        { p with kept := p.kept.filter (fun r => !r.fns.any (fun g => g.1 == n && sameFn g.2 fn) || s1.fenced r.fns) }) } := by
  have nobody (waits : Handle → Bool) : s.ember.handles.filter (fun h => h.running && waits h) = [] :=
    List.filter_eq_nil_iff.mpr (fun h mem => by simp [idle h mem])
  dsimp only [State.fenceOver, State.modWin]
  rw [nobody, List.foldl_nil]

/-- The drain a command waits for gets a handle, under which the command answers DRAIN_PENDING. -/
theorem State.drainWaitOver_found {s : State} {p t : Nat} {d : Drain}
    (waits : (tget ({} : RunCmd) s.ember.running p).wait = .drain t)
    (found : s.win.drains.find? (fun d => d.tracker == t && d.handle == 0 && d.part == p) = some d) :
    s.drainWaitOver p =
      let h := s.newHandle p 0x0801 .drain
      (h.2.modWin (fun w => { w with drains := w.drains.map (fun x =>
        if x.tracker = t ∧ x.handle = 0 ∧ x.part = p then { x with handle := h.1 } else x) })).finishRun
        p rcDrainPending h.1 d.reply := by
  simp only [State.drainWaitOver, waits, found]

/-- A closed tracker that counts no packet ends the drains that waited for it. -/
theorem State.trackerEmpty_closed {s : State} {t : Nat} (used : (tget ({} : Tracker) s.win.trackers t).free = false)
    (closed : (tget ({} : Tracker) s.win.trackers t).isOpen = false) (empty : (tget ({} : Tracker) s.win.trackers t).empty = true) :
    s.trackerEmpty t = s.settleDrains := by
  simp [State.trackerEmpty, used, closed, empty]

section
variable {s : State} {n h : Nat} (pending : (s.port n).sharePending = true) (reset : (s.port n).reset = some h)
include pending reset

/-- A device that has changed its VFs ends the handle with OK. -/
theorem State.shareDone_good :
    s.shareDone n true = (s.modPort n (fun x => { x with sharePending := false, reset := none })).endHandle h rcOk := by
  simp [State.shareDone, pending, reset]

/-- One that failed leaves the port UNASSIGNED, as it already was while its VFs were being disabled. -/
theorem State.shareDone_failed_unassigned (mode : (s.port n).mode = .unassigned) :
    s.shareDone n false =
      (s.modPort n (fun x => { x with sharePending := false, reset := none, mode := .unassigned })).endHandle h rcTimeout := by
  simp [State.shareDone, pending, reset, mode]

/-- Where that changes the mode of the port, the entries that touch the port's range are invalidated (R142). -/
theorem State.shareDone_failed_assigned (mode : (s.port n).mode ≠ .unassigned) :
    s.shareDone n false =
      ((s.modPort n (fun x => { x with sharePending := false, reset := none, mode := .unassigned })).invalidateRange
        (faMake s.own 1 (n * 2 ^ 48)).toNat (2 ^ 48)).endHandle h rcTimeout := by
  simp [State.shareDone, pending, reset, mode]

end

/-! ## WIN_STAGE, WIN_DISCARD and WIN_READ (R136, R141, R153) -/

section
variable {w : Who} {q : Req} {s : State}

/-- WIN_STAGE of well-made records on entries that nothing locks puts them into the set. -/
theorem cmdWinStage_stages (low : 1 ≤ q.u16 0x20) (high : q.u16 0x20 ≤ 101) (rsvd : q.zero 0x22 6 = true)
    (made : s.opsFault (w.caller == 0) q (q.u16 0x20) = none)
    (ember : ∀ o ∈ opsOf q, eEmber (bankGet s.win.bank o.key) = false)
    (lock : w.caller ≠ 0 → ∀ o ∈ opsOf q, eLock (bankGet s.win.bank o.key) = false)
    (room : ((opsOf q).foldl (stageOne s.win.stamps (w.caller == 0)) (tget [] s.win.staging w.subject)).length ≤ 1024) :
    cmdWinStage.body w q s =
      let set := (opsOf q).foldl (stageOne s.win.stamps (w.caller == 0)) (tget [] s.win.staging w.subject)
      ok (s.modWin (fun x => { x with staging := tset x.staging w.subject set })) (leBytes 2 set.length ++ List.replicate 6 0) := by
  have unlocked : ¬ (opsOf q).any (fun o => eEmber (bankGet s.win.bank o.key) ||
      (w.caller != 0 && eLock (bankGet s.win.bank o.key))) = true := by
    simp only [List.any_eq_true, Bool.or_eq_true, Bool.and_eq_true, bne_iff_ne]
    rintro ⟨o, mem, isEmber | ⟨host, locked⟩⟩
    · exact absurd isEmber (by simp [ember o mem])
    · exact absurd locked (by simp [lock host o mem])
  simp only [cmdWinStage, firstBad, low, high, rsvd, made, and_self, decide_true, if_true, if_neg unlocked,
    if_neg (Nat.not_lt.mpr room)]

/-- WIN_READ of entries of the active bank of the ID map or the grant table, within the table. -/
theorem cmdWinRead_active (table : q.u8 0x20 = 3 ∨ q.u8 0x20 = 4) (active : q.u8 0x21 = 0) (scope : q.u8 0x22 = 0)
    (rsvd : q.zero 0x23 1 = true) (first : q.u16 0x24 < winCount (q.u8 0x20)) (low : 1 ≤ q.u16 0x26) (high : q.u16 0x26 ≤ 126)
    (inside : q.u16 0x24 + q.u16 0x26 ≤ winCount (q.u8 0x20)) :
    cmdWinRead.body w q s = ok s (leBytes 2 (w.shown s.iso.strict s.win.epoch.toNat) ++ leBytes 2 (q.u16 0x26) ++ [0, 0, 0, 0] ++
      (List.range (q.u16 0x26)).flatMap (fun i =>
        let e := bankGet s.win.bank (winKey (q.u8 0x20) 0 (q.u16 0x24 + i))
        if w.caller = 0 ∨ entryOwner (q.u8 0x20) e = w.caller then leBytes 32 e.toNat else List.replicate 32 0)) := by
  rcases table with table | table <;>
  · rw [table] at first inside
    simp [cmdWinRead, firstBad, table, active, scope, rsvd, first, low, high, inside]

end

/-! ## WIN_COMMIT (R137, R140) -/

section
variable (w : Who) (s : State) (ops : List StagedOp) (b : Bank)

/-- What a commit of the set `ops` writes when its checks answer bank `b`: the staged entries, and the windows that depend on
grants it breaks, made invalid (R142). -/
def State.commitWrites : List (Nat × Entry) :=
  ops.map (fun o => (o.key, bankGet b o.key)) ++ (commitDeps s.win.bank b ops).map (fun k => (k, invalidated (bankGet b k)))

/-- The store after the commit, its staging set discarded and partition 0's entries noted (R137, R141). -/
def State.committedWin : Win :=
  let t := (s.win.commit (s.commitWrites ops b)).2
  { t with staging := tdel t.staging w.subject
           byZero := (ops.filter (fun o => o.byZero)).map (fun o => o.key) ++ t.byZero.filter (fun k => !ops.any (fun o => o.key == k)) }

/-- The drain of the commit: of the partitions that own an entry it wrote (R140). -/
def State.commitDrain : Drain :=
  let t := s.win.commit (s.commitWrites ops b)
  { tracker := t.1
    parts := ((s.commitWrites ops b).flatMap (fun e =>
        (([e.2, bankGet s.win.bank e.1]).filter eValid).map (entryOwner (tableOfKey e.1)))).eraseDups
    epoch := BitVec.ofNat 16 (w.shown s.iso.strict t.2.epoch.toNat)
    applied := ops.length
    inval := (commitDeps s.win.bank b ops).length
    part := w.caller }

end

section
variable {w : Who} {q : Req} {s : State} {b : Bank} (rsvd : q.zero 0x21 3 = true)
  (checked : s.commitCheck (tget [] s.win.staging w.subject) (q.u8 0x20 == 1 || s.handleFree w.caller) = .inr b)
include rsvd checked

/-- Mode 1 checks only. -/
theorem cmdWinCommit_checks (mode : q.u8 0x20 = 1) :
    cmdWinCommit.body w q s = ok s (leBytes 2 (w.shown s.iso.strict s.win.epoch.toNat) ++ List.replicate 6 0) := by
  rw [mode] at checked
  simp only [cmdWinCommit, firstBad, mode, rsvd, checked, le_refl, decide_true, if_true]

/-- Mode 0 with no packet left that was admitted under the old entries. -/
theorem cmdWinCommit_drained (mode : q.u8 0x20 = 0)
    (drained : (s.committedWin w (tget [] s.win.staging w.subject) b).drainDone
      (s.commitDrain w (tget [] s.win.staging w.subject) b) = true) :
    cmdWinCommit.body w q s =
      let ops := tget [] s.win.staging w.subject
      ok ((({ s with win := s.committedWin w ops b }).tellInvalidated s.win.bank (commitDeps s.win.bank b ops)).modWin
        Win.freeTrackers) (s.commitDrain w ops b).reply := by
  rw [mode] at checked
  simp only [cmdWinCommit, firstBad, mode, rsvd, checked, Nat.zero_le, decide_true, if_true, zero_ne_one, if_false]
  exact if_pos drained

end

/-! ## DEV_SHARE and MIGRATE_FENCE (R145, R152) -/

section
variable {w : Who} {q : Req} {s : State} (port : q.u8 0x20 < 40) (role : (s.port (q.u8 0x20)).role = .downstream)
include port role

/-- DEV_SHARE of mode 0 on a port that nothing holds starts to disable its VFs, under a handle. -/
theorem cmdDevShare_unshares (mode : q.u8 0x21 = 0) (owner : q.u8 0x22 = 0) (rsvd : q.zero 0x23 1 = true)
    (vfs : q.u16 0x24 = 0) (quota : q.u16 0x26 ≤ 1024) (shared : (s.port (q.u8 0x20)).mode ≠ .exclusive)
    (unbound : s.boundTo (q.u8 0x20) = []) (idle : (s.port (q.u8 0x20)).sharePending = false)
    (room : s.handleFree w.caller = true) :
    cmdDevShare.body w q s =
      let h := s.newHandle w.caller 0x0805
      pend (((h.2.invalidateRange (faMake s.own 1 (q.u8 0x20 * 2 ^ 48)).toNat (2 ^ 48)).vfWrites (q.u8 0x20) 0).modPort (q.u8 0x20)
        (fun x => { x with sharePending := true, reset := some h.1, mode := .unassigned })) h.1 := by
  simp [cmdDevShare, firstBad, port, role, mode, owner, rsvd, vfs, quota, shared, unbound, idle, room]

section
variable (mode : (s.port (q.u8 0x20)).mode = .unassigned) (whole : q.u8 0x21 = 1) (first : q.u16 0x22 = 0)
  (count : q.u16 0x24 = 1) (rsvd : q.zero 0x26 2 = true) (unheld : s.vdsps.any (fun e => e.2.onPort (q.u8 0x20)) = false)
include mode whole first count rsvd unheld

/-- MIGRATE_FENCE of a whole port that no vDSP holds answers OK when no fence time is left, else a handle that ends with it. -/
theorem cmdMigrateFence_whole :
    cmdMigrateFence.body w q s =
      if !s.fenced [(q.u8 0x20, 0xFFFF)] then ok s
      else if !s.handleFree w.caller then failWith s rcBusy
      else
        let h := s.newHandle w.caller 0x0806 (.fences [(q.u8 0x20, 0xFFFF)])
        pend h.2 h.1 := by
  simp only [cmdMigrateFence, firstBad, port, role, mode, whole, first, count, rsvd, beq_self_eq_true, decide_true, Bool.and_self,
    Bool.true_or, Bool.and_true, unheld, if_true, Bool.false_eq_true, if_false]

theorem cmdMigrateFence_passed (unfenced : s.fenced [(q.u8 0x20, 0xFFFF)] = false) : cmdMigrateFence.body w q s = ok s := by
  simp only [cmdMigrateFence_whole port role mode whole first count rsvd unheld, unfenced, Bool.not_false, if_true]

theorem cmdMigrateFence_waits (fenced : s.fenced [(q.u8 0x20, 0xFFFF)] = true) (room : s.handleFree w.caller = true) :
    cmdMigrateFence.body w q s =
      let h := s.newHandle w.caller 0x0806 (.fences [(q.u8 0x20, 0xFFFF)])
      pend h.2 h.1 := by
  simp only [cmdMigrateFence_whole port role mode whole first count rsvd unheld, fenced, room, Bool.not_true, Bool.false_eq_true,
    if_false]

end

end

/-! ## The events and the commands -/

/-- Settles O25: each event is its operation and each command Ember serves leaves what its body answers; the lemma on that
operation or body says what it is. -/
theorem windowEventsAndCommandsComplete : Obligations.WindowEventsAndCommandsComplete := by
  unfold Obligations.WindowEventsAndCommandsComplete
  refine ⟨?fence, ?drainWait, ?drained, ?shared, ?stage, ?commit, ?discard, ?read, ?share, ?migrate⟩
  case fence =>
    intro s n fn up idle
    exact State.onDie_up_eq up (State.fenceOver_noHandle n fn idle)
  case drainWait =>
    intro s p t d up waits found
    exact State.onDie_up_eq up (State.drainWaitOver_found waits found)
  case drained =>
    intro s t up used closed empty
    exact State.onDie_up_eq up (State.trackerEmpty_closed used closed empty)
  case shared =>
    intro s n h up pending reset
    exact ⟨State.onDie_up_eq up (State.shareDone_good pending reset),
      fun mode => State.onDie_up_eq up (State.shareDone_failed_unassigned pending reset mode),
      fun mode => State.onDie_up_eq up (State.shareDone_failed_assigned pending reset mode)⟩
  case stage =>
    intro s c p q served low high rsvd made ember lock w set room
    exact served.answers (cmdWinStage_stages low high rsvd made ember lock room)
  case commit =>
    intro s c p q b served rsvd w ops checked
    exact ⟨fun mode => served.answers (cmdWinCommit_checks rsvd checked mode),
      fun mode drained => served.answers (cmdWinCommit_drained rsvd checked mode drained)⟩
  case discard =>
    intro s c p q served
    exact served.answers rfl
  case read =>
    intro s c p q served table active scope rsvd first low high inside
    exact served.answers (cmdWinRead_active table active scope rsvd first low high inside)
  case share =>
    intro s c p q served n port role mode owner rsvd vfs quota shared unbound idle room
    exact served.answers (cmdDevShare_unshares port role mode owner rsvd vfs quota shared unbound idle room)
  case migrate =>
    intro s c p q served n port role mode whole first count rsvd unheld
    exact ⟨fun unfenced => served.answers (cmdMigrateFence_passed port role mode whole first count rsvd unheld unfenced),
      fun fenced room => served.answers (cmdMigrateFence_waits port role mode whole first count rsvd unheld fenced room)⟩

end Sys2Proof.Machine
end

section
/-! PROOFS. The switch core: the ALPHA codes of the admission test (R163); what each operation of an event leaves on the path the spec
describes (R168 to R176, R185), and from that what the events do. -/

namespace Sys2Proof.Machine

open Sys2Proof

/-! ## The ALPHA codes (R163) -/

/-- The threshold factor of code `k`: α = 2^(k - 4) is the sixteenth part of 2^k. -/
theorem alphaFactor_eq (k : Nat) : (2 : ℚ) ^ ((k : ℤ) - 4) = 2 ^ k / 16 := by
  calc (2 : ℚ) ^ ((k : ℤ) - 4) = 2 ^ (k : ℤ) / 2 ^ (4 : ℤ) := zpow_sub₀ two_ne_zero _ _
    _ = 2 ^ k / 16 := by norm_num

/-- The model's test in whole numbers is the spec's test with the fraction α. -/
theorem alphaTest_iff (k q n f : Nat) : alphaTest k q n f = true ↔ (q : ℚ) + n ≤ (2 : ℚ) ^ ((k : ℤ) - 4) * f := by
  calc alphaTest k q n f = true
      ↔ (q + n) * 16 ≤ 2 ^ k * f := decide_eq_true_iff
    _ ↔ ((q : ℚ) + n) * 16 ≤ 2 ^ k * f := by exact_mod_cast Iff.rfl
    _ ↔ (q : ℚ) + n ≤ 2 ^ k * f / 16 := (le_div_iff₀ (by norm_num)).symm
    _ ↔ (q : ℚ) + n ≤ (2 : ℚ) ^ ((k : ℤ) - 4) * f := by rw [alphaFactor_eq, div_mul_eq_mul_div]

/-- A field of a packed map is below two to the power of its width. -/
theorem mapField_lt {w : Nat} (pos : 0 < w) (m : BitVec 32) (i : Nat) : mapField m w i < 2 ^ w := by
  have width : w * i + w - 1 + 1 - w * i = w := by omega
  rw [mapField, bits, width]
  exact Nat.mod_lt _ (Nat.two_pow_pos w)

/-- Settles O9: the test by clearing the denominator of α, the codes as 3-bit fields of ALPHA, and its value at reset. -/
theorem alphaIsPowerOfTwo : Obligations.AlphaIsPowerOfTwo := by
  unfold Obligations.AlphaIsPowerOfTwo
  refine ⟨alphaTest_iff, ?codes, ?atReset⟩
  case codes => exact fun g c => mapField_lt (by decide) g.alpha c
  case atReset => decide

/-! ## PLANE_CELL_TIME (R169 to R174) -/

section
variable {s : State} {k : Nat}

/-- A plane in service matches, moves the cells of the matched VOQs and counts the cell time; whole packets then leave. -/
theorem State.cellTime_inService (serves : (s.plane k).inService = true) :
    s.cellTime k =
      let s0 := s.modPlane k (fun p => { p with
        n := s.core.n
        cal := if !s.iso.strict then none else if p.cellNo % 32 = 0 then some s.sharedCalendar else p.cal })
      let m := iterations s.core.cfg.weight (s0.requests k) (s0.plane k).n true (s0.plane k, [])
      let s2 := (s0.countSlots k m.2).modPlane k (fun p =>
        { p with gptr := m.1.gptr, aptr := m.1.aptr, tcptr := m.1.tcptr, credit := m.1.credit, cellNo := p.cellNo + 1 })
      (s2.modCore (fun c => { c with q := m.2.foldl (fun q v => crossOne k v q) c.q })).checkCells.releaseAll.planeDrained k :=
  if_neg (by simp [serves])

theorem State.cellTime_outOfService (away : (s.plane k).inService = false) : s.cellTime k = s := if_pos (by simp [away])

end

/-! ## The measurement of the planes (R176) -/

/-- The mean cell times of a measurement recorded, one for each plane. -/
def State.recordMeans (s : State) (ps : List Nat) : State :=
  (List.range 4).foldl (fun t k => t.modPlane k (fun p => { p with meanPs := lget p.meanPs ps k })) s

/-- The condition on which Ember lowers N reads nothing that recording the means changes. -/
theorem State.iterMeasure_eq (s : State) (ps : List Nat) : s.iterMeasure ps =
    if s.ember.fwReady ∧ 2 < s.core.n ∧ ps.any (fun t => decide (4900 < t)) then (s.recordMeans ps).setN (s.core.n - 1)
    else s.recordMeans ps := rfl

section
variable {s : State} {ps : List Nat}

theorem State.iterMeasure_within (within : ∀ t ∈ ps, t ≤ 4900) : s.iterMeasure ps = s.recordMeans ps := by
  have noneLate : ps.any (fun t => decide (4900 < t)) = false := by simpa using within
  simp [State.iterMeasure_eq, noneLate]

theorem State.iterMeasure_exceeded (fw : s.ember.fwReady = true) (low : 2 < s.core.n) (late : ∃ t ∈ ps, 4900 < t) :
    s.iterMeasure ps = (s.recordMeans ps).setN (s.core.n - 1) := by
  have someLate : ps.any (fun t => decide (4900 < t)) = true := by simpa using late
  rw [State.iterMeasure_eq, if_pos ⟨fw, low, someLate⟩]

end

/-! ## SPILL_READBACK (R185) -/

section
variable {mine : QPkt → Bool} {e1 : QPkt}

/-- A returned packet takes the place of the spilled one in the queue. -/
theorem State.spillBack.put_length (q : List QPkt) : (State.spillBack.put mine e1 q).length = q.length := by
  induction q with
  | nil => rfl
  | cons x r ih =>
    rw [State.spillBack.put]
    split
    · rfl
    · rw [List.length_cons, ih, List.length_cons]

/-- Where the queue holds a packet that returns, the packet as it returns is in the queue afterwards. -/
theorem State.spillBack.mem_put {q : List QPkt} {e : QPkt} (found : q.find? mine = some e) :
    e1 ∈ State.spillBack.put mine e1 q := by
  induction q with
  | nil => cases found
  | cons x r ih =>
    rw [State.spillBack.put]
    split
    next => exact List.mem_cons_self
    next other =>
      rw [List.find?_cons_of_neg other] at found
      exact List.mem_cons_of_mem _ (ih found)

end

/-- Packet `e` as it returns from the spill region toward output `o`, its cells striped afresh over `planes` (R168, R185). -/
def State.readBack (s : State) (o : Nat) (e : QPkt) (planes : List Nat) : QPkt :=
  { e with place := if s.heldOut o then .held else .shared, planes := planes, pkt := { e.pkt with spilled := true } }

/-- The oldest spilled packet of a VOQ returns where there is room: its input's rotation goes on and its cells are counted. -/
theorem State.spillBack_returns {s : State} {i o tc l : Nat} {e : QPkt}
    (found : s.core.q.find? (fun e => e.place == .spilled && e.pkt.src == i && e.pkt.dst == o && e.pkt.tc == tc) = some e)
    (room : s.spillRoom o e.n = true)
    (last : (stripe s.planesIn (tget 0 s.core.rot i) e.pkt.formedCells).getLast? = some l) :
    s.spillBack i o tc false =
      (s.modCore (fun c => { c with
        q := State.spillBack.put (fun e => e.place == .spilled && e.pkt.src == i && e.pkt.dst == o && e.pkt.tc == tc)
          (s.readBack o e (stripe s.planesIn (tget 0 s.core.rot i) e.pkt.formedCells)) c.q
        rot := tset c.rot i ((l + 1) % 4) })).count { block := 0x38, event := 0x11, raw := e.n } := by
  simp [State.spillBack, State.readBack, found, room, last]

/-! ## The events -/

/-- Settles O26: each event is its operation on a die that works, and the lemma on that operation says what it leaves. -/
theorem coreEventsTakeEffect : Obligations.CoreEventsTakeEffect := by
  unfold Obligations.CoreEventsTakeEffect
  refine ⟨?cellTime, ?away, ?measurement, ?fastLower, ?readback⟩
  case cellTime =>
    intro s k on serves
    exact State.live_working_eq on (State.cellTime_inService serves)
  case away =>
    intro s k on away
    exact State.live_working_eq on (State.cellTime_outOfService away)
  case measurement =>
    intro s ps on
    exact ⟨fun within => State.live_working_eq on (State.iterMeasure_within within),
      fun fw low late => State.live_working_eq on (State.iterMeasure_exceeded fw low late)⟩
  case fastLower =>
    intro s k on low
    exact State.live_working_eq on (if_pos low)
  case readback =>
    intro s i o tc e l on found room last
    exact ⟨_, _, State.live_working_eq on (State.spillBack_returns found room last),
      State.spillBack.mem_put found, rfl, rfl, State.spillBack.put_length s.core.q⟩

end Sys2Proof.Machine
end

section
/-! PROOFS. The receive slots of a fabric link: the headroom figure (R213) and the XOFF map (R214). -/

namespace Sys2Proof.Machine

open Sys2Proof

/-! ## The headroom figure (R213) -/

theorem laneRate_pos (rate : Nat) : 0 < laneRate rate := by
  unfold laneRate
  split <;> decide

/-- The model's division rounded up, by the 2,048 bits of a flit, is the ceiling of the fraction. -/
theorem ceilDiv_flitBits (n : Nat) : (ceilDiv n 2048 : ℤ) = ⌈(n : ℚ) / (2048 : ℕ)⌉ := by
  rw [Rat.ceil_natCast_div_natCast, ceilDiv]
  omega

/-- Time over the time of one flit is the bits of that time over the bits of one flit. -/
theorem flitTimes_eq (rtt width rate : Nat) (lanes : 0 < width) :
    ((rtt : ℚ) + 20) / (2048 / ((width : ℚ) * laneRate rate)) = ((rtt + 20) * width * laneRate rate : ℕ) / (2048 : ℕ) := by
  have width' : (width : ℚ) ≠ 0 := by exact_mod_cast lanes.ne'
  have rate' : (laneRate rate : ℚ) ≠ 0 := by exact_mod_cast (laneRate_pos rate).ne'
  push_cast
  field_simp

/-- Settles O8: the model counts in bits what the spec counts in flit times, and both round up to whole flits. -/
theorem headroomFigure : Obligations.HeadroomFigure := by
  unfold Obligations.HeadroomFigure
  intro rtt width rate lanes
  rw [flitTimes_eq rtt width rate lanes, ← ceilDiv_flitBits]
  rfl

/-! ## The XOFF map (R214) -/

theorem bitsOf_succ (n : Nat) (f : Nat → Bool) : bitsOf (n + 1) f = if f n then bitsOf n f + 2 ^ n else bitsOf n f := by
  simp only [bitsOf, List.range_succ, List.foldl_append, List.foldl_cons, List.foldl_nil]

theorem bitsOf_lt (n : Nat) (f : Nat → Bool) : bitsOf n f < 2 ^ n := by
  induction n with
  | zero => exact Nat.one_pos
  | succ n ih =>
    rw [bitsOf_succ, pow_succ]
    split <;> omega

/-- Bit `i` of the number whose bits `f` gives is `f i`. -/
theorem testBit_bitsOf {n i : Nat} (f : Nat → Bool) (inside : i < n) : (bitsOf n f).testBit i = f i := by
  induction n with
  | zero => exact absurd inside (Nat.not_lt_zero i)
  | succ n ih =>
    rw [bitsOf_succ]
    rcases Nat.lt_succ_iff_lt_or_eq.mp inside with lower | rfl
    · split
      · rw [Nat.add_comm, Nat.testBit_two_pow_add_gt lower, ih lower]
      · exact ih lower
    · have top : (bitsOf i f).testBit i = false := Nat.testBit_lt_two_pow (bitsOf_lt i f)
      split
      next set => rw [Nat.add_comm, Nat.testBit_two_pow_add_eq, top, set]; rfl
      next clear => rw [top, Bool.eq_false_iff.mpr clear]

/-- Bit `v` of the map formed anew: set below H free slots of the VC, and below min(H + 8, P) of them where it was set. -/
theorem Link.xoffNow_getLsbD (k : Link) {v : Nat} (vc : v < 8) :
    k.xoffNow.getLsbD v = (decide (k.privateFree v < k.h) ||
      (k.xoffTx.getLsbD v && decide (k.privateFree v < Nat.min (k.h + 8) k.p))) := by
  rw [Link.xoffNow, BitVec.getLsbD_ofNat, testBit_bitsOf _ vc, decide_eq_true vc, Bool.true_and]

@[simp] theorem State.link_modLink_same (s : State) (l : Nat) (f : Link → Link) : (s.modLink l f).link l = f (s.link l) := by
  simp [State.link, tmod, tget_tset]

/-- Once the slots are settled the map sent is the one formed from them and from the map sent before. -/
theorem State.rxRefresh_xoffTx (s : State) (l : Nat) {v : Nat} (vc : v < 8) :
    let k := (s.rxRefresh l).link l
    k.xoffTx.getLsbD v = (decide (k.privateFree v < k.h) ||
      ((s.link l).xoffTx.getLsbD v && decide (k.privateFree v < Nat.min (k.h + 8) k.p))) := by
  rw [State.rxRefresh, State.link_modLink_same]
  exact Link.xoffNow_getLsbD _ vc

/-- Settles O10: a flit carries the map as the settled slots leave it, and that map's bit follows the two thresholds. -/
theorem xoffFollowsFreeSlots : Obligations.XoffFollowsFreeSlots := by
  unfold Obligations.XoffFollowsFreeSlots
  intro s l v f vc k
  have sent : (k.stamp f).xoff.getLsbD v = _ := s.rxRefresh_xoffTx l vc
  rw [sent]
  refine ⟨?few, ?many, ?between⟩
  case few => exact fun few => by simp [k, few]
  case many => exact fun notFew many => by simp [k, notFew, Nat.not_lt.mpr many]
  case between => exact fun notFew between => by simp [k, notFew, between]

end Sys2Proof.Machine
end

section
/-! PROOFS. The training and the resets of a fabric link: what each operation leaves on the path the spec describes (R217 to R220),
and from that what the events do. -/

namespace Sys2Proof.Machine

open Sys2Proof

/-! ## DETECT, EQUALIZE and ALIGN (R196, R217, R218) -/

section
variable {s : State} {l : Nat}

/-- The peer's beacon in DETECT is recorded, and the lower module ID leads. -/
theorem State.beaconIn_detect (r : TrainRec) (st : (s.link l).st = .detect) (clock : s.boot.fabricHeld = false)
    (fref : s.lands.frefOk = true) :
    s.beaconIn l r = s.linkTo l (fun k =>
      { k with st := .equalize, peerRec := some r, peerModule := r.module, peerLink := r.link,
               leader := decide (s.own < r.module) }) := by
  have taken : ¬ ((s.link l).st ≠ .detect ∨ s.boot.fabricHeld = true ∨ (!s.lands.frefOk) = true) := by simp [st, clock, fref]
  exact if_neg taken

theorem State.equalized_some {lanes : Nat} (st : (s.link l).st = .equalize) (adapted : lanes % 16 ≠ 0) :
    s.equalized l lanes = s.linkTo l (fun k => { k with st := .align, lanesOk := BitVec.ofNat 4 lanes }) := by
  have taken : ¬ ((s.link l).st ≠ .equalize ∨ lanes % 16 = 0) := by simp [st, adapted]
  exact if_neg taken

/-! ## NEGOTIATE (R213, R216 to R218) -/

/-- What a TRAIN record of the peer leaves in NEGOTIATE before its answer is judged. -/
def State.recordPeer (s : State) (l : Nat) (r : TrainRec) : State :=
  s.modLink l (fun k =>
    { k with peerRec := some r, peerModule := r.module, peerLink := r.link, trainDue := k.trainDue || r.echoReq,
             echoTick := if r.echoReq then s.time.ticks else k.echoTick, leader := decide (s.own < r.module) })

section
variable {r : TrainRec} (interval : Nat) (st : (s.link l).st = .negotiate)
include st

/-- A record that carries the own module ID fails the attempt. -/
theorem State.trainIn_ownModule (same : r.module = s.own) : s.trainIn l r interval = (s.recordPeer l r).trainFail l 9 := by
  simp [State.trainIn, State.recordPeer, st, same]

variable (other : r.module ≠ s.own)
include other

/-- A record that answers no echo is recorded. -/
theorem State.trainIn_noEcho (echo : r.echoRsp = false) : s.trainIn l r interval = s.recordPeer l r := by
  simp [State.trainIn, State.recordPeer, st, other, echo]

variable (echo : r.echoRsp = true)
  (width : (trainWidth ((s.link l).lanesOk &&& r.lanesOk) (Nat.min (s.link l).reqWidth r.reqWidth)).1 ≠ 0)
include echo width

/-- An answered echo whose lanes fit both ends is judged by its headroom figure: up to 80 the link enters UP. -/
theorem State.trainIn_echo :
    s.trainIn l r interval =
      let s1 := s.recordPeer l r
      let rtt := interval - r.turnNs
      let w := trainWidth ((s.link l).lanesOk &&& r.lanesOk) (Nat.min (s.link l).reqWidth r.reqWidth)
      let rate := Nat.min (s.link l).reqRate r.reqRate
      if 80 < headroom rtt w.1 rate then
        (s1.modLink l (fun k => { k with rttNs := rtt, h := headroom rtt w.1 rate })).trainFail l 10
      else s1.enterUp l r rtt w.1 rate w.2 := by
  simp only [State.trainIn, State.recordPeer, st, other, echo, width, reduceCtorEq, ne_eq, not_true_eq_false, Bool.not_true,
    Bool.false_eq_true, if_false]

end

end

/-! ## LINK_HANDLE_TIMEOUT (R227) -/

theorem State.linkHandleOver_notUp {s : State} {l h : Nat} (handle : (s.link l).handle = some h) (down : (s.link l).st ≠ .up) :
    s.linkHandleOver l = (s.modLink l (fun k => { k with handle := none })).endHandle h rcTimeout := by
  simp only [State.linkHandleOver, handle, down, if_false]

/-! ## The events -/

/-- Settles O27: each event is its operation; one that waits for a state of the link is a choice on that state, and the lemma on the
others says what they leave. -/
theorem linkTrainingTakesEffect : Obligations.LinkTrainingTakesEffect := by
  unfold Obligations.LinkTrainingTakesEffect
  refine ⟨?waits, ?beacon, ?equalized, ?record, ?lanes, ?clock, ?handle⟩
  case waits =>
    intro s l on
    exact ⟨fun st => State.live_working_eq on (if_pos st), fun st => State.live_working_eq on (if_pos st),
      fun st => State.live_working_eq on (if_pos st), fun st => State.live_working_eq on (if_pos st),
      fun rx st locked => State.live_working_eq on (if_pos ⟨st, locked⟩), fun st => State.live_working_eq on (if_pos st),
      fun st => State.live_working_eq on (if_pos st)⟩
  case beacon =>
    intro s l r on st clock fref
    exact State.live_working_eq on (State.beaconIn_detect r st clock fref)
  case equalized =>
    intro s l lanes on st adapted
    exact State.live_working_eq on (State.equalized_some st adapted)
  case record =>
    intro s l r interval on st s1 rtt w rate
    exact ⟨fun same => State.live_working_eq on (State.trainIn_ownModule interval st same),
      fun other echo => State.live_working_eq on (State.trainIn_noEcho interval st other echo),
      fun other echo width long => State.live_working_eq on ((State.trainIn_echo interval st other echo width).trans (if_pos long)),
      fun other echo width short => State.live_working_eq on
        ((State.trainIn_echo interval st other echo width).trans (if_neg (Nat.not_lt.mpr short)))⟩
  case lanes =>
    intro s l lane on used
    exact ⟨fun pairs unlocks => State.live_working_eq on (if_pos ⟨used, unlocks⟩), State.live_working_eq on (if_pos used)⟩
  case clock =>
    intro s on
    exact State.done_of_eq (if_neg on)
  case handle =>
    intro s l h up handle down
    exact State.onDie_up_eq up (State.linkHandleOver_notUp handle down)

end Sys2Proof.Machine
end

section
/-! PROOFS. The flits of a link that is UP: what a flit time sends and what a flit received leaves (R198 to R207, R214), and from
that what the events do. -/

namespace Sys2Proof.Machine

open Sys2Proof

/-! ## FLIT_TIME (R204) -/

section
variable {s : State} {l : Nat} (up : ((s.rxRefresh l).link l).st = .up)
include up

/-- A replay goes first. -/
theorem State.flitTime_replay {i : Nat} {r : ReplaySlot} (replay : ((s.rxRefresh l).link l).replayAt = some i)
    (held : ((s.rxRefresh l).link l).replay[i]? = some r) :
    s.flitTime l = ((s.rxRefresh l).modLink l (fun k =>
      { k with replayAt := if i + 1 < k.replay.length then some (i + 1) else none })).sendFlit l
        (((s.rxRefresh l).link l).stamp r.flit) := by
  simp only [State.flitTime, up, replay, held]

variable (noReplay : ((s.rxRefresh l).link l).replayAt = none)
include noReplay

/-- Then a NAK. -/
theorem State.flitTime_nak (nak : ((s.rxRefresh l).link l).nakDue = true) :
    s.flitTime l = ((s.rxRefresh l).modLink l (fun k => { k with nakDue := false, nakOut := true })).sendFlit l
      (((s.rxRefresh l).link l).stamp { seq := ((s.rxRefresh l).link l).seq, ftype := 3, payload := [] }) := by
  simp only [State.flitTime, up, noReplay, nak, if_true]

variable (noNak : ((s.rxRefresh l).link l).nakDue = false)
include noNak

/-- Then a TRAIN record. -/
theorem State.flitTime_train (train : ((s.rxRefresh l).link l).trainDue = true) :
    s.flitTime l = ((s.rxRefresh l).modLink l (fun k => { k with trainDue := false })).sendFlit l
      (((s.rxRefresh l).link l).stamp
        { seq := ((s.rxRefresh l).link l).seq, ftype := 5, payload := ((s.rxRefresh l).echoRec l).payload }) := by
  simp only [State.flitTime, up, noReplay, noNak, train, Bool.false_eq_true, if_false, if_true]

variable (noTrain : ((s.rxRefresh l).link l).trainDue = false)
include noTrain

/-- Then a data flit of the VC whose turn it is. -/
theorem State.flitTime_data {v : Nat} (turn : (s.rxRefresh l).linkTurn l = some v) :
    s.flitTime l = (s.rxRefresh l).sendData l v := by
  simp only [State.flitTime, up, noReplay, noNak, noTrain, turn, Bool.false_eq_true, if_false]

/-- Else an IDLE flit. -/
theorem State.flitTime_idle (turn : (s.rxRefresh l).linkTurn l = none) :
    s.flitTime l = (s.rxRefresh l).sendFlit l
      (((s.rxRefresh l).link l).stamp { seq := ((s.rxRefresh l).link l).seq, ftype := 0, payload := [] }) := by
  simp only [State.flitTime, up, noReplay, noNak, noTrain, turn, Bool.false_eq_true, if_false]

end

/-! ## FLIT_RECEIVED (R196, R198, R205, R215) -/

/-- The state in which a flit is judged: the slots settled, and the corrected symbols of a flit that decoded counted. -/
def State.flitArrived (s : State) (l : Nat) (decoded : Bool) (n : Nat) : State :=
  (s.rxRefresh l).modLink l (fun k => { k with fecCorr := if decoded then sat (2 ^ 32 - 1) k.fecCorr n else k.fecCorr })

/-- The state once a flit has passed its CRC: its XOFF map is the one acted on (R215). -/
def State.flitPassed (s : State) (l : Nat) (raw : Bytes) (n : Nat) : State :=
  (s.flitArrived l true n).modLink l (fun k => { k with xoffRx := (flitOf raw).xoff, xoffSeen := (flitOf raw).xoff })

/-- What a flit that passed its CRC sets off, by its type (R203, R205, R206, R220). -/
def State.flitAction (s : State) (l : Nat) (f : Flit) : State :=
  match f.ftype with
  | 0 => s
  | 1 => s.seqFlit l f
  | 2 => s.seqFlit l f
  | 3 => (s.nakIn l f).linkLeft l
  | 4 => s.linkReset l 2
  | 5 => s
  | _ => s.framing l

section
variable {s : State} {l : Nat} {f : Flit}

theorem State.flitAction_idle (type : f.ftype = 0) : s.flitAction l f = s := by simp only [State.flitAction, type]

theorem State.flitAction_data (type : f.ftype = 1) : s.flitAction l f = s.seqFlit l f := by simp only [State.flitAction, type]

theorem State.flitAction_nak (type : f.ftype = 3) : s.flitAction l f = (s.nakIn l f).linkLeft l := by
  simp only [State.flitAction, type]

theorem State.flitAction_lreset (type : f.ftype = 4) : s.flitAction l f = s.linkReset l 2 := by
  simp only [State.flitAction, type]

end

section
variable {s : State} {l : Nat} {raw : Bytes} (n : Nat) (up : (s.link l).st = .up)
include up

/-- A flit whose codewords do not decode. -/
theorem State.flitIn_undecoded :
    s.flitIn l raw false n = ((((s.flitArrived l false n).modLink l (fun k =>
      { k with crcErrs := sat (2 ^ 32 - 1) k.crcErrs 1, fecUncorr := sat (2 ^ 32 - 1) k.fecUncorr 1 })).linkFault l 1).linkFault
        l 0).owesNak l := by
  simp only [State.flitIn, State.flitArrived, up, reduceCtorEq, ne_eq, not_true_eq_false, Bool.not_false, if_true, if_false]

/-- A flit that decodes and whose CRC fails: XOFF bits it shows are set all the same. -/
theorem State.flitIn_badCrc (crc : flitCrcOk raw = false) :
    s.flitIn l raw true n = (((s.flitArrived l true n).modLink l (fun k =>
      { k with crcErrs := sat (2 ^ 32 - 1) k.crcErrs 1, xoffRx := k.xoffRx ||| (flitOf raw).xoff })).linkFault l 0).owesNak l := by
  simp only [State.flitIn, State.flitArrived, up, crc, reduceCtorEq, ne_eq, not_true_eq_false, Bool.not_true, Bool.not_false,
    Bool.false_eq_true, if_true, if_false]

/-- A flit that passes its CRC acknowledges where ACKV is set, and then its type decides. -/
theorem State.flitIn_passed (crc : flitCrcOk raw = true) :
    s.flitIn l raw true n =
      let s1 := s.flitPassed l raw n
      (if (flitOf raw).ackv then s1.linkAck l (flitOf raw).ack else s1).flitAction l (flitOf raw) := by
  simp only [State.flitIn, State.flitPassed, State.flitArrived, up, crc, reduceCtorEq, ne_eq, not_true_eq_false, Bool.not_true,
    Bool.false_eq_true, if_true, if_false]
  rfl

theorem State.flitIn_ack (crc : flitCrcOk raw = true) (ack : (flitOf raw).ackv = true) :
    s.flitIn l raw true n = ((s.flitPassed l raw n).linkAck l (flitOf raw).ack).flitAction l (flitOf raw) := by
  simp only [State.flitIn_passed n up crc, ack, if_true]

theorem State.flitIn_noAck (crc : flitCrcOk raw = true) (noAck : (flitOf raw).ackv = false) :
    s.flitIn l raw true n = (s.flitPassed l raw n).flitAction l (flitOf raw) := by
  simp only [State.flitIn_passed n up crc, noAck, Bool.false_eq_true, if_false]

end

/-! ## REPLAY_TIMEOUT (R207) -/

/-- The oldest unacknowledged flit has waited too long: replay begins with it. -/
theorem State.replayTo_held {s : State} {l : Nat} (up : (s.link l).st = .up) (held : (s.link l).replay ≠ []) :
    s.replayTo l = (s.replayFrom l 0).linkLeft l := by
  have due : (s.link l).st = .up ∧ (!(s.link l).replay.isEmpty) = true := by simp [up, held]
  exact congrArg (State.linkLeft · l) (if_pos due)

/-! ## The events -/

/-- Settles O28: each event is its operation on a die that works, and the lemma on that operation says what it leaves; a flit that
passes its CRC acts by its type. -/
theorem linkFlitsTakeEffect : Obligations.LinkFlitsTakeEffect := by
  unfold Obligations.LinkFlitsTakeEffect
  refine ⟨?sent, ?received, ?waits⟩
  case sent =>
    intro s l on _ s0 k
    exact ⟨fun i r up replay held => State.live_working_eq on (State.flitTime_replay up replay held),
      fun up noReplay nak => State.live_working_eq on (State.flitTime_nak up noReplay nak),
      fun up noReplay noNak train => State.live_working_eq on (State.flitTime_train up noReplay noNak train),
      fun v up noReplay noNak noTrain turn => State.live_working_eq on (State.flitTime_data up noReplay noNak noTrain turn),
      fun up noReplay noNak noTrain turn => State.live_working_eq on (State.flitTime_idle up noReplay noNak noTrain turn)⟩
  case received =>
    intro s l n head rest on up raw s0 good
    exact ⟨State.live_working_eq on (State.flitIn_undecoded n up),
      fun crc => State.live_working_eq on (State.flitIn_badCrc n up crc),
      fun crc ack type => State.live_working_eq on ((State.flitIn_ack n up crc ack).trans (State.flitAction_idle type)),
      fun crc noAck type => State.live_working_eq on ((State.flitIn_noAck n up crc noAck).trans (State.flitAction_data type)),
      fun crc noAck type => State.live_working_eq on ((State.flitIn_noAck n up crc noAck).trans (State.flitAction_nak type)),
      fun crc noAck type => State.live_working_eq on ((State.flitIn_noAck n up crc noAck).trans (State.flitAction_lreset type))⟩
  case waits =>
    intro s l on
    exact ⟨State.live_working on _, fun up held => State.live_working_eq on (State.replayTo_held up held)⟩

end Sys2Proof.Machine
end

section
/-! PROOFS. The fabric link commands: each body in range, on the path the spec describes (R223, R226, R227), and from that what the
commands answer. -/

namespace Sys2Proof.Machine

open Sys2Proof

section
variable {w : Who} {q : Req} {s : State}

/-! ## LINK_GET_STATUS (R226) -/

theorem cmdLinkGetStatus_reports (link : q.u8 0x20 < 16) (rsvd : q.zero 0x21 3 = true) :
    cmdLinkGetStatus.body w q s = ok s (s.linkStatus (w.shown s.iso.strict) (q.u8 0x20)) := by
  simp [cmdLinkGetStatus, firstBad, link, rsvd]

/-! ## LINK_SET (R227) -/

/-- The fields of a LINK_SET request with the check of each. -/
def linkSetFields (q : Req) : List (Nat × Bool) :=
  let v := q.u8 0x21
  [(0x20, decide (q.u8 0x20 < 16)), (0x21, decide (v < 32) && v != 0), (0x22, !bit v 0 || decide (q.u8 0x22 ≤ 1)),
    (0x23, !bit v 1 || q.u8 0x23 == 1 || q.u8 0x23 == 2 || q.u8 0x23 == 4), (0x24, !bit v 2 || q.u8 0x24 == 1 || q.u8 0x24 == 2),
    (0x25, q.zero 0x25 1), (0x26, !bit v 4 || decide (16 ≤ q.u16 0x26 ∧ q.u16 0x26 ≤ 256)),
    (0x28, !bit v 3 || vcMapOk (q.u32 0x28)), (0x2C, q.zero 0x2C 4)]

/-- A LINK_SET request that keeps the range of every field it names passes its checks. -/
theorem linkSetFields_pass (link : q.u8 0x20 < 16) (valid : q.u8 0x21 < 32) (named : q.u8 0x21 ≠ 0)
    (enable : bit (q.u8 0x21) 0 = true → q.u8 0x22 ≤ 1)
    (width : bit (q.u8 0x21) 1 = true → q.u8 0x23 = 1 ∨ q.u8 0x23 = 2 ∨ q.u8 0x23 = 4)
    (rate : bit (q.u8 0x21) 2 = true → q.u8 0x24 = 1 ∨ q.u8 0x24 = 2) (rsvd : q.zero 0x25 1 = true)
    (shCap : bit (q.u8 0x21) 4 = true → 16 ≤ q.u16 0x26 ∧ q.u16 0x26 ≤ 256)
    (vcMap : bit (q.u8 0x21) 3 = true → vcMapOk (q.u32 0x28) = true) (rsvd' : q.zero 0x2C 4 = true) :
    firstBad (linkSetFields q) = none := by
  have enableOk := checked_of_named (fun b => decide_eq_true (enable b))
  have widthOk : (!bit (q.u8 0x21) 1 || q.u8 0x23 == 1 || q.u8 0x23 == 2 || q.u8 0x23 == 4) = true := by
    rw [Bool.or_assoc, Bool.or_assoc]
    exact checked_of_named (fun b => by simpa using width b)
  have rateOk : (!bit (q.u8 0x21) 2 || q.u8 0x24 == 1 || q.u8 0x24 == 2) = true := by
    rw [Bool.or_assoc]
    exact checked_of_named (fun b => by simpa using rate b)
  have shCapOk := checked_of_named (fun b => decide_eq_true (shCap b))
  have vcMapOk' := checked_of_named vcMap
  simp only [linkSetFields, firstBad, link, valid, bne_iff_ne.mpr named, enableOk, widthOk, rateOk, rsvd, shCapOk, vcMapOk', rsvd',
    decide_true, Bool.and_self, if_true]

section
variable (fields : firstBad (linkSetFields q) = none) (idle : (s.link (q.u8 0x20)).handle = none)
include fields idle

/-- LINK_SET that leaves an enabled link its width, rate and VC map takes the settings at once. -/
theorem cmdLinkSet_keepsTraining (enabled : ((s.link (q.u8 0x20)).set (q.u8 0x21) q).enabled = true)
    (online : s.masked (0x0A + q.u8 0x20) = false) (st : (s.link (q.u8 0x20)).st ≠ .disabled)
    (width : (s.link (q.u8 0x20)).maxWidth = ((s.link (q.u8 0x20)).set (q.u8 0x21) q).maxWidth)
    (rate : (s.link (q.u8 0x20)).maxRate = ((s.link (q.u8 0x20)).set (q.u8 0x21) q).maxRate)
    (vcMap : (s.link (q.u8 0x20)).vcMap = ((s.link (q.u8 0x20)).set (q.u8 0x21) q).vcMap) :
    cmdLinkSet.body w q s = ok (s.modLink (q.u8 0x20) (fun _ => (s.link (q.u8 0x20)).set (q.u8 0x21) q)) := by
  rw [linkSetFields] at fields
  simp only [cmdLinkSet, fields, idle, enabled, online, st, ← width, ← rate, ← vcMap, Option.isSome_none, Bool.not_true,
    Bool.false_eq_true, ne_eq, not_true_eq_false, and_false, or_self, if_false]

/-- LINK_SET that disables a link makes it failed and starts its failover. -/
theorem cmdLinkSet_disables (disabled : ((s.link (q.u8 0x20)).set (q.u8 0x21) q).enabled = false)
    (st : (s.link (q.u8 0x20)).st ≠ .disabled) :
    cmdLinkSet.body w q s = ok (((s.modLink (q.u8 0x20) (fun _ => (s.link (q.u8 0x20)).set (q.u8 0x21) q)).makeFailed
      (q.u8 0x20)).failover (q.u8 0x20)) := by
  rw [linkSetFields] at fields
  simp only [cmdLinkSet, fields, idle, disabled, st, Option.isSome_none, Bool.not_false, Bool.false_eq_true, false_and, or_self,
    if_true, if_false]

end

/-! ## LINK_RESET (R223, R227) -/

/-- LINK_RESET of an enabled link that no handle holds starts the reset of its kind. -/
theorem cmdLinkReset_starts (link : q.u8 0x20 < 16) (kind : q.u8 0x21 ≤ 1) (rsvd : q.zero 0x22 2 = true)
    (idle : (s.link (q.u8 0x20)).handle = none) (st : (s.link (q.u8 0x20)).st ≠ .disabled) :
    cmdLinkReset.body w q s = s.linkStart (q.u8 0x20) w.caller 0x0402
      (fun t => if q.u8 0x21 = 1 then t.makeFailed (q.u8 0x20) else t.linkRestart (q.u8 0x20)) := by
  simp [cmdLinkReset, firstBad, link, kind, rsvd, idle, st]

end

/-! ## The commands -/

/-- Settles O29: a command Ember serves leaves what its body answers, and the lemma on that body says what it is. -/
theorem linkCommandsComplete : Obligations.LinkCommandsComplete := by
  unfold Obligations.LinkCommandsComplete
  refine ⟨?getStatus, ?set, ?reset⟩
  case getStatus =>
    intro s c p q served link rsvd
    exact served.answers (cmdLinkGetStatus_reports link rsvd)
  case set =>
    intro s c p q served l v link valid named enable width rate rsvd shCap vcMap rsvd' idle n
    have fields := linkSetFields_pass link valid named enable width rate rsvd shCap vcMap rsvd'
    exact ⟨fun enabled online st sameWidth sameRate sameMap =>
        served.answers (cmdLinkSet_keepsTraining fields idle enabled online st sameWidth sameRate sameMap),
      fun disabled st => served.answers (cmdLinkSet_disables fields idle disabled st)⟩
  case reset =>
    intro s c p q served link kind rsvd idle up
    exact served.answers (cmdLinkReset_starts link kind rsvd idle (by simp [up]))

end Sys2Proof.Machine
end

section
/-! PROOFS. Fabric management: relayed commands, admission and SPDM, failover and flow moves, extraction and a peer's image. What
each operation leaves on the path the spec describes (R224, R242, R243, R245 to R250, R470), and from that what the events do. -/

namespace Sys2Proof.Machine

open Sys2Proof

/-! ## Commands relayed here (R245) -/

section
variable {s : State} {m : Nat} (n : Nat) (fr : Bytes) (fw : s.ember.fwReady = true)
include fw

/-- A command that partition 0 of an admitted manager relays waits at that manager's position, when the position is free. -/
theorem State.relayIn_queued (manager : s.boot.opt.managers.contains m = true) (known : (s.adm m).st = .admitted)
    (free : tlook s.ember.msgQ (128 + m) = none) :
    s.relayIn m true n fr = s.modEmber (fun e =>
      { e with msgQ := tset e.msgQ (128 + m) { opcode := (reqOfBytes fr).1, req := (reqOfBytes fr).2, msgTag := n },
               arrivals := e.arrivals ++ [128 + m] }) := by
  simp only [State.relayIn, fw, manager, known, free, Option.isSome_none, Bool.not_true, Bool.false_eq_true, ne_eq,
    not_true_eq_false, or_self, if_false]

/-- A command that another partition than 0 relays is answered DENIED. -/
theorem State.relayIn_notZero :
    s.relayIn m false n fr = s.control m (.relayRsp n
      (Rsp.bytes { opcode := (reqOfBytes fr).1, status := rcDenied, tag := (reqOfBytes fr).2.tag })) := by
  simp only [State.relayIn, fw, Bool.not_true, Bool.not_false, Bool.false_eq_true, or_true, if_true, if_false]

end

/-! ## Commands relayed from here (R65, R245) -/

theorem State.relayBack_awaited {s : State} {n : Nat} {r : RelayWait} (fr : Bytes) (awaited : tlook s.fab.relays n = some r) :
    s.relayBack n fr = (s.modFab (fun f => { f with relays := tdel f.relays n })).finishRun r.part rcOk 0 fr := by
  simp only [State.relayBack, awaited]

theorem State.relayOver_waits {s : State} {p n : Nat} {r : RunCmd} (runs : tlook s.ember.running p = some r)
    (wait : r.wait = .relay n) :
    s.relayOver p = (s.modFab (fun f => { f with relays := tdel f.relays n })).finishRun p rcTimeout 0 [] := by
  simp only [State.relayOver, runs, wait]

/-! ## A module that is extracting (R243) -/

section
variable {s : State} {m : Nat}

/-- An admitted module that announces its extraction is marked; every partition is told, and its devices are unbound. -/
theorem State.announced_begins (st : (s.adm m).st = .admitted) :
    s.announced m false =
      let s1 := (s.modAdm m (fun a => { a with st := .extracting })).event 0x809 s.allParts m
      ((s1.vdspsWhere (fun v => v.bound && v.kind == 3 && v.module == m)).foldl
        (fun t e => t.emberUnbind e.1 e.2) s1).reportReroutes s := by
  simp only [State.announced, st, Bool.false_eq_true, if_false]

/-- The end of its extraction withdraws the module. -/
theorem State.announced_ends (st : (s.adm m).st = .extracting) : s.announced m true = s.withdraw m 0 := by
  simp only [State.announced, st, if_true]

end

/-! ## SPDM (R242, R243) -/

section
variable {s : State} {l : Nat} (up : (s.link l).st = .up)
include up

/-- Ember answers a request of the peer while it runs and the link is UP. -/
theorem State.spdmAnswer_up (fw : s.ember.fwReady = true) (name : Nat) (content : Bytes) :
    s.spdmAnswer l name content = s.controlOn l (.spdmRsp name content) :=
  if_pos ⟨up, fw⟩

/-- A response counts while an attempt runs on the link, and what it does is the choice on its result. -/
theorem State.spdmResponse_running (run : (s.link l).spdmRun = true) (r : SpdmResult) :
    s.spdmResponse l r =
      match r with
      | .progress => (s.modLink l (fun k => { k with spdmStep := Nat.min 6 (k.spdmStep + 1) })).controlOn l
          (.spdmReq (Nat.min 6 ((s.link l).spdmStep + 1)))
      | .success d fw svn => s.spdmSuccess l d fw svn
      | .failed => s.spdmFail l := by
  have taken : ¬ ((s.link l).st ≠ .up ∨ (!(s.link l).spdmRun) = true) := by simp [up, run]
  cases r <;> exact if_neg taken

/-- A quarantined link whose first or second attempt failed makes another one. -/
theorem State.spdmRetry_again (quarantined : (s.link l).quarantined = true) (idle : (s.link l).spdmRun = false)
    (unproved : (s.link l).spdmOk = false) (failedOnce : 1 ≤ (s.link l).spdmTries) (triesLeft : (s.link l).spdmTries ≤ 2) :
    s.spdmRetry l = s.spdmStart l :=
  if_pos ⟨up, quarantined, by simp [idle], by simp [unproved], failedOnce, triesLeft⟩

end

/-! ## Failover, reversion and flow moves (R224, R246, R248) -/

section
variable {s : State}

theorem State.revert_usable {d j : Nat} (interval : s.fab.revertMs ≠ 0) (usable : s.pathUsable d j = true) :
    s.revert d j = ((List.range 16).filter (fun b =>
        bucketPath (routeBuckets (s.route d).entry) b == j && bucketPath (s.route d).oper b != j && !s.moving d b)).foldl
      (fun t b => t.startMove d b (routeLink (s.route d).entry (bucketPath (s.route d).oper b)) j 0) s := by
  have due : ¬ (s.fab.revertMs = 0 ∨ (!s.pathUsable d j) = true) := by simp [interval, usable]
  exact if_neg due

theorem State.moveComplete_ready {d b : Nat} {v : Move}
    (found : s.fab.moves.find? (fun v => v.dmod == d && v.bucket == b) = some v) (ready : s.moveReady v = true) :
    s.moveComplete d b = s.finishMove v := by
  simp only [State.moveComplete, found, ready, if_true]

/-! ## Extraction (R249) -/

/-- EXTRACT_REQ_N starts its filter while no extraction runs. -/
theorem State.extractReq_filters (idle : s.fab.extract.step = 0) :
    s.extractReq = State.modFab { s with lands := { s.lands with extractReq := true } }
      (fun f => { f with extract := { f.extract with filter := true } }) :=
  if_pos idle

/-- Past its filter, EXTRACT_REQ_N still asserted begins the extraction: announced to every admitted module and every partition,
and every vDSP is unbound. -/
theorem State.extractBegin_asserted (filtered : s.fab.extract.filter = true) (asserted : s.lands.extractReq = true)
    (idle : s.fab.extract.step = 0) :
    s.extractBegin =
      let s1 := s.modFab (fun f => { f with extract := { filter := false, step := 3, rerouted := [] } })
      let s2 := ((List.range 64).filter (fun m => (s.adm m).st == .admitted)).foldl (fun t m => t.control m (.extracting false)) s1
      let s3 := s2.event 0x809 s2.allParts s2.own
      (s3.vdspsWhere (fun v => v.bound)).foldl (fun t e => t.emberUnbind e.1 e.2) s3 := by
  have begins : ¬ ((!s.fab.extract.filter) = true ∨ (!s.lands.extractReq) = true ∨ s.fab.extract.step ≠ 0) := by
    simp [filtered, asserted, idle]
  exact if_neg begins

end

/-! ## The events -/

/-- Settles O31: each event is its operation on a die that is out of reset, and the lemma on that operation says what it leaves. -/
theorem fabricManagementTakesEffect : Obligations.FabricManagementTakesEffect := by
  unfold Obligations.FabricManagementTakesEffect
  refine ⟨?relayed, ?announced, ?asked, ?response, ?retry, ?failover, ?revert, ?moved, ?request, ?filtered, ?report, ?drained,
    ?relayBack, ?relayOver, ?image⟩
  case relayed =>
    intro s m n fr up fw
    exact ⟨fun manager known free => State.onDie_up_eq up (State.relayIn_queued n fr fw manager known free),
      State.onDie_up_eq up (State.relayIn_notZero n fr fw)⟩
  case announced =>
    intro s m up
    exact ⟨fun st => State.onDie_up_eq up (State.announced_begins st), fun st => State.onDie_up_eq up (State.announced_ends st)⟩
  case asked =>
    intro s l up link fw say
    have answers (name : Nat) (content : Bytes) : s.onDie (s.spdmAnswer l name content) = say name content :=
      State.onDie_up_eq up (State.spdmAnswer_up link fw name content)
    exact ⟨answers 0 _, answers 1 _, answers 2 _, answers 3 _, fun _ _ => answers 4 _, fun _ => answers 5 _, answers 6 _⟩
  case response =>
    intro s l up link run
    exact ⟨State.onDie_up_eq up (State.spdmResponse_running link run .progress),
      fun d fw svn => State.onDie_up_eq up (State.spdmResponse_running link run (.success d fw svn)),
      State.onDie_up_eq up (State.spdmResponse_running link run .failed)⟩
  case retry =>
    intro s l up link quarantined idle unproved failedOnce triesLeft
    exact State.onDie_up_eq up (State.spdmRetry_again link quarantined idle unproved failedOnce triesLeft)
  case failover =>
    intro s l up down
    exact State.onDie_up_eq up (if_neg down)
  case revert =>
    intro s d j up interval usable
    exact State.onDie_up_eq up (State.revert_usable interval usable)
  case moved =>
    intro s d b v up found ready
    exact State.onDie_up_eq up (State.moveComplete_ready found ready)
  case request =>
    intro s idle
    exact State.done_of_eq (State.extractReq_filters idle)
  case filtered =>
    intro s up filtered asserted idle
    exact State.onDie_up_eq up (State.extractBegin_asserted filtered asserted idle)
  case report =>
    intro s m up
    exact State.onDie_up up (s.neighbourReport m)
  case drained =>
    intro s up
    exact ⟨fun drained => State.onDie_up_eq up (if_pos drained), fun runs => State.onDie_up_eq up (if_pos runs)⟩
  case relayBack =>
    intro s n fr r up awaited
    exact State.onDie_up_eq up (State.relayBack_awaited fr awaited)
  case relayOver =>
    intro s p n r up runs wait
    exact State.onDie_up_eq up (State.relayOver_waits runs wait)
  case image =>
    intro s m up fw known
    exact State.onDie_up_eq up (if_pos ⟨fw, known⟩)

end Sys2Proof.Machine
end

section
/-! PROOFS. The fabric commands: each body in range, on the path the spec describes (R232, R243 to R245, R252, R256, R257), and from
that what the commands answer. -/

namespace Sys2Proof.Machine

open Sys2Proof

section
variable {w : Who} {q : Req} {s : State}

/-! ## ROUTE_SET and ROUTE_READ (R232, R257) -/

/-- ROUTE_SET whose records are in order, touch no withdrawn or moving destination and move no flow sets every route at once. -/
theorem cmdRouteSet_sets (low : 1 ≤ q.u8 0x20) (high : q.u8 0x20 ≤ 63) (auto : q.u8 0x21 ≤ 1) (rsvd : q.zero 0x22 6 = true)
    (inOrder : ∀ i < q.u8 0x20, s.routeOk q i = true)
    (settled : ∀ r ∈ (List.range (q.u8 0x20)).map (routeRec q),
      routeState (s.route r.m).entry ≠ 2 ∧ s.fab.moves.any (fun v => v.dmod == r.m) = false)
    (still : ∀ r ∈ (List.range (q.u8 0x20)).map (routeRec q), s.routeMoves r = []) :
    cmdRouteSet.body w q s = ok ((s.setRoutes ((List.range (q.u8 0x20)).map (routeRec q))).reportReroutes s) := by
  have fields : firstBad ([(0x20, decide (1 ≤ q.u8 0x20 ∧ q.u8 0x20 ≤ 63)), (0x21, decide (q.u8 0x21 ≤ 1)),
      (0x22, q.zero 0x22 6)] ++ (List.range (q.u8 0x20)).map (fun i => (routeOff i, s.routeOk q i))) = none := by
    simpa [firstBad_none, low, high, auto, rsvd] using inOrder
  have noConflict : ((List.range (q.u8 0x20)).map (routeRec q)).any (fun r =>
      routeState (s.route r.m).entry == 2 || s.fab.moves.any (fun v => v.dmod == r.m)) = false := by
    rw [List.any_eq_false]
    intro r listed
    obtain ⟨notWithdrawn, unmoved⟩ := settled r listed
    simp [notWithdrawn, unmoved]
  have noMoves : ((List.range (q.u8 0x20)).map (routeRec q)).flatMap (fun r => (s.routeMoves r).map (fun x => (r.m, x))) = [] :=
    List.flatMap_eq_nil_iff.mpr (fun r listed => by rw [still r listed, List.map_nil])
  simp only [cmdRouteSet, fields, noConflict, noMoves, List.isEmpty_nil, Bool.false_eq_true, if_true, if_false]

theorem cmdRouteRead_reports (first : q.u8 0x20 < 64) (low : 1 ≤ q.u8 0x21) (high : q.u8 0x21 ≤ 64)
    (inside : q.u8 0x20 + q.u8 0x21 ≤ 64) (rsvd : q.zero 0x22 2 = true) :
    cmdRouteRead.body w q s = ok s ((List.range (q.u8 0x21)).flatMap (fun i =>
      leBytes 8 (s.entryOf (q.u8 0x20 + i)).toNat ++ leBytes 4 (s.route (q.u8 0x20 + i)).oper.toNat ++
        leBytes 1 (bitsOf 4 (s.pathUsable (q.u8 0x20 + i))) ++ [0, 0, 0])) := by
  simp only [cmdRouteRead, firstBad, first, low, high, inside, rsvd, and_self, decide_true, if_true]

/-! ## Admission (R243, R244, R252) -/

theorem cmdFabGetModule_reports (target : q.u8 0x20 < 64) (rsvd : q.zero 0x21 3 = true) :
    ∃ d, d.length = 64 ∧ cmdFabGetModule.body w q s = ok s d := by
  simp only [cmdFabGetModule, firstBad, target, rsvd, decide_true, if_true]
  exact ⟨_, by simp, rfl⟩

/-- FAB_ADMIT of an authenticated module on the digest SPDM recorded, of firmware 3.0 or later or forced, admits it. -/
theorem cmdFabAdmit_admits (target : q.u8 0x20 < 64) (other : q.u8 0x20 ≠ s.own) (force : q.u8 0x21 ≤ 1)
    (rsvd : q.zero 0x22 6 = true) (st : (s.adm (q.u8 0x20)).st = .authenticated)
    (digest : (s.adm (q.u8 0x20)).digest = none ∨
      (s.adm (q.u8 0x20)).digest = some (BitVec.ofNat 384 (leNat (q.bytes 0x28 48))))
    (firmware : (s.adm (q.u8 0x20)).verified = true → (s.adm (q.u8 0x20)).fwVersion.toNat / 2 ^ 24 < 3 → q.u8 0x21 = 1) :
    cmdFabAdmit.body w q s =
      ok (s.admitModule (q.u8 0x20) (BitVec.ofNat 384 (leNat (q.bytes 0x28 48))) (q.u8 0x21 == 1)) := by
  have sameDigest : ¬ ((s.adm (q.u8 0x20)).digest.isSome = true ∧
      (s.adm (q.u8 0x20)).digest ≠ some (BitVec.ofNat 384 (leNat (q.bytes 0x28 48)))) := by
    rcases digest with unrecorded | same
    · simp [unrecorded]
    · simp [same]
  have allowed : ¬ ((s.adm (q.u8 0x20)).verified = true ∧ (s.adm (q.u8 0x20)).fwVersion.toNat / 2 ^ 24 < 3 ∧ q.u8 0x21 = 0) := by
    rintro ⟨verified, old, unforced⟩
    exact absurd (firmware verified old) (by omega)
  simp only [cmdFabAdmit, firstBad, target, bne_iff_ne.mpr other, force, rsvd, st, sameDigest, allowed, decide_true, Bool.and_self,
    reduceCtorEq, ne_eq, not_true_eq_false, false_and, and_false, if_true, if_false]

/-- FAB_WITHDRAW of a known module that is not withdrawn starts its withdrawal under a handle. -/
theorem cmdFabWithdraw_starts (target : q.u8 0x20 < 64) (other : q.u8 0x20 ≠ s.own) (rsvd : q.zero 0x21 3 = true)
    (known : (s.adm (q.u8 0x20)).st ≠ .unknown) (present : (s.adm (q.u8 0x20)).st ≠ .withdrawn)
    (room : s.handleFree w.caller = true) :
    cmdFabWithdraw.body w q s =
      let h := s.newHandle w.caller 0x0407
      pend (h.2.withdraw (q.u8 0x20) h.1) h.1 := by
  simp only [cmdFabWithdraw, firstBad, target, bne_iff_ne.mpr other, rsvd, known, present, room, decide_true, Bool.and_self,
    Bool.not_true, Bool.false_eq_true, or_self, if_true, if_false]

/-! ## FAB_RELAY (R245) -/

/-- FAB_RELAY to an admitted module with a route sends the inner frame and waits for the response. -/
theorem cmdFabRelay_sends (target : q.u8 0x20 < 64) (rsvd : q.zero 0x21 7 = true) (known : (s.adm (q.u8 0x20)).st = .admitted)
    (routed : routeState (s.entryOf (q.u8 0x20)) = 1) :
    cmdFabRelay.body w q s =
      { status := rcOk, wait := some (.relay s.fab.relaySeq),
        s := (s.modFab (fun f => { f with relays := tset f.relays s.fab.relaySeq { target := q.u8 0x20, part := w.caller },
                                          relaySeq := s.fab.relaySeq + 1 })).control (q.u8 0x20)
          (.relay s.fab.relaySeq (w.caller == 0) (q.bytes 0x28 (q.length - 8))) } := by
  simp only [cmdFabRelay, firstBad, target, rsvd, known, routed, decide_true, ne_eq, not_true_eq_false, or_self, if_true, if_false]

/-! ## FAB_SET_CONFIG (R256) -/

/-- FAB_SET_CONFIG changes the settings VALID names. -/
theorem cmdFabSetConfig_sets (valid : q.u8 0x20 < 8) (named : q.u8 0x20 ≠ 0) (rsvd : q.zero 0x21 3 = true)
    (failover : bit (q.u8 0x20) 0 = true → 1 ≤ q.u32 0x24 ∧ q.u32 0x24 ≤ 1000)
    (revert : bit (q.u8 0x20) 1 = true → q.u32 0x28 = 0 ∨ 100 ≤ q.u32 0x28 ∧ q.u32 0x28 ≤ 60000)
    (extract : bit (q.u8 0x20) 2 = true → 10 ≤ q.u32 0x2C ∧ q.u32 0x2C ≤ 600) :
    cmdFabSetConfig.body w q s = ok (s.modFab (fun f =>
      { f with failoverMs := if bit (q.u8 0x20) 0 then q.u32 0x24 else f.failoverMs
               revertMs := if bit (q.u8 0x20) 1 then q.u32 0x28 else f.revertMs
               extractS := if bit (q.u8 0x20) 2 then q.u32 0x2C else f.extractS })) := by
  have failoverOk := checked_of_named (fun b => decide_eq_true (failover b))
  have revertOk : (!bit (q.u8 0x20) 1 || q.u32 0x28 == 0 || decide (100 ≤ q.u32 0x28 ∧ q.u32 0x28 ≤ 60000)) = true := by
    rw [Bool.or_assoc]
    exact checked_of_named (fun b => by simpa using revert b)
  have extractOk := checked_of_named (fun b => decide_eq_true (extract b))
  simp only [cmdFabSetConfig, firstBad, valid, bne_iff_ne.mpr named, rsvd, failoverOk, revertOk, extractOk, decide_true,
    Bool.and_self, if_true]

end

/-! ## The commands -/

/-- Settles O32: a command Ember serves leaves what its body answers, and the lemma on that body says what it is. -/
theorem fabricCommandsComplete : Obligations.FabricCommandsComplete := by
  unfold Obligations.FabricCommandsComplete
  refine ⟨?routeSet, ?routeRead, ?getModule, ?admission, ?withdraw, ?relay, ?setConfig⟩
  case routeSet =>
    intro s c p q served n rs low high auto rsvd inOrder settled still
    exact served.answers (cmdRouteSet_sets low high auto rsvd inOrder settled still)
  case routeRead =>
    intro s c p q served first low high inside rsvd
    exact served.answers (cmdRouteRead_reports first low high inside rsvd)
  case getModule =>
    intro s c p q served target rsvd
    exact served.reports (cmdFabGetModule_reports target rsvd)
  case admission =>
    intro s c p q served m d target other force rsvd st digest firmware
    exact served.answers (cmdFabAdmit_admits target other force rsvd st digest firmware)
  case withdraw =>
    intro s c p q served target other rsvd known present room
    exact served.answers (cmdFabWithdraw_starts target other rsvd known present room)
  case relay =>
    intro s c p q served target rsvd known routed
    exact served.answers (cmdFabRelay_sends target rsvd known routed)
  case setConfig =>
    intro s c p q served v valid named rsvd failover revert extract
    exact served.answers (cmdFabSetConfig_sets valid named rsvd failover revert extract)

end Sys2Proof.Machine
end

section
/-! PROOFS. The layout and the contents of the memory pool: the channel a byte lies on (R262, R263), what reset leaves (log 11) and
what a byte reads after a write (R258). -/

namespace Sys2Proof.Machine

open Sys2Proof

/-! ## Channels (R262, R263) -/

/-- A wide sod is interleaved over all 16 channels, 256 bytes at a time. -/
theorem PoolSt.channel_wide {p : PoolSt} {n : Nat} (b : Nat) (wide : n < p.wide) : p.channel n b = b / 256 % 16 := if_pos wide

/-- The `i`-th contained sod of pool port `m` is interleaved over that port's four channels. -/
theorem PoolSt.channel_contained {p : PoolSt} {m i : Nat} (b : Nat) (port : m < 4) (inPort : i < p.contained) :
    p.channel (p.wide + m * p.contained + i) b = 4 * m + b / 256 % 4 := by
  have notWide : ¬ p.wide + m * p.contained + i < p.wide := by omega
  have place : p.wide + m * p.contained + i - p.wide = p.contained * m + i := by rw [Nat.mul_comm m]; omega
  have some_contained : 0 < p.contained := Nat.zero_lt_of_lt inPort
  have divisor : Nat.max 1 p.contained = p.contained := Nat.max_eq_right some_contained
  have inRange : Nat.min 3 m = m := Nat.min_eq_right (Nat.le_of_lt_succ port)
  have quotient : (p.contained * m + i) / p.contained = m := by
    rw [Nat.mul_add_div some_contained, Nat.div_eq_of_lt inPort, Nat.add_zero]
  simp only [PoolSt.channel, if_neg notWide, place, divisor, quotient, inRange]

/-- Settles O14: the two forms of the channel, and from that of a wide sod what it is within an aligned KiB. -/
theorem poolChannelInterleave : Obligations.PoolChannelInterleave := by
  unfold Obligations.PoolChannelInterleave
  intro p n b
  refine ⟨fun wide => PoolSt.channel_wide b wide, ?contained, ?block⟩
  case contained =>
    rintro m i port inPort rfl
    have channel := PoolSt.channel_contained b port inPort
    exact ⟨channel, by omega⟩
  case block =>
    intro wide j inBlock
    rw [PoolSt.channel_wide _ wide]
    omega

/-! ## Cells (log 11) -/

/-- A cell removed leaves the default. -/
theorem mget_filter_same (d : Byte) (m : List (Nat × Byte)) (a : Nat) : mget d (m.filter (fun e => e.1 != a)) a = d := by
  induction m with
  | nil => rfl
  | cons e r ih =>
    by_cases same : e.1 = a
    · simpa [same] using ih
    · simpa [mget, same] using ih

/-- Removing the cell of another address leaves a byte as it is. -/
theorem mget_filter_other {a x : Nat} (d : Byte) (m : List (Nat × Byte)) (other : a ≠ x) :
    mget d (m.filter (fun e => e.1 != a)) x = mget d m x := by
  induction m with
  | nil => rfl
  | cons e r ih =>
    by_cases same : e.1 = a
    · simpa [mget, same, other] using ih
    · simp [mget, same, ih]

/-- A cell inserted where no cell has its address is the byte read there, and no other byte changes. -/
theorem mget_minsert {a : Nat} (d v : Byte) {m : List (Nat × Byte)} (fresh : ∀ e ∈ m, e.1 ≠ a) (x : Nat) :
    mget d (minsert a v m) x = if a = x then v else mget d m x := by
  induction m with
  | nil => rfl
  | cons e r ih =>
    have tail := ih (fun f listed => fresh f (List.mem_cons_of_mem e listed))
    have head : e.1 ≠ a := fresh e List.mem_cons_self
    rw [minsert]
    split
    · rfl
    · rw [mget, mget, tail]
      by_cases here : e.1 = x
      · rw [if_pos here, if_pos here, if_neg (here ▸ head.symm)]
      · rw [if_neg here, if_neg here]

/-- After a byte is set, its address reads it and every other address reads as before. -/
theorem mget_mset (d : Byte) (m : List (Nat × Byte)) (a : Nat) (v : Byte) (x : Nat) :
    mget d (mset d m a v) x = if a = x then v else mget d m x := by
  have fresh : ∀ e ∈ m.filter (fun e => e.1 != a), e.1 ≠ a := fun e listed => by simpa using (List.mem_filter.mp listed).2
  have others (other : a ≠ x) := mget_filter_other d m other
  rw [mset]
  split
  case isTrue isDefault =>
    by_cases here : a = x
    · subst here; rw [if_pos rfl, mget_filter_same, isDefault]
    · rw [if_neg here, others here]
  case isFalse =>
    rw [mget_minsert d v fresh x]
    by_cases here : a = x
    · rw [if_pos here, if_pos here]
    · rw [if_neg here, if_neg here, others here]

/-- Bytes stored one after another, from the `k`-th on, where `on` lets them: each stands at its address, and no other byte
changes. -/
theorem mget_stored (on : Nat → Bool) (a : Nat) (d : Bytes) (k : Nat) (m : List (Nat × Byte)) (x : Nat) :
    mget 0 (((List.range' k d.length).zip d).foldl (fun m e => if on (a + e.1) then mset 0 m (a + e.1) e.2 else m) m) x =
      if a + k ≤ x ∧ x < a + k + d.length ∧ on x = true then d.getD (x - (a + k)) 0 else mget 0 m x := by
  induction d generalizing k m with
  | nil =>
    have noByte : ¬ (a + k ≤ x ∧ x < a + k + ([] : Bytes).length ∧ on x = true) := by
      rw [List.length_nil]; omega
    rw [if_neg noByte]; rfl
  | cons b r ih =>
    rw [List.length_cons, List.range'_succ, List.zip_cons_cons, List.foldl_cons, ih]
    by_cases first : x = a + k
    · subst first
      have passed : ¬ (a + (k + 1) ≤ a + k ∧ a + k < a + (k + 1) + r.length ∧ on (a + k) = true) := by omega
      rw [if_neg passed]
      by_cases enabled : on (a + k) = true
      · simp [enabled, mget_mset]
      · simp [enabled]
    · have kept : mget 0 (if on (a + k) then mset 0 m (a + k) b else m) x = mget 0 m x := by
        split
        · rw [mget_mset, if_neg (Ne.symm first)]
        · rfl
      rw [kept]
      by_cases later : a + (k + 1) ≤ x
      · have index : x - (a + k) = x - (a + (k + 1)) + 1 := by omega
        have range : (a + (k + 1) ≤ x ∧ x < a + (k + 1) + r.length) ↔ (a + k ≤ x ∧ x < a + k + (r.length + 1)) := by omega
        simp only [index, List.getD_cons_succ, ← and_assoc, range]
      · have before : ¬ a + k ≤ x := by omega
        rw [if_neg (fun h => later h.1), if_neg (fun h => before h.1)]

/-- Settles O15: a write stores its bytes in order where they are enabled and their channel is in service. -/
theorem poolBytesAfterWrite : Obligations.PoolBytesAfterWrite := by
  unfold Obligations.PoolBytesAfterWrite
  intro p a d en x
  have stored := mget_stored (fun y => en y && !p.lostAt (y / 2 ^ 30) (y % 2 ^ 30)) a d 0 p.mem x
  rw [← List.range_eq_range'] at stored
  simpa only [PoolSt.put, Nat.add_zero, Bool.and_eq_true, Bool.not_eq_true'] using stored

/-- Settles O5: the memory after reset lists no cell. -/
theorem resetPoolMemoryIsCanonical : Obligations.ResetPoolMemoryIsCanonical := by
  unfold Obligations.ResetPoolMemoryIsCanonical
  exact ⟨reset_cells, fun _ => rfl⟩

end Sys2Proof.Machine
end

section
/-! PROOFS. Every command of the table, and so every step, keeps the memory of the pool in its canonical form (log 11): the lemmas of
the model on each operation say whether it leaves the memory alone or keeps its form, and each arm of the dispatcher hands one
operation to `done`, `onDie` or `live`. -/

namespace Sys2Proof.Machine

open Sys2Proof

/-- A command that firmware 3.2 has under its opcode keeps the form, whoever issues it. -/
theorem command_done_wf {k : Cmd} {c : Path} {q : Req} {s t : State} (h : cellsWf s.pool.mem)
    (e : s.done (direct k c q s) = .next t) (found : commands.find? (fun x => x.op == k.op) = some k) : cellsWf t.pool.mem :=
  done_wf (direct_wf (commands_keep k (List.mem_of_find?_eq_some found)) c q s h) e

/-- Every command of the table keeps the form: a mailbox command by what its body keeps, an event by what its operation keeps. -/
theorem exec_wf {c : Instr} {s t : State} (h : cellsWf s.pool.mem) (e : exec c s = .next t) : cellsWf t.pool.mem := by
  cases c with
  -- The commands of the mailboxes.
  | nop | deviceInfo | getOpStatus | warmReset | coreGetStatus | coreSetConfig | hearthCtl | fwGetStatus | fwBegin | fwWrite
    | fwFinish | fwActivate | portGetStatus | portSetConfig | portReset | vdspBind | vdspUnbind | vdspGet | winStage | winCommit
    | winDiscard | winRead | devShare | migrateFence | linkGetStatus | linkSet | linkReset | routeSet | routeRead | fabGetModule
    | fabAdmit | fabWithdraw | fabRelay | fabSetConfig | poolGetStatus | poolConfig | sodAssign | sodRelease | sodQuery | sodSet
    | rtGetStatus | rtPartSet | rtGroupCreate | rtGroupDestroy | rtGroupRead | rtGroupReset | rtGroupMove | netGetStatus
    | netPortSet | vnicCreate | vnicDestroy | vnicSet | vnicQpSet | netEmSet | netAclSet | netPtpClock | tmShaperSet
    | tmSchedSet | tmMeterSet | tmWredSet | tmGateSet | tmGateGet | ptpOutSet | ptpInSet | ptpInRead | partGet | partSet
    | isoGetStatus | strictSet | fltGetSummary | fltRead | fltClear | fltSetReaction | fltGetReaction | fltLedgerRead
    | fltLedgerClear | fltInject | fltAerRead | evPop | pwrGetStatus | pwrSetConfig | cntRead | cntSet | cntSweepSet
    | cntSweepGet | bistRun | bistGet | lcAdvance | rmaChallenge | rmaUnlock | ageGetStatus | ageSetConfig =>
    exact command_done_wf h e rfl
  -- The events of the main die.
  | go | ack | commandTaken | registerWrite | mctpCommandMessage | setEndpointId | getEndpointId | getMctpVersionSupport
    | getMessageTypeSupport | getVendorDefinedMessageSupport | getTid | getPldmVersion | getPldmTypes | getPldmCommands
    | getPdrRepositoryInfo | getPdr | getSensorReading | fwEraseComplete | fwVerifyComplete | completionTimeout
    | tagQuarantineEnd | pcieLinkDown | unplugTimerExpiry | targetLost | vdspDrainEnd | presenceChange | perstHoldExpiry
    | linkDetectTimeout | configWaitExpiry | deviceNotReadyTimeout | portResetComplete | fenceTimeExpiry | commitDrainWaitExpiry
    | drainComplete | devShareComplete | linkHandleTimeout | relayedCommand | extractingAnnouncement | getVersion
    | getCapabilities | negotiateAlgorithms | getDigests | getCertificate | challenge | getMeasurements | spdmResponseReceived
    | spdmRetryTimer | failoverTimer | revertTimer | flowMoveComplete | extractFilterExpiry | neighbourRerouteReport
    | extractDrainComplete | extractTimeout | relayResponse | relayTimeout | peerImageRequest | zeroingComplete | scrubComplete
    | poolFenceComplete | channelLost | pfcPauseExpiry | qpDisableComplete | netPortTrainingEnd | blockReady | reactionShadowEnd
    | ledgerFlashCopy | ledgerFlashClearComplete | stableIntervalExpiry | hostDownloadGo | hostDownloadComplete
    | peerImageReceived | charSample | marginReplan | bistComplete | nonceExpiry | propagatedResetComplete =>
    exact onDie_wf h (by simp [h]) e
  -- The events of the data path.
  | hostMemoryRequest | deviceMemoryRequest | admissionRetry | npSlotReserved | egressTlpIssue | pcieAckReceived
    | completionReceived | pcieMessageReceived | configurationRequest | barWrite | memorySpaceEnableWrite
    | powerControllerControlWrite | dpcTriggerStatusClear | dpcSoftwareTrigger | secondaryBusReset | functionFlr
    | mgmtFunctionFlr | dataLinkActive | hotReset | planeCellTime | iterationMeasurement | iterationFastLower | spillReadback
    | flitTime | flitReceived | nakTimeout | replayTimeout | lresetExpiry | electricalIdleExpiry | beaconReceived
    | detectTimeout | equalizationComplete | equalizeTimeout | alignComplete | alignTimeout | trainingRetryWaitExpiry
    | trainRecordReceived | laneLockLost | signalLost | fabricPacketReceived | doneReport | writeAckReceived | poolAccess
    | patrolScrubRead | contribution | enginePacket | pullReadComplete | flushReadComplete | chunkTimeout | groupMoveComplete
    | groupDestroyComplete | frameReceived | pfcFrameReceived | pfcRefresh | pauseWatchExpiry | qpTxTailWrite | qpRxTailWrite
    | transmitSchedule | descriptorFetchComplete | egressFrameStart | vnicReceive | rxWaitTimeout | itrExpiry
    | logicalPortLinkChange | vnicFunctionReset | gateEntryTransition | gateChangeTime | ptpOutputEdge | ptpInputEdge | load
    | store | instructionFetch | lr | sc | amo | fence | fenceI | kfence | fenceRetire | mpuCsrWrite | kattrCsrWrite
    | ksterrWrite | fenceWatchExpiry | alarmRequest | alarmRelease | alarmFire | machineTimerInterrupt | msipWrite
    | abstractCommand | systemBusAccess | clusterStopComplete | sweep | sweepSlotWrite =>
    exact live_wf h (by simp [h]) e
  -- The events that take place in reset too.
  | dynamicAddressAssignment | warmResetDelayExpiry | upstreamPerstNAssert | upstreamPerstNRelease | frefclkLoss | extractReq
    | ptpClockLoss | ptpClockRelock | faultDetected | powerOn | auxRailLost | moduleReset | watchdogExpiry | resetPulseEnd
    | supervisorRelease | startTimerExpiry | powerEnAsserted | powerEnDeasserted | softStartComplete | railsGood
    | resetThreshold | overVoltageLockout | overVoltageRelease | resetReleaseLevel | brownoutHoldoffExpiry | thermalTrip
    | thermalTripClear | sagWarning | warningClear | efuseFaultTimer | efuseShortCircuit | efuseRetry | railOutOfTolerance
    | thermalWarning | telemetrySample | bypass | idcode | samplePreload | extest | intest | clamp | highz | efuseCurrentLimit
    | efuseOnInterval | clockDomainRelease =>
    exact done_wf (by simp [h]) e

/-- A step keeps the form, whether it takes a command or a tick passes. -/
theorem step_wf {s t : State} (h : cellsWf s.pool.mem) (e : step s = .next t) : cellsWf t.pool.mem := by
  cases queue : s.pending with
  | nil =>
    rw [step, queue] at e
    cases e
    exact State.tick_wf s h
  | cons c r =>
    rw [step_front queue] at e
    exact exec_wf (s := { s with pending := r }) h e

/-- Settles O6: `cellsWf` is the form, and every step keeps it. -/
theorem stepKeepsPoolMemoryCanonical : Obligations.StepKeepsPoolMemoryCanonical := by
  unfold Obligations.StepKeepsPoolMemoryCanonical
  exact fun _ _ canonical answer => step_wf canonical answer

end Sys2Proof.Machine
end

section
/-! PROOFS. Accesses at a pool port and the patrol scrub: what each operation leaves on the path the spec describes (R270, R273 to R276,
R282, R283), and from that what the events do. -/

namespace Sys2Proof.Machine

open Sys2Proof

/-! ## Accesses without a packet (R270, R273, R275, R282, R283) -/

section
variable {s : State} {m n off : Nat} {g : PoolAgent} (ecc : Eccs)

/-- An access by an agent the sod does not admit is refused, with the port's source 5 (R270). -/
theorem State.poolDirect_refused {op : PoolOp} (go : s.agentHeld g = false) (denied : agentAdmits g (s.sod n) off op = false) :
    s.poolDirect m g n off op ecc =
      (s.raiseAt (0x26 + m) 5 none (some (64 + m)) (faMake s.own 0 (poolKey n off))).poolResult csUr [] := by
  simp [State.poolDirect, go, denied]

variable (go : s.agentHeld g = false) (present : s.pool.present = true)
include go present

/-- A read is counted and answers the bytes, with CA where a line of it is poisoned (R270, R275). -/
theorem State.poolDirect_read {len : Nat} (admitted : agentAdmits g (s.sod n) off (.read len) = true) :
    s.poolDirect m g n off (.read len) ecc =
      let a := poolKey n off
      let s1 := (s.eccAt a len ecc none).poolCount m 0x10 (linesOf a len).length none
      (if s1.pool.tainted a len then s1.emberPoison g n ecc else s1).poolResult
        (if s1.pool.tainted a len then csCa else 0) (s1.pool.bytes a len) := by
  simp [State.poolDirect, go, present, admitted]

/-- A write stores its bytes and is counted (R270). -/
theorem State.poolDirect_write {d : Bytes} {ep : Bool} (admitted : agentAdmits g (s.sod n) off (.write d ep) = true) :
    s.poolDirect m g n off (.write d ep) ecc =
      ((s.poolWrite (poolKey n off) d ep (fun _ => true)).poolCount m 0x11 (linesOf (poolKey n off) d.length).length none).poolResult
        0 [] := by
  simp [State.poolDirect, go, present, admitted]

theorem State.poolDirect_fetchAdd {v : Word} (admitted : agentAdmits g (s.sod n) off (.fetchAdd 8 v) = true) :
    s.poolDirect m g n off (.fetchAdd 8 v) ecc = s.directAtomic m (poolKey n off) opcFetchAdd v.toNat 0 ecc := by
  simp [State.poolDirect, go, present, admitted]

theorem State.poolDirect_swap {v : Word} (admitted : agentAdmits g (s.sod n) off (.swap 8 v) = true) :
    s.poolDirect m g n off (.swap 8 v) ecc = s.directAtomic m (poolKey n off) opcSwap v.toNat 0 ecc := by
  simp [State.poolDirect, go, present, admitted]

theorem State.poolDirect_cas {x v : Word} (admitted : agentAdmits g (s.sod n) off (.cas 16 x v) = true) :
    s.poolDirect m g n off (.cas 16 x v) ecc = s.directAtomic m (poolKey n off) opcCas x.toNat v.toNat ecc := by
  simp [State.poolDirect, go, present, admitted]

/-- A conditional write of an agent with a core port ends with its granule (R283). -/
theorem State.poolDirect_conditional {agent : Nat} {d : Bytes} (port : agentPort g = some agent)
    (admitted : agentAdmits g (s.sod n) off (.conditional d) = true) :
    s.poolDirect m g n off (.conditional d) ecc =
      s.directConditional m (poolKey n off) agent (d.take (256 - poolKey n off % 256)) := by
  simp [State.poolDirect, go, present, admitted, port]

end

/-! ## Accesses of packets (R265) -/

/-- The packet that a port's queue yields is executed, and the rest of the queue waits on. -/
theorem State.poolQueued_picks {s : State} {m : Nat} {ecc : Eccs} {p : Pkt} {r : List Pkt} (here : s.blockAway (0x26 + m) = false)
    (picked : poolPick s.poolHeld [] (tget [] s.core.delivered (64 + m)) = some (p, r)) :
    s.poolQueued m ecc = (s.modCore (fun k => { k with delivered := tset k.delivered (64 + m) r })).poolExec m p ecc := by
  simp [State.poolQueued, here, picked]

/-! ## Patrol scrub (R276) -/

/-- The patrol notes how far its pass has come, and what error correction finds has its effect. -/
theorem State.patrol_line {s : State} {n k : Nat} (ecc : Ecc) (present : s.pool.present = true) (inSod : k < 2 ^ 24)
    (populated : (s.sod n).st ≠ .absent) (inUse : (s.sod n).st ≠ .retired) :
    s.patrol (n * 2 ^ 24 + k) ecc = (s.modEmber (fun e =>
      { e with sincePatrol := (n * 2 ^ 24 + k) * 100 / (Nat.max 1 s.pool.total * 2 ^ 24) })).eccLine ((n * 2 ^ 24 + k) * 64) ecc 2
        none := by
  have sod : (n * 2 ^ 24 + k) / 2 ^ 24 = n := by omega
  simp only [State.patrol, sod, present, populated, inUse, Bool.not_true, Bool.false_eq_true, or_self, if_false]

/-! ## The events -/

/-- Settles O33: each event is its operation on a die that works, and the lemma on that operation says what it leaves. -/
theorem poolPortsTakeEffect : Obligations.PoolPortsTakeEffect := by
  unfold Obligations.PoolPortsTakeEffect
  refine ⟨?direct, ?queued, ?patrol⟩
  case direct =>
    intro s m n off len g ecc works present go
    exact ⟨fun admitted => State.live_working_eq works (State.poolDirect_read ecc go present admitted),
      fun d ep admitted => State.live_working_eq works (State.poolDirect_write ecc go present admitted),
      fun v admitted => State.live_working_eq works (State.poolDirect_fetchAdd ecc go present admitted),
      fun v admitted => State.live_working_eq works (State.poolDirect_swap ecc go present admitted),
      fun x v admitted => State.live_working_eq works (State.poolDirect_cas ecc go present admitted),
      fun agent d port admitted => State.live_working_eq works (State.poolDirect_conditional ecc go present port admitted),
      fun op denied => State.live_working_eq works (State.poolDirect_refused ecc go denied)⟩
  case queued =>
    intro s m ecc p r works here picked
    exact State.live_working_eq works (State.poolQueued_picks here picked)
  case patrol =>
    intro s n k works present inSod populated inUse
    have line (ecc : Ecc) := State.live_working_eq works (State.patrol_line ecc present inSod populated inUse)
    exact ⟨line .ok, line .bad, fun dev => line (.corrected dev)⟩

end Sys2Proof.Machine
end

section
/-! PROOFS. The life of a sod: the ends of its zeroing, its scrub pass and its pool fence, and the loss of a channel under it. What each
operation leaves on the path the spec describes (R269, R271, R277), and from that what the events do. -/

namespace Sys2Proof.Machine

open Sys2Proof

section
variable {s : State}

/-! ## Zeroing and scrub (R269, R271, R277) -/

/-- A sod whose zeroing ends reads as zero and is scrubbed, and the next sods are zeroed. -/
theorem State.zeroed_zeroing {n : Nat} (st : (s.sod n).st = .zeroing) :
    s.zeroed n = State.initPool 4 ((s.modPool (fun p =>
      { p with mem := mclear p.mem (poolKey n 0) (2 ^ 30), poisoned := p.poisoned.filter (fun l => l / 2 ^ 24 != n) })).modSod n
        (fun d => { d with st := .scrubbing, scrubbed := false })) :=
  if_neg (not_not_intro st)

/-- A scrub pass without an uncorrectable line, on channels in service, is passed. -/
theorem State.scrubOver_good {n : Nat} (st : (s.sod n).st = .scrubbing) (fresh : (s.sod n).scrubbed = false)
    (served : s.pool.lostUnder n = []) :
    s.scrubOver n false = (s.modSod n (fun d => { d with scrubbed := true })).sodDone n := by
  simp [State.scrubOver, st, fresh, served]

/-- A scrub pass that meets an uncorrectable line counts it and retires the sod. -/
theorem State.scrubOver_bad {n : Nat} (st : (s.sod n).st = .scrubbing) (fresh : (s.sod n).scrubbed = false) :
    s.scrubOver n true = (s.modPool (fun p => { p with ue := sat (2 ^ 32 - 1) p.ue 1 })).retireSod n := by
  simp [State.scrubOver, st, fresh]

/-! ## Pool fences (R271) -/

/-- A fence whose markers have arrived ends, its sods go on, and its handle, if it has one, ends with OK. -/
theorem State.fenceDone_reached {id : Nat} {f : PFence} (found : s.pool.fences.find? (fun f => f.id == id) = some f)
    (reached : s.fenceReached f = true) :
    s.fenceDone id =
      let s1 := s.modPool (fun p => { p with fences := p.fences.filter (fun g => g.id != id) })
      let s2 := f.sods.foldl (fun t n => if (t.sod n).fenced then (t.modSod n (fun d => { d with fenced := false })).sodDone n else t) s1
      if f.handle = 0 then s2 else s2.endHandle f.handle rcOk := by
  simp only [State.fenceDone, found, reached, Bool.not_true, Bool.false_eq_true, if_false]

/-! ## Lost channels (R277) -/

/-- A channel lost for the first time is reported, marks the assigned sods it reaches and retires the free ones. -/
theorem State.channelLost_first {ch : Nat} (present : s.pool.present = true) (served : s.pool.chLost.getLsbD ch = false) :
    s.channelLost ch =
      let s1 := ((s.modPool (fun p => { p with chLost := p.chLost ||| (1#16 <<< ch) })).raiseAt (0x26 + ch / 4) 4).poolEvent 4 ch
      let hit (n : Nat) : Bool := decide (n < s.pool.wide) || s.pool.channel n 0 / 4 == ch / 4
      let s2 := s1.modPool (fun p =>
        { p with sods := tmap p.sods (fun n d => if hit n && d.st != .free && d.st != .retired then { d with chlost := true } else d) })
      let dead := (s2.pool.sods.filter (fun e => hit e.1 && e.2.st == .free)).map (fun e => e.1)
      (dead.foldl (fun t n => t.retireSod n) s2).romCopyLost :=
  if_neg (by simp [present, served])

end

/-! ## The events -/

/-- Settles O34: each event is its operation on a die out of reset, and the lemma on that operation says what it leaves. -/
theorem sodLifeTakesEffect : Obligations.SodLifeTakesEffect := by
  unfold Obligations.SodLifeTakesEffect
  refine ⟨?zeroing, ?scrub, ?fence, ?channel⟩
  case zeroing =>
    intro s n up st
    exact State.onDie_up_eq up (State.zeroed_zeroing st)
  case scrub =>
    intro s n up st fresh
    exact ⟨fun served => State.onDie_up_eq up (State.scrubOver_good st fresh served),
      State.onDie_up_eq up (State.scrubOver_bad st fresh)⟩
  case fence =>
    intro s id f up found reached
    have ends := State.fenceDone_reached found reached
    exact ⟨fun unheld => State.onDie_up_eq up (ends.trans (if_pos unheld)),
      fun held => State.onDie_up_eq up (ends.trans (if_neg held))⟩
  case channel =>
    intro s ch up present served
    exact State.onDie_up_eq up (State.channelLost_first present served)

end Sys2Proof.Machine
end

section
/-! PROOFS. The commands of the memory pool: each body in range, on the path the spec describes (R271, R284 to R288), and from that what
the commands answer. -/

namespace Sys2Proof.Machine

open Sys2Proof

/-- A run of at least one sod begins with its first. -/
theorem runList_cons {first n : Nat} (some_sod : 1 ≤ n) : ∃ r, runList first n = first :: r := by
  obtain ⟨k, rfl⟩ := Nat.exists_eq_add_of_le' some_sod
  exact ⟨_, by rw [runList, List.range_succ_eq_map, List.map_cons, Nat.add_zero]⟩

section
variable {w : Who} {q : Req} {s : State}

/-! ## POOL_GET_STATUS and SOD_QUERY (R284, R285) -/

theorem cmdPoolGetStatus_reports : ∃ d, d.length = 40 ∧ cmdPoolGetStatus.body w q s = ok s d :=
  ⟨_, by simp, rfl⟩

/-- SOD_QUERY shows each sod that the partition acted on may see. -/
theorem cmdSodQuery_reports (first : q.u16 0x20 < 8192) (low : 1 ≤ q.u16 0x22) (high : q.u16 0x22 ≤ 1000)
    (inside : q.u16 0x20 + q.u16 0x22 ≤ 8192) :
    cmdSodQuery.body w q s = ok s (leBytes 2 (q.u16 0x20) ++ leBytes 2 (q.u16 0x22) ++ [0, 0, 0, 0] ++
      (runList (q.u16 0x20) (q.u16 0x22)).flatMap (fun i => leBytes 4 (if w.subject == 0 || ((s.sod i).st == .assigned &&
        (s.sod i).kind != 3 && (s.sod i).target == w.subject) then s.sodRecord i else 0))) := by
  simp only [cmdSodQuery, firstBad, first, low, high, inside, and_self, decide_true, if_true]

/-! ## POOL_CONFIG (R286) -/

/-- POOL_CONFIG of the wide sod count alone, at the count there is, keeps the setting and the spill region. -/
theorem cmdPoolConfig_sameWide (mask : q.u8 0x20 = 1) (rsvd : q.zero 0x21 3 = true) (wide : q.u16 0x24 = s.pool.wide)
    (groups : s.pool.wide % 4 = 0) (spill : ceilDiv (s.pool.spillSods + 1) 4 * 4 ≤ s.pool.wide) (present : s.pool.present = true)
    (fits : s.pool.wide ≤ s.pool.total) :
    cmdPoolConfig.body w q s =
      ok (({ s with nv := { s.nv with wideSods := some s.pool.wide } }).resizeSpill s.pool.spillSods) := by
  have wideNamed : bit 1 0 = true := by decide
  have spillUnnamed : bit 1 1 = false := by decide
  simp [cmdPoolConfig, firstBad, mask, wideNamed, spillUnnamed, rsvd, wide, groups, spill, present, fits]

/-! ## SOD_ASSIGN (R287) -/

/-- SOD_ASSIGN of a run of FREE sods clear of the reserve, named by its first, to a partition. -/
theorem cmdSodAssign_assigns (kind : q.u8 0x20 = 1) (target : q.u8 0x21 < 32) (mode : q.u8 0x22 = 0) (port : q.u8 0x23 = 0xFF)
    (low : 1 ≤ q.u16 0x24) (high : q.u16 0x24 ≤ 4096) (inside : q.u16 0x26 + q.u16 0x24 ≤ 8192) (present : s.pool.present = true)
    (clear : ¬ (q.u16 0x26 ≤ s.pool.reserve ∧ s.pool.reserve < q.u16 0x26 + q.u16 0x24))
    (free : ∀ i ∈ runList (q.u16 0x26) (q.u16 0x24), (s.sod i).st = .free) :
    cmdSodAssign.body w q s =
      let s1 := (runList (q.u16 0x26) (q.u16 0x24)).foldl (fun t i => t.modSod i (fun d =>
        { d with st := .assigned, kind := 1, target := q.u8 0x21, exported := false })) s
      ok s1 (leBytes 2 (q.u16 0x26) ++ leBytes 2 (q.u16 0x24) ++ leBytes 2 (s1.sodsHeld 1 (q.u8 0x21)) ++ [0, 0]) := by
  have named : q.u16 0x26 ≠ 0xFFFF := by omega
  have unassigned : ((runList (q.u16 0x26) (q.u16 0x24)).map (fun i => (s.sod i).st)).any
      (fun x => x == .absent || x == .assigned || x == .spill || x == .retired) = false := by
    simpa using fun i listed => by simp [free i listed]
  have ready : ((runList (q.u16 0x26) (q.u16 0x24)).map (fun i => (s.sod i).st)).any
      (fun x => x == .untested || x == .zeroing || x == .scrubbing) = false := by
    simpa using fun i listed => by simp [free i listed]
  simp [cmdSodAssign, firstBad, kind, target, mode, port, low, high, inside, present, clear, named, unassigned, ready]

/-! ## SOD_RELEASE (R271) -/

/-- SOD_RELEASE of a run of assigned sods of one owner, none exported and none of a pool function, clears what depends on the range,
zeroes the sods and starts their fence under a handle. -/
theorem cmdSodRelease_releases (first : q.u16 0x20 < 8192) (low : 1 ≤ q.u16 0x22) (high : q.u16 0x22 ≤ 4096)
    (inside : q.u16 0x20 + q.u16 0x22 ≤ 8192) (present : s.pool.present = true)
    (clear : ¬ (q.u16 0x20 ≤ s.pool.reserve ∧ s.pool.reserve < q.u16 0x20 + q.u16 0x22)) (kind : (s.sod (q.u16 0x20)).kind ≠ 2)
    (owned : ∀ i ∈ runList (q.u16 0x20) (q.u16 0x22), s.sodRunning i = false ∧ (s.sod i).st = .assigned ∧
      (s.sod i).exported = false ∧ (s.sod i).kind = (s.sod (q.u16 0x20)).kind ∧ (s.sod i).target = (s.sod (q.u16 0x20)).target)
    (room : s.handleFree w.caller = true) :
    cmdSodRelease.body w q s =
      let run := runList (q.u16 0x20) (q.u16 0x22)
      let h := s.newHandle w.caller 0x0503 (.sods run)
      let s1 := h.2.invalidateRange (faMake s.own 0 (poolKey (q.u16 0x20) 0)).toNat (q.u16 0x22 * 2 ^ 30)
      pend ((run.foldl (fun t i => t.zeroSod i true h.1) s1).poolFence run 0 none) h.1 := by
  obtain ⟨rest, run⟩ := runList_cons (first := q.u16 0x20) low
  have firstIdle : s.sodRunning (q.u16 0x20) = false := (owned _ (run ▸ List.mem_cons_self)).1
  have asked : (runList (q.u16 0x20) (q.u16 0x22)).find? (fun i => !s.sodRunning i) = some (q.u16 0x20) := by
    rw [run, List.find?_cons, firstIdle]; rfl
  have oneOwner : (runList (q.u16 0x20) (q.u16 0x22)).all (fun i => s.sodRunning i || ((s.sod i).st == .assigned &&
      (s.sod i).kind == (s.sod (q.u16 0x20)).kind && (s.sod i).target == (s.sod (q.u16 0x20)).target)) = true := by
    rw [List.all_eq_true]
    intro i listed
    obtain ⟨_, st, _, sameKind, sameTarget⟩ := owned i listed
    simp [st, sameKind, sameTarget]
  have idle : (runList (q.u16 0x20) (q.u16 0x22)).any s.sodRunning = false := by
    rw [List.any_eq_false]
    exact fun i listed => Bool.not_eq_true _ ▸ (owned i listed).1
  have unexported : (runList (q.u16 0x20) (q.u16 0x22)).any (fun i => (s.sod i).exported) = false := by
    rw [List.any_eq_false]
    intro i listed
    obtain ⟨_, _, notExported, _⟩ := owned i listed
    simp [notExported]
  simp only [cmdSodRelease, firstBad, first, low, high, inside, present, clear, asked, Option.getD_some, kind, oneOwner, idle, unexported,
    room, and_self, and_false, false_and, or_self, decide_true, Bool.not_true, Bool.false_eq_true, if_true, if_false]

/-! ## SOD_SET (R288) -/

/-- Sods that no release or setting holds and no fence of a setting guards raise no conflict. -/
theorem State.sodSet_idle {run : List Nat} (still : ∀ i ∈ run, s.sodRunning i = false ∧ s.sodFencing i = false) :
    run.any (fun i => s.sodRunning i || s.sodFencing i) = false := by
  rw [List.any_eq_false]
  intro i listed
  simp [still i listed]

/-- Sods that all are in one state pass the check of that state. -/
theorem State.sodSet_inState {run : List Nat} {st : SodSt} (same : ∀ i ∈ run, (s.sod i).st = st) :
    run.all (fun i => s.sodRunning i || (s.sod i).st == st) = true := by
  rw [List.all_eq_true]
  intro i listed
  simp [same i listed]

section
variable (first : q.u16 0x20 < 8192) (low : 1 ≤ q.u16 0x22) (high : q.u16 0x22 ≤ 4096) (inside : q.u16 0x20 + q.u16 0x22 ≤ 8192)
  (rsvd : q.zero 0x25 3 = true) (present : s.pool.present = true)
  (still : ∀ i ∈ runList (q.u16 0x20) (q.u16 0x22), s.sodRunning i = false ∧ s.sodFencing i = false)
include first low high inside rsvd present still

/-- ACTION 0 clears POISON. -/
theorem cmdSodSet_clearPoison (act : q.u8 0x24 = 0) :
    cmdSodSet.body w q s =
      ok ((runList (q.u16 0x20) (q.u16 0x22)).foldl (fun t i => t.modSod i (fun d => { d with poison := false })) s) := by
  have idle := State.sodSet_idle still
  simp [cmdSodSet, firstBad, first, low, high, inside, rsvd, act, idle, present,
    -List.any_eq_true, -List.all_eq_false]

/-- ACTION 2 clears EXPORTED of assigned sods. -/
theorem cmdSodSet_clearExported (act : q.u8 0x24 = 2)
    (assigned : ∀ i ∈ runList (q.u16 0x20) (q.u16 0x22), (s.sod i).st = .assigned) :
    cmdSodSet.body w q s =
      ok ((runList (q.u16 0x20) (q.u16 0x22)).foldl (fun t i => t.modSod i (fun d => { d with exported := false })) s) := by
  have idle := State.sodSet_idle still
  have inState := State.sodSet_inState assigned
  simp [cmdSodSet, firstBad, first, low, high, inside, rsvd, act, idle, inState, present,
    -List.any_eq_true, -List.all_eq_false]

/-- ACTION 1 sets EXPORTED of assigned sods behind a pool fence, under a handle (R273). -/
theorem cmdSodSet_setExported (act : q.u8 0x24 = 1)
    (assigned : ∀ i ∈ runList (q.u16 0x20) (q.u16 0x22), (s.sod i).st = .assigned) (room : s.handleFree w.caller = true) :
    cmdSodSet.body w q s =
      let run := runList (q.u16 0x20) (q.u16 0x22)
      let h := s.newHandle w.caller 0x0505
      pend ((run.foldl (fun t i => t.modSod i (fun d => { d with exported := true })) h.2).poolFence run h.1 none) h.1 := by
  have idle := State.sodSet_idle still
  have inState := State.sodSet_inState assigned
  simp [cmdSodSet, firstBad, first, low, high, inside, rsvd, act, idle, inState, present, room,
    -List.any_eq_true, -List.all_eq_false]

/-- ACTION 3 takes retired sods off the retired list and zeroes them, under a handle. -/
theorem cmdSodSet_returnRetired (act : q.u8 0x24 = 3)
    (retired : ∀ i ∈ runList (q.u16 0x20) (q.u16 0x22), (s.sod i).st = .retired) (room : s.handleFree w.caller = true) :
    cmdSodSet.body w q s =
      let run := runList (q.u16 0x20) (q.u16 0x22)
      let h := s.newHandle w.caller 0x0505 (.sods run)
      let s1 := { h.2 with nv := { h.2.nv with retired := h.2.nv.retired.filter (fun i => !run.contains i) } }
      pend (run.foldl (fun t i => t.zeroSod i false h.1) s1) h.1 := by
  have idle := State.sodSet_idle still
  have inState := State.sodSet_inState retired
  simp [cmdSodSet, firstBad, first, low, high, inside, rsvd, act, idle, inState, present, room,
    -List.any_eq_true, -List.all_eq_false]

end

end

/-! ## The commands -/

/-- Settles O35: a command Ember serves leaves what its body answers, and the lemma on that body says what it is. -/
theorem poolCommandsComplete : Obligations.PoolCommandsComplete := by
  unfold Obligations.PoolCommandsComplete
  refine ⟨?status, ?config, ?assign, ?release, ?query, ?set⟩
  case status =>
    intro s c p q served
    exact served.reports cmdPoolGetStatus_reports
  case config =>
    intro s c p q served mask rsvd wide groups spill present fits
    exact served.answers (cmdPoolConfig_sameWide mask rsvd wide groups spill present fits)
  case assign =>
    intro s c p q served kind target mode port low high inside present clear free
    exact served.answers (cmdSodAssign_assigns kind target mode port low high inside present clear free)
  case release =>
    intro s c p q served first low high inside present clear kind owned room
    exact served.answers (cmdSodRelease_releases first low high inside present clear kind owned room)
  case query =>
    intro s c p q served first low high inside own
    have subject : (whoOf c p q).subject = p := by simp [whoOf, own]
    have body := cmdSodQuery_reports (w := whoOf c p q) (s := s) first low high inside
    rw [subject] at body
    exact served.answers body
  case set =>
    intro s c p q served first low high inside rsvd present run each still
    exact ⟨fun act => served.answers (cmdSodSet_clearPoison first low high inside rsvd present still act),
      fun act assigned => served.answers (cmdSodSet_clearExported first low high inside rsvd present still act assigned),
      fun act assigned room => served.answers (cmdSodSet_setExported first low high inside rsvd present still act assigned room),
      fun act retired room => served.answers (cmdSodSet_returnRetired first low high inside rsvd present still act retired room)⟩

end Sys2Proof.Machine
end

section
/-! PROOFS. The arithmetic of Retort: the exact accumulation of contributions, which neither their order nor their division into
partials changes (R297), and the rows of the special values table (R298). -/

namespace Sys2Proof.Machine

open Sys2Proof

/-! ## Adding accumulators (R297) -/

section
variable (a b c : AccEl)

@[simp] theorem AccEl.add_sum : (a.add b).sum = a.sum + b.sum := rfl
@[simp] theorem AccEl.add_nan : (a.add b).nan = (a.nan || b.nan) := rfl
@[simp] theorem AccEl.add_pinf : (a.add b).pinf = (a.pinf || b.pinf) := rfl
@[simp] theorem AccEl.add_ninf : (a.add b).ninf = (a.ninf || b.ninf) := rfl
@[simp] theorem AccEl.add_allNegZ : (a.add b).allNegZ = (a.allNegZ && b.allNegZ) := rfl

/-- An accumulator that nothing was added to is neutral on the right. -/
theorem AccEl.add_empty : a.add {} = a := by simp [AccEl.add]

theorem AccEl.add_assoc : (a.add b).add c = a.add (b.add c) := by
  simp only [AccEl.add, Int.add_assoc, Bool.or_assoc, Bool.and_assoc]

theorem AccEl.add_right_comm : (a.add b).add c = (a.add c).add b := by
  simp only [AccEl.add, Int.add_right_comm a.sum, Bool.or_right_comm _ b.nan, Bool.or_right_comm _ b.pinf,
    Bool.or_right_comm _ b.ninf, Bool.and_right_comm _ b.allNegZ]

end

/-! ## Accumulating contributions (R297) -/

/-- The accumulator `a` after the contributions `l` of one element, added one by one. -/
def ElFmt.accum (f : ElFmt) (a : AccEl) (l : List Nat) : AccEl := l.foldl (fun a r => a.add (f.elem r)) a

section
variable (f : ElFmt) (a : AccEl)

/-- Contributions may be accumulated apart and then added. -/
theorem ElFmt.accum_eq_add (l : List Nat) : f.accum a l = a.add (f.accum {} l) := by
  induction l generalizing a with
  | nil => exact a.add_empty.symm
  | cons r l ih =>
    calc f.accum (a.add (f.elem r)) l
      _ = (a.add (f.elem r)).add (f.accum {} l) := ih _
      _ = a.add (({} : AccEl).add (f.elem r) |>.add (f.accum {} l)) := by
        rw [AccEl.add_assoc, AccEl.add_assoc]; simp [AccEl.add]
      _ = a.add (f.accum (({} : AccEl).add (f.elem r)) l) := by rw [ih (({} : AccEl).add (f.elem r))]

theorem ElFmt.accum_append (l₁ l₂ : List Nat) : f.accum a (l₁ ++ l₂) = (f.accum a l₁).add (f.accum {} l₂) := by
  rw [← f.accum_eq_add, accum, accum, accum, List.foldl_append]

theorem ElFmt.accum_perm {l l' : List Nat} (same : l.Perm l') : f.accum a l = f.accum a l' :=
  same.foldl_eq' (fun _ _ _ _ z => z.add_right_comm _ _) a

end

/-- Settles O17: addition of accumulators is associative and commutes, so the contributions may be reordered and divided. -/
theorem sumIgnoresOrderAndShape : Obligations.SumIgnoresOrderAndShape := by
  unfold Obligations.SumIgnoresOrderAndShape
  intro n l l₁ l₂ same acc
  have sum : acc l = (acc l₁).add (acc l₂) := ((fmtOf n).accum_perm {} same).trans ((fmtOf n).accum_append {} l₁ l₂)
  exact ⟨sum, fun rz sat => congrArg ((fmtOf n).round rz sat) sum⟩

/-! ## The accumulator of a list of contributions -/

section
variable (f : ElFmt)

/-- The first contribution is added to what the others accumulate. -/
theorem ElFmt.accum_cons (r : Nat) (l : List Nat) : f.accum {} (r :: l) = (({} : AccEl).add (f.elem r)).add (f.accum {} l) :=
  f.accum_eq_add (({} : AccEl).add (f.elem r)) l

theorem ElFmt.accum_sum (l : List Nat) : (f.accum {} l).sum = (l.map (fun r => (f.elem r).sum)).sum := by
  induction l with
  | nil => rfl
  | cons r l ih => simp [f.accum_cons, ih]

theorem ElFmt.accum_nan (l : List Nat) : (f.accum {} l).nan = l.any (fun r => (f.elem r).nan) := by
  induction l with
  | nil => rfl
  | cons r l ih => simp [f.accum_cons, ih]

theorem ElFmt.accum_pinf (l : List Nat) : (f.accum {} l).pinf = l.any (fun r => (f.elem r).pinf) := by
  induction l with
  | nil => rfl
  | cons r l ih => simp [f.accum_cons, ih]

theorem ElFmt.accum_ninf (l : List Nat) : (f.accum {} l).ninf = l.any (fun r => (f.elem r).ninf) := by
  induction l with
  | nil => rfl
  | cons r l ih => simp [f.accum_cons, ih]

theorem ElFmt.accum_allNegZ (l : List Nat) : (f.accum {} l).allNegZ = l.all (fun r => (f.elem r).allNegZ) := by
  induction l with
  | nil => rfl
  | cons r l ih => simp [f.accum_cons, ih]

end

/-! ## One contributed element (R297) -/

section
variable {f : ElFmt} {r : Nat}

theorem ElFmt.elem_nan (float : f.isInt = false) : (f.elem r).nan = f.isNan r := by
  cases nan : f.isNan r <;> cases inf : f.isInf r <;> cases neg : f.neg r <;> simp [ElFmt.elem, float, nan, inf, neg]

variable (float : f.isInt = false) (number : f.isNan r = false)
include float number

theorem ElFmt.elem_infinite (inf : f.isInf r = true) :
    f.elem r = if f.neg r then { ninf := true, allNegZ := false } else { pinf := true, allNegZ := false } := by
  simp [ElFmt.elem, float, number, inf]

theorem ElFmt.elem_finite (finite : f.isInf r = false) :
    f.elem r = { sum := if f.neg r then -(f.value (f.mag r) : Int) else f.value (f.mag r),
                 allNegZ := f.neg r && f.mag r == 0 } := by
  simp [ElFmt.elem, float, number, finite]

theorem ElFmt.elem_pinf : (f.elem r).pinf = true ↔ f.isInf r = true ∧ f.neg r = false := by
  cases inf : f.isInf r with
  | false => simp [elem_finite float number inf]
  | true => rw [elem_infinite float number inf]; cases f.neg r <;> simp

theorem ElFmt.elem_ninf : (f.elem r).ninf = true ↔ f.isInf r = true ∧ f.neg r = true := by
  cases inf : f.isInf r with
  | false => simp [elem_finite float number inf]
  | true => rw [elem_infinite float number inf]; cases f.neg r <;> simp

end

/-! ## The rows of the special values table (R298) -/

section
variable {f : ElFmt} {rz sat : Bool} {a : AccEl}

theorem ElFmt.round_int (int : f.isInt = true) : f.round rz sat a = roundInt a.sum := if_pos int

theorem ElFmt.roundFinite_overflow {sum : Int} (above : f.value f.maxFin < f.roundMag rz sum.natAbs) :
    f.roundFinite rz sat sum =
      { raw := if f.inf then f.signed (decide (sum < 0)) (if rz then f.maxFin else f.infCode)
               else if sat then f.qnan else f.signed (decide (sum < 0)) f.maxFin
        ovf := true } := by
  cases inf : f.inf <;> simp [ElFmt.roundFinite, Nat.not_le.mpr above, inf]

variable (float : f.isInt = false)
include float

theorem ElFmt.round_nan (nan : a.nan = true) : f.round rz sat a = { raw := f.qnan } := by
  simp [ElFmt.round, float, nan]

variable (number : a.nan = false)
include number

theorem ElFmt.round_bothInf (pinf : a.pinf = true) (ninf : a.ninf = true) :
    f.round rz sat a = { raw := f.qnan, nan := true } := by
  simp [ElFmt.round, float, number, pinf, ninf]

theorem ElFmt.round_pinf (pinf : a.pinf = true) (ninf : a.ninf = false) : f.round rz sat a = { raw := f.infCode } := by
  simp [ElFmt.round, float, number, pinf, ninf]

theorem ElFmt.round_ninf (pinf : a.pinf = false) (ninf : a.ninf = true) :
    f.round rz sat a = { raw := f.signed true f.infCode } := by
  simp [ElFmt.round, float, number, pinf, ninf]

variable (pinf : a.pinf = false) (ninf : a.ninf = false)
include pinf ninf

theorem ElFmt.round_zero (zero : a.sum = 0) : f.round rz sat a = { raw := f.signed a.allNegZ 0 } := by
  simp [ElFmt.round, float, number, pinf, ninf, zero]

theorem ElFmt.round_finite (nonzero : a.sum ≠ 0) : f.round rz sat a = f.roundFinite rz sat a.sum := by
  simp [ElFmt.round, float, number, pinf, ninf, nonzero]

end

/-! ## The sum of a list of contributions -/

/-- INT32 is the one format of integers (R296). -/
theorem fmtOf_isFloat {n : Nat} (float : n < 5) : (fmtOf n).isInt = false := by
  interval_cases n <;> rfl

/-- E4M3 is the one float format without infinities (R296). -/
theorem fmtOf_inf {n : Nat} (float : n < 5) (other : n ≠ 3) : (fmtOf n).inf = true := by
  obtain rfl | rfl | rfl | rfl : n = 0 ∨ n = 1 ∨ n = 2 ∨ n = 4 := by omega
  all_goals rfl

section
variable {f : ElFmt} (float : f.isInt = false) {l : List Nat}
include float

theorem ElFmt.accum_nan_iff : (f.accum {} l).nan = true ↔ ∃ r ∈ l, f.isNan r = true := by
  simp [f.accum_nan, ElFmt.elem_nan float]

variable (numbers : ∀ r ∈ l, f.isNan r = false)
include numbers

theorem ElFmt.accum_pinf_iff : (f.accum {} l).pinf = true ↔ ∃ r ∈ l, f.isInf r = true ∧ f.neg r = false := by
  rw [f.accum_pinf, List.any_eq_true]
  exact exists_congr (fun r => and_congr_right (fun listed => ElFmt.elem_pinf float (numbers r listed)))

theorem ElFmt.accum_ninf_iff : (f.accum {} l).ninf = true ↔ ∃ r ∈ l, f.isInf r = true ∧ f.neg r = true := by
  rw [f.accum_ninf, List.any_eq_true]
  exact exists_congr (fun r => and_congr_right (fun listed => ElFmt.elem_ninf float (numbers r listed)))

theorem ElFmt.accum_allNegZ_iff (finite : ∀ r ∈ l, f.isInf r = false) :
    (f.accum {} l).allNegZ = true ↔ ∀ r ∈ l, f.neg r = true ∧ f.mag r = 0 := by
  rw [f.accum_allNegZ, List.all_eq_true]
  refine forall₂_congr (fun r listed => ?_)
  simp [ElFmt.elem_finite float (numbers r listed) (finite r listed)]

end

/-- Settles O16: the accumulator tells which of the special values were contributed, and the lemma on its row of R298's table says what
the result is. -/
theorem specialValuesOfSum : Obligations.SpecialValuesOfSum := by
  unfold Obligations.SpecialValuesOfSum
  intro n rz sat l _ _ f a S out nan pinf ninf
  have exactSum : a.sum = S := f.accum_sum l
  refine ⟨?int, ?float⟩
  case int =>
    rintro rfl
    have rounded : out = roundInt S := exactSum ▸ ElFmt.round_int rfl
    rw [rounded]
    refine ⟨fun high => if_pos high, fun low => ?_, fun low high => ?_⟩
    · rw [roundInt, if_neg (by omega), if_pos low]
    · rw [roundInt, if_neg (by omega), if_neg (by omega)]
  case float =>
    intro isFloat
    have float : f.isInt = false := fmtOf_isFloat isFloat
    have nanRow (h : nan) : out = { raw := f.qnan } := ElFmt.round_nan float ((ElFmt.accum_nan_iff float).mpr h)
    refine ⟨fun h => by simp [nanRow h], fun h _ => by simp [nanRow h], ?_⟩
    by_cases h : nan
    · exact ⟨absurd h, absurd h, absurd h, absurd h, absurd h, absurd h⟩
    have number : a.nan = false := Bool.eq_false_iff.mpr (mt (ElFmt.accum_nan_iff float).mp h)
    have numbers : ∀ r ∈ l, f.isNan r = false := fun r listed => Bool.eq_false_iff.mpr (fun isNan => h ⟨r, listed, isNan⟩)
    have pinfIff : a.pinf = true ↔ pinf := ElFmt.accum_pinf_iff float numbers
    have ninfIff : a.ninf = true ↔ ninf := ElFmt.accum_ninf_iff float numbers
    have noPinf (np : ¬ pinf) : a.pinf = false := Bool.eq_false_iff.mpr (mt pinfIff.mp np)
    have noNinf (nn : ¬ ninf) : a.ninf = false := Bool.eq_false_iff.mpr (mt ninfIff.mp nn)
    have negZeros (np : ¬ pinf) (nn : ¬ ninf) : a.allNegZ = true ↔ ∀ r ∈ l, f.neg r = true ∧ f.mag r = 0 :=
      ElFmt.accum_allNegZ_iff float numbers (fun r listed => Bool.eq_false_iff.mpr (fun isInf => by
        cases neg : f.neg r with
        | false => exact np ⟨r, listed, isInf, neg⟩
        | true => exact nn ⟨r, listed, isInf, neg⟩))
    refine ⟨fun _ p n => ElFmt.round_bothInf float number (pinfIff.mpr p) (ninfIff.mpr n),
      fun _ p nn => ElFmt.round_pinf float number (pinfIff.mpr p) (noNinf nn),
      fun _ np n => ElFmt.round_ninf float number (noPinf np) (ninfIff.mpr n), ?negZero, ?posZero, ?overflow⟩
    case negZero =>
      intro _ np nn zero all
      exact (ElFmt.round_zero float number (noPinf np) (noNinf nn) (exactSum.trans zero)).trans (by rw [(negZeros np nn).mpr all])
    case posZero =>
      intro _ np nn zero some
      have mixed : a.allNegZ = false := Bool.eq_false_iff.mpr (mt (negZeros np nn).mp some)
      exact (ElFmt.round_zero float number (noPinf np) (noNinf nn) (exactSum.trans zero)).trans
        (by simp [mixed, ElFmt.signed, b2n])
    case overflow =>
      intro _ np nn nonzero above
      have finite : out = f.roundFinite rz sat S := exactSum ▸
        ElFmt.round_finite float number (noPinf np) (noNinf nn) (exactSum ▸ nonzero)
      rw [finite, ElFmt.roundFinite_overflow above]
      by_cases e4m3 : n = 3
      · rw [if_pos e4m3, if_neg (show ¬ f.inf = true by simp [f, e4m3, fmtOf])]
        simp [f, e4m3, fmtOf]
      · rw [if_neg e4m3, if_pos (fmtOf_inf isFloat e4m3)]

end Sys2Proof.Machine
end

section
/-! PROOFS. The traffic of Retort: what contributions, engine packets, pull reads, flush reads, timers and the ends of moves and
destructions leave on the path the spec describes (R291, R300, R303, R307, R310, R312, R317), and from that what the events do. -/

namespace Sys2Proof.Machine

open Sys2Proof

/-! ## Contributions (R300) -/

section
variable {s : State} {g k cs byte : Nat} {d : Bytes} {ep : Bool}

/-- A contribution to a group the module does not hold leads nowhere. -/
theorem State.contribute_nowhere (absent : s.inst g = none) : s.contribute g k cs byte d ep = s.raiseAt 0x33 2 := by
  simp only [State.contribute, absent]

variable {i : RtInst} (inst : s.inst g = some i)
include inst

theorem State.contribute_notLive (live : i.live = false) : s.contribute g k cs byte d ep = s.rtDiscard g := by
  simp only [State.contribute, inst, live, Bool.not_false, if_true]

/-- A contribution of a slot the group does not have breaks the protocol. -/
theorem State.contribute_pastSlots (live : i.live = true) (past : i.nlocal ≤ k) :
    s.contribute g k cs byte d ep = s.rtFail g 2 (some (i.chunkOfSlot cs)) := by
  simp only [State.contribute, inst, live, past, Bool.not_true, Bool.false_eq_true, true_or, if_true, if_false]

/-- The state with a contribution in group `g`: its elements added to chunk `c`, its bytes counted and its poison kept. -/
def State.contributed (s : State) (g : Nat) (i : RtInst) (c k byte : Nat) (d : Bytes) (ep : Bool) : State :=
  (s.openChunk g c).modInst g (fun j =>
    (j.addEls c (byte / i.fmt.bytes) d).modChunk c (fun x => { x with recv := tmod 0 x.recv k (· + d.length), poison := x.poison || ep }))

/-- A contribution in order is added, its poison is reported, and the chunk goes on. -/
theorem State.contribute_adds (live : i.live = true) (slot : k < i.nlocal) (posts : entPull (i.part k) = false)
    (aligned : byte % i.fmt.bytes = 0) (whole : d.length % i.fmt.bytes = 0)
    (inWindow : i.ahead (i.chunkOfSlot cs) < i.window) (inChunk : byte + d.length ≤ i.chunkLen (i.chunkOfSlot cs))
    (notDone : (i.chunk (i.chunkOfSlot cs)).st ≠ .done)
    (room : tget 0 (i.chunk (i.chunkOfSlot cs)).recv k + d.length ≤ i.chunkLen (i.chunkOfSlot cs)) :
    s.contribute g k cs byte d ep =
      let c := i.chunkOfSlot cs
      let s2 := (s.contributed g i c k byte d ep).rtIngest i (i.engineFor c) d.length
      (if ep then s2.raiseAt (0x2A + i.engine) 3 (some i.owner) (some (68 + i.engine)) else s2).chunkStep g c := by
  simp only [State.contribute, State.contributed, inst, live, Nat.not_le.mpr slot, posts, aligned, whole, Nat.not_le.mpr inWindow,
    Nat.not_lt.mpr inChunk, notDone, Nat.not_lt.mpr room, Bool.not_true, Bool.false_eq_true, ne_eq, not_true_eq_false, or_self, if_false]

end

/-! ## Packets between engines (R310) -/

section
variable {s : State} {k : EngPkt} {i : RtInst} (inst : s.inst k.group = some i)
include inst

/-- A packet to a group that takes none, of another generation, or beyond the window is discarded. -/
theorem State.enginePkt_stale (stale : i.live = false ∨ k.gen ≠ i.gen ∨ i.window ≤ i.ahead k.chunk) :
    s.enginePkt k = s.rtDiscard k.group := by
  rw [State.enginePkt, inst]
  exact if_pos (stale.imp_left (fun notLive => by simp [notLive]))

variable (live : i.live = true) (gen : k.gen = i.gen) (inWindow : i.ahead k.chunk < i.window)
include live gen inWindow

theorem State.enginePkt_notice (kind : k.pkind = 3) :
    s.enginePkt k =
      s.rtFail k.group (if k.cause = 0 then 5 else k.cause) (if (i.chunk k.chunk).st = .idle then none else some k.chunk) true := by
  simp [State.enginePkt, inst, live, gen, Nat.not_le.mpr inWindow, kind]

/-- A root takes the partial of a leaf of the group. -/
theorem State.enginePkt_partial (kind : k.pkind = 0) (root : i.role = 1) (leaf : i.leafList.contains k.smod = true) :
    s.enginePkt k = s.partialIn k.group i k := by
  simp only [State.enginePkt, inst, live, gen, Nat.not_le.mpr inWindow, kind, root, leaf, Bool.not_true, Bool.false_eq_true, ne_eq,
    not_true_eq_false, or_self, OfNat.zero_ne_ofNat, if_true, if_false]

/-- A leaf takes the result of its root. -/
theorem State.enginePkt_result (kind : k.pkind = 1) (leaf : i.role = 2) (root : k.smod = i.root) :
    s.enginePkt k = s.resultIn k.group i k := by
  simp [State.enginePkt, inst, live, gen, Nat.not_le.mpr inWindow, kind, leaf, root]

end

/-! ## Pull reads (R303) -/

section
variable {s : State} {g c k : Nat} {i : RtInst}

/-- Each granule of `n` bytes from `a` is reserved for engine `e` and its read counted. -/
def State.reserveGranules (s : State) (e a n : Nat) : State :=
  (List.range (ceilDiv n 256)).foldl (fun t x =>
    let m := t.poolPort ((a + 256 * x) / 2 ^ 30) ((a + 256 * x) % 2 ^ 30)
    (t.modPool (fun p => p.addResv { agent := 68 + e, port := m, granule := (a + 256 * x) / 256 })).poolCount m 0x10 4 none) s

variable (ecc : Eccs) (inst : s.inst g = some i) (live : i.live = true) (opened : (i.chunk c).st = .opened) (slot : k < i.nlocal)
  (pulls : entPull (i.part k) = true) (unread : tget 0 (i.chunk c).recv k ≠ i.chunkLen c)
include inst live opened slot pulls unread

/-- A pull read of a sod that does not admit the engine breaks the protocol, with the port's source 5. -/
theorem State.pullRead_refused
    (denied : agentAdmits (.retort (i.engineFor c)) (s.sod (i.pullKey k (i.place c * 4096) / 2 ^ 30))
      (i.pullKey k (i.place c * 4096) % 2 ^ 30) .reserve = false) :
    s.pullRead g c k ecc =
      let a := i.pullKey k (i.place c * 4096)
      (s.raiseAt (0x26 + s.poolPort (a / 2 ^ 30) (a % 2 ^ 30)) 5 none none (faMake s.own 0 a)).rtFail g 2 (some c) := by
  rw [State.pullRead, inst]
  exact (if_neg (by simp [live, opened, slot, pulls, unread])).trans (if_pos (by simpa using denied))

/-- A pull read that is admitted reserves its granules and adds the slot's bytes, and the chunk goes on. -/
theorem State.pullRead_adds
    (admitted : agentAdmits (.retort (i.engineFor c)) (s.sod (i.pullKey k (i.place c * 4096) / 2 ^ 30))
      (i.pullKey k (i.place c * 4096) % 2 ^ 30) .reserve = true) :
    s.pullRead g c k ecc =
      let e := i.engineFor c
      let a := i.pullKey k (i.place c * 4096)
      let s2 := (s.eccAt a (i.chunkLen c) ecc none).reserveGranules e a (i.chunkLen c)
      let bad := s2.pool.tainted a (i.chunkLen c)
      let s3 := s2.modInst g (fun j => (j.addEls c 0 (s2.pool.bytes a (i.chunkLen c))).modChunk c (fun x =>
        { x with recv := tset x.recv k (i.chunkLen c), poison := x.poison || bad }))
      (if bad then s3.raiseAt (0x2A + e) 3 (some i.owner) (some (68 + e)) else s3).chunkStep g c := by
  rw [State.pullRead, inst]
  exact (if_neg (by simp [live, opened, slot, pulls, unread])).trans (if_neg (by simpa using admitted))

end

/-! ## Flush reads (R307) -/

section
variable {s : State} {g k : Nat} {i : RtInst} {f : Flush} {rest : List Flush} (inst : s.inst g = some i) (live : i.live = true)
  (held : takeFirst (fun (f : Flush) => f.slot == k) i.flushes = some (f, rest)) (out : s.resultsOut i k = true)
include inst live held out

/-- Once the results of a slot are visible, the oldest doorbell held back for it is written. -/
theorem State.flushDone_good :
    s.flushDone g k true = (s.setInst g { i with flushes := rest }).writeDoorbell i i.engine k f.value.toNat := by
  simp only [State.flushDone, inst, held, live, out, Bool.not_true, Bool.false_eq_true, false_and, or_self, if_false]

/-- A flush read of a fabric target that fails is failure cause 7. -/
theorem State.flushDone_bad (fabric : faClass (BitVec.ofNat 64 (entRes (i.part k))) = 1) :
    s.flushDone g k false = s.rtFail g 7 none := by
  simp only [State.flushDone, inst, held, live, out, fabric, Bool.not_true, Bool.not_false, Bool.false_eq_true, and_self, or_self, if_true,
    if_false]

end

/-! ## Timers and the ends of moves and destructions (R291, R312, R317) -/

section
variable {s : State} {g : Nat} {i : RtInst} (inst : s.inst g = some i)
include inst

theorem State.chunkTimer_fires {c : Nat} (timer : (i.chunk c).timer = true) (st : (i.chunk c).st = .opened ∨ (i.chunk c).st = .await) :
    s.chunkTimer g c = s.rtFail g 1 (some c) := by
  rw [State.chunkTimer, inst]
  exact if_pos ⟨timer, st⟩

/-- A move whose old engine is done, or of a group that has failed, ends when no traffic is left. -/
theorem State.moveOver_quiet (moving : i.moveFrom ≠ none) (done : i.oldDone = true ∨ i.st = .failed) (quiet : s.groupTraffic g = false) :
    s.moveOver g = (s.setInst g { i with moveFrom := none, oldDone := false, handle := 0,
                                         st := if i.st = .moving then .active else i.st }).endHandle i.handle rcOk := by
  rw [State.moveOver, inst]
  exact if_neg (by simp [moving, done, quiet])

theorem State.moveOver_traffic (traffic : s.groupTraffic g = true) : s.moveOver g = s := by
  rw [State.moveOver, inst]
  exact if_pos (.inr (.inr traffic))

theorem State.destroyOver_quiet (destroying : i.destroying = true) (quiet : s.groupTraffic g = false) :
    s.destroyOver g = (s.dropInst g).endHandle i.handle rcOk := by
  rw [State.destroyOver, inst]
  exact if_neg (by simp [destroying, quiet])

theorem State.destroyOver_traffic (traffic : s.groupTraffic g = true) : s.destroyOver g = s := by
  rw [State.destroyOver, inst]
  exact if_pos (.inr traffic)

end

/-! ## The events -/

/-- Settles O36: each event is its operation on a die that works, and the lemma on that operation says what it leaves. -/
theorem retortTrafficTakesEffect : Obligations.RetortTrafficTakesEffect := by
  unfold Obligations.RetortTrafficTakesEffect
  refine ⟨?contribution, ?packet, ?pull, ?flush⟩
  case contribution =>
    intro s g k cs byte d ep works
    refine ⟨fun absent => State.live_working_eq works (State.contribute_nowhere absent),
      fun i inst live => State.live_working_eq works (State.contribute_notLive inst live),
      fun i inst live past => State.live_working_eq works (State.contribute_pastSlots inst live past), ?_⟩
    intro i inst live slot posts aligned whole c inWindow inChunk notDone room
    exact State.live_working_eq works (State.contribute_adds inst live slot posts aligned whole inWindow inChunk notDone room)
  case packet =>
    intro s k i works inst
    exact ⟨fun notLive => State.live_working_eq works (State.enginePkt_stale inst (.inl notLive)),
      fun gen => State.live_working_eq works (State.enginePkt_stale inst (.inr (.inl gen))),
      fun live gen inWindow kind => State.live_working_eq works (State.enginePkt_notice inst live gen inWindow kind),
      fun live gen inWindow kind root leaf =>
        State.live_working_eq works (State.enginePkt_partial inst live gen inWindow kind root leaf),
      fun live gen inWindow kind leaf root =>
        State.live_working_eq works (State.enginePkt_result inst live gen inWindow kind leaf root)⟩
  case pull =>
    intro s g c k ecc i works inst live opened slot pulls unread
    exact ⟨fun denied => State.live_working_eq works (State.pullRead_refused ecc inst live opened slot pulls unread denied),
      fun admitted => State.live_working_eq works (State.pullRead_adds ecc inst live opened slot pulls unread admitted)⟩
  case flush =>
    intro s g k good i f rest works inst live held out
    refine ⟨?_, ?_⟩
    · rintro rfl
      exact State.live_working_eq works (State.flushDone_good inst live held out)
    · rintro rfl fabric
      exact State.live_working_eq works (State.flushDone_bad inst live held out fabric)

/-- Settles O37: each event is its operation on a die that works, and the lemma on that operation says what it leaves. -/
theorem retortTimersTakeEffect : Obligations.RetortTimersTakeEffect := by
  unfold Obligations.RetortTimersTakeEffect
  intro s g c i works inst
  exact ⟨fun timer st => State.live_working_eq works (State.chunkTimer_fires inst timer st),
    fun moving done quiet => State.live_working_eq works (State.moveOver_quiet inst moving done quiet),
    fun destroying quiet => State.live_working_eq works (State.destroyOver_quiet inst destroying quiet),
    fun traffic => ⟨State.live_working_eq works (State.moveOver_traffic inst traffic),
      State.live_working_eq works (State.destroyOver_traffic inst traffic)⟩⟩

end Sys2Proof.Machine
end

section
/-! PROOFS. The commands of Retort: each body in range, on the path the spec describes (R291, R315, R316, R321 to R324), and from that
what the commands answer. -/

namespace Sys2Proof.Machine

open Sys2Proof

section
variable {w : Who} {q : Req} {s : State}

/-! ## RT_GET_STATUS and RT_GROUP_READ (R322) -/

theorem cmdRtGetStatus_reports : ∃ d, d.length = 72 ∧ cmdRtGetStatus.body w q s = ok s d :=
  ⟨_, by simp, rfl⟩

/-- RT_GROUP_READ shows the descriptor and the failure record, and from byte 96 on the entries asked for. -/
theorem cmdRtGroupRead_reports {i : RtInst} (inst : s.inst (q.u16 0x20) = some i) (first : q.u16 0x22 ≤ i.nlocal)
    (count : q.u16 0x24 ≤ 245) (inside : q.u16 0x22 + q.u16 0x24 ≤ i.nlocal) (rsvd : q.zero 0x26 2 = true) :
    ∃ d, cmdRtGroupRead.body w q s = ok s d ∧
      d.take 40 = leBytes 32 i.descNow.toNat ++ leBytes 1 i.failCause ++ [0, 0, 0] ++ leBytes 4 i.failChunk ∧
      d.drop 96 = (List.range (q.u16 0x24)).flatMap (fun k => leBytes 16 (i.part (q.u16 0x22 + k)).toNat) := by
  simp only [cmdRtGroupRead, inst, firstBad, first, count, inside, rsvd, and_self, decide_true, if_true]
  refine ⟨_, rfl, ?_, ?_⟩
  · simp [List.take_append, List.take_of_length_le]
  · exact List.drop_left' (by simp)

/-! ## RT_PART_SET (R321) -/

/-- RT_PART_SET of a block that no other partition touches, in which every group of the partition lies, sets it. -/
theorem cmdRtPartSet_sets (low : 1 ≤ q.u8 0x20) (high : q.u8 0x20 < 32) (rsvd : q.zero 0x21 3 = true) (base : q.u16 0x24 < 4096)
    (aligned : q.u16 0x24 % q.u16 0x26 = 0) (some_group : q.u16 0x26 ≠ 0) (pow : isPow2 (q.u16 0x26) = true) (size : q.u16 0x26 ≤ 64)
    (inside : q.u16 0x24 + q.u16 0x26 ≤ 4096)
    (apart : s.rt.blocks.any (fun e =>
      e.1 != q.u8 0x20 && blocksTouch (q.u16 0x24) (q.u16 0x26) e.2.gbase e.2.gcount) = false)
    (unbound : s.boundKind (q.u8 0x20) 5 = false)
    (held : s.rt.inst.any (fun e =>
      e.2.owner == q.u8 0x20 && !decide (q.u16 0x24 ≤ e.1 ∧ e.1 < q.u16 0x24 + q.u16 0x26)) = false) :
    cmdRtPartSet.body w q s =
      ok (s.modRt (fun r => { r with blocks := tset r.blocks (q.u8 0x20) { gbase := q.u16 0x24, gcount := q.u16 0x26 } })) := by
  simp only [cmdRtPartSet, firstBad, low, high, rsvd, base, aligned, some_group, pow, size, inside, apart, unbound, held, and_self,
    decide_true, BEq.rfl, Bool.or_true, Bool.and_self, Bool.false_eq_true, or_self, if_true, if_false]

/-! ## RT_GROUP_CREATE (R323) -/

section
variable {i0 : RtInst} (fields : firstBad (s.createChecks q) = none) (creating : s.creating q = some i0)
  (entries : s.entryFault i0 q = none)
  (takesPart : ¬ ((i0.withEntries q).st = .active ∧ (i0.withEntries q).posting.isEmpty = true ∧
    ¬ ((i0.withEntries q).role = 1 ∧ (i0.withEntries q).leafList ≠ [])))
include fields creating entries takesPart

/-- MODE 1 adds the entries of the frame to the group in DEFINING. -/
theorem cmdRtGroupCreate_adds (mode : q.u8 0x20 = 1) :
    cmdRtGroupCreate.body w q s =
      let i := i0.withEntries q
      ok (s.setInst (bits (leNat (q.bytes 0x28 32)) 11 0) i)
        (leBytes 1 i.engine ++ leBytes 1 (rtStCode i.st) ++ leBytes 2 i.defined ++ [0, 0, 0, 0]) := by
  simp only [cmdRtGroupCreate, fields, creating, entries]
  exact (if_neg (by simpa using takesPart)).trans (if_pos mode)

/-- MODE 0 makes a group on the engine named, which has room for it; it is not the first. -/
theorem cmdRtGroupCreate_makes (mode : q.u8 0x20 ≠ 1) (fresh : s.inst (bits (leNat (q.bytes 0x28 32)) 11 0) = none)
    (named : q.u8 0x21 ≠ 0xFF) (engine : s.engineTakes (q.u8 0x21) (i0.withEntries q).granules = true) (others : s.rt.inst ≠ [])
    (room : s.rt.inst.length < 512) (participants : s.participants + (i0.withEntries q).nlocal ≤ 256) :
    cmdRtGroupCreate.body w q s =
      let i := i0.withEntries q
      ok (s.setInst (bits (leNat (q.bytes 0x28 32)) 11 0) { i with engine := q.u8 0x21 })
        (leBytes 1 (q.u8 0x21) ++ leBytes 1 (rtStCode i.st) ++ leBytes 2 i.defined ++ [0, 0, 0, 0]) := by
  have notFirst : s.rt.inst.isEmpty = false := by simpa using others
  simp only [cmdRtGroupCreate, fields, creating, entries, mode, fresh, named, engine, notFirst, Nat.not_le.mpr room,
    Nat.not_lt.mpr participants, Option.isSome_none, Bool.false_eq_true, false_and, or_self, if_true, if_false]
  exact if_neg (by simpa using takesPart)

end

/-! ## RT_GROUP_DESTROY, RT_GROUP_RESET and RT_GROUP_MOVE (R315, R316, R324) -/

section
variable {i : RtInst} (inst : s.inst (q.u16 0x20) = some i) (still : i.moveFrom = none) (kept : i.destroying = false)
include inst still kept

/-- RT_GROUP_DESTROY discards the chunks and the doorbells held back and invalidates the windows, under a handle. -/
theorem cmdRtGroupDestroy_starts (rsvd : q.zero 0x22 2 = true) (room : s.handleFree w.caller = true) :
    cmdRtGroupDestroy.body w q s =
      let h := s.newHandle w.caller 0x0603
      pend ((h.2.setInst (q.u16 0x20) { i with destroying := true, handle := h.1, chunks := [], flushes := [] }).invalidateRange
        (faMake s.own 2 (q.u16 0x20 * 2 ^ 30)).toNat (2 ^ 30)) h.1 := by
  simp only [cmdRtGroupDestroy, inst, rsvd, still, kept, room, Option.isSome_none, Bool.not_true, Bool.false_eq_true, or_self, if_false]

/-- RT_GROUP_RESET discards the chunks and the doorbells held back, sets CDONE to OPSEQ operations of chunks and GEN, clears the failure
and makes the group ACTIVE. -/
theorem cmdRtGroupReset_resets (gen : q.u8 0x22 ≠ i.gen) (rsvd : q.zero 0x23 1 = true) (st : i.st = .active ∨ i.st = .failed) :
    cmdRtGroupReset.body w q s =
      let cd := i.opseq * i.cpo % 2 ^ 32
      ok (s.setInst (q.u16 0x20)
        { i with chunks := [], flushes := [], cdone := cd, opPos := 0, gen := q.u8 0x22, st := .active, failCause := 0, failChunk := 0,
                 missing := [], missingLeaves := 0, stPoison := false, stNan := false, stOvf := false, stTimeout := false,
                 stErr := false, dbPoison := false, dbNan := false, dbOvf := false }) (leBytes 4 cd ++ [0, 0, 0, 0]) := by
  have resettable : ¬ (i.st ≠ .active ∧ i.st ≠ .failed) := fun ⟨notActive, notFailed⟩ => st.elim notActive notFailed
  simp only [cmdRtGroupReset, inst, firstBad, bne_iff_ne.mpr gen, rsvd, resettable, still, kept, Option.isSome_none, Bool.false_eq_true,
    or_self, if_true, if_false]

section
variable (target : q.u8 0x22 < 4) (other : q.u8 0x22 ≠ i.engine) (rsvd : q.zero 0x23 1 = true)
  (engine : s.engineTakes (q.u8 0x22) i.granules = true)
include target other rsvd engine

/-- RT_GROUP_MOVE of a group in DEFINING changes its engine. -/
theorem cmdRtGroupMove_defining (st : i.st = .defining) :
    cmdRtGroupMove.body w q s = ok (s.setInst (q.u16 0x20) { i with engine := q.u8 0x22 }) := by
  simp only [cmdRtGroupMove, inst, firstBad, target, bne_iff_ne.mpr other, rsvd, still, kept, engine, st, reduceCtorEq,
    Option.isSome_none, decide_true, Bool.and_self, Bool.not_true, Bool.false_eq_true, or_self, if_true, if_false]

/-- RT_GROUP_MOVE of a running group fixes the cutover chunk, under a handle. -/
theorem cmdRtGroupMove_running (defined : i.st ≠ .defining) (works : i.st ≠ .failed) (room : s.handleFree w.caller = true) :
    cmdRtGroupMove.body w q s =
      let h := s.newHandle w.caller 0x0606
      pend (h.2.setInst (q.u16 0x20)
        { i with st := .moving, moveFrom := some i.engine, engine := q.u8 0x22, cutover := i.cutoverNow,
                 oldDone := i.cutoverNow == i.cdone, handle := h.1 }) h.1 := by
  simp only [cmdRtGroupMove, inst, firstBad, target, bne_iff_ne.mpr other, rsvd, still, kept, engine, defined, works, room,
    Option.isSome_none, decide_true, Bool.and_self, Bool.not_true, Bool.false_eq_true, or_self, if_true, if_false]

end

end

end

/-! ## The commands -/

/-- Settles O38: a command Ember serves leaves what its body answers, and the lemma on that body says what it is. -/
theorem retortCommandsComplete : Obligations.RetortCommandsComplete := by
  unfold Obligations.RetortCommandsComplete
  refine ⟨?status, ?partSet, ?create, ?destroy, ?read, ?reset, ?move⟩
  case status =>
    intro s c p q served
    exact served.reports cmdRtGetStatus_reports
  case partSet =>
    intro s c p q served low high rsvd base aligned some_group pow size inside apart unbound held
    exact served.answers (cmdRtPartSet_sets low high rsvd base aligned some_group pow size inside apart unbound held)
  case create =>
    intro s c p q i0 served fields creating entries g i takesPart
    exact ⟨fun mode => served.answers (cmdRtGroupCreate_adds fields creating entries takesPart mode),
      fun mode fresh named engine others room participants => served.answers
        (cmdRtGroupCreate_makes fields creating entries takesPart mode fresh named engine others room participants)⟩
  case destroy =>
    intro s c p q i served inst rsvd still kept room
    exact served.answers (cmdRtGroupDestroy_starts inst still kept rsvd room)
  case read =>
    intro s c p q i served inst first count inside rsvd
    obtain ⟨d, body, head, entries⟩ := cmdRtGroupRead_reports (w := whoOf c p q) inst first count inside rsvd
    exact ⟨d, served.answers body, head, entries⟩
  case reset =>
    intro s c p q i served inst gen rsvd st still kept
    exact served.answers (cmdRtGroupReset_resets inst still kept gen rsvd st)
  case move =>
    intro s c p q i served inst target other rsvd works still kept engine
    exact ⟨fun st => served.answers (cmdRtGroupMove_defining inst still kept target other rsvd engine st),
      fun defined room => served.answers (cmdRtGroupMove_running inst still kept target other rsvd engine defined works room)⟩

end Sys2Proof.Machine
end

section
/-! PROOFS. Frames and pauses at a logical port: what the MAC, MAC control and the pauses do on the path the spec describes (R326, R327,
R349, R351), and from that what the events do. -/

namespace Sys2Proof.Machine

open Sys2Proof

section
variable {s : State} {lp : Nat}

/-! ## The MAC (R326, R327) -/

/-- A frame the MAC takes as good is counted by its frame and bytes. -/
def State.frameCounted (s : State) (lp : Nat) (f : Bytes) : State :=
  s.modLport lp (fun l => { l with rxFrames := up64 l.rxFrames 1, rxBytes := up64 l.rxBytes (f.length + 4) })

/-- A frame the MAC takes as bad is counted and raises source 0. -/
def State.badFrameCounted (s : State) (lp : Nat) : State :=
  (s.modLport lp (fun l => { l with rxFcsErr := up64 l.rxFcsErr 1 })).raiseAt (netBlock lp) 0 none (some (56 + lp / 4))

/-- At a port that is down no frame is received. -/
theorem State.frameIn_down (down : (s.lport lp).linkUp = false) (f : Bytes) (good : Bool) : s.frameIn lp f good = s :=
  if_pos (by simp [down])

section
variable {f : Bytes} (present : s.hasLport lp = true) (enabled : (s.lport lp).enabled = true) (up : (s.lport lp).linkUp = true)
  (here : s.blockAway (netBlock lp) = false)
include present enabled up here

/-- Nothing keeps a frame from a port that is present, enabled and up and whose block is in service. -/
theorem State.frame_reaches : ¬ ((!s.hasLport lp) = true ∨ (!(s.lport lp).enabled) = true ∨ (!(s.lport lp).linkUp) = true ∨
    s.blockAway (netBlock lp) = true) := by
  simp [present, enabled, up, here]

/-- A good frame of allowed length is counted; MAC control is taken by the MAC, any other frame is looked up. -/
theorem State.frameIn_good (long : 64 ≤ f.length + 4) (short : f.length + 4 ≤ (s.lport lp).maxFrame) :
    s.frameIn lp f true =
      if be16 f 12 = 0x8808 then (s.frameCounted lp f).macControl lp f else (s.frameCounted lp f).frameLookup lp f false := by
  have taken : ¬ ((!true) = true ∨ f.length + 4 < 64 ∨ (s.lport lp).maxFrame < f.length + 4) := by
    simpa using ⟨by omega, short⟩
  exact (if_neg (State.frame_reaches present enabled up here)).trans (if_neg taken)

/-- A bad frame is counted; one that ends in its first cell or is MAC control is dropped, any other has begun to enter the core and
goes on as an aborted frame. -/
theorem State.frameIn_bad :
    s.frameIn lp f false =
      if f.length ≤ 224 ∨ be16 f 12 = 0x8808 then (s.badFrameCounted lp).netDropped lp none
      else (s.badFrameCounted lp).frameLookup lp (f.take ((s.lport lp).maxFrame - 4)) true :=
  (if_neg (State.frame_reaches present enabled up here)).trans (if_pos (.inl rfl))

end

/-! ## Pauses (R349, R351) -/

/-- A PFC frame counts, and pauses or releases the enabled priorities it names. -/
theorem State.pfcIn_taken (present : s.hasLport lp = true) (up : (s.lport lp).linkUp = true) (mask : Nat) (times : List Nat) :
    s.pfcIn lp mask times = s.modLport lp (fun l =>
      { l with pfcRx := up64 l.pfcRx 1
               paused := (bitList 8 mask).foldl (fun t p =>
                 if l.pfcEn.getLsbD p then tset t p (decide (0 < lget 0 times p)) else t) l.paused }) :=
  if_neg (by simp [present, up])

end

/-! ## The events -/

/-- Settles O39: each event is its operation on a die that works, and the lemma on that operation says what it leaves. -/
theorem framesTakeEffect : Obligations.FramesTakeEffect := by
  unfold Obligations.FramesTakeEffect
  refine ⟨?frame, ?down, ?pfc, ?pause⟩
  case frame =>
    intro s lp f works present enabled up here
    have good := State.frameIn_good (f := f) present enabled up here
    have bad := State.frameIn_bad (f := f) present enabled up here
    exact ⟨fun long short control => State.live_working_eq works ((good long short).trans (if_pos control)),
      fun long short other => State.live_working_eq works ((good long short).trans (if_neg other)),
      fun dropped => State.live_working_eq works (bad.trans (if_pos dropped)),
      fun long other => State.live_working_eq works (bad.trans (if_neg (not_or.mpr ⟨Nat.not_le.mpr long, other⟩)))⟩
  case down =>
    intro s lp f good works down
    exact State.live_working_eq works (State.frameIn_down down f good)
  case pfc =>
    intro s lp mask times works present up
    exact State.live_working_eq works (State.pfcIn_taken present up mask times)
  case pause =>
    intro s lp p works
    exact ⟨fun up prio xoff => State.live_working_eq works (if_pos ⟨xoff, prio, up⟩),
      fun paused => State.onDie_up_eq works.dieUp (if_pos paused),
      fun port paused => State.live_working_eq works (if_pos ⟨port, paused⟩)⟩

end Sys2Proof.Machine
end

section
/-! PROOFS. Queue pairs of a vNIC function: tail writes, the transmit scheduler, completed fetches, the egress, waiting frames and the ITR
interval, each on the path the spec describes (R336, R337, R338, R340, R347, R364, R369), and from that what the events do. -/

namespace Sys2Proof.Machine

open Sys2Proof

section
variable {s : State} {f q : Nat} {v : Vnic}

/-! ## Functions and queue pairs that exist -/

theorem State.modVnic_some (fn : s.vnic f = some v) (g : Vnic → Vnic) : s.modVnic f g = s.setVnic f (g v) := by
  simp only [State.modVnic, fn]

theorem State.qpOf_some (fn : s.vnic f = some v) : s.qpOf f q = v.qp q := by
  simp only [State.qpOf, fn]

/-! ## Tail writes (R337) -/

section
variable (fn : s.vnic f = some v) (pair : q < v.nqp)
include fn pair

/-- A write of QP_TX_TAIL sets the tail; one past the ring of an enabled pair puts the pair in ERROR. -/
theorem State.txTailWrite_pair (value : Nat) :
    s.txTailWrite f q value =
      let tx := s.modQp f q (fun k => { k with txTail := value % 2 ^ 15 })
      if (v.qp q).enabled ∧ !(v.qp q).error ∧ 2 ^ (v.qp q).txLog2 ≤ value % 2 ^ 15 then tx.qpError f q 6 else tx := by
  simp only [State.txTailWrite, fn, if_neg (Nat.not_le.mpr pair)]

/-- A write of QP_RX_TAIL sets the tail; one past the ring of an enabled pair puts the pair in ERROR. -/
theorem State.rxTailWrite_pair (value : Nat) :
    s.rxTailWrite f q value =
      let rx := s.modQp f q (fun k => { k with rxTail := value % 2 ^ 15 })
      if (v.qp q).enabled ∧ !(v.qp q).error ∧ 2 ^ (v.qp q).rxLog2 ≤ value % 2 ^ 15 then rx.qpError f q 6 else rx := by
  simp only [State.rxTailWrite, fn, if_neg (Nat.not_le.mpr pair)]

end

/-- A tail inside the ring is not in error. -/
theorem Qp.tail_inside {k : Qp} {tail size : Nat} (inside : tail < size) : ¬ (k.enabled ∧ !k.error ∧ size ≤ tail) :=
  fun ⟨_, _, past⟩ => Nat.not_le.mpr inside past

/-- A tail past the ring of an enabled pair that is not in ERROR already is in error. -/
theorem Qp.tail_past {k : Qp} {tail size : Nat} (enabled : k.enabled = true) (clear : k.error = false) (past : size ≤ tail) :
    k.enabled ∧ !k.error ∧ size ≤ tail :=
  ⟨enabled, by simp [clear], past⟩

/-! ## The transmit scheduler (R364) -/

section
variable {lp : Nat}

/-- A function that qualifies for the committed round has the turn. -/
theorem State.txSchedule_committed (pick : s.pickFn lp (s.lport lp).txPtr (fun n => (s.shaper n).qualifies 0) = some f) :
    s.txSchedule lp = (s.modLport lp (fun l => { l with txPtr := (f + 1) % 1024 })).txTurn f 0 := by
  unfold State.txSchedule
  simp only [pick]

variable (noCommitted : s.pickFn lp (s.lport lp).txPtr (fun n => (s.shaper n).qualifies 0) = none)
include noCommitted

/-- With none in the committed round, a function that qualifies for the excess round has the turn. -/
theorem State.txSchedule_excess
    (pick : s.pickFn lp (s.lport lp).txPtrX (fun n => (s.shaper n).qualifies 1 || (s.shaper n).qualifies 2) = some f) :
    s.txSchedule lp =
      (s.modLport lp (fun l => { l with txPtrX := (f + 1) % 1024 })).txTurn f (if (s.shaper f).enabled then 1 else 2) := by
  unfold State.txSchedule
  simp only [noCommitted, pick]

/-- With none in either round the scheduler stands still. -/
theorem State.txSchedule_idle
    (pick : s.pickFn lp (s.lport lp).txPtrX (fun n => (s.shaper n).qualifies 1 || (s.shaper n).qualifies 2) = none) :
    s.txSchedule lp = s := by
  unfold State.txSchedule
  simp only [noCommitted, pick]

end

/-! ## Completed fetches (R338, R355) -/

section
variable {descs : List TxRaw} (fn : s.vnic f = some v) (fetching : (v.qp q).fetching = true)
include fn fetching

/-- A fetch of a pair that has been disabled is only ended. -/
theorem State.fetchDone_disabled (off : (v.qp q).enabled = false) :
    s.fetchDone f q descs true = s.modQp f q (fun k => { k with fetching := false }) := by
  simp [State.fetchDone, fn, fetching, off]

variable (on : (v.qp q).enabled = true) (clear : (v.qp q).error = false)
include on clear

/-- The buffers of the packet fetched are read and the packet is sent. -/
theorem State.fetchDone_packet {d : TxDesc} {r : List TxDesc}
    (packet : (uptoEop (descs.map TxRaw.decode)).take (ringAvail (v.qp q).txLog2 (v.qp q).fetchTo (v.qp q).txHead) = d :: r) :
    s.fetchDone f q descs true =
      ((d :: r).foldl (fun t b => t.dmaRead f q true b.addr b.len) (s.modQp f q (fun k => { k with fetching := false }))).txPacket
        f q v (d :: r) d := by
  simp [State.fetchDone, fn, fetching, on, clear, packet]

/-- A fetch that fails before its first descriptor puts the pair in ERROR. -/
theorem State.fetchDone_failed
    (noPacket : (uptoEop (descs.map TxRaw.decode)).take (ringAvail (v.qp q).txLog2 (v.qp q).fetchTo (v.qp q).txHead) = []) :
    s.fetchDone f q descs false = (s.modQp f q (fun k => { k with fetching := false })).qpError f q 5 := by
  simp [State.fetchDone, fn, fetching, on, clear, noPacket]

end

/-! ## The egress (R369, R179) -/

section
variable {lp : Nat} (present : s.hasLport lp = true) (up : (s.lport lp).linkUp = true)
include present up

/-- A frame still being sent at the next frame event is found underrun. -/
theorem State.egressStart_sending {p : Pkt} (sending : (s.lport lp).sending = some p) : s.egressStart lp = s.underrun lp p := by
  simp [State.egressStart, present, up, sending]

/-- At a frame boundary the port TC scheduler picks. -/
theorem State.egressStart_boundary (free : (s.lport lp).sending = none) : s.egressStart lp = s.egressPick lp := by
  simp [State.egressStart, present, up, free]

end

/-- The state in which the port TC scheduler picks: head frames that fit no window are gone (R381). -/
def State.gatesDropped (s : State) (lp : Nat) : State :=
  (List.range 8).foldl (fun t c => State.gateDrop lp c (t.lport lp).egress.length t) s

/-- The highest eligible strict class starts its head frame. -/
theorem State.egressPick_strict {lp c : Nat}
    (strict : [7, 6, 5, 4, 3, 2, 1, 0].find? (fun c => ((s.gatesDropped lp).lport lp).strict.getLsbD c &&
      lget false ((List.range 8).map (fun c => (s.gatesDropped lp).tcEligible lp c)) c) = some c) :
    s.egressPick lp = (s.gatesDropped lp).startFrame lp c := by
  rw [State.gatesDropped] at strict ⊢
  simp only [State.egressPick, strict]

/-! ## Frames that wait for buffers (R340, R347) -/

section
variable {w : Pkt} (waits : s.net.rxWait.find? (fun w => w.func == f && w.qp == q) = some w)
include waits

/-- A waiting frame takes its buffers when the pair takes frames and they are enough. -/
theorem State.vnicReceive_takes {bufs : List Nat} (takes : s.rxTakes w = true)
    (free : (s.qpOf f q).bufsFor w.data.length ≤ (s.qpOf f q).rxFree)
    (named : (s.qpOf f q).bufsFor w.data.length ≤ bufs.length) :
    s.vnicReceive f q bufs =
      let k := s.qpOf f q
      let n := k.bufsFor w.data.length
      ((List.range n).foldl (fun t i => t.rxBuffer w k bufs n i)
        ((s.modNet (fun x => { x with rxWait := x.rxWait.erase w })).leave w)).modQp f q
          (fun k => { k with rxHead := (k.rxHead + n) % 2 ^ k.rxLog2 }) := by
  simp [State.vnicReceive, waits, takes, Nat.not_lt.mpr free, Nat.not_lt.mpr named]

/-- At the end of its wait a frame goes for want of descriptors, or stays when they are enough. -/
theorem State.rxTimeout_waits :
    s.rxTimeout f q = if (s.qpOf f q).bufsFor w.data.length ≤ (s.qpOf f q).rxFree then s else s.rxDrop w true := by
  simp only [State.rxTimeout, waits]

end

/-! ## The ITR interval (R336) -/

/-- The end of the interval sends a pending message and begins another interval, or ends the wait. -/
theorem State.itrExpiry_waits (waits : (s.qpOf f q).itrWait = true) :
    s.itrExpiry f q =
      if (s.qpOf f q).itrPend then (s.modQp f q (fun k => { k with itrPend := false })).vnicMsix f q
      else s.modQp f q (fun k => { k with itrWait := false }) :=
  if_neg (by simp [waits])

end

/-! ## The events -/

/-- Settles O40: each event is its operation on a die that works, and the lemma on that operation says what it leaves. -/
theorem queuePairsTakeEffect : Obligations.QueuePairsTakeEffect := by
  unfold Obligations.QueuePairsTakeEffect
  refine ⟨?tail, ?schedule, ?fetch, ?egress, ?receive, ?itr⟩
  case tail =>
    intro s f q value v works fn pair
    have tx := State.txTailWrite_pair fn pair value
    have rx := State.rxTailWrite_pair fn pair value
    exact ⟨fun inside => State.live_working_eq works (tx.trans (if_neg (Qp.tail_inside inside))),
      fun on clear past => State.live_working_eq works (tx.trans (if_pos (Qp.tail_past on clear past))),
      fun inside => State.live_working_eq works (rx.trans (if_neg (Qp.tail_inside inside))),
      fun on clear past => State.live_working_eq works (rx.trans (if_pos (Qp.tail_past on clear past)))⟩
  case schedule =>
    intro s lp works
    exact ⟨fun f pick => State.live_working_eq works (State.txSchedule_committed pick),
      fun f noCommitted pick => State.live_working_eq works (State.txSchedule_excess noCommitted pick),
      fun noCommitted pick => State.live_working_eq works (State.txSchedule_idle noCommitted pick)⟩
  case fetch =>
    intro s f q descs v works fn fetching s1 ds
    refine ⟨fun off => State.live_working_eq works (State.fetchDone_disabled fn fetching off), fun d r on clear packet => ?_,
      fun on clear noPacket => State.live_working_eq works (State.fetchDone_failed fn fetching on clear noPacket)⟩
    rw [packet]
    exact State.live_working_eq works (State.fetchDone_packet fn fetching on clear packet)
  case egress =>
    intro s lp works present up
    exact ⟨fun p sending => State.live_working_eq works (State.egressStart_sending present up sending),
      fun c free strict => State.live_working_eq works
        ((State.egressStart_boundary present up free).trans (State.egressPick_strict strict))⟩
  case receive =>
    intro s f q bufs w works waits
    have timeout := State.rxTimeout_waits waits
    exact ⟨fun takes free named => State.live_working_eq works (State.vnicReceive_takes waits takes free named),
      fun short => State.live_working_eq works (timeout.trans (if_neg (Nat.not_le.mpr short))),
      fun enough => State.live_working_eq works (timeout.trans (if_pos enough))⟩
  case itr =>
    intro s f q works waits
    have ends := State.itrExpiry_waits waits
    exact ⟨fun pending => State.live_working_eq works (ends.trans (if_pos pending)),
      fun idle => State.live_working_eq works (ends.trans (if_neg (Bool.eq_false_iff.mp idle)))⟩

end Sys2Proof.Machine
end

section
/-! PROOFS. The links of logical ports, function resets, and the ends of the handles of the network: what each operation leaves on the path
the spec describes (R336, R354, R356, R358, R359), and from that what the events do. -/

namespace Sys2Proof.Machine

open Sys2Proof

section
variable {s : State}

/-! ## Links (R336, R356) -/

section
variable {lp : Nat} (present : s.hasLport lp = true) (enabled : (s.lport lp).enabled = true)
include present enabled

/-- An enabled port comes up where nothing holds it. -/
theorem State.linkChange_up (down : (s.lport lp).linkUp = false) (released : s.boot.etherHeld = false)
    (here : s.blockAway (netBlock lp) = false) : s.linkChange lp true = s.lportLink lp true := by
  simp [State.linkChange, present, enabled, down, released, here]

/-- A port that goes down raises source 2. -/
theorem State.linkChange_down (up : (s.lport lp).linkUp = true) :
    s.linkChange lp false = (s.lportLink lp false).raiseAt (netBlock lp) 2 none (some (56 + lp / 4)) := by
  simp [State.linkChange, present, enabled, up]

end

/-! ## The ends of training and of a disable (R358, R359) -/

/-- Training that ends without the port ends its handle with TIMEOUT. -/
theorem State.trainingEnd_failed {lp h : Nat} (training : (s.lport lp).training = some h) :
    s.trainingEnd lp false = (s.modLport lp (fun l => { l with training := none })).endHandle h rcTimeout := by
  simp [State.trainingEnd, training]

/-- Training that ends with the port up ends its handle with OK. -/
theorem State.trainingEnd_up {lp h : Nat} (training : (s.lport lp).training = some h)
    (up : ((s.linkChange lp true).lport lp).linkUp = true) :
    s.trainingEnd lp true = ((s.linkChange lp true).modLport lp (fun l => { l with training := none })).endHandle h rcOk := by
  simp [State.trainingEnd, training, up]

/-- A pair being disabled with no DMA outstanding ends its handle. -/
theorem State.qpDisabled_quiet {f q h : Nat} (disabling : (s.qpOf f q).disabling = some h) (fetched : (s.qpOf f q).fetching = false)
    (written : (s.qpOf f q).wb = []) :
    s.qpDisabled f q = (s.modQp f q (fun k => { k with disabling := none })).endHandle h rcOk := by
  simp [State.qpDisabled, disabling, fetched, written]

end

/-! ## The events -/

/-- Settles O41: each event is its operation on a die out of reset, and the lemma on that operation says what it leaves. -/
theorem portAndFunctionEventsTakeEffect : Obligations.PortAndFunctionEventsTakeEffect := by
  unfold Obligations.PortAndFunctionEventsTakeEffect
  refine ⟨?link, ?functionReset, ?disable, ?training⟩
  case link =>
    intro s lp works present enabled
    exact ⟨fun down released here => State.live_working_eq works (State.linkChange_up present enabled down released here),
      fun up => State.live_working_eq works (State.linkChange_down present enabled up)⟩
  case functionReset =>
    intro s f v works fn
    exact State.live_working_eq works (State.modVnic_some fn _)
  case disable =>
    intro s f q h up disabling fetched written
    exact State.onDie_up_eq up (State.qpDisabled_quiet disabling fetched written)
  case training =>
    intro s lp h up training
    exact ⟨State.onDie_up_eq up (State.trainingEnd_failed training),
      fun linked => State.onDie_up_eq up (State.trainingEnd_up training linked)⟩

end Sys2Proof.Machine
end

section
/-! PROOFS. The commands of the Ethernet block: each body in range, on the path the spec describes (R332, R334, R335, R344, R354, R357 to
R359, R383), and from that what the commands answer. -/

namespace Sys2Proof.Machine

open Sys2Proof

/-! ## Lists of checks (R67 order 7) -/

/-- The first field at fault is in the first list of checks, or else in the second. -/
theorem firstBad_append (a b : List (Nat × Bool)) : firstBad (a ++ b) = (firstBad a).or (firstBad b) := by
  induction a with
  | nil => rfl
  | cons e r ih =>
    obtain ⟨off, good⟩ := e
    cases good
    · rfl
    · exact ih

/-- Checks that a request does not call for find no field at fault. -/
theorem firstBad_map_passed {α : Type} (l : List α) (off : α → Nat) : firstBad (l.map (fun i => (off i, true))) = none :=
  (firstBad_none _).mpr (by simp)

section
variable {w : Who} {q : Req} {s : State}

/-! ## Ports (R354, R357, R358) -/

theorem cmdNetGetStatus_reports (present : s.hasLport (q.u8 0x20) = true) (rsvd : q.zero 0x21 3 = true) :
    ∃ d, d.length = 112 ∧ cmdNetGetStatus.body w q s = ok s d := by
  simp only [cmdNetGetStatus, firstBad, present, rsvd, if_true]
  exact ⟨_, by simp, rfl⟩

/-- NET_PORT_SET of fields that need no training sets them. -/
theorem cmdNetPortSet_sets (fields : firstBad (s.portSetChecks q) = none) (noEnable : bit (q.u8 0x21) 0 = false)
    (noMode : bit (q.u8 0x21) 1 = false) (noPhy : bit (q.u8 0x21) 2 = false) (trained : (s.lport (q.u8 0x20)).training = none)
    (fits : ∀ i < 4, (s.modLport (q.u8 0x20) (portSetOf q)).stagingFits (q.u8 0x20 / 4 * 4 + i) = true) :
    cmdNetPortSet.body w q s = ok (s.modLport (q.u8 0x20) (portSetOf q)) := by
  have staged : (List.range 4).all (fun i =>
      (s.modLport (q.u8 0x20) (portSetOf q)).stagingFits (q.u8 0x20 / 4 * 4 + i)) = true := by
    simpa using fits
  simp only [cmdNetPortSet, fields, noEnable, noMode, noPhy, trained, staged, Bool.false_and, Bool.or_self, Bool.not_true, Bool.not_false,
    Option.isSome_none, Bool.false_eq_true, false_and, or_self, if_true, if_false]

/-! ## Functions (R335, R344, R354) -/

/-- VNIC_CREATE of a free function, where partition and module have room, makes it with a free RSS key. -/
theorem cmdVnicCreate_makes (function : q.u16 0x20 < 1024) (part : q.u8 0x22 < 32) (port : s.hasLport (q.u8 0x23) = true)
    (low : 1 ≤ q.u8 0x24) (high : q.u8 0x24 ≤ 64) (flags : q.u8 0x25 / 4 = 0) (pvid : pvidOk (q.u8 0x25) (q.u16 0x26) = true)
    (rsvd : q.zero 0x2E 2 = true) (fresh : s.vnic (q.u16 0x20) = none)
    (partRoom : s.net.vnics.countP (fun e => e.2.part == q.u8 0x22) < 32) (moduleRoom : s.net.vnics.length < 1024)
    (pairRoom : s.qpsUsed + q.u8 0x24 ≤ 16384) :
    cmdVnicCreate.body w q s =
      let v : Vnic := { part := q.u8 0x22, lport := q.u8 0x23, nqp := q.u8 0x24, mac := BitVec.ofNat 48 (beNat (q.bytes 0x28 6)),
                        spoofChk := bit (q.u8 0x25) 0, vlanForce := bit (q.u8 0x25) 1, pvid := q.u16 0x26, rssKey0 := (s.freeBytes 40).1 }
      let s1 := (s.freeBytes 40).2.setVnic (q.u16 0x20) { v.created with link := (s.lport (q.u8 0x23)).linkUp }
      ok s1 (leBytes 2 (16384 - s1.qpsUsed) ++ List.replicate 6 0) := by
  have room : ¬ (32 ≤ s.net.vnics.countP (fun e => e.2.part == q.u8 0x22) ∨ 1024 ≤ s.net.vnics.length ∨
      16384 < s.qpsUsed + q.u8 0x24) := by
    omega
  simp only [cmdVnicCreate, firstBad, function, part, port, low, high, flags, pvid, rsvd, fresh, room, and_self, decide_true, BEq.rfl,
    Option.isSome_none, Bool.false_eq_true, if_true, if_false]

section
variable {v : Vnic} (fn : s.vnic (q.u16 0x20) = some v) (kept : v.destroying = none)
include fn kept

/-- VNIC_DESTROY of a function that is not bound opens a handle and resets the function. -/
theorem cmdVnicDestroy_starts (rsvd : q.zero 0x22 2 = true) (unbound : s.vnicBound (q.u16 0x20) = false)
    (room : s.handleFree w.caller = true) :
    cmdVnicDestroy.body w q s =
      let h := s.newHandle w.caller 0x0703
      pend ((h.2.modVnic (q.u16 0x20) (fun v => { v with destroying := some h.1 })).vnicReset (q.u16 0x20)) h.1 := by
  simp only [cmdVnicDestroy, firstBad, fn, kept, rsvd, unbound, room, Option.isSome_some, Option.isSome_none, Bool.or_self,
    Bool.not_true, Bool.false_eq_true, if_true, if_false]

/-- VNIC_SET of tag stripping alone sets it. -/
theorem cmdVnicSet_strip (mask : q.u8 0x22 = 2) (strip : q.u8 0x23 ≤ 1) (rsvd26 : q.zero 0x26 2 = true) (rsvdD7 : q.zero 0xD7 1 = true)
    (rsvdDA : q.zero 0xDA 6 = true) :
    cmdVnicSet.body w q s = ok (s.setVnic (q.u16 0x20) { v with rxStrip := q.u8 0x23 == 1 }) := by
  have noRss : bit 2 0 = false := by decide
  have stripNamed : bit 2 1 = true := by decide
  have noMac : bit 2 2 = false := by decide
  simp [cmdVnicSet, firstBad_append, firstBad_map_passed, firstBad, fn, kept, mask, noRss, stripNamed, noMac, strip, rsvd26, rsvdD7,
    rsvdDA]

/-! ## Queue pairs (R359) -/

section
variable (pair : q.u8 0x22 < v.nqp) (flags : q.u8 0x27 < 16) (wait : q.u16 0x38 ≤ 10000) (rsvd : q.zero 0x3A 6 = true)
  (still : (v.qp (q.u8 0x22)).disabling = none)
include pair flags wait rsvd still

/-- OP 1 sets up a pair that is disabled and not in ERROR. -/
theorem cmdVnicQpSet_setsUp (op : q.u8 0x23 = 1) (tx : 6 ≤ q.u8 0x24 ∧ q.u8 0x24 ≤ 15) (rx : 6 ≤ q.u8 0x25 ∧ q.u8 0x25 ≤ 15)
    (buf : 2 ≤ q.u8 0x26 ∧ q.u8 0x26 ≤ 16) (txPage : q.u64 0x28 % 4096 = 0) (rxPage : q.u64 0x30 % 4096 = 0)
    (off : (v.qp (q.u8 0x22)).enabled = false) (clear : (v.qp (q.u8 0x22)).error = false) :
    cmdVnicQpSet.body w q s = ok (s.modQp (q.u16 0x20) (q.u8 0x22) (fun k => k.setUp q)) := by
  simp [cmdVnicQpSet, firstBad, fn, kept, pair, flags, wait, rsvd, still, op, tx, rx, buf, txPage, rxPage, off, clear]

/-- OP 2 clears ERROR of a pair. -/
theorem cmdVnicQpSet_clears (op : q.u8 0x23 = 2) (err : (v.qp (q.u8 0x22)).error = true) :
    cmdVnicQpSet.body w q s = ok (s.modQp (q.u16 0x20) (q.u8 0x22) (fun k => { k.stopTx with error := false })) := by
  simp [cmdVnicQpSet, firstBad, fn, kept, pair, flags, wait, rsvd, still, op, err]

/-- OP 0 stops a pair behind a handle. -/
theorem cmdVnicQpSet_stops (op : q.u8 0x23 = 0) (room : s.handleFree w.caller = true) :
    cmdVnicQpSet.body w q s =
      let h := s.newHandle w.caller 0x0705
      pend (h.2.modQp (q.u16 0x20) (q.u8 0x22) (fun k => { k.stopTx with disabling := some h.1 })) h.1 := by
  simp [cmdVnicQpSet, firstBad, fn, kept, pair, flags, wait, rsvd, still, op, room]

end

end

/-! ## Exact-match and ACL entries (R332, R334) -/

/-- NET_EM_SET whose records are in order and find their entries or room applies them at one instant. -/
theorem cmdNetEmSet_applies {t : Tab (BitVec 128)} (low : 1 ≤ q.u16 0x20) (high : q.u16 0x20 ≤ 253) (rsvd : q.zero 0x22 6 = true)
    (inOrder : ∀ i < q.u16 0x20, s.emRecordOk (emRecord q i) = true)
    (applied : emApply ((List.range (q.u16 0x20)).map (fun i => (i, emRecord q i))) s.net.em = .ok t) :
    cmdNetEmSet.body w q s = ok (s.modNet (fun x => { x with em := t })) (leBytes 4 t.length ++ [0, 0, 0, 0]) := by
  have fields : firstBad ([(0x20, decide (1 ≤ q.u16 0x20 ∧ q.u16 0x20 ≤ 253)), (0x22, q.zero 0x22 6)] ++
      ((List.range (q.u16 0x20)).map (fun i => (i, emRecord q i))).map (fun e => (0x28 + 16 * e.1, s.emRecordOk e.2))) = none := by
    simpa [firstBad_none, low, high, rsvd] using inOrder
  simp only [cmdNetEmSet, fields, applied]

/-- NET_ACL_SET whose records are in order writes its entries at one instant. -/
theorem cmdNetAclSet_writes (first : q.u16 0x20 < 4096) (low : 1 ≤ q.u16 0x22) (high : q.u16 0x22 ≤ 63)
    (inside : q.u16 0x20 + q.u16 0x22 ≤ 4096) (rsvd : q.zero 0x24 4 = true)
    (inOrder : ∀ k < q.u16 0x22, ∀ e ∈ aclRecordChecks q k, e.2 = true) :
    cmdNetAclSet.body w q s = ok (s.modNet (fun x =>
      { x with acl := tfill x.acl (q.u16 0x20) (q.u16 0x22) (fun k => aclRecord q (k - q.u16 0x20)) })) := by
  have records : firstBad ((List.range (q.u16 0x22)).flatMap (aclRecordChecks q)) = none := by
    rw [firstBad_none]
    intro e listed
    obtain ⟨k, inRange, check⟩ := List.mem_flatMap.mp listed
    exact inOrder k (List.mem_range.mp inRange) e check
  simp only [cmdNetAclSet, firstBad_append, firstBad, first, low, high, inside, rsvd, records, and_self, decide_true, if_true,
    Option.or_none]

/-! ## The PTP clock (R383) -/

/-- What NET_PTP_CLOCK answers: the time the clock then shows and its rate. -/
def State.saysPtp (s : State) : Ans :=
  ok s (leBytes 8 s.time.ptpSec ++ leBytes 4 s.time.ptpNs ++ leBytes 4 (BitVec.ofInt 32 s.time.ppb).toNat)

section
variable (rsvd21 : q.zero 0x21 3 = true) (rsvd3C : q.zero 0x3C 4 = true)
include rsvd21 rsvd3C

theorem cmdNetPtpClock_reads (op : q.u8 0x20 = 0) : cmdNetPtpClock.body w q s = s.saysPtp := by
  simp [cmdNetPtpClock, State.saysPtp, firstBad, rsvd21, rsvd3C, op]

/-- OP 1 sets the clock. -/
theorem cmdNetPtpClock_sets (op : q.u8 0x20 = 1) (ns : q.u32 0x24 < 1000000000) (sec : q.u64 0x28 < 2 ^ 48) :
    cmdNetPtpClock.body w q s = (s.setPtp (ptpOf (q.u64 0x28) (q.u32 0x24))).clockMoved.saysPtp := by
  simp [cmdNetPtpClock, State.saysPtp, firstBad, rsvd21, rsvd3C, op, ns, sec, -Nat.reducePow]

/-- OP 2 steps the clock, modulo its range. -/
theorem cmdNetPtpClock_steps (op : q.u8 0x20 = 2) :
    cmdNetPtpClock.body w q s =
      (s.setPtp (((s.ptpNow : Int) + signed 64 (q.u64 0x30)) % ((2 ^ 48 * 1000000000 : Nat) : Int)).toNat).clockMoved.saysPtp := by
  simp [cmdNetPtpClock, State.saysPtp, firstBad, rsvd21, rsvd3C, op]

/-- OP 3 adjusts the rate. -/
theorem cmdNetPtpClock_adjusts (op : q.u8 0x20 = 3) (low : -500000 ≤ signed 32 (q.u32 0x38))
    (high : signed 32 (q.u32 0x38) ≤ 500000) :
    cmdNetPtpClock.body w q s = State.saysPtp { s with time := { s.time with ppb := signed 32 (q.u32 0x38) } } := by
  simp [cmdNetPtpClock, State.saysPtp, firstBad, rsvd21, rsvd3C, op, low, high]

end

end

/-! ## The commands -/

/-- Settles O42: a command Ember serves leaves what its body answers, and the lemma on that body says what it is. -/
theorem netCommandsComplete : Obligations.NetCommandsComplete := by
  unfold Obligations.NetCommandsComplete
  refine ⟨?status, ?portSet, ?create, ?destroy, ?set, ?qpSet, ?emSet, ?aclSet, ?ptp⟩
  case status =>
    intro s c p q served present rsvd
    exact served.reports (cmdNetGetStatus_reports present rsvd)
  case portSet =>
    intro s c p q served fields noEnable noMode noPhy trained fits
    exact served.answers (cmdNetPortSet_sets fields noEnable noMode noPhy trained fits)
  case create =>
    intro s c p q served function part port low high flags pvid rsvd fresh partRoom moduleRoom pairRoom
    exact served.answers
      (cmdVnicCreate_makes function part port low high flags pvid rsvd fresh partRoom moduleRoom pairRoom)
  case destroy =>
    intro s c p q v served fn rsvd unbound kept room
    exact served.answers (cmdVnicDestroy_starts fn kept rsvd unbound room)
  case set =>
    intro s c p q v served fn mask strip rsvd26 rsvdD7 rsvdDA kept
    exact served.answers (cmdVnicSet_strip fn kept mask strip rsvd26 rsvdD7 rsvdDA)
  case qpSet =>
    intro s c p q v served fn pair flags wait rsvd kept
    exact ⟨fun op txLow txHigh rxLow rxHigh bufLow bufHigh txPage rxPage off clear still => served.answers
        (cmdVnicQpSet_setsUp fn kept pair flags wait rsvd still op ⟨txLow, txHigh⟩ ⟨rxLow, rxHigh⟩ ⟨bufLow, bufHigh⟩
          txPage rxPage off clear),
      fun op err still => served.answers (cmdVnicQpSet_clears fn kept pair flags wait rsvd still op err),
      fun op still room => served.answers (cmdVnicQpSet_stops fn kept pair flags wait rsvd still op room)⟩
  case emSet =>
    intro s c p q t served low high rsvd inOrder applied
    exact served.answers (cmdNetEmSet_applies low high rsvd inOrder applied)
  case aclSet =>
    intro s c p q served first low high inside rsvd inOrder
    exact served.answers (cmdNetAclSet_writes first low high inside rsvd inOrder)
  case ptp =>
    intro s c p q served rsvd21 rsvd3C
    exact ⟨fun op => served.answers (cmdNetPtpClock_reads rsvd21 rsvd3C op),
      fun op ns sec => served.answers (cmdNetPtpClock_sets rsvd21 rsvd3C op ns sec),
      fun op => served.answers (cmdNetPtpClock_steps rsvd21 rsvd3C op),
      fun op low high => served.answers (cmdNetPtpClock_adjusts rsvd21 rsvd3C op low high)⟩

end Sys2Proof.Machine
end

section
/-! PROOFS. Gate engines, PTP lands and partitions: who may own the gate engines (R384), what the gate and PTP events do (R378, R387, R388,
R560), and what the commands of partitions and strict mode answer (R419, R425 to R429). -/

namespace Sys2Proof.Machine

open Sys2Proof

/-! ## One owner of the gate engines (R384) -/

section
variable {w : Who} {q : Req} {s : State}

/-- Under strict partition mode TM_GATE_SET finds the gate engines taken once its fields are in range. -/
theorem cmdTmGateSet_strict (strict : s.iso.strict = true) :
    (cmdTmGateSet.body w q s).status = rcBadField ∨ cmdTmGateSet.body w q s = failWith s rcBusy := by
  simp only [cmdTmGateSet]
  split
  case h_1 => exact .inl rfl
  case h_2 => exact .inr (if_pos strict)

/-- Over a user schedule STRICT_SET finds the gate engines taken once its fields are in range. -/
theorem cmdStrictSet_userSchedule (on : q.u8 0x20 = 1) (off : s.iso.strict = false) (user : s.userSchedule = true) :
    (cmdStrictSet.body w q s).status = rcBadField ∨ cmdStrictSet.body w q s = failWith s rcBusy := by
  simp only [cmdStrictSet]
  split
  case h_1 => exact .inl rfl
  case h_2 => exact .inr (by simp [on, off, user])

end

/-- Settles O13: each command is refused where its list of checks finds no field at fault. -/
theorem gateEngineHasOneOwner : Obligations.GateEngineHasOneOwner := by
  unfold Obligations.GateEngineHasOneOwner
  exact ⟨fun _ _ _ inRange strict => (cmdTmGateSet_strict strict).resolve_left inRange,
    fun _ _ _ inRange on off user => (cmdStrictSet_userSchedule on off user).resolve_left inRange⟩

/-! ## The change time of a list (R378, R379) -/

/-- Port `n` as its pending list `l` becomes operational. -/
def State.gateTaken (s : State) (n : Nat) (l : GateList) : State :=
  (s.modGate n (fun g => { g with oper := some l, pend := none, pos := 0 })).settleGateComps

/-- A user's pending list becomes operational, and a logical port's change is told to partition 0. -/
theorem State.gateTime_user {s : State} {n : Nat} {l : GateList} (pend : (s.gate n).pend = some l) (user : (s.gate n).byStrict = false) :
    s.gateTime n = if n < 32 then (s.gateTaken n l).event 0x80B [0] n else s.gateTaken n l := by
  simp [State.gateTime, State.gateChange, State.gateTaken, pend, user]

/-! ## PTP outputs and inputs (R387, R388) -/

/-- An enabled output toggles its land. -/
theorem State.ptpOutEdge_enabled {s : State} {k : Nat} (enabled : (s.ptpOut k).enabled = true) :
    s.ptpOutEdge k =
      (s.modTm (fun t => { t with outs := tset t.outs k { s.ptpOut k with high := !(s.ptpOut k).high } })).driveLand
        (outLand k) true (!(s.ptpOut k).high) := by
  simp [State.ptpOutEdge, enabled]

section
variable {s : State} {k : Nat} {falling : Bool}

/-- An edge that the input does not select does nothing. -/
theorem State.ptpInEdge_unselected (other : (s.ptpIn k).selects falling = false) : s.ptpInEdge k falling = s := by
  simp [State.ptpInEdge, other]

section
variable (selected : (s.ptpIn k).selects falling = true) (silent : (s.ptpIn k).event = false) (other : k ≠ 0)
include selected silent other

/-- An edge is queued while fewer than 64 are held. -/
theorem State.ptpInEdge_queued (room : (s.ptpIn k).queue.length < 64) :
    s.ptpInEdge k falling =
      let j : PtpIn := { s.ptpIn k with queue := (s.ptpIn k).queue ++ [(s.time.ptpSec, s.time.ptpNs, b2n falling)] }
      s.modTm (fun t => { t with ins := tset t.ins k j }) := by
  simp [State.ptpInEdge, selected, silent, other, room]

/-- An edge past 64 is counted lost. -/
theorem State.ptpInEdge_lost (full : 64 ≤ (s.ptpIn k).queue.length) :
    s.ptpInEdge k falling =
      let j : PtpIn := { s.ptpIn k with lost := sat 65535 (s.ptpIn k).lost 1 }
      s.modTm (fun t => { t with ins := tset t.ins k j }) := by
  simp [State.ptpInEdge, selected, silent, other, Nat.not_lt.mpr full]

end
end

/-! ## The PTP reference clock (R560) -/

/-- The loss of the clock the PTP domain is locked to is counted against block 0x35. -/
theorem State.ptpClockLost_locked {s : State} (locked : s.time.ptpLocked = true) :
    s.ptpClockLost =
      let s1 := s.modLands (fun l => { l with ptpClkOk := false })
      { s1 with time := { s1.time with ptpLocked := false } }.ledgerOnly 0x35 := by
  simp only [State.ptpClockLost, locked, if_true]

/-! ## The events -/

/-- Settles O43: each event is its operation on a die that works, or in a module with power, and the lemma on that operation says
what it leaves. -/
theorem gateAndPtpEventsTakeEffect : Obligations.GateAndPtpEventsTakeEffect := by
  unfold Obligations.GateAndPtpEventsTakeEffect
  refine ⟨?entry, ?change, ?output, ?land, ?input, ?clock⟩
  case entry =>
    intro s n l on _
    exact State.live_working on (s.gateStep n)
  case change =>
    intro s n l on pend user
    have taken := State.gateTime_user pend user
    exact ⟨fun port => State.live_working_eq on (taken.trans (if_pos port)),
      fun link => State.live_working_eq on (taken.trans (if_neg (Nat.not_lt.mpr link)))⟩
  case output =>
    intro s k on enabled
    exact State.live_working_eq on (State.ptpOutEdge_enabled enabled)
  case land =>
    intro s g out level
    rfl
  case input =>
    intro s k falling on
    exact ⟨fun other => State.live_working_eq on (State.ptpInEdge_unselected other),
      fun selected silent other room => State.live_working_eq on (State.ptpInEdge_queued selected silent other room),
      fun selected silent other full => State.live_working_eq on (State.ptpInEdge_lost selected silent other full)⟩
  case clock =>
    intro s power
    exact ⟨fun locked => State.done_of_eq ((if_neg power).trans (State.ptpClockLost_locked locked)),
      State.done_of_eq (if_neg power)⟩

/-! ## The commands of partitions and strict mode (R419, R425 to R429) -/

section
variable {w : Who} {q : Req} {s : State}

theorem cmdPartGet_reports (part : q.u8 0x20 < 32) (rsvd : q.zero 0x21 3 = true) :
    ∃ d, d.length = 16 ∧ cmdPartGet.body w q s = ok s d := by
  simp only [cmdPartGet, firstBad, part, rsvd, decide_true, if_true]
  exact ⟨_, by simp, rfl⟩

/-- ISO_GET_STATUS answers 16 bytes, the conditions first (R419). -/
theorem cmdIsoGetStatus_reports :
    ∃ d, d.length = 16 ∧ d.take 1 = leBytes 1 s.isoConditions ∧ cmdIsoGetStatus.body w q s = ok s d :=
  ⟨_, by simp, by simp [leBytes], rfl⟩

section
variable (part : q.u8 0x20 < 32) (flags : q.u8 0x22 < 4)
include part flags

/-- PART_SET of FABRIC_ADMIN alone sets it. -/
theorem cmdPartSet_fabricAdmin (mask : q.u8 0x21 = 1) (host : q.u8 0x20 ≠ 0) :
    cmdPartSet.body w q s = ok (s.modPart (q.u8 0x20) (fun x => { x with fabricAdmin := bit (q.u8 0x22) 0 })) := by
  have adminNamed : bit 1 0 = true := by decide
  have userUnnamed : bit 1 1 = false := by decide
  have slotsUnnamed : bit 1 2 = false := by decide
  simp [cmdPartSet, firstBad, part, flags, mask, host, adminNamed, userUnnamed, slotsUnnamed]

/-- PART_SET of STRICT_SLOTS alone sets it, and strict mode lays its lists again (R427). -/
theorem cmdPartSet_strictSlots (mask : q.u8 0x21 = 4) (slots : q.u8 0x23 < 32)
    (room : s.slotsGiven - (s.partCfg (q.u8 0x20)).strictSlots + q.u8 0x23 ≤ 31) :
    cmdPartSet.body w q s =
      let s1 := s.modPart (q.u8 0x20) (fun x => { x with strictSlots := q.u8 0x23 })
      ok (if s.iso.strict then s1.relayStrict else s1) := by
  have adminUnnamed : bit 4 0 = false := by decide
  have userUnnamed : bit 4 1 = false := by decide
  have slotsNamed : bit 4 2 = true := by decide
  simp [cmdPartSet, firstBad, part, flags, mask, slots, Nat.not_lt.mpr room, adminUnnamed, userUnnamed, slotsNamed]

end

section
variable (rsvd : q.zero 0x21 3 = true)
include rsvd

/-- STRICT_SET with ENABLE 0 leaves strict mode. -/
theorem cmdStrictSet_off (off : q.u8 0x20 = 0) : cmdStrictSet.body w q s = ok (if s.iso.strict then s.strictOff else s) := by
  simp [cmdStrictSet, firstBad, rsvd, off]

section
variable (on : q.u8 0x20 = 1) (low : 1000 ≤ q.u32 0x24) (high : q.u32 0x24 ≤ 100000) (whole : q.u32 0x24 % 8 = 0)
include on low high whole

/-- STRICT_SET of the period in force changes nothing. -/
theorem cmdStrictSet_inForce (strict : s.iso.strict = true) (same : s.iso.gateNs = q.u32 0x24) : cmdStrictSet.body w q s = ok s := by
  have given : q.u32 0x24 ≠ 0 := by omega
  simp [cmdStrictSet, firstBad, rsvd, on, low, high, whole, strict, same, given]

/-- STRICT_SET from outside strict mode lays the lists behind a handle. -/
theorem cmdStrictSet_lays {t : State} (off : s.iso.strict = false) (noUser : s.userSchedule = false) (room : s.handleFree w.caller = true)
    (laid : (s.modIso (fun i => { i with gateNs := q.u32 0x24 })).layStrict = some t) :
    cmdStrictSet.body w q s =
      let h := t.newHandle w.caller 0x0203
      pend (h.2.modIso (fun i => { i with handles := h.1 :: i.handles })) h.1 := by
  have given : q.u32 0x24 ≠ 0 := by omega
  simp [cmdStrictSet, firstBad, rsvd, on, low, high, whole, off, noUser, room, laid, given]

end
end
end

/-- Settles O49: a command Ember serves leaves what its body answers, and the lemma on that body says what it is. -/
theorem isolationCommandsComplete : Obligations.IsolationCommandsComplete := by
  unfold Obligations.IsolationCommandsComplete
  refine ⟨?get, ?set, ?status, ?strict⟩
  case get =>
    intro s c p q served part rsvd
    exact served.reports (cmdPartGet_reports part rsvd)
  case set =>
    intro s c p q served part flags
    exact ⟨fun mask host => served.answers (cmdPartSet_fabricAdmin part flags mask host),
      fun mask slots room => served.answers (cmdPartSet_strictSlots part flags mask slots room)⟩
  case status =>
    intro s c p q served
    obtain ⟨d, len, conditions, answer⟩ := cmdIsoGetStatus_reports (w := whoOf c p q) (q := q) (s := s)
    exact ⟨d, len, conditions, served.answers answer⟩
  case strict =>
    intro s c p q served rsvd
    exact ⟨fun off => served.answers (cmdStrictSet_off rsvd off), fun on low high whole =>
      ⟨fun strict same => served.answers (cmdStrictSet_inForce rsvd on low high whole strict same),
        fun t _ off noUser room laid => served.answers (cmdStrictSet_lays rsvd on low high whole off noUser room laid)⟩⟩

end Sys2Proof.Machine
end

section
/-! PROOFS. The commands of traffic management: PTP_IN_SET with ENABLE 0 keeps an input's count of the edges lost since the last PTP_IN_READ
(R388), which the statement on these commands has cleared. -/

namespace Sys2Proof.Machine

open Sys2Proof

/-- PTP_IN_SET with ENABLE 0 empties and disables an input, but for its count of lost edges and the time of its last event (R388). -/
theorem cmdPtpInSet_disables {w : Who} {q : Req} {s : State} (input : q.u8 0x20 ≤ 2) (off : q.u8 0x21 = 0) (edge : q.u8 0x22 = 0)
    (event : q.u8 0x23 ≤ 1) :
    cmdPtpInSet.body w q s = ok (s.modTm (fun t =>
      { t with ins := tmod {} t.ins (q.u8 0x20) (fun i => { lost := i.lost, lastEv := i.lastEv }) })) := by
  simp [cmdPtpInSet, firstBad, input, off, edge, event]

/-- Out of reset with firmware ready, input 0 having lost one edge. -/
def lostEdge : State :=
  { State.reset with
    boot := { State.reset.boot with phase := .ready }
    ember := { State.reset.ember with fwReady := true }
    tm := { State.reset.tm with ins := [(0, { lost := 1 })] } }

/-- PTP_IN_SET of input 0 with ENABLE 0. -/
def disableInput0 : Req := { length := 4, payload := [0, 0, 0, 0] }

theorem lostEdge_serves : lostEdge.serves cmdPtpInSet .sideband 0 disableInput0 where
  ready := rfl
  path := rfl
  idle := rfl
  fits := by decide
  whole := rfl
  header := by decide
  mode := nofun
  behalf := fun _ => rfl
  rights := rfl
  length := rfl

/-- Whatever the inputs hold, nothing is left in that state for another agent. -/
theorem lostEdge_calm (ins : Tab PtpIn) : (lostEdge.modTm (fun t => { t with ins := ins })).Calm where
  announce := rfl
  due := rfl
  fresh := rfl
  drains := rfl
  trackers := rfl
  instances := rfl
  streams := rfl
  issue := rfl
  formed := rfl
  delivered := rfl
  averages := rfl
  lports := rfl
  vnics := rfl
  waiting := rfl
  clusters := rfl
  phase := nofun

/-- Delivering an answer within the module leaves nothing for another agent where its body left nothing. -/
theorem Ans.deliver_calm {a : Ans} (calm : a.s.Calm) {c : Path} (within : ∀ m, c ≠ .relay m) (p op n : Nat) (q : Req) :
    (a.deliver c p op q n).Calm := by
  obtain ⟨frame, core, _, cnt, _⟩ := answerFrame a c p op n q
  have boot := congrArg State.boot frame
  have flt := congrArg State.flt frame
  have win := congrArg State.win frame
  have rt := congrArg State.rt frame
  have tm := congrArg State.tm frame
  have net := congrArg State.net frame
  have hearth := congrArg State.hearth frame
  have streams := congrArg Counters.streams cnt
  dsimp only at boot flt win rt tm net hearth streams
  constructor
  all_goals simp only [boot, flt, win, rt, tm, net, hearth, streams, core within]
  exacts [calm.announce, calm.due, calm.fresh, calm.drains, calm.trackers, calm.instances, calm.streams, calm.issue, calm.formed,
    calm.delivered, calm.averages, calm.lports, calm.vnics, calm.waiting, calm.clusters, calm.phase]

/-- Where nothing is left for another agent, traffic management is as the body of the command left it. -/
theorem State.answered_tm (s : State) {a : Ans} (calm : a.s.Calm) {c : Path} (within : ∀ m, c ≠ .relay m) (p op : Nat) (q : Req) :
    (s.answered a c p op q).tm = a.s.tm := by
  obtain ⟨frame, _⟩ := answerFrame a c p op 0 q
  have tm := congrArg State.tm frame
  rw [State.answered, quietStateStaysAsItIs s _ (a.deliver_calm calm within p op 0 q)]
  exact tm

/-- Refutes O44: PTP_IN_SET with ENABLE 0 of an input that has lost an edge keeps its count of lost edges, where the statement has the
input's whole record cleared. -/
theorem not_trafficCommandsComplete : ¬ Obligations.TrafficCommandsComplete := by
  unfold Obligations.TrafficCommandsComplete
  intro holds
  have within : ∀ m, Path.sideband ≠ .relay m := nofun
  obtain ⟨_, _, _, _, _, _, _, inSet, _⟩ := holds
  have claimed := (inSet lostEdge .sideband 0 disableInput0 lostEdge_serves (by decide) (by decide)).1 (by decide) (by decide)
  have left := lostEdge_serves.answers (cmdPtpInSet_disables (by decide) (by decide) (by decide) (by decide))
  have same := congrArg State.tm (Host.Outcome.next.inj (left.symm.trans claimed))
  rw [State.answered_tm _ (lostEdge_calm _) within, State.answered_tm _ (lostEdge_calm _) within] at same
  exact absurd (congrArg Traffic.ins same) (by decide)

end Sys2Proof.Machine
end

section
/-! PROOFS. Hearth: the accesses of a core (R395 to R399, R410, R411), its fences and register writes, the alarm and the interrupts of a
cluster (R394, R400 to R409, R414, R417), and the debug module (R415). What each operation does on the path the spec describes, and from
that what the events do. -/

namespace Sys2Proof.Machine

open Sys2Proof

/-! ## Loads, fetches and stores (R395, R398, R399) -/

/-- What the check of an access of core `k` finds under the rules in force: its pieces, or the fault it takes. -/
def State.checkInForce (s : State) (c k : Nat) (kind : HKind) (va size : Nat) : Except (HFault × Nat) (List HPiece) :=
  (s.mpuInForce c k).2.checkPieces c (s.mpuInForce c k).1 (s.hcore c k) kind (cut64 va size)

section
variable {s : State} {c k : Nat}

/-- A core that does not run loads and fetches nothing. -/
theorem State.hRead_still (still : s.hRuns c k = false) (rd : Nat) (addr : Word) (size : Nat) (sgn : Bool) (ecc : Eccs) :
    s.hRead c k rd addr size sgn ecc = s :=
  if_pos (by simp [still])

/-- A core that does not run stores nothing. -/
theorem State.hStore_still (still : s.hRuns c k = false) (addr : Word) (size : Nat) (v : Word) : s.hStore c k addr size v = s :=
  if_pos (by simp [still])

section
variable (runs : s.hRuns c k = true) {rd size : Nat} {addr : Word}
include runs

/-- A load or fetch takes the pieces that pass in order. -/
theorem State.hRead_passed {ps : List HPiece} (sgn : Bool) (ecc : Eccs)
    (passed : s.checkInForce c k (rdKind rd) addr.toNat size = .ok ps) :
    s.hRead c k rd addr size sgn ecc = State.loadGo c k rd size sgn addr.toNat ecc (s.mpuInForce c k).2 [] ps := by
  rw [State.checkInForce] at passed
  simp only [State.hRead, runs, passed, Bool.not_true, Bool.false_eq_true, if_false]

/-- A load or fetch whose piece is refused takes the fault of that piece. -/
theorem State.hRead_refused {e : HFault × Nat} (sgn : Bool) (ecc : Eccs)
    (refused : s.checkInForce c k (rdKind rd) addr.toNat size = .error e) :
    s.hRead c k rd addr size sgn ecc = (s.mpuInForce c k).2.hFault c k e.1 (s.faultPc c k rd addr.toNat) e.2 := by
  rw [State.checkInForce] at refused
  simp only [State.hRead, runs, refused, Bool.not_true, Bool.false_eq_true, if_false]

/-- A store enters the store buffer piece by piece, once every piece has passed. -/
theorem State.hStore_passed {ps : List HPiece} (v : Word) (passed : s.checkInForce c k .store addr.toNat size = .ok ps) :
    s.hStore c k addr size v =
      let a := (s.mpuInForce c k).2.attrInForce c k
      (State.storePieces c k a.1 a.2 (leBytes size v.toNat) ps).retire c k := by
  rw [State.checkInForce] at passed
  simp only [State.hStore, runs, passed, Bool.not_true, Bool.false_eq_true, if_false]

/-- A store whose piece is refused takes the fault of that piece and stores nothing. -/
theorem State.hStore_refused {e : HFault × Nat} (v : Word) (refused : s.checkInForce c k .store addr.toNat size = .error e) :
    s.hStore c k addr size v = (s.mpuInForce c k).2.hFault c k e.1 (s.hcore c k).pc.toNat e.2 := by
  rw [State.checkInForce] at refused
  simp only [State.hStore, runs, refused, Bool.not_true, Bool.false_eq_true, if_false]

end

/-! ## LR, SC and AMO (R410, R411) -/

/-- An atomic access that is not naturally aligned traps before any other check. -/
theorem State.atomicAt_misaligned {addr : Word} {size : Nat} (kind : HKind) (misaligned : addr.toNat % size ≠ 0) :
    s.atomicAt c k kind addr size = .inl (s.hTrap c k (if kind = .load then 4 else 6) addr.toNat) :=
  if_pos misaligned

section
variable (runs : s.hRuns c k = true)
include runs

/-- LR that faults on its way leaves what the fault leaves. -/
theorem State.hLr_faults {t : State} {addr : Word} {size : Nat} (faults : s.atomicAt c k .load addr size = .inl t) (rd : Nat)
    (ecc : Eccs) : s.hLr c k rd addr size ecc = t := by
  simp only [State.hLr, runs, faults, Bool.not_true, Bool.false_eq_true, if_false]

/-- An AMO that faults on its way leaves what the fault leaves. -/
theorem State.hAmo_faults {t : State} {addr : Word} {size : Nat} (faults : s.atomicAt c k .store addr size = .inl t) (op : AmoOp)
    (rd : Nat) (v : Word) (ecc : Eccs) : s.hAmo c k op rd addr size v ecc = t := by
  simp only [State.hAmo, runs, faults, Bool.not_true, Bool.false_eq_true, if_false]

section
variable {t : State} {rd size key : Nat} {addr : Word} {ecc : Eccs} (reached : s.atomicAt c k .load addr size = .inr (t, key))
include reached

/-- LR of clean data loads it and reserves its 64-byte block. -/
theorem State.hLr_clean (clean : (t.eccAt key size ecc (some (s.cluster c).part)).pool.tainted key size = false) :
    s.hLr c k rd addr size ecc =
      let t1 := t.eccAt key size ecc (some (s.cluster c).part)
      (t1.modHcore c k (fun h =>
        ({ h with reservation := some (key / 64) }).setX rd (extend true size (leNat (t1.pool.bytes key size))))).retire c k := by
  simp only [State.hLr, runs, reached, clean, Bool.not_true, Bool.false_eq_true, if_false]

/-- LR of poisoned data takes a load access fault. -/
theorem State.hLr_poisoned (poisoned : (t.eccAt key size ecc (some (s.cluster c).part)).pool.tainted key size = true) :
    s.hLr c k rd addr size ecc =
      (t.eccAt key size ecc (some (s.cluster c).part)).hFault c k (5, true) (s.hcore c k).pc.toNat addr.toNat := by
  simp only [State.hLr, runs, reached, poisoned, Bool.not_true, Bool.false_eq_true, if_false, if_true]

end

section
variable {t : State} {rd size key : Nat} {addr v : Word} (reached : s.atomicAt c k .store addr size = .inr (t, key))
include reached

/-- SC under its reservation stores and answers 0. -/
theorem State.hSc_succeeds (reserved : (t.hcore c k).reservation = some (key / 64)) :
    s.hSc c k rd addr size v false =
      ((t.poolWrite key (leBytes size v.toNat) false (fun _ => true)).modHcore c k
        (fun h => ({ h with reservation := none }).setX rd 0)).retire c k := by
  simp [State.hSc, runs, reached, reserved]

/-- SC without its reservation, or failing spuriously, answers 1. -/
theorem State.hSc_fails {spurious : Bool} (fails : (t.hcore c k).reservation ≠ some (key / 64) ∨ spurious = true) :
    s.hSc c k rd addr size v spurious =
      (t.modHcore c k (fun h => ({ h with reservation := none }).setX rd 1)).retire c k := by
  have failed : ((t.hcore c k).reservation == some (key / 64) && !spurious) = false := by
    rcases fails with lost | rfl
    · simp [lost]
    · simp
  simp only [State.hSc, runs, reached, failed, Bool.not_true, Bool.false_eq_true, if_false]

variable {op : AmoOp} {ecc : Eccs}

/-- An AMO of clean data leaves its result in memory and the old value in `rd`; the core's own reservation stays. -/
theorem State.hAmo_clean (clean : (t.eccAt key size ecc (some (s.cluster c).part)).pool.tainted key size = false) :
    s.hAmo c k op rd addr size v ecc =
      let t1 := t.eccAt key size ecc (some (s.cluster c).part)
      let old := leNat (t1.pool.bytes key size)
      let mine := (t1.hcore c k).reservation
      ((t1.poolWrite key (leBytes size (amoResult op size old v.toNat)) false (fun _ => true)).modHcore c k (fun h =>
        ({ h with reservation := mine }).setX rd (extend true size old))).retire c k := by
  simp only [State.hAmo, runs, reached, clean, Bool.not_true, Bool.false_eq_true, if_false]

/-- An AMO of poisoned data takes a store access fault. -/
theorem State.hAmo_poisoned (poisoned : (t.eccAt key size ecc (some (s.cluster c).part)).pool.tainted key size = true) :
    s.hAmo c k op rd addr size v ecc =
      (t.eccAt key size ecc (some (s.cluster c).part)).hFault c k (7, true) (s.hcore c k).pc.toNat addr.toNat := by
  simp only [State.hAmo, runs, reached, poisoned, Bool.not_true, Bool.false_eq_true, if_false, if_true]

end
end
end

/-- Settles O45: each event is its operation on a die that works, and the lemma on that operation says what it leaves. -/
theorem hearthAccessesTakeEffect : Obligations.HearthAccessesTakeEffect := by
  unfold Obligations.HearthAccessesTakeEffect
  refine ⟨?accesses, ?atomics, ?still⟩
  case accesses =>
    intro s c k rd size addr sgn ecc v on runs
    exact ⟨fun ps passed => State.live_working_eq on (State.hRead_passed runs sgn ecc passed),
      fun e refused => State.live_working_eq on (State.hRead_refused runs sgn ecc refused),
      fun ps passed => State.live_working_eq on (State.hRead_passed runs false ecc passed),
      fun ps passed => State.live_working_eq on (State.hStore_passed runs v passed),
      fun e refused => State.live_working_eq on (State.hStore_refused runs v refused)⟩
  case atomics =>
    intro s t c k rd size key addr v ecc op on runs
    exact ⟨fun reached clean => State.live_working_eq on (State.hLr_clean runs reached clean),
      fun reached poisoned => State.live_working_eq on (State.hLr_poisoned runs reached poisoned),
      fun reached reserved => State.live_working_eq on (State.hSc_succeeds runs reached reserved),
      fun spurious reached fails => State.live_working_eq on (State.hSc_fails runs reached fails),
      fun reached clean => State.live_working_eq on (State.hAmo_clean runs reached clean),
      fun reached poisoned => State.live_working_eq on (State.hAmo_poisoned runs reached poisoned),
      fun misaligned =>
        ⟨State.live_working_eq on (State.hLr_faults runs (State.atomicAt_misaligned .load misaligned) rd ecc),
          State.live_working_eq on (State.hAmo_faults runs (State.atomicAt_misaligned .store misaligned) op rd v ecc)⟩⟩
  case still =>
    intro s c k rd size addr v sgn ecc on still
    exact ⟨State.live_working_eq on (State.hRead_still still rd addr size sgn ecc),
      State.live_working_eq on (State.hStore_still still addr size v)⟩

/-! ## Fences (R400, R402, R403, R407) -/

/-- What a core has written of its MPU and of KATTR is in force. -/
def State.tablesInForce (s : State) (c k : Nat) : State := s.modHcore c k (fun h => { h with mpuEff := h.mpu, attrEff := h.attr })

section
variable {s : State} {c k : Nat}

section
variable (runs : s.hRuns c k = true)
include runs

theorem State.hFence_runs (pred : Nat) : s.hFence c k pred = s.sysFence c k (pred % 16) := if_pos runs

theorem State.hFenceI_runs : s.hFenceI c k = (s.drainAll c k).retire c k := if_pos runs

/-- A KFENCE encoding that R402 reserves is an illegal instruction. -/
theorem State.hKfence_reserved {word : Nat} (reserved : kfenceOk word = false) : s.hKfence c k word = s.hIllegal c k word := by
  simp [State.hKfence, runs, reserved]

section
variable {word : Nat} (defined : kfenceOk word = true)
include defined

/-- Core scope only puts the written tables in force. -/
theorem State.hKfence_core (scope : bits word 29 28 = 0) : s.hKfence c k word = (s.tablesInForce c k).retire c k := by
  simp only [State.hKfence, State.tablesInForce, runs, defined, scope, Bool.not_true, Bool.false_eq_true, if_false]

/-- Cluster scope drains the store buffer too. -/
theorem State.hKfence_cluster (scope : bits word 29 28 = 1) :
    s.hKfence c k word = ((s.tablesInForce c k).drainAll c k).retire c k := by
  simp only [State.hKfence, State.tablesInForce, runs, defined, scope, Bool.not_true, Bool.false_eq_true, if_false]

/-- System scope waits for the writes of the predecessor set. -/
theorem State.hKfence_system (scope : bits word 29 28 = 2) :
    s.hKfence c k word = (s.tablesInForce c k).sysFence c k (bits word 27 24) := by
  simp only [State.hKfence, State.tablesInForce, runs, defined, scope, Bool.not_true, Bool.false_eq_true, if_false]

end

/-! ## Writes of the core's registers (R396, R406, R408) -/

/-- A write in a mode that may make it is performed. -/
theorem State.csrWrite_performed {may : HMode → Bool} (allowed : may (s.hcore c k).mode = true) (f : HCore → HCore) :
    s.csrWrite c k may f = (s.modHcore c k f).retire c k := by
  simp [State.csrWrite, runs, allowed]

/-- A write in any other mode is an illegal instruction. -/
theorem State.csrWrite_illegal {may : HMode → Bool} (forbidden : may (s.hcore c k).mode = false) (f : HCore → HCore) :
    s.csrWrite c k may f = s.hIllegal c k 0 := by
  simp [State.csrWrite, runs, forbidden]

end

/-! ## A fence that waits (R407, R409) -/

section
variable {pred : Nat} (cluster : (s.cluster c).st = .running) (waits : (s.hcore c k).wait = some (.fence pred))
include cluster waits

theorem State.hFenceRetire_met (met : (s.hcore c k).fenceMet pred = true) :
    s.hFenceRetire c k = (s.retire c k).modHcore c k HCore.fenceRetire := by
  simp only [State.hFenceRetire, waits, met, cluster, and_self, if_true]

omit cluster in
theorem State.hFenceRetire_unmet (unmet : (s.hcore c k).fenceMet pred = false) : s.hFenceRetire c k = s := by
  simp only [State.hFenceRetire, waits, unmet, Bool.false_eq_true, false_and, if_false]

/-- The fence watch of a core that waits raises interrupt 16. -/
theorem State.fenceWatch_waiting (runs : (s.hcore c k).running = true) (watch : (s.hcore c k).kfwatch ≠ 0) :
    s.fenceWatch c k = (s.modHcore c k (fun h => { h with sip16 := true })).hInterrupts :=
  if_pos ⟨cluster, runs, by simp [waits], watch⟩

end

/-! ## The alarm (R385, R386, R414) -/

section
variable (noAlarm : (s.cluster c).alarmComp = none)
include noAlarm

/-- A request takes the lowest free comparator while Hearth holds fewer than two. -/
theorem State.alarmRequest_takes {n : Nat} (free : s.freeComp = some n) (room : s.hearthComps < 2) :
    s.alarmRequest c =
      (s.setComp n (holdHearth c)).modCluster c (fun x => { x with alarmComp := some n, alarmStatus := rcOk }) := by
  simp [State.alarmRequest, noAlarm, free, room]

/-- A request that finds no comparator free reads BUSY_RESOURCE. -/
theorem State.alarmRequest_busy (taken : s.freeComp = none) :
    s.alarmRequest c = s.modCluster c (fun x => { x with alarmStatus := rcBusy }) := by
  simp [State.alarmRequest, noAlarm, taken]

end

/-- An alarm with a comparator fires once the counter has reached its time. -/
theorem State.alarmFire_due (held : (s.cluster c).alarmComp ≠ none) (due : (s.cluster c).alarmCmp.toNat ≤ s.time.frcNs) :
    s.alarmFire c = (s.modCluster c (fun x => { x with alarmFired := true })).setMip c 0 17 true :=
  if_pos ⟨Option.isSome_iff_ne_none.mpr held, due⟩

/-! ## The end of a stop (R417) -/

/-- A stopping cluster with no access inside the module is stopped. -/
theorem State.clusterStopDone_quiet (stopping : (s.cluster c).st = .stopping) (quiet : s.clusterBusy c = false) :
    s.clusterStopDone c = s.clusterStopped c :=
  if_pos ⟨stopping, by simp [quiet]⟩

end

/-- Settles O46: each event is its operation on a die that works, and the lemma on that operation says what it leaves. -/
theorem hearthFencesTakeEffect : Obligations.HearthFencesTakeEffect := by
  unfold Obligations.HearthFencesTakeEffect
  refine ⟨?instructions, ?waiting, ?cluster⟩
  case instructions =>
    intro s c k pred succ word n csr v on runs
    refine ⟨State.live_working_eq on (State.hFence_runs runs pred), State.live_working_eq on (State.hFenceI_runs runs), ?kfence,
      fun reserved => State.live_working_eq on (State.hKfence_reserved runs reserved), ?machine, ?user⟩
    case kfence =>
      intro _ defined
      exact ⟨fun scope => State.live_working_eq on (State.hKfence_core runs defined scope),
        fun scope => State.live_working_eq on (State.hKfence_cluster runs defined scope),
        fun scope => State.live_working_eq on (State.hKfence_system runs defined scope)⟩
    case machine =>
      intro mode
      have machine : machineOnly (s.hcore c k).mode = true := by rw [mode]; rfl
      have privileged : notUser (s.hcore c k).mode = true := by rw [mode]; rfl
      exact ⟨fun cfg => State.live_working_eq on (State.csrWrite_performed runs machine _),
        State.live_working_eq on (State.csrWrite_performed runs machine _),
        State.live_working_eq on (State.csrWrite_performed runs privileged _)⟩
    case user =>
      intro mode
      have notMachine : machineOnly (s.hcore c k).mode = false := by rw [mode]; rfl
      have unprivileged : notUser (s.hcore c k).mode = false := by rw [mode]; rfl
      exact ⟨fun cfg => State.live_working_eq on (State.csrWrite_illegal runs notMachine _),
        State.live_working_eq on (State.csrWrite_illegal runs notMachine _),
        State.live_working_eq on (State.csrWrite_illegal runs unprivileged _)⟩
  case waiting =>
    intro s c k pred on cluster waits
    exact ⟨fun met => State.live_working_eq on (State.hFenceRetire_met cluster waits met),
      fun unmet => State.live_working_eq on (State.hFenceRetire_unmet waits unmet),
      fun runs watch => State.live_working_eq on (State.fenceWatch_waiting cluster waits runs watch)⟩
  case cluster =>
    intro s c on
    exact ⟨fun n noAlarm free room => State.live_working_eq on (State.alarmRequest_takes noAlarm free room),
      fun noAlarm taken => State.live_working_eq on (State.alarmRequest_busy noAlarm taken),
      State.live_working on (s.alarmRelease c),
      fun held due => State.live_working_eq on (State.alarmFire_due held due),
      fun k due => State.live_working_eq on (if_pos due),
      fun k v => State.live_working on (s.msipWrite c k v),
      fun stopping quiet => State.live_working_eq on (State.clusterStopDone_quiet stopping quiet)⟩

/-! ## The debug module (R415) -/

section
variable {s : State} {c a : Nat}

/-- A refused access of a debugger raises source 4 and ends with its error. -/
theorem State.debugAccess_refused (refused : s.debugRefused c a = true) (abs : Bool) (k : Nat) (write : Bool) (size v : Nat) :
    s.debugAccess abs c k write a size v =
      (s.raiseAt (0x2E + c) 4 (some (s.cluster c).part) (some 73)).debugEnd abs (debugError abs) :=
  if_pos refused

section
variable (clear : s.debugRefused c a = false) (abs : Bool) (k size v : Nat)
include clear

theorem State.debugAccess_reads : s.debugAccess abs c k false a size v = s.debugRead abs c k a size := by
  simp [State.debugAccess, clear]

theorem State.debugAccess_writes : s.debugAccess abs c k true a size v = s.debugWrite abs c k a size v := by
  simp [State.debugAccess, clear]

end
end

/-- Settles O47: an abstract command on a register is one access to it, and the lemmas on a memory access say whether it is refused. -/
theorem debugModuleTakesEffect : Obligations.DebugModuleTakesEffect := by
  unfold Obligations.DebugModuleTakesEffect
  intro s c k r n size v a on
  refine ⟨State.live_working on (s.abstractCmd c k (.readX r)), State.live_working on (s.abstractCmd c k (.writeX r v)),
    State.live_working on (s.abstractCmd c k (.readF r)), State.live_working on (s.abstractCmd c k (.writeF r v)),
    State.live_working on (s.abstractCmd c k (.readCsr n)), State.live_working on (s.abstractCmd c k (.writeCsr n v)),
    ?clear, ?refused⟩
  case clear =>
    intro clear
    exact ⟨State.live_working_eq on (State.debugAccess_reads clear true k size 0),
      State.live_working_eq on (State.debugAccess_writes clear true k size v.toNat),
      State.live_working_eq on (State.debugAccess_reads clear false 0 size v.toNat),
      State.live_working_eq on (State.debugAccess_writes clear false 0 size v.toNat)⟩
  case refused =>
    intro refused
    exact ⟨fun write => State.live_working_eq on (State.debugAccess_refused refused false 0 write size v.toNat),
      State.live_working_eq on (State.debugAccess_refused refused true k false size 0)⟩

end Sys2Proof.Machine
end

section
/-! PROOFS. The event rings (R448, R449), the events of the fault collector and of the ledger (R430 to R451), and the commands of the fault
group (R431 to R452): what each operation or body does on the path the spec describes. -/

namespace Sys2Proof.Machine

open Sys2Proof

/-! ## The event ring of a partition (R448, R449) -/

/-- An MSI-X message leaves the collector as it was, sent or pending. -/
theorem State.msix_flt (s : State) (p vec : Nat) : (s.msix p vec).flt = s.flt := by
  have sent : (s.msixSend p vec).flt = s.flt := by
    simp only [State.msixSend, State.msixOut, State.toHost]
    split <;> rfl
  rw [State.msix]
  split
  · rfl
  · split
    · rfl
    · exact sent

/-- The vectors sent for a record leave the collector as it was. -/
theorem State.ringVectors_flt (s : State) (p e : Nat) : (s.ringVectors p e).flt = s.flt := by
  simp only [State.ringVectors]
  split <;> split <;> simp only [State.msix_flt]

/-- Changing a ring changes it by the function given. -/
@[simp] theorem State.ring_modRing (s : State) (p : Nat) (f : EvRing → EvRing) : (s.modRing p f).ring p = f (s.ring p) := by
  simp [State.ring, State.modRing, State.modFlt, tmod, tget_tset]

section
variable {s : State} {p : Nat} {r : EvRec}

/-- A ring that is disabled, or an event whose vector byte has EN clear, takes no record. -/
theorem State.ringWrite_closed (closed : (s.ring p).ringEn = false ∨ bit ((s.ring p).vectorOf r.id) 7 = false) :
    s.ringWrite p r = s :=
  if_pos (by simpa using closed)

section
variable (ring : (s.ring p).ringEn = true) (enabled : bit ((s.ring p).vectorOf r.id) 7 = true)
include ring enabled

/-- A full ring counts the record lost. -/
theorem State.ringWrite_full (full : ((s.ring p).prod + 65536 - (s.ring p).cons) % 65536 = 4096) :
    (s.ringWrite p r).ring p = { s.ring p with lost := sat 65535 (s.ring p).lost 1, overflow := true } := by
  simp [State.ringWrite, ring, enabled, full]

/-- A ring with room takes the record at PROD. -/
theorem State.ringWrite_room (room : ((s.ring p).prod + 65536 - (s.ring p).cons) % 65536 ≠ 4096) :
    (s.ringWrite p r).ring p =
      { s.ring p with
        ring := tset (s.ring p).ring ((s.ring p).prod % 4096) { r with seq := (s.ring p).seq }
        prod := ((s.ring p).prod + 1) % 65536, seq := ((s.ring p).seq + 1) % 2 ^ 32 } := by
  have written : ¬ ((!(s.ring p).ringEn) = true ∨ (!bit ((s.ring p).vectorOf r.id) 7) = true) := by simp [ring, enabled]
  rw [State.ringWrite, if_neg written, if_neg room, State.ring, State.ringVectors_flt]
  exact State.ring_modRing s p _

end
end

/-- Settles O18: the three cases of writing a record. -/
theorem eventRingInOrder : Obligations.EventRingInOrder := by
  unfold Obligations.EventRingInOrder
  intro s p r
  refine ⟨State.ringWrite_closed, ?full, ?room⟩
  case full =>
    intro ring enabled full
    rw [State.ringWrite_full ring enabled full]
    exact ⟨rfl, rfl, rfl, rfl, rfl⟩
  case room =>
    intro ring enabled room
    rw [State.ringWrite_room ring enabled room]
    exact ⟨by simp [tget_tset], rfl, fun i other => by simp [tget_tset, other.symm], rfl, rfl⟩

/-! ## Detections (R434, R451) -/

section
variable {s : State} {src : Nat}

/-- In reset a detector reports nothing. -/
theorem State.detected_inReset (down : s.dieUp = false) (attr port : Option Nat) (addr : Word) :
    s.detected src attr port addr = s :=
  if_pos (by simp [down])

section
variable (up : s.dieUp = true) {addr : Word}
include up

/-- A source that no injection corrupted is logged at its port and raised. -/
theorem State.detected_genuine (genuine : (s.detectedIn src addr).flt.corrupt.find? (fun e => e.1 == src) = none)
    (attr port : Option Nat) :
    s.detected src attr port addr = ((s.detectedIn src addr).aerLog src port).raise src attr port addr false := by
  simp only [State.detected, up, genuine, Bool.not_true, Bool.false_eq_true, if_false]

/-- A source under injected corruption takes the injection up and is raised as injected. -/
theorem State.detected_injected {e : Nat × Nat × Nat}
    (injected : (s.detectedIn src addr).flt.corrupt.find? (fun e => e.1 == src) = some e) (attr port : Option Nat) :
    s.detected src attr port addr =
      (((s.detectedIn src addr).modFlt (fun f => { f with corrupt := f.corrupt.erase e })).aerLog src port).raise src attr
        port addr true := by
  simp only [State.detected, up, injected, Bool.not_true, Bool.false_eq_true, if_false]

end
end

/-! ## The end of a block reset (R437, R440) -/

/-- Block `b` is no longer resetting. -/
def State.resetEnded (s : State) (b : Nat) : State :=
  s.modFlt (fun f => { f with handling := f.handling.map (fun h => if h.block = b then { h with resetting := false } else h) })

section
variable {s : State} {b : Nat}

/-- A block that is not being reset is not made ready. -/
theorem State.blockReady_notResetting (idle : s.flt.handling.any (fun h => h.block == b && h.resetting) = false) :
    s.blockReady b = s :=
  if_pos (.inl (by rw [idle]; rfl))

section
variable (resets : s.flt.handling.any (fun h => h.block == b && h.resetting) = true)
include resets

/-- A block other than a plane becomes ready, a cluster once it has stopped. -/
theorem State.blockReady_ready (kind : blockKind b ≠ .plane) (stopped : blockKind b = .hearth → (s.cluster (b - 0x2E)).st = .stopped) :
    s.blockReady b = s.resetEnded b := by
  have settled : ¬ (blockKind b = .hearth ∧ (s.cluster (b - 0x2E)).st ≠ .stopped) := fun ⟨hearth, going⟩ => going (stopped hearth)
  simp only [State.blockReady, State.resetEnded, resets, kind, settled, Bool.not_true, Bool.false_eq_true, false_and, or_self, if_false]

/-- A plane that left for a reset returns once its cells have crossed. -/
theorem State.blockReady_plane (kind : blockKind b = .plane) (crossed : (s.plane (b - 0x22)).leaving = false)
    (left : (s.plane (b - 0x22)).leaveFor = 1) : s.blockReady b = (s.resetEnded b).planeReturn (b - 0x22) := by
  have notHearth : BlockKind.plane ≠ .hearth := nofun
  simp only [State.blockReady, State.resetEnded, resets, kind, crossed, left, notHearth, Bool.not_true, Bool.false_eq_true, and_false,
    false_and, and_self, or_self, if_true, if_false]

end
end

/-! ## The ledger's flash record (R445, R446) -/

/-- With Ember's service up the ledger is copied to flash. -/
theorem State.flashCopy_served {s : State} (served : s.ember.fwReady = true) :
    s.flashCopy = { s with nv := { s.nv with ledger := some s.flt.ledger }, flt := { s.flt with flashAge := 0 } } :=
  if_neg (by simp [served])

section
variable {s : State} {h : Nat} {r : List Nat} (waits : s.flt.flashWait = h :: r)
include waits

/-- The flash record of a cleared ledger has been rewritten as zeros. -/
theorem State.flashCleared_good :
    s.flashCleared true =
      let s1 := s.modFlt (fun f => { f with flashWait := r })
      { s1 with nv := { s1.nv with ledger := some [] }, flt := { s1.flt with flashAge := 0 } }.endHandle h rcOk := by
  simp only [State.flashCleared, waits, if_true]

/-- The rewriting has failed: whether the old copy survives is left open (log 16). -/
theorem State.flashCleared_bad :
    s.flashCleared false =
      let s1 := s.modFlt (fun f => { f with flashWait := r })
      ((s1.freeBit.2.modNv (fun v => { v with ledger := if s1.freeBit.1 then none else v.ledger })).raiseAt 0x3A 2).endHandle h
        rcHwFault := by
  simp only [State.flashCleared, waits, Bool.false_eq_true, if_false]

end

/-- Settles O48: each event is its operation on a die out of reset, and the lemma on that operation says what it leaves. -/
theorem faultEventsTakeEffect : Obligations.FaultEventsTakeEffect := by
  unfold Obligations.FaultEventsTakeEffect
  refine ⟨?detected, ?block, ?ledger⟩
  case detected =>
    intro s src attr port addr
    exact ⟨fun down => State.done_of_eq (State.detected_inReset down attr port addr),
      fun up genuine => State.done_of_eq (State.detected_genuine up genuine attr port),
      fun e up injected => State.done_of_eq (State.detected_injected up injected attr port)⟩
  case block =>
    intro s b up
    exact ⟨fun resets kind stopped => State.onDie_up_eq up (State.blockReady_ready resets kind stopped),
      fun resets kind crossed left => State.onDie_up_eq up (State.blockReady_plane resets kind crossed left),
      fun idle => State.onDie_up_eq up (State.blockReady_notResetting idle),
      State.onDie_up up (s.shadowEnd b)⟩
  case ledger =>
    intro s up
    exact ⟨fun served => State.onDie_up_eq up (State.flashCopy_served served),
      fun h r waits => ⟨State.onDie_up_eq up (State.flashCleared_good waits), State.onDie_up_eq up (State.flashCleared_bad waits)⟩⟩

/-! ## The commands of the fault group (R431 to R452) -/

section
variable {w : Who} {q : Req} {s : State}

/-! ### The maps (R431, R452) -/

theorem cmdFltGetSummary_reports : ∃ d, d.length = 16 ∧ cmdFltGetSummary.body w q s = ok s d :=
  ⟨_, by simp, rfl⟩

/-- FLT_READ answers the S and M words of the blocks asked for, in the map of the partition acted on. -/
theorem cmdFltRead_reports (some_block : 1 ≤ q.u8 0x21) (inside : q.u8 0x20 + q.u8 0x21 ≤ 64) (rsvd : q.zero 0x22 2 = true) :
    cmdFltRead.body w q s = ok s ((List.range (q.u8 0x21)).flatMap (fun i =>
      leBytes 4 (s.sBits w.subject (q.u8 0x20 + i)).toNat ++ leBytes 4 (s.mBits w.subject (q.u8 0x20 + i)).toNat)) := by
  have first : q.u8 0x20 < 64 := by omega
  have count : q.u8 0x21 ≤ 64 := by omega
  simp only [cmdFltRead, firstBad, some_block, inside, rsvd, first, count, and_self, decide_true, if_true]

/-- FLT_CLEAR clears the bits named and answers the S bits that remain. -/
theorem cmdFltClear_clears (block : q.u8 0x20 < 64) (rsvd : q.zero 0x21 3 = true) :
    cmdFltClear.body w q s =
      let s1 := s.clearBits w.subject (q.u8 0x20) (BitVec.ofNat 32 (q.u32 0x24))
      ok s1 (leBytes 4 (s1.sBits w.subject (q.u8 0x20)).toNat ++ leBytes 4 0) := by
  simp only [cmdFltClear, firstBad, block, rsvd, decide_true, if_true]

/-! ### Reactions (R434 to R436, R450) -/

/-- FLT_SET_REACTION sets a row that R436 does not deny. -/
theorem cmdFltSetReaction_row (rsvd : q.zero 0x23 1 = true) (block : q.u8 0x20 < 64) (cls : q.u8 0x21 < 4)
    (valid : reactionValid (q.u8 0x20) (q.u8 0x21) (q.u8 0x22) = true)
    (allowed : reactionDenied (q.u8 0x20) (q.u8 0x21) (q.u8 0x22) = false) :
    cmdFltSetReaction.body w q s =
      ok (s.modFlt (fun f => { f with react := tset f.react (q.u8 0x20 * 4 + q.u8 0x21) (q.u8 0x22) })) := by
  have row : q.u8 0x20 ≠ 0xFF := by omega
  simp [cmdFltSetReaction, firstBad, rsvd, block, cls, valid, allowed, row]

/-- FLT_SET_REACTION of BLOCK 0xFF sets the sideband alert. -/
theorem cmdFltSetReaction_alert (rsvd : q.zero 0x23 1 = true) (all : q.u8 0x20 = 0xFF) (cls : q.u8 0x21 = 0) (alert : q.u8 0x22 ≤ 1) :
    cmdFltSetReaction.body w q s = ok (s.modFlt (fun f => { f with sbAlert := q.u8 0x22 == 1 })) := by
  simp [cmdFltSetReaction, firstBad, rsvd, all, cls, alert]

/-! ### The ledger (R445, R446) -/

/-- A list of numbers written as `n` bytes each takes `n` bytes per number. -/
theorem length_flatMap_leBytes {α : Type} (n : Nat) (f : α → Nat) (l : List α) :
    (l.flatMap (fun i => leBytes n (f i))).length = l.length * n := by
  simp only [List.length_flatMap, leBytes_length, List.map_const', List.sum_replicate, smul_eq_mul]

/-- FLT_LEDGER_READ answers 8 bytes of its record's age and source, then the 512 counters. -/
theorem cmdFltLedgerRead_reports :
    ∃ d, d.length = 1032 ∧ d.drop 8 = (List.range 512).flatMap (fun i => leBytes 2 (tget 0 s.flt.ledger i)) ∧
      cmdFltLedgerRead.body w q s = ok s d := by
  refine ⟨_, ?length, ?counters, rfl⟩
  case length =>
    simp only [List.length_append, leBytes_length, length_flatMap_leBytes, List.length_range, Nat.reduceAdd, Nat.reduceMul]
  case counters => exact List.drop_left' (by simp)

/-- FLT_LEDGER_CLEAR in FACTORY or RMA clears the ledger and its shadow, and waits for the flash behind a handle. -/
theorem cmdFltLedgerClear_clears (lifecycle : s.lifecycle = 0 ∨ s.lifecycle = 2) (room : s.handleFree w.caller = true) :
    cmdFltLedgerClear.body w q s =
      let h := s.newHandle w.caller 0x0A06
      pend ((h.2.modFlt (fun f => { f with ledger := [], flashWait := f.flashWait ++ [h.1] })).modKept (fun k =>
        { k with ledgerShadow := [] })) h.1 := by
  have allowed : ¬ (s.lifecycle ≠ 0 ∧ s.lifecycle ≠ 2) := by omega
  simp only [cmdFltLedgerClear, allowed, room, Bool.not_true, Bool.false_eq_true, if_false]

/-! ### Injection (R451) -/

section
variable (rsvd : q.zero 0x25 3 = true) (source : (faultClass (q.u16 0x20)).isSome = true) (unattributed : q.u8 0x23 = 0xFF)
include rsvd source unattributed

/-- MODE 0 raises the source COUNT times. -/
theorem cmdFltInject_raises (mode : q.u8 0x22 = 0) (count : q.u8 0x24 ≠ 0) :
    cmdFltInject.body w q s = ok (s.raiseTimes (q.u16 0x20) none (q.u8 0x24)) := by
  simp [cmdFltInject, firstBad, rsvd, source, unattributed, mode, count]

/-- MODE 1 or 2 corrupts the SRAM of the source. -/
theorem cmdFltInject_corrupts (mode : q.u8 0x22 = 1 ∨ q.u8 0x22 = 2) (count : q.u8 0x24 = 1) (sram : sramSource (q.u16 0x20) = true) :
    cmdFltInject.body w q s =
      ok (s.modFlt (fun f => { f with corrupt := f.corrupt ++ [(q.u16 0x20, q.u8 0x22, 0xFF)] })) := by
  have corrupts : q.u8 0x22 ≠ 0 := by omega
  have known : q.u8 0x22 ≤ 2 := by omega
  simp [cmdFltInject, firstBad, rsvd, source, unattributed, corrupts, known, count, sram]

end

/-! ### AER registers and the sideband queue (R119, R450) -/

/-- What FLT_AER_READ answers of a port's AER registers. -/
def Aer.said (a : Aer) : Bytes :=
  leBytes 4 a.uncStatus.toNat ++ leBytes 4 a.uncMask.toNat ++ leBytes 4 a.uncSev.toNat ++ leBytes 4 a.corStatus.toNat ++
    leBytes 4 a.corMask.toNat ++ leBytes 4 a.capCtl.toNat ++ leBytes 16 a.hdrLog.toNat

section
variable (port : q.u8 0x20 < 40) (role : (s.port (q.u8 0x20)).role = .downstream) (rsvd : q.zero 0x22 2 = true)
include port role rsvd

theorem cmdFltAerRead_reads (clear : q.u8 0x21 = 0) :
    cmdFltAerRead.body w q s = ok s (s.port (q.u8 0x20)).aer.said := by
  simp [cmdFltAerRead, Aer.said, firstBad, port, role, rsvd, clear]

/-- FLT_AER_READ with CLEAR clears both status registers after it has read them. -/
theorem cmdFltAerRead_clears (clear : q.u8 0x21 = 1) :
    cmdFltAerRead.body w q s =
      ok (s.modAer (q.u8 0x20) (fun x => { x with uncStatus := 0, corStatus := 0 })) (s.port (q.u8 0x20)).aer.said := by
  simp [cmdFltAerRead, Aer.said, firstBad, port, role, rsvd, clear]

end

/-- EV_POP takes the oldest records of the sideband queue and clears its lost count. -/
theorem cmdEvPop_takes (low : 1 ≤ q.u8 0x20) (high : q.u8 0x20 ≤ 126) (rsvd : q.zero 0x21 3 = true) :
    cmdEvPop.body w q s =
      let got := s.flt.sb.take (q.u8 0x20)
      let left := s.flt.sb.drop (q.u8 0x20)
      ok (s.modFlt (fun f => { f with sb := left, sbLost := 0 }))
        (leBytes 1 got.length ++ leBytes 1 (Nat.min 255 left.length) ++ leBytes 2 s.flt.sbLost ++ leBytes 4 0 ++
          got.flatMap EvRec.bytes) := by
  simp only [cmdEvPop, firstBad, low, high, rsvd, and_self, decide_true, if_true]

end

/-- Without ON_BEHALF a command acts on the partition that issued it (R74). -/
theorem whoOf_subject {c : Path} {p : Nat} {q : Req} (own : q.onBehalf = false) : (whoOf c p q).subject = p := by
  simp [whoOf, own]

/-- Settles O50: a command Ember serves leaves what its body answers, and the lemma on that body says what it is. -/
theorem faultCommandsComplete : Obligations.FaultCommandsComplete := by
  unfold Obligations.FaultCommandsComplete
  refine ⟨?summary, ?read, ?clear, ?setReaction, ?getReaction, ?ledgerRead, ?ledgerClear, ?inject, ?aer, ?pop⟩
  case summary =>
    intro s c p q served
    exact served.reports cmdFltGetSummary_reports
  case read =>
    intro s c p q served own some_block inside rsvd
    have answer := cmdFltRead_reports (w := whoOf c p q) (s := s) some_block inside rsvd
    rw [whoOf_subject own] at answer
    exact served.answers answer
  case clear =>
    intro s c p q served own block rsvd
    have answer := cmdFltClear_clears (w := whoOf c p q) (s := s) block rsvd
    rw [whoOf_subject own] at answer
    exact served.answers answer
  case setReaction =>
    intro s c p q served rsvd
    exact ⟨fun block cls valid allowed => served.answers (cmdFltSetReaction_row rsvd block cls valid allowed),
      fun all cls alert => served.answers (cmdFltSetReaction_alert rsvd all cls alert)⟩
  case getReaction =>
    intro s c p q served
    exact served.answers rfl
  case ledgerRead =>
    intro s c p q served
    obtain ⟨d, len, counters, answer⟩ := cmdFltLedgerRead_reports (w := whoOf c p q) (q := q) (s := s)
    exact ⟨d, len, counters, served.answers answer⟩
  case ledgerClear =>
    intro s c p q served _ lifecycle room
    exact served.answers (cmdFltLedgerClear_clears lifecycle room)
  case inject =>
    intro s c p q served rsvd source
    exact ⟨fun mode unattributed count => served.answers (cmdFltInject_raises rsvd source unattributed mode count),
      fun mode unattributed count sram => served.answers (cmdFltInject_corrupts rsvd source unattributed mode count sram)⟩
  case aer =>
    intro s c p q served port role rsvd
    exact ⟨fun clear => served.answers (cmdFltAerRead_reads port role rsvd clear),
      fun clear => served.answers (cmdFltAerRead_clears port role rsvd clear)⟩
  case pop =>
    intro s c p q served low high rsvd
    exact served.answers (cmdEvPop_takes low high rsvd)

end Sys2Proof.Machine
end

section
/-! PROOFS. The state after reset (R392, R431, R453, R460, R515), what the data path does in reset (R457, R460, R496), the step of an empty
queue (R572), and the events of reset and of the start (R453 to R472): what each operation does on the path the spec describes. -/

namespace Sys2Proof.Machine

open Sys2Proof

/-! ## Reset -/

/-- Settles O59: each field is as `State.reset` writes it, or as an empty table's default has it. -/
theorem resetLeaves : Obligations.ResetLeaves := by
  unfold Obligations.ResetLeaves
  refine ⟨rfl, ?sources, rfl, rfl, fun _ => rfl, fun _ => ⟨rfl, rfl⟩, fun _ => rfl, fun _ => ⟨rfl, rfl⟩, fun _ => rfl, rfl, fun _ => rfl,
    fun _ => rfl, rfl, rfl, rfl, rfl, rfl⟩
  case sources =>
    intro p b
    simp only [State.sBits, State.mBits]
    exact ⟨ite_self _, ite_self _⟩

/-- Settles O60: an arm of the data path is live only on a working die, one that ends an operation only while the die is up; a source
detected in reset does nothing of itself. -/
theorem eventsInResetDoNothing : Obligations.EventsInResetDoNothing := by
  unfold Obligations.EventsInResetDoNothing
  intro s
  refine ⟨?dataPath, ?operations⟩
  case dataPath =>
    intro off
    exact ⟨fun _ _ => State.live_not off _, fun _ => State.live_not off _, fun _ _ _ => State.live_not off _,
      fun _ => State.live_not off _, fun _ => State.live_not off _, fun _ _ _ => State.live_not off _,
      fun _ _ _ => State.live_not off _, fun _ _ _ => State.live_not off _, fun _ _ _ _ _ _ => State.live_not off _,
      fun _ => State.live_not off _, fun _ _ _ _ _ _ _ => State.live_not off _, fun _ _ _ _ _ => State.live_not off _,
      fun _ _ _ _ _ _ _ _ => State.live_not off _, fun _ _ => State.live_not off _, fun _ => State.live_not off _,
      fun _ => State.live_not off _, fun _ _ => State.live_not off _⟩
  case operations =>
    intro down
    exact ⟨fun _ => State.onDie_down down _, fun _ _ => State.onDie_down down _, fun _ => State.onDie_down down _,
      fun _ => State.onDie_down down _, fun _ _ _ _ _ _ => State.onDie_down down _, fun _ => State.onDie_down down _,
      fun _ attr port addr => State.done_of_eq (State.detected_inReset down attr port addr), State.onDie_down down _⟩

/-! ## The step of an empty queue (R572) -/

/-- With nothing queued a step is a tick. -/
theorem step_of_empty {s : State} (empty : s.pending = []) : step s = .next s.tick := by
  simp only [step, empty]

/-- Without auxiliary power a tick changes nothing. -/
theorem State.tick_of_off {s : State} (off : s.boot.phase = .off) : s.tick = s := if_pos off

/-- Settles O2. -/
theorem emptyQueueIsOneTick : Obligations.EmptyQueueIsOneTick := by
  unfold Obligations.EmptyQueueIsOneTick
  intro s empty
  exact ⟨step_of_empty empty, fun off => (step_of_empty empty).trans (by rw [State.tick_of_off off])⟩

/-! ## Sources 3 and 4 (R455, R456, R471) -/

section
variable {s : State}

/-- A pulse of MODULE_RESET_N below 100 ns is not taken. -/
theorem pulseTaken_of_lt {ns : Nat} (short : ns < 100) : pulseTaken ns = false := by
  have notLong : ¬ 1000 ≤ ns := by omega
  simp [pulseTaken, notLong, short]

/-- A pulse that is taken is a reset of source 3. -/
theorem State.moduleResetPulse_taken {ns : Nat} (taken : pulseTaken ns = true) : s.moduleResetPulse ns = s.moduleReset 3 0 :=
  if_pos taken

/-- A pulse that is not taken does nothing. -/
theorem State.moduleResetPulse_ignored {ns : Nat} (ignored : pulseTaken ns = false) : s.moduleResetPulse ns = s :=
  if_neg (by simp [ignored])

/-- The watchdog, running, sets its source and resets. -/
theorem State.watchdogOver_running (running : s.boot.watchdog = true) : s.watchdogOver = (s.raiseAt 0x32 3).moduleReset 4 0 :=
  if_pos running

/-- A watchdog that does not run does nothing. -/
theorem State.watchdogOver_idle (idle : s.boot.watchdog = false) : s.watchdogOver = s := if_neg (by simp [idle])

/-- The end of the pulse lets the supervisor go on. -/
theorem State.pulseEnd_pulsed (pulsed : s.boot.srcPulse = true) :
    s.pulseEnd = s.modBoot (fun b => { b with srcPulse := false, phase := if b.phase = .held then .hold else b.phase }) :=
  if_neg (by simp [pulsed])

/-- The start timer, not paused by a download, resets. -/
theorem State.startTimerOver_resets (runs : s.boot.startTimer = true) (host : s.boot.phase ≠ .hostDownload)
    (peer : s.boot.phase ≠ .peerDownload) : s.startTimerOver = s.moduleReset 4 4 :=
  if_pos ⟨runs, host, peer⟩

/-! ## The release edge and the stable interval (R460 to R472) -/

/-- At the end of the hold the start sequence runs to the image fetch. -/
theorem State.supervisorRelease_hold {env : BootEnv} (hold : s.boot.phase = .hold) :
    s.supervisorRelease env = ((s.released env).startChecks env).optionStep.imageFetch :=
  if_neg (not_not.mpr hold)

/-- A start that has been stable: PENDING and FAILED_STARTS are cleared. -/
def State.stableCleared (s : State) : State :=
  (s.modBoot (fun b => { b with stableWait := false })).modKept (fun k => (k.putBoot 30 30 0).putBoot 26 24 0)

section
variable (waits : s.boot.stableWait = true)
include waits

/-- An image that runs from no slot leaves the activation record. -/
theorem State.stableOver_noSlot (none : s.runningSlot = none) : s.stableOver = s.stableCleared := by
  simp [State.stableOver, waits, none, State.stableCleared]

/-- The slot to activate running, its record stays. -/
theorem State.stableOver_activated {n : Nat} (slot : s.runningSlot = some n) (same : s.nv.activation.getD s.boot.firstSlot = n) :
    s.stableOver = s.stableCleared := by
  simp [State.stableOver, waits, slot, same, State.stableCleared]

/-- Another slot running is recorded. -/
theorem State.stableOver_activates {n : Nat} (slot : s.runningSlot = some n) (other : s.nv.activation.getD s.boot.firstSlot ≠ n) :
    s.stableOver = s.stableCleared.modNv (fun v => { v with activation := some n }) := by
  simp [State.stableOver, waits, slot, other, State.stableCleared]

end

/-! ## Downloads (R469, R470) -/

/-- The address that the download page holds. -/
def State.dlAddrAsked (s : State) : Nat := leNat (mread 0 (s.page s.dlPart).cmdBuf 0 8)
/-- The size that the download page holds. -/
def State.dlSizeAsked (s : State) : Nat := leNat (mread 0 (s.page s.dlPart).cmdBuf 8 4)
/-- Address and size as GO takes them. -/
def State.dlTaken (s : State) : State :=
  s.modBoot (fun b => { b with dlAddr := BitVec.ofNat 64 s.dlAddrAsked, dlSize := BitVec.ofNat 32 s.dlSizeAsked })

section
variable (phase : s.boot.phase = .hostDownload)
include phase

/-- GO with a size out of range ends the download with BAD_LENGTH. -/
theorem State.downloadGo_badSize (idle : (s.page s.dlPart).st = .idle)
    (size : s.dlSizeAsked < 4 ∨ 0x03000000 < s.dlSizeAsked ∨ s.dlSizeAsked % 4 ≠ 0) :
    s.downloadGo = s.dlTaken.downloadEnd rcBadLength := by
  rw [State.downloadGo, if_neg (not_not.mpr phase), if_neg (not_not.mpr idle)]
  exact if_pos size

/-- GO with a size in range and Bus Master Enable set reads the image. -/
theorem State.downloadGo_reads (idle : (s.page s.dlPart).st = .idle) (low : 4 ≤ s.dlSizeAsked) (high : s.dlSizeAsked ≤ 0x03000000)
    (whole : s.dlSizeAsked % 4 = 0) (master : (s.vs s.dlPart).mgmt.busMaster = true) :
    s.downloadGo = ((s.dlTaken.modPage s.dlPart (fun g => { g with st := .busy })).modBoot (fun b => { b with dlBusy := true })).emit
      (.downloadRead (BitVec.ofNat 64 s.dlAddrAsked) s.dlSizeAsked) := by
  have inRange : ¬ (s.dlSizeAsked < 4 ∨ 0x03000000 < s.dlSizeAsked ∨ s.dlSizeAsked % 4 ≠ 0) := by omega
  rw [State.downloadGo, if_neg (not_not.mpr phase), if_neg (not_not.mpr idle)]
  exact (if_neg inRange).trans (if_neg (by simp [master]))

/-- An image that was read is judged, and started when it is good. -/
theorem State.downloadDone_read {image : Bytes} (busy : s.boot.dlBusy = true) :
    s.downloadDone image true =
      if s.imageStatus image = rcOk then (s.downloadEnd rcOk).startDownloaded 2 image else s.downloadEnd (s.imageStatus image) := by
  have waits : ¬ (s.boot.phase ≠ .hostDownload ∨ (!s.boot.dlBusy) = true) := by simp [phase, busy]
  rw [State.downloadDone, if_neg waits]
  by_cases good : s.imageStatus image = rcOk <;> simp [good]

/-- An image that could not be read ends the download with HW_FAULT. -/
theorem State.downloadDone_failed {image : Bytes} (busy : s.boot.dlBusy = true) :
    s.downloadDone image false = s.downloadEnd rcHwFault := by
  have waits : ¬ (s.boot.phase ≠ .hostDownload ∨ (!s.boot.dlBusy) = true) := by simp [phase, busy]
  have bad : rcHwFault ≠ rcOk := by decide
  rw [State.downloadDone, if_neg waits]
  simp [bad]

end

/-- The image of the peer last asked is started when it is good; else the next may be asked. -/
theorem State.peerImageIn_asked {m : Nat} {image : Bytes} (phase : s.boot.phase = .peerDownload) (waits : s.boot.peerWait = true)
    (asked : s.boot.asked.getLast? = some m) :
    s.peerImageIn m image =
      if s.imageStatus image = rcOk then s.startDownloaded 3 image else s.modBoot (fun b => { b with peerWait := false }) :=
  if_neg (by simp [phase, waits, asked])

end

/-- Settles O51: a cold reset is by its definition the state given; each other arm is its operation, on the branch of the lemma cited. -/
theorem resetEventsTakeEffect : Obligations.ResetEventsTakeEffect := by
  unfold Obligations.ResetEventsTakeEffect
  refine ⟨fun _ => ⟨rfl, rfl⟩, ?pulse, ?timers, ?release, ?stable, ?download, ?peer⟩
  case pulse =>
    intro s ns
    exact ⟨fun long => State.done_of_eq (State.moduleResetPulse_taken (pulseTaken_of_le long)),
      fun short => State.done_of_eq (State.moduleResetPulse_ignored (pulseTaken_of_lt short))⟩
  case timers =>
    intro s
    exact ⟨fun running => State.done_of_eq (State.watchdogOver_running running),
      fun idle => State.done_of_eq (State.watchdogOver_idle idle),
      fun pulsed => State.done_of_eq (State.pulseEnd_pulsed pulsed),
      fun runs host peer => State.done_of_eq (State.startTimerOver_resets runs host peer)⟩
  case release =>
    intro s env hold
    exact State.done_of_eq (State.supervisorRelease_hold hold)
  case stable =>
    intro s up waits
    exact ⟨fun none => State.onDie_up_eq up (State.stableOver_noSlot waits none),
      fun _ slot same => State.onDie_up_eq up (State.stableOver_activated waits slot same),
      fun _ slot other => State.onDie_up_eq up (State.stableOver_activates waits slot other)⟩
  case download =>
    intro s image up phase
    exact ⟨fun idle size => State.onDie_up_eq up (State.downloadGo_badSize phase idle size),
      fun idle low high whole master => State.onDie_up_eq up (State.downloadGo_reads phase idle low high whole master),
      fun busy => State.onDie_up_eq up (State.downloadDone_read phase busy),
      fun busy => State.onDie_up_eq up (State.downloadDone_failed phase busy)⟩
  case peer =>
    intro s m image up phase waits asked
    exact State.onDie_up_eq up (State.peerImageIn_asked phase waits asked)

end Sys2Proof.Machine
end

section
/-! PROOFS. The events of the supply (R484 to R502): what each operation does on the path the spec describes. -/

namespace Sys2Proof.Machine

open Sys2Proof

section
variable {s : State}

/-! ## POWER_EN and the rails (R485 to R490) -/

/-- POWER_EN asserted lets the start begin. -/
theorem State.powerEnOn_on (on : s.boot.phase ≠ .off) :
    s.powerEnOn = ((s.modLands (fun l => { l with powerEn := true })).modPwr (fun w => { w with enLow := 0 })).tryStart :=
  if_neg on

/-- POWER_EN as it is deasserted. -/
def State.enDropped (s : State) : State :=
  (s.modLands (fun l => { l with powerEn := false })).modPwr (fun w => { w with enLow := 0 })

/-- POWER_EN deasserted with the rails down ends the ramp. -/
theorem State.powerEnOff_railsDown (on : s.boot.phase ≠ .off) (runs : s.pwr.stopping = false) (down : s.railsDown = true) :
    s.powerEnOff = (s.enDropped.modPwr (fun w => { w with efuseOn := false, softStart := false, railRamp := false })).modBoot
      (fun b => { b with phase := .railsOff }) := by
  simp only [State.powerEnOff, on, runs, down, State.enDropped, false_or, Bool.false_eq_true, if_true, if_false]

/-- POWER_EN deasserted with the rails up is an orderly stop. -/
theorem State.powerEnOff_stops (on : s.boot.phase ≠ .off) (runs : s.pwr.stopping = false) (rails : s.railsDown = false) :
    s.powerEnOff = s.enDropped.freeNat.2.orderlyStop s.enDropped.freeNat.1 true := by
  simp only [State.powerEnOff, on, runs, rails, State.enDropped, false_or, Bool.false_eq_true, if_false]

/-- POWER_EN deasserted during a stop is only seen. -/
theorem State.powerEnOff_stopping (stopping : s.pwr.stopping = true) : s.powerEnOff = s.enDropped :=
  if_pos (.inr stopping)

/-- Soft start over, the rails ramp with the holdup measured. -/
theorem State.softStartOver_ramps {n : Nat} (ramp : s.boot.phase = .ramp) (soft : s.pwr.softStart = true) :
    s.softStartOver n = s.modPwr (fun w => { w with softStart := false, railRamp := true, choldUf := n % 65536 }) :=
  if_pos ⟨ramp, soft⟩

/-- Rails good, the supervisor holds. -/
theorem State.railsGood_holds (ramp : s.boot.phase = .ramp) (rails : s.pwr.railRamp = true) :
    s.railsGood = (s.modPwr (fun w => { w with railRamp := false, railsUp := true })).modBoot (fun b => { b with phase := .hold }) :=
  if_pos ⟨ramp, rails⟩

/-! ## Brownouts and their release (R492, R493) -/

/-- Below the reset threshold with the rails up and no stop under way is a brownout. -/
theorem State.resetThreshold_brownout (on : s.boot.phase ≠ .off) (rails : s.boot.phase ≠ .railsOff) (runs : s.pwr.stopping = false) :
    s.resetThreshold = (s.modPwr (fun w => { w with belowReset := true })).moduleReset 2 0 := by
  simp only [State.resetThreshold, on, rails, runs, Bool.false_eq_true, if_false]

/-- Over-voltage latches its cause and is a brownout. -/
theorem State.overVoltage_brownout (on : s.boot.phase ≠ .off) :
    s.overVoltage = ((s.modPwr (fun w => { w with ovLock := true, efuseOn := false })).latch 6).moduleReset 2 1 :=
  if_neg on

/-- A thermal trip latches its cause and is a brownout. -/
theorem State.thermalTrip_brownout (on : s.boot.phase ≠ .off) :
    s.thermalTrip = ((s.modLands (fun l => { l with thermTrip := true })).latch 10).moduleReset 2 2 :=
  if_neg on

/-- Above the release level the start may begin again. -/
theorem State.releaseLevel_on (on : s.boot.phase ≠ .off) :
    s.releaseLevel = (s.modPwr (fun w => { w with belowReset := false })).tryStart :=
  if_neg on

/-! ## The sag warning (R494 to R497) -/

/-- The clear level reached with no warning active arms the warning. -/
theorem State.warningClear_inactive {v : Nat} (on : s.boot.phase ≠ .off) (inactive : s.pwr.warnActive = false) :
    s.warningClear v =
      (s.modPwr (fun w => { w with warnArmed := true, warnActive := false, needClear := w.needClear && w.stopping })).tryStart := by
  simp only [State.warningClear, on, inactive, Bool.false_eq_true, if_false]

/-- The state in which an armed warning has fired: it is active, counted, and its source raised. -/
def State.warned (s : State) : State :=
  ((s.modPwr (fun w => { w with warnActive := true })).modKept (fun k => { k with sags := sat 65535 k.sags 1 })).raiseAt 0x36 0

section
variable (on : s.boot.phase ≠ .off) (rails : s.railsDown = false) (armed : s.pwr.warnArmed = true) (inactive : s.pwr.warnActive = false)
  (runs : s.pwr.stopping = false)
include on rails armed inactive runs

/-- The warning under SAG_ACTION 0 is an orderly stop. -/
theorem State.sagWarning_stops {v : Nat} (action : s.kept.power.sagAction = 0) : s.sagWarning v = s.warned.orderlyStop v false := by
  simp only [State.sagWarning, on, rails, armed, inactive, runs, action, State.warned, Bool.not_true, Bool.false_eq_true, or_self,
    if_true, if_false]

/-- The warning under another SAG_ACTION is told and the ledger copied to its shadow. -/
theorem State.sagWarning_records {v : Nat} (action : s.kept.power.sagAction ≠ 0) :
    s.sagWarning v = (s.warned.sagEvent v true false false).shadowCopy := by
  simp only [State.sagWarning, on, rails, armed, inactive, runs, action, State.warned, Bool.not_true, Bool.false_eq_true, or_self,
    if_false]

end

/-! ## The eFuse (R484) -/

/-- The state an eFuse that turns off leaves. -/
def State.efuseOpened (s : State) : State :=
  ((s.modPwr (fun w => { w with efuseOn := false, efuseLimit := false, efuseFails := s.pwr.efuseFails + 1,
                                efuseRetry := decide (s.pwr.efuseFails + 1 < 3) })).latch 5).moduleReset 2 3

section
variable (on : s.pwr.efuseOn = true)
include on

/-- An eFuse that conducts turns off. -/
theorem State.efuseOff_opens : s.efuseOff = s.efuseOpened := if_neg (by simp [on])

/-- The fault timer turns off an eFuse that limits. -/
theorem State.efuseTimer_opens (limit : s.pwr.efuseLimit = true) : s.efuseTimer = s.efuseOpened :=
  (if_pos limit).trans (State.efuseOff_opens on)

/-- An eFuse that limits with the rails up raises source 4. -/
theorem State.efuseLimit_raises (rails : s.railsDown = false) :
    s.efuseLimit = (s.modPwr (fun w => { w with efuseLimit := true })).raiseAt 0x36 4 := by
  simp only [State.efuseLimit, on, rails, Bool.not_true, Bool.false_eq_true, if_false]

/-- Ten seconds on end the count of failures. -/
theorem State.efuseHolds_on : s.efuseHolds = s.modPwr (fun w => { w with efuseFails := 0, efuseLimit := false }) := if_pos on

end

/-- An eFuse that is off does not turn off. -/
theorem State.efuseOff_off (off : s.pwr.efuseOn = false) : s.efuseOff = s := if_pos (by simp [off])

/-! ## Rails, temperature and telemetry (R501, R502) -/

section
variable (rails : s.railsDown = false)
include rails

/-- A main rail outside ±5 % raises source 7, outside ±10 % source 8 as well. -/
theorem State.railOut_raises {n : Nat} {ten : Bool} (low : 5 ≤ n) (high : n ≤ 13) :
    s.railOut n ten =
      let s1 := (s.modPwr (fun w => { w with railBand := true })).raiseAt 0x36 7
      if ten then s1.raiseAt 0x36 8 else s1 :=
  if_neg (by simp [rails, low, high])

/-- A temperature at or above the warning raises source 9. -/
theorem State.thermalWarning_raises {tj : Nat} (hot : s.kept.power.thermWarn ≤ tj) :
    s.thermalWarning tj = (s.modPwr (fun w => { w with thermWarn := true })).raiseAt 0x36 9 := by
  simp only [State.thermalWarning, rails, Nat.not_lt.mpr hot, Bool.false_eq_true, if_false]

/-- A temperature below the warning ends it. -/
theorem State.thermalWarning_clears {tj : Nat} (cool : tj < s.kept.power.thermWarn) :
    s.thermalWarning tj = s.modPwr (fun w => { w with thermWarn := false }) := by
  simp only [State.thermalWarning, rails, cool, Bool.false_eq_true, if_true, if_false]

/-- A telemetry sample is kept. -/
theorem State.telemetry_keeps {t : TeleSample} :
    s.telemetry t = s.modPwr (fun w =>
      { w with tele := teleOf t, efuseLimit := w.efuseLimit && decide (15000 ≤ t.iin),
               thermWarn := w.thermWarn && decide (2 * s.kept.power.thermWarn ≤ t.tj),
               railBand := w.railBand && !railsNear s.age.vddSet t }) :=
  if_neg (by simp [rails])

end
end

/-- Settles O52: every arm is its operation, on the branch of the lemma cited; without auxiliary power each takes its first branch. -/
theorem powerEventsTakeEffect : Obligations.PowerEventsTakeEffect := by
  unfold Obligations.PowerEventsTakeEffect
  refine ⟨?powered, ?restart, ?railsUp, ?unpowered⟩
  case powered =>
    intro s on
    exact ⟨State.done_of_eq (State.powerEnOn_on on),
      ⟨fun runs down => State.done_of_eq (State.powerEnOff_railsDown on runs down),
        fun runs rails => State.done_of_eq (State.powerEnOff_stops on runs rails),
        fun stopping => State.done_of_eq (State.powerEnOff_stopping stopping)⟩,
      fun rails runs => State.done_of_eq (State.resetThreshold_brownout on rails runs),
      State.done_of_eq (State.overVoltage_brownout on), State.done_of_eq (State.thermalTrip_brownout on),
      State.done_of_eq (State.releaseLevel_on on), fun _ inactive => State.done_of_eq (State.warningClear_inactive on inactive)⟩
  case restart =>
    intro s
    refine ⟨rfl, rfl, rfl, rfl, ?softStart, ?rails, ?efuse, ?off⟩
    case softStart => exact fun _ ramp soft => State.done_of_eq (State.softStartOver_ramps ramp soft)
    case rails => exact fun ramp rails => State.done_of_eq (State.railsGood_holds ramp rails)
    case efuse =>
      intro on
      exact ⟨State.done_of_eq (State.efuseOff_opens on), fun limit => State.done_of_eq (State.efuseTimer_opens on limit),
        fun rails => State.done_of_eq (State.efuseLimit_raises on rails), State.done_of_eq (State.efuseHolds_on on)⟩
    case off => exact fun off => State.done_of_eq (State.efuseOff_off off)
  case railsUp =>
    intro s v n tj t rails
    refine ⟨?sag, ?band, ?hot, ?cool, ?sample⟩
    case sag =>
      intro _ on armed inactive runs
      exact ⟨fun action => State.done_of_eq (State.sagWarning_stops on rails armed inactive runs action),
        fun action => State.done_of_eq (State.sagWarning_records on rails armed inactive runs action)⟩
    case band =>
      exact fun low high => ⟨State.done_of_eq (State.railOut_raises rails low high), State.done_of_eq (State.railOut_raises rails low high)⟩
    case hot => exact fun hot => State.done_of_eq (State.thermalWarning_raises rails hot)
    case cool => exact fun cool => State.done_of_eq (State.thermalWarning_clears rails cool)
    case sample => exact State.done_of_eq (State.telemetry_keeps rails)
  case unpowered =>
    intro s off
    exact ⟨State.done_of_eq (if_pos off), State.done_of_eq (if_pos off), State.done_of_eq (if_pos off), State.done_of_eq (if_pos off),
      State.done_of_eq (if_pos off)⟩

end Sys2Proof.Machine
end

section
/-! PROOFS. The commands of power and ageing (R499, R505, R506, R539, R545, R549): what each body does on the path the spec describes. -/

namespace Sys2Proof.Machine

open Sys2Proof

section
variable {w : Who} {q : Req} {s : State}

/-! ## Power (R505, R506) -/

/-- PWR_GET_STATUS answers 32 bytes. -/
theorem cmdPwrGetStatus_reports : ∃ d, d.length = 32 ∧ cmdPwrGetStatus.body w q s = ok s d :=
  ⟨_, by simp only [List.length_append, leBytes_length], rfl⟩

section
variable (rsvd : q.zero 0x26 2 = true) (held : s.kept.power.sagAction ≠ 0 ∨ holdEnough s.kept.power.vWarn s.pwr.choldUf = true)
include rsvd held

/-- PWR_SET_CONFIG of ALERT_MASK alone keeps it. -/
theorem cmdPwrSetConfig_alertMask (mask : q.u8 0x20 = 4) (value : q.u8 0x24 < 16) :
    cmdPwrSetConfig.body w q s =
      ok (s.modKept (fun k => { k with power := { k.power with alertMask := BitVec.ofNat 4 (q.u8 0x24) } })) := by
  have action : bit 4 0 = false := by decide
  have level : bit 4 1 = false := by decide
  have alert : bit 4 2 = true := by decide
  have therm : bit 4 3 = false := by decide
  simp [cmdPwrSetConfig, firstBad, PowerCfg.after, rsvd, held, mask, value, action, level, alert, therm]
  rfl

/-- PWR_SET_CONFIG of THERM_WARN_C from 85 to 110 keeps it. -/
theorem cmdPwrSetConfig_thermWarn (mask : q.u8 0x20 = 8) (low : 85 ≤ q.u8 0x25) (high : q.u8 0x25 ≤ 110) :
    cmdPwrSetConfig.body w q s = ok (s.modKept (fun k => { k with power := { k.power with thermWarn := q.u8 0x25 } })) := by
  have action : bit 8 0 = false := by decide
  have level : bit 8 1 = false := by decide
  have alert : bit 8 2 = false := by decide
  have therm : bit 8 3 = true := by decide
  simp [cmdPwrSetConfig, firstBad, PowerCfg.after, rsvd, held, mask, low, high, action, level, alert, therm]
  rfl

end

/-! ## Ageing (R539, R545, R549) -/

/-- AGE_GET_STATUS answers 32 bytes. -/
theorem cmdAgeGetStatus_reports : ∃ d, d.length = 32 ∧ cmdAgeGetStatus.body w q s = ok s d :=
  ⟨_, by simp only [List.length_append, leBytes_length], rfl⟩

section
variable (rsvd : q.zero 0x23 1 = true)
include rsvd

/-- AGE_SET_CONFIG outside PRODUCTION sets the steps and the least planning temperature. -/
theorem cmdAgeSetConfig_sets (mask : q.u8 0x20 = 3) (steps : q.u8 0x21 < 16) (lifecycle : s.lifecycle ≠ 1) (low : 70 ≤ q.u8 0x22)
    (high : q.u8 0x22 ≤ 105) :
    cmdAgeSetConfig.body w q s = ok (s.modAge (fun a => { a with stepEn := BitVec.ofNat 4 (q.u8 0x21), tjPlanMin := q.u8 0x22 })) := by
  have stepsNamed : bit 3 0 = true := by decide
  have leastNamed : bit 3 1 = true := by decide
  have planUnnamed : bit 3 2 = false := by decide
  simp [cmdAgeSetConfig, firstBad, rsvd, mask, steps, lifecycle, low, high, stepsNamed, leastNamed, planUnnamed]

/-- AGE_SET_CONFIG that asks for a plan opens its handle. -/
theorem cmdAgeSetConfig_plans (mask : q.u8 0x20 = 4) (idle : s.age.planning = false) (room : s.handleFree w.caller = true) :
    cmdAgeSetConfig.body w q s =
      let h := s.newHandle w.caller 0x0D03
      pend (h.2.modAge (fun a => { a with planning := true, planHandle := h.1 })) h.1 := by
  have stepsUnnamed : bit 4 0 = false := by decide
  have leastUnnamed : bit 4 1 = false := by decide
  have planNamed : bit 4 2 = true := by decide
  simp [cmdAgeSetConfig, firstBad, rsvd, mask, idle, room, stepsUnnamed, leastUnnamed, planNamed]
  rfl

end
end

/-- Settles O53: a command Ember serves leaves what its body answers, and the lemma on that body says what it is. -/
theorem powerCommandsComplete : Obligations.PowerCommandsComplete := by
  unfold Obligations.PowerCommandsComplete
  refine ⟨fun _ _ _ _ served => served.reports cmdPwrGetStatus_reports, ?powerSet,
    fun _ _ _ _ served => served.reports cmdAgeGetStatus_reports, ?ageSet⟩
  case powerSet =>
    intro s c p q served rsvd held _
    exact ⟨fun mask value => served.answers (cmdPwrSetConfig_alertMask rsvd held mask value),
      fun mask low high => served.answers (cmdPwrSetConfig_thermWarn rsvd held mask low high)⟩
  case ageSet =>
    intro s c p q served rsvd
    exact ⟨fun mask steps lifecycle low high => served.answers (cmdAgeSetConfig_sets rsvd mask steps lifecycle low high),
      fun mask _ idle room => served.answers (cmdAgeSetConfig_plans rsvd mask idle room)⟩

end Sys2Proof.Machine
end

section
/-! PROOFS. The counter sweep and the counter commands (R513 to R524): what each operation or body does on the path the spec describes. -/

namespace Sys2Proof.Machine

open Sys2Proof

/-! ## The sweep (R511 to R517) -/

section
variable {s : State}

/-- A die that works is up. -/
theorem State.working_dieUp (on : s.working) : s.dieUp = true := by
  simp only [State.working, State.inService, Bool.and_eq_true] at on
  exact on.1.1

/-- The sweep's record, as every block latches its counters. -/
def State.sweepRec (s : State) (span : Nat) : SwRec :=
  { seq := (s.cnt.seq + 1) % 2 ^ 32, time := s.time.ticks, ptpSec := s.time.ptpSec, ptpNs := s.time.ptpNs, span := span % 65536,
    owners := (List.range 4).map s.clusterOwner, ctrs := s.cnt.ctrs }

/-- A sweep takes its record to every stream. -/
theorem State.sweep_up {span : Nat} (up : s.dieUp = true) :
    s.sweep span = s.modCnt (fun c =>
      { c with seq := (s.cnt.seq + 1) % 2 ^ 32, streams := tmap c.streams (fun p x => x.take (s.streamWrites p x) (s.sweepRec span)) }) :=
  if_neg (by simp [up])

/-- A stream to which no sweep is due writes nothing. -/
theorem State.slotWrite_none {p : Nat} (none : (tget ({} : Stream) s.cnt.streams p).due = none) : s.slotWrite p = s := by
  simp only [State.slotWrite, none]

/-- A sweep due to an enabled stream that may write goes to the stream's next slot. -/
theorem State.slotWrite_due {p : Nat} {r : SwRec} (due : (tget ({} : Stream) s.cnt.streams p).due = some r)
    (enabled : (tget ({} : Stream) s.cnt.streams p).enabled = true)
    (writes : s.streamWrites p (tget ({} : Stream) s.cnt.streams p) = true) :
    s.slotWrite p =
      let x : Stream := tget {} s.cnt.streams p
      let w := (x.wcount + 1) % 2 ^ 32
      (s.slotPut p x (x.wcount % x.slots * 8192) (r.records p) (s.sweepHeader p w x r)).modCnt (fun c =>
        { c with streams := tmod {} c.streams p (fun y => { y with wcount := w, skipSlot := 0, due := none }) }) := by
  simp only [State.slotWrite, due]
  exact if_neg (not_or.mpr ⟨by rw [enabled]; decide, by rw [writes]; decide⟩)

end

/-! ## The counter commands (R510, R515, R518, R519, R524) -/

section
variable {w : Who} {q : Req} {s : State}

/-- CNT_READ of counters in range answers each as its reader may see it. -/
theorem cmdCntRead_reports (low : 1 ≤ q.u16 0x22) (high : q.u16 0x22 ≤ 253) (range : q.u16 0x20 + q.u16 0x22 ≤ 512) :
    cmdCntRead.body w q s = ok s (leBytes 2 (q.u16 0x20) ++ leBytes 2 (q.u16 0x22) ++ leBytes 4 0 ++
      (List.range (q.u16 0x22)).flatMap (fun i =>
        let x : Ctr := tget {} s.cnt.ctrs (q.u16 0x20 + i)
        if w.caller = 0 ∨ s.ctrOwner (q.u16 0x20 + i) = w.caller then
          leBytes 8 (withOwner x.cfg.toNat (s.ctrOwner (q.u16 0x20 + i))) ++
            leBytes 8 (x.value + b2n x.ovf * 2 ^ 48 + b2n x.wrcoll * 2 ^ 49)
        else List.replicate 16 0)) := by
  have first : q.u16 0x20 < 512 := by omega
  simp only [cmdCntRead, firstBad, first, low, high, range, and_self, decide_true, if_true]

/-- The checks of CNT_SET pass when its count is in range and each of its records obeys the rules. -/
theorem cmdCntSet_checks {good : Nat → Bool} {n : Nat} {rsvd : Bool} (low : 1 ≤ n) (high : n ≤ 169) (clear : rsvd = true)
    (records : ∀ i < n, good i = true) :
    firstBad ([(0x20, decide (1 ≤ n ∧ n ≤ 169)), (0x22, rsvd)] ++ (List.range (Nat.min 169 n)).map (fun i => (ctrOff i, good i))) =
      none := by
  have count : Nat.min 169 n = n := Nat.min_eq_right high
  simp only [firstBad_none, count, List.forall_mem_append, List.forall_mem_cons, List.forall_mem_map, List.mem_range]
  exact ⟨⟨by simp [low, high], clear, by simp⟩, records⟩

/-- CNT_SET writes its records at one instant. -/
theorem cmdCntSet_sets (low : 1 ≤ q.u16 0x20) (high : q.u16 0x20 ≤ 169) (rsvd : q.zero 0x22 6 = true)
    (records : ∀ i < q.u16 0x20,
      s.ctrRecordOk w.caller q i = true ∧ chainsOk (setCounters s.cnt.ctrs q) (q.u16 (ctrOff i)) = true) :
    cmdCntSet.body w q s = ok (s.modCnt (fun x => { x with ctrs := setCounters s.cnt.ctrs q })) := by
  have passed := cmdCntSet_checks low high rsvd (fun i small => Bool.and_eq_true_iff.mpr (records i small))
  simp only [cmdCntSet, passed]

section
variable (rsvd : q.zero 0x32 6 = true)
include rsvd

/-- CNT_SWEEP_SET of a period sets it. -/
theorem cmdCntSweepSet_period (mask : q.u8 0x20 = 1) (low : 1 ≤ q.u32 0x24) (high : q.u32 0x24 ≤ 1000000) :
    cmdCntSweepSet.body w q s = ok (s.modCnt (fun x => { x with periodUs := q.u32 0x24 })) := by
  have periodNamed : bit 1 0 = true := by decide
  have streamUnnamed : bit 1 1 = false := by decide
  simp [cmdCntSweepSet, firstBad, rsvd, mask, low, high, periodNamed, streamUnnamed]

/-- CNT_SWEEP_SET of a stream to stop stops it with cause 1. -/
theorem cmdCntSweepSet_stops {p : Nat} (subject : w.subject = p) (mask : q.u8 0x20 = 2) (off : q.u8 0x21 = 0) :
    cmdCntSweepSet.body w q s =
      let y : Stream := { tget {} s.cnt.streams p with enabled := false, cause := 1, due := none }
      ok (s.modCnt (fun x => { x with streams := tset x.streams p y })) := by
  subst subject
  have periodUnnamed : bit 2 0 = false := by decide
  have streamNamed : bit 2 1 = true := by decide
  simp [cmdCntSweepSet, firstBad, rsvd, mask, off, periodUnnamed, streamNamed]

/-- CNT_SWEEP_SET starts a stream into the pool's reserve. -/
theorem cmdCntSweepSet_starts {p : Nat} (subject : w.subject = p) (mask : q.u8 0x20 = 2) (on : q.u8 0x21 = 1) (dest : q.u8 0x22 = 0)
    (log : q.u8 0x23 = 0) (addr : q.u64 0x28 = 0) (divider : q.u16 0x30 ≠ 0) (pool : s.pool.present = true) :
    cmdCntSweepSet.body w q s =
      let y : Stream := { enabled := true, dest := 0, slotsLog2 := 0, addr := 0, divider := q.u16 0x30,
                          cause := (tget ({} : Stream) s.cnt.streams p).cause }
      ok (s.modCnt (fun x => { x with streams := tset x.streams p y })) := by
  subst subject
  have periodUnnamed : bit 2 0 = false := by decide
  have streamNamed : bit 2 1 = true := by decide
  simp [cmdCntSweepSet, firstBad, rsvd, mask, on, dest, log, addr, divider, pool, periodUnnamed, streamNamed]

end

/-- CNT_SWEEP_GET answers 32 bytes that begin with the period and the sequence number. -/
theorem cmdCntSweepGet_reports :
    ∃ d, d.length = 32 ∧ d.take 8 = leBytes 4 s.cnt.periodUs ++ leBytes 4 s.cnt.seq ∧ cmdCntSweepGet.body w q s = ok s d := by
  refine ⟨_, ?length, ?begins, rfl⟩
  case length => simp only [List.length_append, leBytes_length]
  case begins => simp only [List.append_assoc]; rw [← List.append_assoc]; exact List.take_left' (by simp)

end

/-- Settles O54: the events are their operations on a working die, and a command Ember serves leaves what its body answers. -/
theorem countersTakeEffect : Obligations.CountersTakeEffect := by
  unfold Obligations.CountersTakeEffect
  refine ⟨?sweep, ?slot, ?read, ?set, ?sweepSet, ?sweepGet⟩
  case sweep =>
    intro s span on
    exact State.live_working_eq on (State.sweep_up (State.working_dieUp on))
  case slot =>
    intro s p on
    exact ⟨fun none => State.live_working_eq on (State.slotWrite_none none),
      fun _ due enabled writes => State.live_working_eq on (State.slotWrite_due due enabled writes)⟩
  case read =>
    intro s c p q served low high range
    exact served.answers (cmdCntRead_reports low high range)
  case set =>
    intro s c p q served low high rsvd _ records
    exact served.answers (cmdCntSet_sets low high rsvd records)
  case sweepSet =>
    intro s c p q served rsvd
    refine ⟨?period, ?stop, ?start⟩
    case period => exact fun mask low high => served.answers (cmdCntSweepSet_period rsvd mask low high)
    case stop => exact fun mask off own => served.answers (cmdCntSweepSet_stops rsvd (whoOf_subject own) mask off)
    case start =>
      intro mask on own dest log addr divider pool
      exact served.answers (cmdCntSweepSet_starts rsvd (whoOf_subject own) mask on dest log addr divider pool)
  case sweepGet =>
    intro s c p q served
    obtain ⟨d, len, begins, answer⟩ := cmdCntSweepGet_reports (w := whoOf c p q) (q := q) (s := s)
    exact ⟨d, len, begins, served.answers answer⟩

end Sys2Proof.Machine
end

section
/-! PROOFS. Self-test (R530 to R532), lifecycle (R526 to R529) and the Char monitor and margin plan (R536, R539): what each operation or body
does on the path the spec describes. -/

namespace Sys2Proof.Machine

open Sys2Proof

/-! ## The Char monitor and the margin plan (R527, R536, R539) -/

section
variable {s : State}

/-- A sensor's record as it is sampled. -/
def laneSampled (margin base : Nat) (broken : Bool) : Lane := { margin := margin, base := base, bad := broken }

/-- A lane that does not become bad only has its record replaced. -/
theorem State.charSample_lane {i margin base : Nat} {broken : Bool} (known : broken = false ∨ (tget {} s.age.lanes i).bad = true) :
    s.charSample 1 i margin base broken = s.modAge (fun a => { a with lanes := tset a.lanes i (laneSampled margin base broken) }) :=
  if_neg fun ⟨bad, was⟩ => known.elim (fun reads => by simp [reads] at bad) (fun marked => by simp [marked] at was)

/-- A lane that becomes bad raises source 8 of block 0x37 as well. -/
theorem State.charSample_laneBad {i margin base : Nat} {broken : Bool} (bad : broken = true) (was : (tget {} s.age.lanes i).bad = false) :
    s.charSample 1 i margin base broken =
      (s.modAge (fun a => { a with lanes := tset a.lanes i (laneSampled margin base broken) })).raiseAt 0x37 8 :=
  if_pos ⟨bad, by simp [was]⟩

/-- A memory channel that reads has its record replaced. -/
theorem State.charSample_channel {i margin base : Nat} {broken : Bool} (reads : broken = false) :
    s.charSample 2 i margin base broken = s.modAge (fun a => { a with ddr := tset a.ddr i (laneSampled margin base broken) }) :=
  if_neg (by simp [reads])

/-- In a stable start of the full firmware a replan runs the plan. -/
theorem State.replan_runs {m : PlanMeas} (ready : s.ember.fwReady = true) (full : s.ember.smoulder = false)
    (stable : s.boot.stableWait = false) : s.replan m = s.planAll m :=
  if_neg (by simp [ready, full, stable])

end

/-! ## Self-test (R530 to R532) -/

/-- The block's record once a test of it ends, with result `r`. -/
def Bist.ended (t : Bist) (r mM lM ms : Nat) : Bist :=
  { t with st := if r ≤ 2 then 0 else 2, result := r, mMisr := if bit t.kind 0 then BitVec.ofNat 32 mM else t.mMisr,
           lMisr := if bit t.kind 1 then BitVec.ofNat 32 lM else t.lMisr, lastMs := ms % 2 ^ 32, runs := sat 65535 t.runs 1,
           fails := sat 65535 t.fails (b2n (!decide (r ≤ 2))), handle := 0 }

/-- A logic test that ends leaves its result; the block returns with OK where it passed, else source 1 is raised. -/
theorem State.bistDone_logic {s : State} {b mM lM repairs ms : Nat} {spare : Bool} (testing : (s.bistOf b).st = 1)
    (plane : blockKind b ≠ .plane) (logic : (s.bistOf b).kind = 2) :
    s.bistDone b mM lM repairs spare ms =
      let r := s.bistResult b 2 mM lM repairs spare
      let s1 := (s.modBist b (fun t => t.ended r mM lM ms)).bistReset b
      if r ≤ 2 then (s1.bistReturn b).endHandle (s.bistOf b).handle rcOk
      else (s1.raiseAt 0x37 1).endHandle (s.bistOf b).handle rcHwFault := by
  have memoryUnnamed : bit 2 0 = false := by decide
  simp only [State.bistDone, testing, plane, logic, memoryUnnamed, Bist.ended, ne_eq, not_true, false_and, or_self, if_false,
    Bool.false_eq_true, decide_eq_true_eq]

section
variable {w : Who} {q : Req} {s : State}

/-- BIST_RUN of a block that is ready opens a handle and begins the test. -/
theorem cmdBistRun_begins (kind : bistKind (q.u8 0x20) = true) (low : 1 ≤ q.u8 0x21) (high : q.u8 0x21 ≤ 3) (rsvd : q.zero 0x22 2 = true)
    (idle : (s.bistOf (q.u8 0x20)).st ≠ 1) (ready : s.bistReady (q.u8 0x20) = rcOk) (few : s.inTest.length < 8)
    (plane : blockKind (q.u8 0x20) ≠ .plane) (room : s.handleFree w.caller = true) :
    cmdBistRun.body w q s =
      let h := s.newHandle w.caller 0x0B00
      pend (h.2.bistBegin (q.u8 0x20) (q.u8 0x21) h.1) h.1 := by
  have noConflict : rcOk ≠ rcConflict := by decide
  simp [cmdBistRun, firstBad, kind, low, high, rsvd, idle, ready, Nat.not_le.mpr few, plane, room, noConflict]

/-- BIST_GET of a block answers 32 bytes. -/
theorem cmdBistGet_reports (block : q.u8 0x20 < 64) (rsvd : q.zero 0x21 3 = true) :
    ∃ d, d.length = 32 ∧ cmdBistGet.body w q s = ok s d := by
  simp only [cmdBistGet, firstBad, block, rsvd, decide_true, if_true]
  exact ⟨_, by simp only [List.length_append, leBytes_length], rfl⟩

/-! ## Lifecycle (R526 to R529) -/

/-- LC_ADVANCE, allowed, burns PRODUCTION and pends a warm reset, unless the fuses fail. -/
theorem cmdLcAdvance_burns (key : q.u32 0x20 = 0xA5C3) (factory : s.lifecycle = 0) (mode : s.boot.straps.testMode = false) :
    cmdLcAdvance.body w q s =
      if s.freeBit.1 then { status := rcHwFault, s := s.freeBit.2 }
      else ok ((s.freeBit.2.modBoot (fun b =>
        { b with nextLifecycle := some 1, pendingReset := some 1 })).modKept (fun k => { k with bkp1 := 0 })) := by
  have allowed : ¬ (s.lifecycle ≠ 0 ∨ s.boot.straps.testMode = true) := by simp [factory, mode]
  exact (if_neg (not_not.mpr key)).trans (if_neg allowed)

/-- RMA_CHALLENGE in PRODUCTION answers a free nonce and the serial number. -/
theorem cmdRmaChallenge_challenges (production : s.lifecycle = 1) (few : s.ember.rmaRejects < 3) :
    cmdRmaChallenge.body w q s =
      let n := s.freeNat.1 % 2 ^ 256
      ok (s.freeNat.2.modEmber (fun e => { e with rmaNonce := some n })) (leBytes 32 n ++ leBytes 16 Config.serial.toNat) := by
  have allowed : ¬ (s.lifecycle ≠ 1 ∨ 3 ≤ s.ember.rmaRejects) := by omega
  exact if_neg allowed

/-- RMA_UNLOCK with the token's fields as they must be burns RMA where the signature proves it and the fuses hold. -/
theorem cmdRmaUnlock_judges (production : s.lifecycle = 1) (magic : q.u32 0x20 = 0x4B56524D) (rsvd : q.zero 0x24 12 = true)
    (serial : q.field 16 0x30 = Config.serial.toNat) (nonce : s.ember.rmaNonce = some (q.field 32 0x40)) :
    cmdRmaUnlock.body w q s =
      let used := s.modEmber (fun e => { e with rmaNonce := none })
      if Config.rmaSigned (q.bytes 0x20 64) (q.bytes 0x60 96) = false then { status := rcDenied, s := used.rmaReject }
      else if used.freeBit.1 then { status := rcHwFault, s := used.freeBit.2 }
      else ok ((used.freeBit.2.modBoot (fun b =>
        { b with nextLifecycle := some 2, pendingReset := some 1 })).modKept (fun k => { k with bkp1 := 0 })) := by
  simp [cmdRmaUnlock, firstBad, production, magic, rsvd, serial, nonce]

end

/-- Settles O55: the events are their operations while the die is up, and a command Ember serves leaves what its body answers. -/
theorem testAndAgeingTakeEffect : Obligations.TestAndAgeingTakeEffect := by
  unfold Obligations.TestAndAgeingTakeEffect
  refine ⟨?sample, ?plan, ?done, ?run, ?get, ?advance, ?challenge, ?unlock⟩
  case sample =>
    intro s i margin base broken up
    exact ⟨fun known => State.onDie_up_eq up (State.charSample_lane known),
      fun bad was => State.onDie_up_eq up (State.charSample_laneBad bad was),
      fun reads => State.onDie_up_eq up (State.charSample_channel reads)⟩
  case plan =>
    intro s m up
    exact ⟨fun ready full stable => State.onDie_up_eq up (State.replan_runs ready full stable), State.onDie_up up _⟩
  case done =>
    intro s b mM lM repairs ms spare up testing plane logic
    have ends := State.bistDone_logic (mM := mM) (lM := lM) (repairs := repairs) (ms := ms) (spare := spare) testing plane logic
    exact ⟨fun passed => State.onDie_up_eq up (ends.trans (if_pos passed)),
      fun failed => State.onDie_up_eq up (ends.trans (if_neg (Nat.not_le.mpr failed)))⟩
  case run =>
    intro s c p q served kind low high rsvd idle ready few plane _ room
    exact served.answers (cmdBistRun_begins kind low high rsvd idle ready few plane room)
  case get =>
    intro s c p q served block rsvd
    exact served.reports (cmdBistGet_reports block rsvd)
  case advance =>
    intro s c p q served key factory mode
    exact served.answers (cmdLcAdvance_burns key factory mode)
  case challenge =>
    intro s c p q served production few
    exact served.answers (cmdRmaChallenge_challenges production few)
  case unlock =>
    intro s c p q served production magic rsvd serial nonce
    exact served.answers (cmdRmaUnlock_judges production magic rsvd serial nonce)

end Sys2Proof.Machine
end
